-- ==== Sys2Proof/Word.lean ====
section
/-! DEFINITION. The word types of the part's register interface, and nothing else. -/

namespace Sys2Proof

/-- A register word: BAR0 registers are 32 bits wide (R49). -/
abbrev Word := BitVec 32

/-- A 64-bit register or value (R55). -/
abbrev Dword := BitVec 64

/-- One byte of the field address space (R14). -/
abbrev Byte := BitVec 8

end Sys2Proof
end

