-- ==== Sys2Proof/Syntax.lean ====
section
/-! DEFINITION. The commands the part takes from outside (spec/opcode_table.json): one constructor per row, with the
row's operands and whatever the world shows the part in that command (a received frame's fields, a level, a meter
reading, a result of a check the part's rules only name). -/

namespace Sys2Proof

/-- What the boot ROM's checks find in one bank's image pair (R35): whether both images are there, their signatures and
stepping lists hold, and the levels they carry. -/
structure ImagePair where
  present : Bool
  hmiSig : Bool
  fmiSig : Bool
  hmiStep : Bool
  fmiStep : Bool
  hmiMajor : Nat
  hmiMinor : Nat
  fmiMajor : Nat
  fmiMinor : Nat
  minMajor : Nat
  minMinor : Nat
  deriving DecidableEq, Repr

/-- What the two compare inputs of a channel receive around a vector (R160): the ball levels of CMPH and CMPL before the first
listed edge, and the edges as (instant in ET from the vector's start, is it CMPH's). Calibrated offset and common latency are taken
off (log 13). -/
structure ChanWave where
  ch : Nat
  high : Bool
  low : Bool
  edges : List (Int × Bool)
  deriving DecidableEq, Repr

/-- A command, as the table names it. In the operands `req` is the requester of a register access (0 the PCI Express endpoint, 1 the host
TAP, 2 the field TAP), `addr` and `a` a BAR0 byte address, `page` and `p` of `stagedConfigApply` the address of a page, `v` or `val` the word
written; `q` a sequencer or a queue, `d` a desk, `n` a unit, channel or lane, `b` a bus, list or Bell, `c` a channel, controller or counter,
`l` a link (0 Satchel field end, 1 East, 2 West, 3 Satchel host end), `p` a ring port (0 East, 1 West), `et` an instant in ET, `m` a
reading of the energy meter in µJ, `ecc` 0 good, 1 corrected, 2 uncorrectable. Each constructor's text is its row's summary. -/
inductive Instr where
  /-- R4: Reading word 0 of a 112-bit time register latches words 1 to 3 of the same value for that requester. -/
  | timeRegWord0Read (req addr : Nat)
  /-- R4: A write to word 0, 1 or 2 of a time register is staged for that requester until word 3 is written. -/
  | timeRegStageWrite (req addr : Nat) (v : Word)
  /-- R4: A write to word 3 commits all four words together; the commit is refused if NS exceeds 999,999,999. -/
  | timeRegCommit (req addr : Nat) (v : Word)
  /-- R55: Reading the low half of a 64-bit register copies the high half into the requester's latch. -/
  | reg64LowRead (req addr : Nat)
  /-- R56: Writing the low half of a 64-bit register stores it in a staging word and leaves the register unchanged. -/
  | reg64LowWrite (req addr : Nat) (v : Word)
  /-- R56: Writing the high half commits it, together with the staged or current low half, in one fabric cycle. -/
  | reg64HighWrite (req addr : Nat) (v : Word)
  /-- R7: A write to a register that has no row of its own sets its fields according to their access types. -/
  | registerWrite (req addr : Nat) (v : Word) (enables : Nat)
  /-- R7: A read of an RC field returns its value and then clears it. -/
  | rcRead (req addr : Nat)
  /-- R57: Writing 1 to EV_PEND bits clears pending events and latched EV_RAW bits, and may request an interrupt. -/
  | evPendClear (req page : Nat) (v : Word)
  /-- R62: A write to EV_EN that leaves pending-and-enabled non-zero requests an interrupt. -/
  | evEnWrite (req page : Nat) (v : Word)
  /-- R59: Writing 1 to an EV_TEST bit is one occurrence of that event: it sets EV_PEND and sends one Corridor pulse. -/
  | evTestWrite (req page : Nat) (v : Word)
  /-- R54: Writing 1 to PG_CTRL.SRST aborts the page's operations and starts the page soft reset. -/
  | pageSrst (req page : Nat) (v : Word)
  /-- R54: The soft reset completes within 64 fabric cycles; RW and W1C fields return to reset values and READY returns to 1. -/
  | pageSrstDone (page : Nat)
  /-- R62: Unmasking a vector or the function sends one MSI-X message if the vector's pending bit is still set. -/
  | msixUnmask (vector : Option Nat)
  /-- R306: Every 800 fabric cycles a new 1 µs storm window starts and every input's window count restarts. -/
  | stormWindowBoundary
  /-- R264: At each 1 µs boundary the Bursar adds AVAIL_W to the pool and recomputes EFF_W, FIXED_W and AVAIL_W. -/
  | bursarInterval
  /-- R275: Every 1 ms the Bursar sets the thermal target from T_max and moves THERM_W towards it by at most RAMP. -/
  | thermalTargetStep
  /-- R455: Every 100 µs the field-side sensors and TEMP_NOW are sampled, and the new readings take effect. -/
  | sensorSample (readings : List (Nat × Nat)) (coreMv core10mA fieldP : Nat)
  /-- R260: A Timetable tick (10 ns, or 100 ns with the fast clocks stopped) in which due delay-list entries become ready to fire. -/
  | timetableTick
  /-- R413: Every 100 ns FIELD_12V_SENSE is compared with the pruning thresholds, and a deeper stage is entered after 4 ticks below its level.
  -/
  | alwaysOnTick (senseMv rails : Nat)
  /-- R30: A write to GLB.MODE_REQ requests a mode transition, which is refused or becomes pending until quiescence. -/
  | modeReq (target : Nat)
  /-- R32: A MODE_REQ write with ABORT = 1 aborts the running operations that the target mode forbids. -/
  | modeReqAbort (target : Nat)
  /-- R31: When the last operation that the target mode forbids has ended, the pending transition runs. -/
  | modeQuiescence
  /-- R40: 10 µs after quiescence the Recess entry completes: MODE reads RECESS and PRIOR holds the mode to return to. -/
  | recessEntryDone
  /-- R41: A delay-list entry on an enabled time base comes within WAKE_AHEAD of its time in RECESS and starts the exit. -/
  | recessWakeDue (tb : Nat)
  /-- R41: 25 µs into a Recess exit the PLLs are locked and the 15 µs fine re-lock begins. -/
  | recessPllLocked
  /-- R41: When the fine re-lock completes, MODE changes to PRIOR and WAKE is raised. -/
  | recessExitDone
  /-- R43: A host access to a field page outside the always-on domain in RECESS is either held and wakes the part, or is refused. -/
  | hostAccessInRecess (req addr : Nat) (write : Bool) (val : Word)
  /-- R46: A write of GLB.AUTO_CFG sets AUTO_EN and copies it to the field side. -/
  | autoCfgWrite (val : Word)
  /-- R46: The field end sees the loss of the Satchel link, treats it as loss of the host, and moves to READY or AUTONOMOUS. -/
  | fieldSatchelLoss
  /-- R39: A keyed RESET_CTRL write with PART resets both sides and restarts the boot ROM. -/
  | resetCtrlPart (key : Nat) (bankA bankB : ImagePair)
  /-- R12: A keyed RESET_CTRL write with FIELD resets the field side only. -/
  | resetCtrlField (key : Nat)
  /-- R36: A keyed RESET_CTRL write with BANK_SWITCH and PART makes the next boot try the non-preferred bank first, once. -/
  | resetCtrlBankSwitch (key : Nat) (bankA bankB : ImagePair)
  /-- R12: POWER_GOOD of one side goes low, and that side is held. -/
  | powerGoodFall (field : Bool)
  /-- R441: POWER_GOOD of one side rises once its rails are in range. -/
  | powerGoodRise (field : Bool)
  /-- R12: RESET_N of one side goes low, and that side is held without resetting the other side. -/
  | resetNAssert (field : Bool)
  /-- R12: Field-side reset is released and the field PLLs start to lock. -/
  | fieldResetRelease
  /-- R358: The supplies are lost; the part goes OFF, the pins are held by fail-safe bias and the bypass closes. -/
  | supplyLoss (field : Bool)
  /-- R36: Release of the host RESET_N starts the boot ROM, which checks the image pair of the preferred bank, then the other bank once. -/
  | hostResetRelease (bankA bankB : ImagePair)
  /-- R199: The field PLLs first lock after field reset, and the beat count starts at 0. -/
  | fieldPllLocked
  /-- R37: The FMI has crossed the Satchel and the field boot ROM checks it, starting it or sending the part to DETENTION. -/
  | fmiReceived (accepted : Bool)
  /-- R240: Training of a DDR5 channel or HBM3E stack ends, and its result is recorded in TRAIN_STAT. -/
  | memTrainingDone (c : Nat) (geom : Word) (registered : Bool) (result ms repaired spd trfc : Nat) (fenced : List Nat)
  /-- R34: The FMI finishes initialisation and reports READY, from which field pages become accessible. -/
  | bootComplete (ms : Nat) (meas : List (Nat × List Byte))
  /-- R70: A write to an RW field of a CHN or DSK page is applied at once, or staged while a named sequencer runs a burst. -/
  | chnDskConfigWrite (req a : Nat) (v : Word)
  /-- R70: A staged CHN, DSK or SLICE_CFG value is applied in the first fabric cycle in which no named sequencer runs a burst. -/
  | stagedConfigApply (p : Nat)
  /-- R76: 2 µs after PE_OFF is applied as 0, PE_ON reads 1 and the cluster's channels leave the FUNC = OFF behaviour. -/
  | peClusterPowerUpDone (d : Nat)
  /-- R81: PEC_CTRL.START begins an SPI mode 0 transfer on a PE_CTL bus, or is refused with BAD_CFG. -/
  | pecStart (b : Nat) (v : Word)
  /-- R83: PEC_CTRL.ABORT stops the transfer at the next byte boundary, or gives ABORT_NOOP in or after the commit cycle. -/
  | pecAbort (b : Nat) (v : Word)
  /-- R83: The chip select deasserts at the end of a PE_CTL transfer, and RX and the result are written. -/
  | pecTransferEnd (b : Nat) (rx : List Byte)
  /-- R87: A commit of a timeset entry is applied at once, or staged while its sequencer runs a burst. -/
  | timesetCommit (req q t : Nat) (v : Word)
  /-- R132: A write to a jump-table entry or MATCH mask is applied at once, or staged during a burst. -/
  | seqPage2Write (req a : Nat) (v : Word)
  /-- R87: Staged timesets or page-2 values are applied in the first fabric cycle in which the sequencer runs no burst. -/
  | stagedSeqConfigApply (q : Nat)
  /-- R91: A commit of a waveform edge slot is accepted, or refused if its TYPE is reserved, and is staged under R70. -/
  | edgeSlotCommit (req n k : Nat) (v : Word)
  /-- R125: A direct START is checked and accepted into ADMIT, or fails at once with DESC_ERR or NO_FIT. -/
  | burstCtrlStart (q : Nat) (v : Word)
  /-- R127: A STOP in RUN sets stop_pending for the next on-time commit point; in ADMIT or ARMED it acts as ABORT. -/
  | burstCtrlStop (q : Nat) (v : Word)
  /-- R128: An ABORT registered before the commit cycle aborts the burst; a later one gives ABORT_NOOP. -/
  | burstCtrlAbort (q : Nat) (v : Word)
  /-- R120: A write to JMP_REQ requests a jump-table entry, which is placed in the slot, deferred or discarded. -/
  | jmpReqWrite (q : Nat) (v : Word)
  /-- R145: When Bursar admission and residency of the admission set, pinned heads and lead are all met, the burst leaves ADMIT for ARMED. -/
  | burstAdmissionComplete (q : Nat)
  /-- R125: The start S of the burst is reached, and the burst enters RUN with its first vector. -/
  | burstSReached (q : Nat)
  /-- R123: A segment instance starts at S, pulsing its TRIG_OUT balls and raising SEGSTART if enabled. -/
  | segmentStart (q : Nat)
  /-- R111: At a segment instance's commit point the sequencer finally decides the successor: stop, jump or end action. -/
  | commitPoint (q : Nat)
  /-- R124: A segment descriptor arrives on the die and is checked under R107. -/
  | descriptorArrival (q i : Nat)
  /-- R116: 120 ns after a MATCH iteration ends, its match result becomes available for later commit points. -/
  | matchResultReady (q : Nat)
  /-- R151: A granule is judged available or missing in the fabric cycle of its first vector, giving output, a stretch or a halt. -/
  | granuleJudge (q : Nat)
  /-- R78: At the end of the last vector output, the channels enter their park states within 2 beats. -/
  | parkPoint (q : Nat)
  /-- R130: When all results are committed, the burst leaves PARK: BURST_END, RESULT and report-card entries follow. -/
  | parkComplete (q m : Nat)
  /-- R140: A block fetched by a refill engine arrives in its decanter slice. -/
  | refillBlockArrival (d ecc : Nat)
  /-- R148: The stager completes a copy of cellar vector data into the near-store staging ring, raising STAGE_FILL. -/
  | stagerBlockCopy (q : Nat)
  /-- R138: A write of DEC[0].FLUSH invalidates retained blocks, deferred for slices of a running burst. -/
  | decFlushWrite (v : Word)
  /-- R164: 120 ns after a vector ends its verdicts are formed and counted, logged and folded into signatures. -/
  | verdictsFormed (q : Nat) (waves : List ChanWave)
  /-- R170: A fail-log record's write to the near store completes and LOG_WR advances past it. -/
  | failLogRecordWritten
  /-- R170: A write to a ring read pointer returns space if its value lies from the current read pointer to the write pointer. -/
  | ringReadPointerWrite (req addr : Nat) (v : Word)
  /-- R170: A written ring base or size takes effect once the ring's writers are idle, and both pointers read 0. -/
  | ringReconfigApply (ring : Nat)
  /-- R173: A level-capture block is written to its row of the capture area. -/
  | captureBlockWritten (d : Nat)
  /-- R175: A change of level code on a watched channel is recorded, merged or dropped by edge capture. -/
  | ecapTransition (i et prev code : Nat)
  /-- R175: An edge-capture record is written to its ring and ECAP_WR advances. -/
  | ecapRecordWritten (i : Nat)
  /-- R178: A held soft reset of a CMP page takes effect once no sequencer runs a burst, clearing counters and queuing RESYNC. -/
  | cmpSrstApply (h : Nat)
  /-- R188: A held soft reset of a SIG page takes effect once the desk's sequencer runs no burst, resetting contexts and queuing RESYNC. -/
  | sigSrstApply (d : Nat)
  /-- R191: A write to FEED_B folds one byte into the check unit, or is refused during a run. -/
  | chkFeedB (n : Nat) (v : Word)
  /-- R191: A write to FEED_H folds two bytes, least significant first, or is refused during a run. -/
  | chkFeedH (n : Nat) (v : Word)
  /-- R191: A write to FEED_W folds four bytes, least significant first, or is refused during a run. -/
  | chkFeedW (n : Nat) (v : Word)
  /-- R195: RUN_CTRL.LOAD_INIT sets RUN to INIT, unless a run is active. -/
  | chkLoadInit (n : Nat) (v : Word)
  /-- R193: RUN_CTRL.CHECK forms RESULT, compares it with EXPECT and raises MATCH or MISMATCH. -/
  | chkCheck (n : Nat) (v : Word)
  /-- R191: RUN_CTRL.START begins a run folding LEN bytes from SRC through the FLW port, after Bursar admission. -/
  | chkStart (n : Nat) (v : Word)
  /-- R194: RUN_CTRL.ABORT before the commit cycle ends the run ABORTED and restores RUN; later it gives ABORT_NOOP. -/
  | chkAbort (n : Nat) (v : Word)
  /-- R194: The last byte of a run is folded, and the run ends DONE with an optional compare. -/
  | chkRunCommit (n m : Nat)
  /-- R192: A write to a check unit's CFG, POLY, INIT, XOROUT, EXPECT, RUN, SRC or LEN, discarded while a run is active. -/
  | chkRegWrite (req addr : Nat) (v : Word)
  /-- R204: An edge on an enabled TDC input is detected and placed in the FIFO, or is counted as lost. -/
  | tdcInputEdge (src et : Nat) (rising : Bool)
  /-- R210: CTRL.START of an engine reads its configuration and enters ADMIT, or is refused with BAD_CFG. -/
  | tdcStart (e : Nat) (v : Word)
  /-- R212: CTRL.STOP lets the measurement in progress finish and then ends the run STOPPED. -/
  | tdcStop (e : Nat) (v : Word)
  /-- R212: CTRL.ABORT before the commit cycle discards the measurement in progress and ends the run ABORTED. -/
  | tdcAbort (e : Nat) (v : Word)
  /-- R203: A TDC result record is written to the shared ring. -/
  | tdcRecordWritten (e m : Nat)
  /-- R206: No stop or awaited edge arrives within TMO beats, and a record with VALID = 0 and OVF = 1 is written. -/
  | tdcTimeout (e : Nat)
  /-- R208: A gate of a gated mode reaches its end, and its FREQUENCY, TOTALIZE or PHASE record is formed. -/
  | tdcGateEnd (e : Nat)
  /-- R199: The 48-bit beat count wraps to 0 and COARSE_WRAP occurs. -/
  | coarseCountWrap
  /-- R213: The oven has held its temperature within ±0.1 °C for 10 s, and OCXO_WARM sets. -/
  | ocxoWarmReached
  /-- R213: The oven leaves ±0.5 °C of its set temperature, and OCXO_WARM clears. -/
  | ocxoRegulationLost
  /-- R214: A write of REF_CFG.SEL that differs from the reference in use requests a reference switch. -/
  | refSelWrite (v : Word)
  /-- R214: The reference switch is applied once no burst or engine run is active, and SWITCHING reads 1 for 40 µs. -/
  | refSwitchApply
  /-- R214: 40 µs after the switch, the re-lock is complete and REF_SWITCHED occurs. -/
  | refSwitchDone
  /-- R215: After 10 µs of edges in band, REF_IN counts as present. -/
  | refInDetected
  /-- R215: After 100 ns without an edge, REF_IN is lost; if in use, the PLLs switch to the oscillator and a fine re-lock follows. -/
  | refInLoss
  /-- R216: At each gate end a frequency counter writes its count to FC_COUNT. -/
  | fcGateEnd (i : Nat)
  /-- R216: A write to FC_GATE or FC_SEL starts new gates in all enabled counters. -/
  | fcConfigWrite (req addr : Nat) (v : Word)
  /-- R227: A port presents a 64 B request to a controller, which decodes it and admits it when tokens and queue room allow. -/
  | portRequest (port addr : Nat) (write : Bool) (off : Nat) (data : List Byte)
  /-- R228: The controller issues a queued read or write to the memory under its read-first, row-hit and drain rules. -/
  | memoryIssue (c u ecc : Nat)
  /-- R238: A read returns from memory, corrected or marked uncorrectable under the check code. -/
  | memoryReadComplete (c u ecc : Nat)
  /-- R230: At every tREFI a rank's or pseudo-channel's owed refresh count rises by 1, possibly forcing a REFab. -/
  | trefiTick (c u r : Nat)
  /-- R230: A refresh completes and lowers the owed count by 1. -/
  | refreshComplete (c u r : Nat) (bank : Option Nat)
  /-- R230: 64 fabric cycles after the last real-time request completes, a rank is no longer held by a real-time burst. -/
  | realtimeHoldEnd (c u r : Nat)
  /-- R232: Every 32 ms the DIMM and stack temperatures are read, and tREFI halves or returns. -/
  | dramTempPoll (c : Nat) (t0 t1 : Int)
  /-- R233: Once queues are drained and owed counts are not positive, the memories enter self-refresh. -/
  | selfRefreshEntry (c : Nat)
  /-- R233: On exit the memories leave self-refresh within the fine re-lock, and owed counts restart at 0. -/
  | selfRefreshExit (c : Nat)
  /-- R225: A commit of MAP_MASK is refused or staged until the store is quiet. -/
  | mapMaskCommit (req : Nat) (near : Bool) (k : Nat) (v : Word)
  /-- R225: A staged map mask is applied in the first cycle with no request or write queued in the store. -/
  | mapApply (near : Bool)
  /-- R239: The scrubber reads one access in a spare bus slot and corrects what it finds. -/
  | scrubAccess (c a ecc : Nat)
  /-- R234: A write of a port regulator's REG_CFG sets its rate and size and fills its bucket. -/
  | regCfgWrite (near : Bool) (p : Nat) (v : Word)
  /-- R243: A write to a task image word is applied if the slot is IDLE, and otherwise fails with cause STATE. -/
  | taskImageWrite (w : Nat) (v : Word)
  /-- R258: A queue entry SUBMIT writes an IDLE slot's image and arms it. -/
  | taskSubmit (q : Nat)
  /-- R244: ARM checks the image and moves an IDLE slot to WAIT with RUNS_LEFT = RUNS. -/
  | taskArm
  /-- R244: DISARM returns a WAIT or READY task to IDLE, or makes a RUN or HOLD task go to IDLE after completion. -/
  | taskDisarm
  /-- R246: ADD adds AMOUNT to a named input counter of a slot. -/
  | taskAdd (n amount : Nat)
  /-- R255: ABORT acts by task state: to IDLE, withdrawn from READY, or passed to the executor as its abort. -/
  | taskAbort
  /-- R421: CLEAR sets every counter of an IDLE slot to 0 and adds the amounts to DISCARD_TOTAL. -/
  | taskClear
  /-- R257: A push copies the staging words into a submission queue, taking a credit, or is refused. -/
  | sqPush (q : Nat)
  /-- R247: The matching store applies up to 8 waiting arrivals in its fixed order, whole or not at all. -/
  | arrivalApply
  /-- R252: A ready candidate is dispatched to its executor; its counters are reduced by their thresholds and it enters RUN. -/
  | taskDispatch
  /-- R254: A task completes in the cycle its executor ends; its outcome is recorded and its completion is offered as an arrival. -/
  | taskComplete (i m : Nat)
  /-- R250: Each millisecond in READY raises a task's effective priority by 1, up to 7. -/
  | taskAgeStep (i : Nat)
  /-- R259: INSERT places the staged entry in a delay list, or refuses it FULL, BAD or LATE. -/
  | dlInsert (b : Nat)
  /-- R261: CANCEL removes every unfired entry whose tag equals DL_TAG. -/
  | dlCancel (b : Nat)
  /-- R261: CANCEL_ALL empties the delay list. -/
  | dlCancelAll (b : Nat)
  /-- R260: A due delay-list entry fires as an ADD arrival or a DL_FIRE pulse, one per list per cycle. -/
  | delayEntryFire (b : Nat)
  /-- R269: Each cycle the Bursar admits at most one candidate, the head or a bypassing one that fits, and charges its energy. -/
  | bursarAdmit
  /-- R286: A flow step starts by direct STEP_CTRL.START or dispatch and reads its node, limit and bin entries. -/
  | flowStepStart
  /-- R286: STEP_CTRL.ABORT before the commit cycle ends the step ABORTED with no effect; later it gives ABORT_NOOP. -/
  | flowStepAbort
  /-- R288: An OPEN step commits: it takes an insertion slot, opens cards, sets SITE_EN bits and queues an OPEN record. -/
  | flowOpenCommit
  /-- R289: A LIMIT step commits each site's result against its limit and sets pending bins and drops. -/
  | flowLimitCommit
  /-- R290: A BIN step commits each site's bin and may close the insertion. -/
  | flowBinCommit
  /-- R292: A step's post enters the matching store as an ARM or ADD command, waiting while it would saturate. -/
  | flowPost
  /-- R297: At each GAP interval the handler sequence gives the HND_OUT occurrences of the next site's soft bin. -/
  | handlerSiteStep
  /-- R295: The datalog writer writes a queued record to the ring, at most one per two fabric cycles. -/
  | dlogRecordWritten
  /-- R302: A pulse reaches the Corridor after hop 1 and is routed by the selectors in force. -/
  | corridorPulseArrive
  /-- R305: A routed pulse reaches a consumer input and is delivered or refused. -/
  | consumerPulse (i : Nat)
  /-- R307: A write to SEL[i] sets its source, clears the gate and restarts the input's window count. -/
  | selectorWrite (i : Nat) (v : Word)
  /-- R308: A matching edge on GPE_IN[k] becomes an occurrence of the GPE_IN[k] event after 2 fabric cycles. -/
  | gpeInEdge (k : Nat) (rising : Bool)
  /-- R311: A GPE_IN edge during RECESS either starts an exit as the wake source or is counted in RECESS_EDGES. -/
  | gpeInRecessEdge (k : Nat) (rising : Bool)
  /-- R309: WIDTH fabric cycles after its last pulse, a PULSE-mode GPE_OUT ball returns low. -/
  | gpeOutPulseEnd (k : Nat)
  /-- R309: A write of GPE_OUT_MODE sets each changed ball to its new mode's level. -/
  | gpeOutModeWrite (v : Word)
  /-- R316: ITEM_CTRL.START accepts a calibration item, reserving a slot, or ends it with BAD_ITEM or NO_SLOT. -/
  | itemStart
  /-- R318: An abort before the item's commit cycle ends it ABORTED and frees its slot; later it gives ABORT_NOOP. -/
  | itemAbort
  /-- R318: The item's vintage is complete in its slot and becomes the newest. -/
  | itemCommit (meas : List (Nat × List Byte)) (trips : List (Nat × Int × Bool)) (m : Nat)
  /-- R317: A calibration item returns a TDC engine it took, within 6 ms, and a run waiting on it may proceed. -/
  | calEngineRelease (e : Nat)
  /-- R322: A desk adopts the newest vintage in the first cycle in which its sequencer runs no burst. -/
  | deskAdoptVintage (d : Nat)
  /-- R321: A write to SLOT_FLAGS sets KEEP and SAVE of a vintage slot. -/
  | slotFlagsWrite (i : Nat) (v : Word)
  /-- R323: The FMI copies the compact part of a SAVE slot to the flash vintage region, replacing the oldest copy. -/
  | vintageFlashSave (i : Nat)
  /-- R343: A write of LANE_CTRL.DISABLE = 1 re-stripes the lane out of its map and turns it OFF, unless that would empty a direction. -/
  | laneDisableWrite (req n : Nat) (v : Word)
  /-- R343: A write of LANE_CTRL.RETRAIN = 1 re-stripes the lane out of its map and sends it to TRAIN. -/
  | laneRetrainWrite (req n : Nat) (v : Word)
  /-- R328: Far-end termination and incoming signal have been seen for 1 µs, and the lane enters TRAIN. -/
  | laneDetect (n : Nat)
  /-- R329: A TS set carries an equaliser request that the transmitter applies within 1 µs and echoes. -/
  | tsReceived (n : Nat) (set : List Byte)
  /-- R329: A 48 µs training trial ends; the setting passes to LOCK, or the search continues or the lane is DEAD. -/
  | trainTrialEnd (n w h : Nat)
  /-- R328: A lane in LOCK achieves bit and symbol lock and enters CAPS. -/
  | laneSymbolLock (n : Nat)
  /-- R328: No symbol lock within 100 µs of LOCK counts as a failed trial, and the lane returns to TRAIN. -/
  | lockTimeout (n : Nat)
  /-- R331: A CAPS set from the far end is checked for major and link type, and the lane may join the map. -/
  | capsReceived (n : Nat) (set : List Byte) (skew : Nat)
  /-- R334: 4 code violations in 64 symbol times, or loss of signal, drops the lane from its map into TRAIN. -/
  | laneLockLoss (n violations : Nat)
  /-- R335: A frame arrives on a link and is accepted in order with good CRC, or discarded with a NAK. -/
  | laneFrameReceived (l : Nat) (sof : List Byte) (lanes : List (List Byte)) (eof : List Byte)
  /-- R335: An ACK frees acknowledged frames from the replay buffer; a NAK starts a replay. -/
  | ackReceived (l : Nat) (set : List Byte)
  /-- R335: No ACK for 10 µs with frames unacknowledged, and the transmitter sends again from the last acknowledged frame. -/
  | replayTimeout (l : Nat)
  /-- R336: A STRIPE set starts a re-stripe: the transmitter ends its frame with EDB and sends IDLE on the new map. -/
  | stripeReceived (l : Nat) (set : List Byte)
  /-- R424: An AUDIT set sets available credits to FREE and rewinds the replay to the frame after GOOD. -/
  | auditReceived (l : Nat) (set : List Byte)
  /-- R424: No LAST AUDIT within 2 µs, and the end sends its whole exchange again. -/
  | auditTimeout (l : Nat)
  /-- R336: After deskew and AUDIT, frames resume on the new map from the last good sequence. -/
  | restripeComplete (l : Nat) (skews : List (Nat × Nat))
  /-- R339: Enough lanes have been in CAPS for 1 ms to reach the next width, and a WIDEN re-stripe starts. -/
  | widenTimerExpire (l : Nat)
  /-- R340: 1,024 symbol times would pass without frame data, and the transmitter sends FILLER in place of IDLE. -/
  | fillerDue (l : Nat)
  /-- R341: A received IDLE set increases the lane's IDLE_RUN count. -/
  | idleSetReceived (n : Nat)
  /-- R341: A FILLER set or frame data resets IDLE_RUN and returns a FROZEN lane to ACTIVE. -/
  | fillerReceived (n : Nat)
  /-- R341: IDLE_RUN reaches 4,096, and the lane freezes its adaptation and enters FROZEN. -/
  | laneFreeze (n : Nat)
  /-- R342: A SLEEP lane without symbol lock 20 µs after the fast clocks return enters TRAIN. -/
  | sleepLockTimeout (n : Nat)
  /-- R344: DIAG_CTRL.START begins an EYE or PRBS diagnostic in DIAGNOSE, or it is refused. -/
  | diagStart (n : Nat) (v : Word)
  /-- R344: A diagnostic ABORT before the commit cycle gives ABORTED; later it gives ABORT_NOOP. -/
  | diagAbort (n : Nat) (v : Word)
  /-- R344: A diagnostic checks its last bit, and DIAG_BITS and DIAG_ERRORS are written. -/
  | diagComplete (n errors : Nat)
  /-- R353: A ring frame not taken here is forwarded cut-through, wrapped or removed. -/
  | ringFrameForward (p : Nat) (body : List Byte)
  /-- R352: A CREDIT frame returns credits for the link. -/
  | creditFrameReceived (p crEvent crMgmt crData : Nat)
  /-- R352: Credit returns have waited 200 ns, and a CREDIT frame is sent. -/
  | creditReturnTimer (p : Nat)
  /-- R373: An EXPORT frame taken here raises RING_EV[c] if imported, or is counted in RECESS. -/
  | exportFrameReceived (p c : Nat) (bcast : Bool)
  /-- R373: With EXP_PEND above 0, a number and EVENT credit, the node sends one EXPORT frame. -/
  | exportSend (c : Nat)
  /-- R354: A write of ROLL_CTRL.START at the master starts a roll call. -/
  | rollCtrlStart (req : Nat) (v : Word)
  /-- R354: The master receives ROLL_REQ and starts, or restarts, a roll call. -/
  | rollReqReceived (p : Nat)
  /-- R355: A node's first copy of ROLLCALL makes it send HELLO and run 16 delay exchanges on each port. -/
  | rollcallReceived (p k : Nat)
  /-- R355: A HELLO frame gives the neighbour's UID on that link. -/
  | helloReceived (p uid : Nat)
  /-- R355: The master collects a node's ROSTER frame. -/
  | rosterReceived (p : Nat) (payload : List Byte)
  /-- R355: All reachable rosters are in, or 1 ms has passed, and the master orders, numbers and broadcasts FORMED. -/
  | rosterCollectEnd
  /-- R355: A node applies FORMED when its last frame arrives, taking its number and ring state. -/
  | formedReceived (p : Nat) (payload : List Byte) (spanE spanW : Bool)
  /-- R356: No FORMED for 4 SYNC intervals after a ring change with no master reachable, and the node reads SPLIT. -/
  | splitTimeout
  /-- R374: A STATE frame records whether its sender is in RECESS, so frames for it are held or released. -/
  | stateFrameReceived (p src : Nat) (recess : Bool)
  /-- R374: A WAKE frame reaches its node and starts a Recess exit if RING_WAKE = 1, or is ignored. -/
  | wakeFrameReceived (p : Nat)
  /-- R374: A write of WAKE_SEND sends one WAKE frame to the named node. -/
  | wakeSendWrite (req : Nat) (v : Word)
  /-- R376: A DATA frame for this node waits in its buffer for a receive slot. -/
  | dataFrameReceived (p : Nat) (words : List Word) (data : List Byte) (et : Nat)
  /-- R376: A held DATA frame is written to the next receive slot once the ring has room. -/
  | drxSlotWrite
  /-- R375: DTX_GO reads LEN bytes and sends one DATA frame, or ends RESULT BAD. -/
  | dtxGo (req : Nat) (v : Word)
  /-- R375: The SOF of the DATA frame leaves its port, and RESULT becomes SENT. -/
  | dtxSofSent (et : Nat)
  /-- R377: A write of TSQ_POP removes the oldest transmit timestamp entry. -/
  | tsqPop (req : Nat) (v : Word)
  /-- R358: The bypass switches close within 1 µs of field POWER_GOOD low, RESET_N low, LEAVE or loss of supplies. -/
  | bypassClose
  /-- R358: The bypass opens when none of its causes holds and the field side runs. -/
  | bypassOpen
  /-- R361: Every 1 ms each port sends a DREQ for one link-delay exchange. -/
  | delayExchangeTimer (p : Nat)
  /-- R361: A neighbour receives DREQ and replies with DRESP carrying TURN. -/
  | dreqReceived (p : Nat) (set : List Byte) (b c : Nat)
  /-- R361: A DRESP yields one mean link-delay measurement that updates DELAY. -/
  | drespReceived (p : Nat) (set : List Byte) (d : Nat)
  /-- R362: Every 2^SYNC_EXP µs the master sends SYNC with its TB0 time on both ports. -/
  | syncSendTimer
  /-- R364: A SYNC is forwarded with corrected time and, if accepted, steers TB0 by step or servo. -/
  | syncReceived (p : Nat) (set : List Byte) (r x : Nat)
  /-- R365: No SYNC accepted for 4 intervals; TB0 enters holdover, and a MASTER node starts a roll call. -/
  | syncLossTimeout
  /-- R369: A PPS_IN edge is stamped and, if accepted, steers TB1. -/
  | ppsEdge (rising : Bool) (et : Nat)
  /-- R369: No PPS edge accepted for 1.1 s; PPS_LOST occurs and TB1 enters holdover. -/
  | ppsLossTimeout
  /-- R371: A commit of a time base's SET moves that time base, only at the master for TB0, and raises STEP. -/
  | timeBaseSet (req b : Nat) (v : Word)
  /-- R372: Writing the high half of CONV_BEAT converts the beat time to the selected time base. -/
  | convBeatWrite (req : Nat) (v : Word)
  /-- R384: BELL_ARM with OP = ARM arms a Bell with its time, GEN and SRC, or is refused BAD or LATE. -/
  | bellArm (req b : Nat) (v : Word)
  /-- R384: BELL_ARM with OP = DISARM returns an ARMED Bell to IDLE. -/
  | bellDisarm (req b : Nat) (v : Word)
  /-- R383: A write of BELL_RING sends a ring or cancel Bell set on both ports and applies it locally. -/
  | bellRingWrite (req : Nat) (v : Word)
  /-- R383: 100 ns after the previous copy, the originator sends the next of its three Bell sets. -/
  | bellRepeatSend
  /-- R385: A received Bell set sets or clears the rung latch and is forwarded on the onward port. -/
  | bellSetReceived (p : Nat) (set : List Byte)
  /-- R386: At D the ARMED RING Bell is decided FIRED or MISSED. -/
  | bellDecision (b : Nat)
  /-- R389: A rising BELL_IN edge decides every ARMED PIN Bell in the next fabric cycle. -/
  | bellInEdge (et : Nat)
  /-- R395: A Function Level Reset aborts every DMA chain and resets HLK and the MSI-X table, not the part. -/
  | pcieFlr
  /-- R395: Entry to D3hot aborts DMA chains and resets HLK; BAR accesses then complete as Unsupported Request. -/
  | pcieD3hotEntry
  /-- R411: DL_UP, SPEED or WIDTH of the PCI Express link changes, and LINK_CHANGE occurs. -/
  | pcieLinkChange (up l1 : Bool) (width speed : Nat)
  /-- R397: A BAR2 read or write reaches field address WIN_BASE + offset through the HOST port. -/
  | bar2Access (off : Nat) (write : Bool) (data : List (Option Byte)) (len : Nat)
  /-- R401: CTRL.START of a DMA channel begins a descriptor chain after Bursar admission. -/
  | dmaCtrlStart (c : Nat)
  /-- R401: A DMA ABORT before the commit cycle ends the chain ABORTED; later it gives ABORT_NOOP. -/
  | dmaCtrlAbort (c : Nat)
  /-- R399: A descriptor read arrives and is checked; a bad one ends the chain BAD_DESC. -/
  | dmaDescriptorReadDone (c : Nat)
  /-- R399: A descriptor's last byte reaches its destination; DONE is written back and NEXT is read. -/
  | dmaDescriptorComplete (c : Nat)
  /-- R402: A host completion with an error, or uncorrectable field data, ends the chain HOST_ERR or FIELD_ERR. -/
  | dmaHostCompletionError (c : Nat)
  /-- R405: A REGRD request message for a field page or BAR2 read arrives at the field end. -/
  | satchelRegrdRequest (tag : Nat) (isBar2 : Bool) (addr len : Nat)
  /-- R403: A REGRD completion returns read data to the host end. -/
  | satchelRegrdCompletion (tag : Nat)
  /-- R50: A posted REGWR message applies a field-page or BAR2 write in endpoint order. -/
  | satchelRegwr (isBar2 : Bool) (addr : Nat) (data : List Byte)
  /-- R403: A DMA_DATA message carries DMA bytes or a descriptor read across the barrier. -/
  | satchelDmaData (c n : Nat)
  /-- R63: An EVENT message updates the host shadow of a field page's pending state, followed by MSI-X. -/
  | satchelEventToHost
  /-- R304: An EVENT message carries the Corridor pulse of a host-side page to the Corridor. -/
  | satchelEventToField
  /-- R403: Every 1 ms the field end sends the TB0 time and flags in a TIME message. -/
  | satchelTimeSend
  /-- R403: A TIME message gives the host side TB0 for its log and trace stamps. -/
  | satchelTime
  /-- R403: A FLOW message carries a mode change, AUTO_EN copy, DMA dispatch or end, or a host-die reading. -/
  | satchelFlow (toHost : Bool)
  /-- R406: The host end sees the Satchel go down: reads are flushed, writes lost, chains end and the host side enters DETENTION. -/
  | satchelLinkDown
  /-- R407: The link comes up; AUDIT is exchanged, pending events are resent and MODE reports the field side's mode. -/
  | satchelLinkUp
  /-- R410: FL_CMD.GO with OP READ reads 1 to 256 bytes into FL_BUF. -/
  | flashRead (len : Nat)
  /-- R410: FL_CMD.GO with OP PROGRAM writes bytes from FL_BUF within one page, subject to protection and mode. -/
  | flashProgram (len : Nat)
  /-- R410: FL_CMD.GO with OP ERASE erases the 64 KiB sector holding FL_ADDR, subject to protection and mode. -/
  | flashErase (len : Nat)
  /-- R410: A flash operation ends with its result, and FLASH_DONE occurs. -/
  | flashOpEnd (good : Bool)
  /-- R414: The input has stayed above the exit level for 1 ms, and the part climbs one stage. -/
  | pruneClimbTimer
  /-- R415: A write of PRUNE_CFG.FORCE changes the stage in force as a change of stage. -/
  | pruneForceWrite (v : Word)
  /-- R416: The input has been above 9.05 V for 1 ms with POWER_GOOD and RESET_N high, and the field side boots from step 3. -/
  | fieldHoldRelease
  /-- R420: 40 µs after a climb from stage 3, the fast clocks are back, and the memories leave self-refresh. -/
  | clockRestartDone
  /-- R427: A write of RS_POP removes the oldest RESYNC record. -/
  | rsPop (v : Word)
  /-- R432: TRC_CTRL.ARM empties the trace SRAM, sets SEQ to 0 and arms the trace. -/
  | traceArm
  /-- R432: TRC_CTRL.STOP ends the trace with cause STOP. -/
  | traceStop
  /-- R433: The spill engine moves the oldest trace record into the spill ring. -/
  | spillRecordWritten
  /-- R435: CNT_CTRL.SNAP copies all 1,024 counters to their shadows in one cycle. -/
  | counterSnap
  /-- R435: CNT_CTRL.CLEAR_ALL clears every counter and OVF. -/
  | counterClearAll
  /-- R435: A write to CNT_CFG configures the selected counter and clears its OVF. -/
  | cntCfgWrite (v : Word)
  /-- R436: The TAP GALADDR instruction loads a byte address in the Gallery space. -/
  | tapGaladdr (t x : Nat)
  /-- R436: The TAP GALDATA capture reads the word at GALADDR without side effect and advances GALADDR by 4. -/
  | tapGaldata (t : Nat)
  /-- R441: The supplies of a side come back, VF_AON first on the field side, moving the side from OFF to HELD and starting the oscillator and
  always-on domain. -/
  | supplyReturn (field : Bool)
  /-- R403: Every 1 ms the host side sends its host-die sensor readings to the field side in a FLOW message. -/
  | hostSensorReadingSend (readings : List (Nat × Nat))
  /-- R355: During roll call, 1 µs after the previous one, a node sends the next of its 16 two-way delay exchanges on each port that is up. -/
  | rollcallExchangeTimer
  /-- R387: The instant S of a fired Bell is reached: BELL_FIRED occurs and BELL_OUT pulses from S plus BELL_OUT_SKEW, even when no sequencer
  joined. -/
  | bellInstantS (b : Nat)
  /-- R395: The host returns the function from D3hot to D0, after which BAR accesses and DMA chains are served again. -/
  | pcieD0Entry
  /-- R400: A PCI Express completion carrying host-memory data for a DIR = 0 DMA descriptor arrives at the endpoint and its bytes go on toward
  the field address. -/
  | hostReadCompletion (c : Nat) (bytes : List Byte)
  /-- R402: A read of host memory by a DMA channel receives no completion within the completion timeout, and the chain ends HOST_ERR. -/
  | pcieCompletionTimeout (c : Nat)
  deriving DecidableEq, Repr

end Sys2Proof
end

