-- ==== Sys2Proof/WellFormed.lean ====
section
/-! DEFINITION. Well-formed commands: every operand names something the FP-4256 has, and fits its field. -/

namespace Sys2Proof

/-- An aligned word of BAR0's 64 MiB (R47, R49). -/
def wordAddr (a : Nat) : Bool := decide (a < 0x4000000) && decide (a % 4 = 0)

/-- The start of a page of BAR0. -/
def pageAddr (a : Nat) : Bool := decide (a < 0x4000000) && decide (a % 0x1000 = 0)

/-- Every operand of the command is in range. -/
def Instr.wf : Instr → Bool
  | .timeRegWord0Read req addr => decide (req < 3) && wordAddr addr
  | .timeRegStageWrite req addr _ => decide (req < 3) && wordAddr addr
  | .timeRegCommit req addr _ => decide (req < 3) && wordAddr addr
  | .reg64LowRead req addr => decide (req < 3) && wordAddr addr
  | .reg64LowWrite req addr _ => decide (req < 3) && wordAddr addr
  | .reg64HighWrite req addr _ => decide (req < 3) && wordAddr addr
  | .registerWrite req addr _ enables => decide (req < 3) && decide (addr < 2 ^ 26) && decide (enables < 16)
  | .rcRead req addr => decide (req < 3) && wordAddr addr
  | .evPendClear req page _ => decide (req < 3) && pageAddr page
  | .evEnWrite req page _ => decide (req < 3) && pageAddr page
  | .evTestWrite req page _ => decide (req < 3) && pageAddr page
  | .pageSrst req page _ => decide (req < 3) && pageAddr page
  | .pageSrstDone page => pageAddr page
  | .msixUnmask vector => (vector.all fun v => decide (v < 256))
  | .stormWindowBoundary => true
  | .bursarInterval => true
  | .thermalTargetStep => true
  | .sensorSample readings coreMv core10mA fieldP => (readings.all fun p => decide (p.1 < 64) && decide (p.2 < 4096)) && decide (coreMv < 65536) && decide (core10mA < 65536) && decide (fieldP < 65536)
  | .timetableTick => true
  | .alwaysOnTick senseMv rails => decide (senseMv < 65536) && decide (rails < 32)
  | .modeReq target => decide (target < 16)
  | .modeReqAbort target => decide (target < 16)
  | .modeQuiescence => true
  | .recessEntryDone => true
  | .recessWakeDue tb => decide (tb < 4)
  | .recessPllLocked => true
  | .recessExitDone => true
  | .hostAccessInRecess req addr _ _ => decide (req < 3) && wordAddr addr
  | .autoCfgWrite _ => true
  | .fieldSatchelLoss => true
  | .resetCtrlPart key _ _ => decide (key < 65536)
  | .resetCtrlField key => decide (key < 65536)
  | .resetCtrlBankSwitch key _ _ => decide (key < 65536)
  | .powerGoodFall _ => true
  | .powerGoodRise _ => true
  | .resetNAssert _ => true
  | .fieldResetRelease => true
  | .supplyLoss _ => true
  | .hostResetRelease _ _ => true
  | .fieldPllLocked => true
  | .fmiReceived _ => true
  | .memTrainingDone c _ _ result ms repaired spd trfc fenced => decide (c < 10) && (decide (1 ≤ result) && decide (result ≤ 8) || result == 10) && decide (ms < 2 ^ 16) && decide (repaired < 2 ^ 8) && decide (spd < 2 ^ 16) && decide (trfc < 2 ^ 16) && (fenced.all fun c => decide (c < 64))
  | .bootComplete ms _ => decide (ms < 2 ^ 32)
  | .chnDskConfigWrite req a _ => decide (req < 3) && wordAddr a
  | .stagedConfigApply p => pageAddr p
  | .peClusterPowerUpDone d => decide (d < 32)
  | .pecStart b _ => decide (b < 8)
  | .pecAbort b _ => decide (b < 8)
  | .pecTransferEnd b _ => decide (b < 8)
  | .timesetCommit req q t _ => decide (req < 3) && decide (q < 16) && decide (t < 256)
  | .seqPage2Write req a _ => decide (req < 3) && wordAddr a
  | .stagedSeqConfigApply q => decide (q < 16)
  | .edgeSlotCommit req n k _ => decide (req < 3) && decide (n < 256) && decide (k < 384)
  | .burstCtrlStart q _ => decide (q < 16)
  | .burstCtrlStop q _ => decide (q < 16)
  | .burstCtrlAbort q _ => decide (q < 16)
  | .jmpReqWrite q _ => decide (q < 16)
  | .burstAdmissionComplete q => decide (q < 16)
  | .burstSReached q => decide (q < 16)
  | .segmentStart q => decide (q < 16)
  | .commitPoint q => decide (q < 16)
  | .descriptorArrival q i => decide (q < 16) && decide (i < 1048576)
  | .matchResultReady q => decide (q < 16)
  | .granuleJudge q => decide (q < 16)
  | .parkPoint q => decide (q < 16)
  | .parkComplete q m => decide (q < 16) && decide (m < 2 ^ 32)
  | .refillBlockArrival d ecc => decide (d < 32) && decide (ecc < 3)
  | .stagerBlockCopy q => decide (q < 16)
  | .decFlushWrite _ => true
  | .verdictsFormed q _ => decide (q < 16)
  | .failLogRecordWritten => true
  | .ringReadPointerWrite req addr _ => decide (req < 3) && wordAddr addr
  | .ringReconfigApply ring => decide (ring < 6)
  | .captureBlockWritten d => decide (d < 32)
  | .ecapTransition i _ prev code => decide (i < 16) && decide (prev < 4) && decide (code < 4)
  | .ecapRecordWritten i => decide (i < 16)
  | .cmpSrstApply h => decide (h < 3)
  | .sigSrstApply d => decide (d < 32)
  | .chkFeedB n _ => decide (n < 8)
  | .chkFeedH n _ => decide (n < 8)
  | .chkFeedW n _ => decide (n < 8)
  | .chkLoadInit n _ => decide (n < 8)
  | .chkCheck n _ => decide (n < 8)
  | .chkStart n _ => decide (n < 8)
  | .chkAbort n _ => decide (n < 8)
  | .chkRunCommit n m => decide (n < 8) && decide (m < 2 ^ 32)
  | .chkRegWrite req addr _ => decide (req < 3) && wordAddr addr
  | .tdcInputEdge src _ _ => decide (src < 0x300)
  | .tdcStart e _ => decide (e < 64)
  | .tdcStop e _ => decide (e < 64)
  | .tdcAbort e _ => decide (e < 64)
  | .tdcRecordWritten e m => decide (e < 64) && decide (m < 2 ^ 32)
  | .tdcTimeout e => decide (e < 64)
  | .tdcGateEnd e => decide (e < 64)
  | .coarseCountWrap => true
  | .ocxoWarmReached => true
  | .ocxoRegulationLost => true
  | .refSelWrite _ => true
  | .refSwitchApply => true
  | .refSwitchDone => true
  | .refInDetected => true
  | .refInLoss => true
  | .fcGateEnd i => decide (i < 8)
  | .fcConfigWrite req addr _ => decide (req < 3) && wordAddr addr
  | .portRequest port addr _ off data => decide (port < 6) && decide (addr < 2 ^ 48) && decide (off < 64) && decide (data.length ≤ 64)
  | .memoryIssue c u ecc => decide (c < 10) && decide (u < 32) && decide (ecc < 3)
  | .memoryReadComplete c u ecc => decide (c < 10) && decide (u < 64) && decide (ecc < 3)
  | .trefiTick c u r => decide (c < 10) && decide (u < 64) && decide (r < 32)
  | .refreshComplete c u r bank => decide (c < 10) && decide (u < 64) && decide (r < 32) && (bank.all fun b => decide (b < 32))
  | .realtimeHoldEnd c u r => decide (c < 10) && decide (u < 64) && decide (r < 32)
  | .dramTempPoll c _ _ => decide (c < 10)
  | .selfRefreshEntry c => decide (c < 10)
  | .selfRefreshExit c => decide (c < 10)
  | .mapMaskCommit req _ k _ => decide (req < 3) && decide (k < 11)
  | .mapApply _ => true
  | .scrubAccess c a ecc => decide (c < 10) && decide (a < 2 ^ 48) && decide (ecc < 3)
  | .regCfgWrite _ p _ => decide (p < 6)
  | .taskImageWrite w _ => decide (w < 8)
  | .taskSubmit q => decide (q < 8)
  | .taskArm => true
  | .taskDisarm => true
  | .taskAdd n amount => decide (n < 4) && decide (amount < 65536)
  | .taskAbort => true
  | .taskClear => true
  | .sqPush q => decide (q < 8)
  | .arrivalApply => true
  | .taskDispatch => true
  | .taskComplete i m => decide (i < 4096) && decide (m < 2 ^ 32)
  | .taskAgeStep i => decide (i < 4096)
  | .dlInsert b => decide (b < 4)
  | .dlCancel b => decide (b < 4)
  | .dlCancelAll b => decide (b < 4)
  | .delayEntryFire b => decide (b < 4)
  | .bursarAdmit => true
  | .flowStepStart => true
  | .flowStepAbort => true
  | .flowOpenCommit => true
  | .flowLimitCommit => true
  | .flowBinCommit => true
  | .flowPost => true
  | .handlerSiteStep => true
  | .dlogRecordWritten => true
  | .corridorPulseArrive => true
  | .consumerPulse i => decide (i < 512)
  | .selectorWrite i _ => decide (i < 512)
  | .gpeInEdge k _ => decide (k < 16)
  | .gpeInRecessEdge k _ => decide (k < 16)
  | .gpeOutPulseEnd k => decide (k < 16)
  | .gpeOutModeWrite _ => true
  | .itemStart => true
  | .itemAbort => true
  | .itemCommit _ _ m => decide (m < 2 ^ 32)
  | .calEngineRelease e => decide (e < 64)
  | .deskAdoptVintage d => decide (d < 32)
  | .slotFlagsWrite i _ => decide (i < 16)
  | .vintageFlashSave i => decide (i < 16)
  | .laneDisableWrite req n _ => decide (req < 3) && decide (n < 24)
  | .laneRetrainWrite req n _ => decide (req < 3) && decide (n < 24)
  | .laneDetect n => decide (n < 40)
  | .tsReceived n set => decide (n < 40) && decide (set.length = 16)
  | .trainTrialEnd n _ _ => decide (n < 40)
  | .laneSymbolLock n => decide (n < 40)
  | .lockTimeout n => decide (n < 40)
  | .capsReceived n set _ => decide (n < 40) && decide (set.length = 16)
  | .laneLockLoss n _ => decide (n < 40)
  | .laneFrameReceived l sof lanes eof => decide (l < 4) && decide (sof.length = 4) && decide (eof.length = 4) && decide (lanes.length ≤ 16)
  | .ackReceived l set => decide (l < 4) && decide (set.length = 4)
  | .replayTimeout l => decide (l < 4)
  | .stripeReceived l set => decide (l < 4) && decide (set.length = 8)
  | .auditReceived l set => decide (l < 4) && decide (set.length = 16)
  | .auditTimeout l => decide (l < 4)
  | .restripeComplete l _ => decide (l < 4)
  | .widenTimerExpire l => decide (l < 4)
  | .fillerDue l => decide (l < 4)
  | .idleSetReceived n => decide (n < 40)
  | .fillerReceived n => decide (n < 40)
  | .laneFreeze n => decide (n < 40)
  | .sleepLockTimeout n => decide (n < 40)
  | .diagStart n _ => decide (n < 24)
  | .diagAbort n _ => decide (n < 24)
  | .diagComplete n _ => decide (n < 24)
  | .ringFrameForward p body => decide (p < 2) && decide (12 ≤ body.length) && decide (body.length ≤ 268)
  | .creditFrameReceived p crEvent crMgmt crData => decide (p < 2) && decide (crEvent < 256) && decide (crMgmt < 256) && decide (crData < 256)
  | .creditReturnTimer p => decide (p < 4)
  | .exportFrameReceived p c _ => decide (p < 2) && decide (c < 16)
  | .exportSend c => decide (c < 16)
  | .rollCtrlStart req _ => decide (req < 3)
  | .rollReqReceived p => decide (p < 2)
  | .rollcallReceived p k => decide (p < 2) && decide (k < 2 ^ 32)
  | .helloReceived p uid => decide (p < 2) && decide (uid < 2 ^ 64)
  | .rosterReceived p payload => decide (p < 2) && decide (payload.length = 40)
  | .rosterCollectEnd => true
  | .formedReceived p payload _ _ => decide (p < 2) && decide (payload.length ≤ 256)
  | .splitTimeout => true
  | .stateFrameReceived p src _ => decide (p < 2) && decide (src < 64)
  | .wakeFrameReceived p => decide (p < 2)
  | .wakeSendWrite req _ => decide (req < 3)
  | .dataFrameReceived p _ data _ => decide (p < 2) && decide (data.length ≤ 256)
  | .drxSlotWrite => true
  | .dtxGo req _ => decide (req < 3)
  | .dtxSofSent _ => true
  | .tsqPop req _ => decide (req < 3)
  | .bypassClose => true
  | .bypassOpen => true
  | .delayExchangeTimer p => decide (p < 2)
  | .dreqReceived p set _ _ => decide (p < 2) && decide (set.length = 16)
  | .drespReceived p set _ => decide (p < 2) && decide (set.length = 16)
  | .syncSendTimer => true
  | .syncReceived p set _ _ => decide (p < 2) && decide (set.length = 16)
  | .syncLossTimeout => true
  | .ppsEdge _ _ => true
  | .ppsLossTimeout => true
  | .timeBaseSet req b _ => decide (req < 3) && decide (b < 4)
  | .convBeatWrite req _ => decide (req < 3)
  | .bellArm req b _ => decide (req < 3) && decide (b < 16)
  | .bellDisarm req b _ => decide (req < 3) && decide (b < 16)
  | .bellRingWrite req _ => decide (req < 3)
  | .bellRepeatSend => true
  | .bellSetReceived p set => decide (p < 2) && decide (set.length = 4)
  | .bellDecision b => decide (b < 16)
  | .bellInEdge _ => true
  | .pcieFlr => true
  | .pcieD3hotEntry => true
  | .pcieLinkChange _ _ width speed => decide (width < 64) && decide (speed < 16)
  | .bar2Access off _ data len => decide (off < 2 ^ 36) && decide (data.length ≤ 4096) && decide (len < 4097)
  | .dmaCtrlStart c => decide (c < 8)
  | .dmaCtrlAbort c => decide (c < 8)
  | .dmaDescriptorReadDone c => decide (c < 8)
  | .dmaDescriptorComplete c => decide (c < 8)
  | .dmaHostCompletionError c => decide (c < 8)
  | .satchelRegrdRequest tag _ addr len => decide (tag < 32) && decide (addr < 2 ^ 36) && decide (len < 4097)
  | .satchelRegrdCompletion tag => decide (tag < 32)
  | .satchelRegwr _ addr data => decide (addr < 2 ^ 36) && decide (data.length ≤ 256)
  | .satchelDmaData c n => decide (c < 8) && decide (n < 257)
  | .satchelEventToHost => true
  | .satchelEventToField => true
  | .satchelTimeSend => true
  | .satchelTime => true
  | .satchelFlow _ => true
  | .satchelLinkDown => true
  | .satchelLinkUp => true
  | .flashRead len => decide (len < 512)
  | .flashProgram len => decide (len < 512)
  | .flashErase len => decide (len < 512)
  | .flashOpEnd _ => true
  | .pruneClimbTimer => true
  | .pruneForceWrite _ => true
  | .fieldHoldRelease => true
  | .clockRestartDone => true
  | .rsPop _ => true
  | .traceArm => true
  | .traceStop => true
  | .spillRecordWritten => true
  | .counterSnap => true
  | .counterClearAll => true
  | .cntCfgWrite _ => true
  | .tapGaladdr t x => decide (t < 2) && decide (x < 2 ^ 32)
  | .tapGaldata t => decide (t < 2)
  | .supplyReturn _ => true
  | .hostSensorReadingSend readings => (readings.all fun p => decide (p.1 < 64) && decide (p.2 < 4096))
  | .rollcallExchangeTimer => true
  | .bellInstantS b => decide (b < 16)
  | .pcieD0Entry => true
  | .hostReadCompletion c _ => decide (c < 8)
  | .pcieCompletionTimeout c => decide (c < 8)

end Sys2Proof
end

