-- ==== Sys2Proof/Config.lean ====
section
/-! DEFINITION. What one part fixes and the register interface does not state, and the values the spec leaves
open. A constant without a body is a free value: no proof can see what it is, so a claim holds whatever it is. -/

namespace Sys2Proof.Config

/-- FREE VALUE. The n-th value the spec leaves open in a run; `State.fresh` counts them (log 4). -/
opaque freeValue : Nat → BitVec 64

/-- FREE VALUE. `GLB.IDENT` bits 15:0 are "per part": stepping letter and digit (02_modes.md, `IDENT`; log 5). -/
opaque stepping : BitVec 16

/-- FREE VALUE. `RNG.UID` is "per part" (18_ring_time.md, RNG page; log 5). -/
opaque uid : BitVec 64

/-- FREE VALUE. `RNG.BYP_DELAY` is "per part": the measured bypass delays in ET (18_ring_time.md; log 5). -/
opaque bypDelay : BitVec 32

/-- FREE VALUE. The Vendor ID half of `HLK.PCI_ID` is Getevor's PCI-SIG identifier, not stated (R394; log 5). -/
opaque vendorId : BitVec 16

/-- FREE VALUE. The fixed pipeline latency in ET, the same for every pair of every channel, which the spec does not state (R95; log 5). -/
opaque pipeLatency : BitVec 32

/-- FREE VALUE. A bin centre of `num / den` subnanosecond units that is not whole: whether the item stores the unit above it (R199 gives no
rounding; log 20). -/
opaque centreUp : Nat → Nat → Bool

/-- FREE VALUE. The OFFSET field for a measured mean, in subnanosecond units, that is no whole number of ET or lies outside the field
(16_calibration.md gives no rounding; log 20). -/
opaque offsetOf : Int → BitVec 20

end Sys2Proof.Config
end

