-- ==== Sys2Proof/Machine/Bits.lean ====
section
/-! DEFINITION. Bit fields of register words, saturating counts and byte order: the helpers every
register rule uses. Bit 0 is the least significant bit and multi-byte values are little-endian
(00_scope.md, "Notation"). -/

namespace Sys2Proof.Machine

/-- The value of bits `hi:lo` of `w`. -/
def fld (w : Word) (hi lo : Nat) : Nat :=
  w.toNat / 2 ^ lo % 2 ^ (hi + 1 - lo)

/-- Bit `n` of `w`. -/
def bit (w : Word) (n : Nat) : Bool :=
  w.toNat / 2 ^ n % 2 == 1

/-- A number as a word, modulo 2^32. -/
def wd (n : Nat) : Word := BitVec.ofNat 32 n

/-- `w` with bits `hi:lo` replaced by `v` (its low bits). -/
def setFld (w : Word) (hi lo v : Nat) : Word :=
  wd (w.toNat % 2 ^ lo + v % 2 ^ (hi + 1 - lo) * 2 ^ lo + w.toNat / 2 ^ (hi + 1) * 2 ^ (hi + 1))

/-- `w` with bit `n` set or cleared. -/
def setBit (w : Word) (n : Nat) (b : Bool) : Word := setFld w n n b.toNat

/-- The word whose only 1 is bit `n`. -/
def bitW (n : Nat) : Word := wd (2 ^ n)

/-- A count held in `bits` bits that stops at its largest value ("saturating"). -/
def satAdd (bits : Nat) (w : Word) (k : Nat) : Word :=
  wd (min (w.toNat + k) (2 ^ bits - 1))

/-- `v` with only the bits of `m` that are 1 taken from it and the others from `old`. -/
def mergeMask (m old v : Nat) : Nat := (old &&& (2 ^ 128 - 1 - m)) ||| (v &&& m)

/-- The signed value of the low `bits` bits of `n`, two's complement. -/
def sext (bits n : Nat) : Int :=
  let m := n % 2 ^ bits
  if m < 2 ^ (bits - 1) then (m : Int) else (m : Int) - 2 ^ bits

/-- The low `bits` bits of a signed value, two's complement. -/
def unsext (bits : Nat) (i : Int) : Nat := (i % (2 ^ bits : Nat)).toNat

/-- Bit `n` of a number. -/
def nbit (v n : Nat) : Bool := v / 2 ^ n % 2 == 1

/-- The positions below `k` whose bit of `v` is 1, in rising order. -/
def bitsOf (k v : Nat) : List Nat := (List.range k).filter (nbit v)

/-- The number whose 1 bits are the members of a list of distinct positions. -/
def ofBits (l : List Nat) : Nat := l.foldl (fun a n => a ||| 2 ^ n) 0

/-- The bytes of `v`, lowest first. -/
def bytesLE : Nat → Nat → List Byte
  | 0, _ => []
  | k + 1, v => BitVec.ofNat 8 v :: bytesLE k (v / 256)

/-- The number whose bytes, lowest first, are given. -/
def ofBytesLE : List Byte → Nat
  | [] => 0
  | b :: l => b.toNat + 256 * ofBytesLE l

end Sys2Proof.Machine
end

