-- ==== Sys2Proof/Machine/RegMap.lean ====
section
/-! DEFINITION. The BAR0 register map (R47, R51): which page an address lies in, which register of that
page's layout, which of its bits software sets, and what it reads at reset. The rows are the spec's own page
maps, one layout after the other; an address that no row names is reserved (R9, R48). -/

namespace Sys2Proof.Machine

/-- The page layouts of R47. `chn` is a channel page, `seq2` page 2 of a sequencer, `decS` a slice page,
`cmpS` a site page, `timE` an engine page, `ttbD` a delay-list page, `lanL` a lane page, and so on. -/
inductive PageKind where
  | glb0 | glb1 | hlk | sat0 | fsh | sat1 | chn | dsk | sig | seq0 | seq1 | seq2 | seq3
  | dec0 | decS | cmp0 | cmpS | tim0 | timE | cel | ttb0 | ttb1 | ttbD | bur0 | bur1
  | flw0 | flwS | cor0 | cor1 | chk | vin0 | vin1 | lan0 | lan1 | lanL | rng | tkp | gal0 | gal1 | pwr
  deriving DecidableEq, Repr

/-- The access types of R7. -/
inductive Acc where
  | ro | rw | rws | w1c | w1s | wo | rc
  deriving DecidableEq, Repr

/-- A run of like pages: `count` pages of one layout, `stride` apart; `code` and `inst` (plus `instStep`
per page) give `PG_ID` (R51, R456), `ord` the first page ordinal, 0 where the pages have none (R61). -/
structure PageGroup where
  kind : PageKind
  base : Nat
  stride : Nat
  count : Nat
  code : Nat
  inst : Nat
  instStep : Nat
  ord : Nat
  deriving DecidableEq, Repr

/-- A register, or `n` like registers `stride` apart, of `words` 32-bit words each: the bits software sets and
the reset value, both over the whole register. -/
structure RegRow where
  off : Nat
  n : Nat
  stride : Nat
  words : Nat
  acc : Acc
  wmask : Nat
  reset : Nat
  deriving DecidableEq, Repr

/-- The page families of R47 with the block codes of R51 and the ordinals of R61. -/
def pageGroups : List PageGroup :=
  [⟨.glb0, 0x0000000, 0x1000, 1, 0x001, 0, 1, 1⟩, ⟨.glb1, 0x0001000, 0x1000, 1, 0x001, 1, 1, 0⟩,
   ⟨.hlk, 0x0010000, 0x1000, 1, 0x002, 0, 1, 2⟩, ⟨.sat0, 0x0011000, 0x1000, 1, 0x003, 0, 1, 3⟩,
   ⟨.fsh, 0x0012000, 0x1000, 1, 0x004, 0, 1, 0⟩, ⟨.sat1, 0x0100000, 0x1000, 1, 0x003, 1, 1, 4⟩,
   ⟨.chn, 0x0200000, 0x1000, 256, 0x005, 0, 1, 0⟩, ⟨.dsk, 0x0300000, 0x1000, 32, 0x006, 0, 1, 21⟩,
   ⟨.sig, 0x0320000, 0x1000, 32, 0x016, 0, 1, 0⟩] ++
  [⟨.seq0, 0x0400000, 0x4000, 16, 0x007, 0, 4, 5⟩, ⟨.seq1, 0x0401000, 0x4000, 16, 0x007, 1, 4, 0⟩,
   ⟨.seq2, 0x0402000, 0x4000, 16, 0x007, 2, 4, 0⟩, ⟨.seq3, 0x0403000, 0x4000, 16, 0x007, 3, 4, 0⟩,
   ⟨.dec0, 0x0500000, 0x1000, 1, 0x008, 0, 1, 25⟩, ⟨.decS, 0x0501000, 0x1000, 32, 0x008, 1, 1, 0⟩,
   ⟨.cmp0, 0x0600000, 0x1000, 1, 0x009, 0, 1, 26⟩, ⟨.cmpS, 0x0601000, 0x1000, 2, 0x009, 1, 1, 27⟩,
   ⟨.tim0, 0x0700000, 0x1000, 1, 0x00A, 0, 1, 29⟩, ⟨.timE, 0x0701000, 0x1000, 2, 0x00A, 1, 1, 30⟩,
   ⟨.cel, 0x0800000, 0x1000, 10, 0x00B, 0, 1, 32⟩] ++
  [⟨.ttb0, 0x0900000, 0x1000, 1, 0x00C, 0, 1, 42⟩, ⟨.ttb1, 0x0901000, 0x1000, 1, 0x00C, 1, 1, 0⟩,
   ⟨.ttbD, 0x0902000, 0x1000, 4, 0x00C, 2, 1, 0⟩, ⟨.bur0, 0x0A00000, 0x1000, 1, 0x00D, 0, 1, 43⟩,
   ⟨.bur1, 0x0A01000, 0x1000, 1, 0x00D, 1, 1, 0⟩, ⟨.flw0, 0x0B00000, 0x1000, 1, 0x00F, 0, 1, 44⟩,
   ⟨.flwS, 0x0B01000, 0x1000, 2, 0x00F, 1, 1, 45⟩, ⟨.cor0, 0x0C00000, 0x1000, 1, 0x010, 0, 1, 47⟩,
   ⟨.cor1, 0x0C01000, 0x1000, 1, 0x010, 1, 1, 0⟩, ⟨.chk, 0x0D00000, 0x1000, 8, 0x011, 0, 1, 48⟩,
   ⟨.vin0, 0x0E00000, 0x1000, 1, 0x012, 0, 1, 56⟩, ⟨.vin1, 0x0E01000, 0x1000, 1, 0x012, 1, 1, 0⟩] ++
  [⟨.lan0, 0x0F00000, 0x1000, 1, 0x013, 0, 1, 57⟩, ⟨.lan1, 0x0F01000, 0x1000, 1, 0x013, 1, 1, 58⟩,
   ⟨.lanL, 0x0F02000, 0x1000, 24, 0x013, 2, 1, 0⟩, ⟨.rng, 0x1000000, 0x1000, 1, 0x014, 0, 1, 59⟩,
   ⟨.tkp, 0x1001000, 0x1000, 1, 0x015, 0, 1, 60⟩, ⟨.gal0, 0x1100000, 0x1000, 1, 0x017, 0, 1, 61⟩,
   ⟨.gal1, 0x1101000, 0x1000, 1, 0x017, 1, 1, 0⟩, ⟨.pwr, 0x1200000, 0x1000, 1, 0x018, 0, 1, 62⟩]

/-- `a` lies in a page of `g`. -/
def PageGroup.has (g : PageGroup) (a : Nat) : Bool :=
  decide (g.base ≤ a) && decide ((a - g.base) / g.stride < g.count) &&
    decide ((a - g.base) % g.stride < 0x1000)

/-- The page of a BAR0 address: its group, its index in the group and the offset in the page. `none` for a
reserved address (R47, R48). -/
def pageOf (a : Nat) : Option (PageGroup × Nat × Nat) :=
  (pageGroups.find? (·.has a)).map fun g => (g, (a - g.base) / g.stride, (a - g.base) % g.stride)

/-- The group of a layout. -/
def groupOf (k : PageKind) : PageGroup :=
  (pageGroups.find? (·.kind = k)).getD ⟨k, 0, 0x1000, 0, 0, 0, 0, 0⟩

/-- The BAR0 address of page `i` of a layout. -/
def pageBase (k : PageKind) (i : Nat) : Nat := (groupOf k).base + i * (groupOf k).stride

/-- The ordinal of page `i` of a group, 0 where it has none (R61): of the desk pages only `DSK[8g]` has one. -/
def ordinalOf (g : PageGroup) (i : Nat) : Nat :=
  if g.ord = 0 then 0
  else if g.kind = .dsk then (if i % 8 = 0 then g.ord + i / 8 else 0)
  else g.ord + i

/-- The BAR0 address of the page with ordinal `o` (R61), `none` for 0 and for reserved ordinals. -/
def ordinalPage (o : Nat) : Option Nat :=
  (pageGroups.find? fun g => decide (g.ord ≠ 0) && decide (g.ord ≤ o) &&
      decide (o < g.ord + (if g.kind = .dsk then 4 else g.count))).map
    fun g => g.base + (o - g.ord) * (if g.kind = .dsk then 8 else 1) * g.stride

/-- The ordinal of the page an address lies in. -/
def ordinalAt (a : Nat) : Nat :=
  match pageOf a with
  | none => 0
  | some (g, i, _) => ordinalOf g i

/-- `PG_CAP` of page `i` of a layout: the counts the block's chapter gives, in instance 0 of the family (R51). -/
def pageCap : PageKind → Nat → Nat
  | .hlk, _ => 0x00243508 | .sat0, _ => 0x00000610 | .sat1, _ => 0x00000610
  | .chn, 0 => 0x06400100 | .dsk, 0 => 0x00080820 | .sig, 0 => 0x00401020
  | .seq0, 0 => 0x01041410 | .seq1, _ => 0x00000100 | .seq2, _ => 0x00001010
  | .dec0, _ => 0x00100420 | .cmp0, _ => 0x00001040 | .tim0, _ => 0x00100840
  | .cel, 0 => 0x0002080A | .ttb0, _ => 0x80481000 | .ttb1, _ => 0x00010008
  | .ttbD, b => 0x00000400 + b * 0x10000 | .bur0, _ => 0x0000F040
  | .flw0, _ => 0x020A100E | .cor0, _ => 0x00100200 | .chk, 0 => 0x00004008
  | .vin0, _ => 0x00022010 | .lan0, _ => 0x000B0410 | .rng, _ => 0x10100240
  | .tkp, _ => 0x00000004 | .pwr, _ => 0x00052004 | .gal0, _ => 0x00081010 | .gal1, _ => 0x00000400
  | _, _ => 0

/-- The events a page has (R61: the numbers of reserved bits never pulse). -/
def eventMask : PageKind → Nat → Nat
  | .glb0, _ => 0x3F | .hlk, _ => 0x7FFFF | .sat0, _ => 0xF | .sat1, _ => 0x7
  | .seq0, _ => 0x7FF | .dsk, i => if i % 8 = 0 then 0x777F777F else 0
  | .dec0, _ => 0x1F | .cmp0, _ => 0x3F | .cmpS, _ => 0xFFFFFFFF
  | .tim0, _ => 0x7F | .timE, _ => 0xFFFFFFFF
  | .cel, i => if i = 0 ∨ i = 8 then 0x7F else 0x3E
  | .ttb0, _ => 0xFFFF0F7F | .bur0, _ => 0x1F | .flw0, _ => 0xFFFF00FF | .flwS, _ => 0xFFFFFFFF
  | .cor0, _ => 0x1FFFF | .chk, _ => 0xF | .vin0, _ => 0xF | .lan0, _ => 0xFF | .lan1, _ => 0xFFFF
  | .rng, _ => 0xFFFF07FF | .tkp, _ => 0x1FF | .gal0, _ => 0x1F | .pwr, _ => 0xF
  | _, _ => 0

/-- The live events among them (R57); every other event of a page is latched. The `GLB` table names no kind;
its events are instances, so they are latched (log 10). -/
def liveMask : PageKind → Nat
  | .dec0 => 0x10 | .cmp0 => 0x11 | .tim0 => 0x11 | .cel => 0x10 | .bur0 => 0x1E | .flw0 => 0x0A
  | .lan0 => 0x18 | .lan1 => 0x1818 | .rng => 0x06 | .tkp => 0x0F | .gal0 => 0x08 | .pwr => 0x04
  | _ => 0

/-- The 32 header registers' rows that software writes (R51). The read-only words `PG_ID`, `PG_CAP` and `PG_STAT`
are rows too. A page without an ordinal has no event registers (R60). -/
def headerRows (k : PageKind) (i : Nat) : List RegRow :=
  let g := groupOf k
  [⟨0x000, 1, 4, 1, .ro, 0, g.code * 2 ^ 20 + (g.inst + i * g.instStep) * 2 ^ 12 + 0x100⟩,
   ⟨0x004, 1, 4, 1, .ro, 0, pageCap k i⟩, ⟨0x008, 1, 4, 1, .rw, 1, 0⟩, ⟨0x00C, 1, 4, 1, .ro, 0, 0⟩] ++
  (if ordinalOf g i = 0 then []
   else [⟨0x010, 1, 4, 1, .ro, 0, 0⟩, ⟨0x014, 1, 4, 1, .w1c, eventMask k i, 0⟩,
         ⟨0x018, 1, 4, 1, .rw, eventMask k i, 0⟩, ⟨0x01C, 1, 4, 1, .rw, 0xFF, 0⟩,
         ⟨0x020, 1, 4, 1, .w1s, eventMask k i, 0⟩])

/-- `GLB[0]` (02_modes.md). -/
def glbRows : List RegRow :=
  [⟨0x040, 1, 4, 1, .ro, 0, 0x42560000 + Config.stepping.toNat⟩, ⟨0x044, 1, 4, 1, .wo, 0x10F, 0⟩,
   ⟨0x048, 1, 4, 1, .ro, 0, 2⟩, ⟨0x04C, 1, 4, 1, .ro, 0, 0⟩, ⟨0x050, 1, 4, 1, .rc, 0, 0⟩,
   ⟨0x054, 1, 4, 1, .ro, 0, 0⟩, ⟨0x058, 1, 4, 1, .rws, 1, 0⟩, ⟨0x05C, 1, 4, 1, .ro, 0, 0⟩,
   ⟨0x060, 1, 4, 1, .ro, 0, 0⟩, ⟨0x064, 1, 4, 1, .rw, 0x7FFFFF, 0x007F0032⟩, ⟨0x068, 1, 4, 1, .rws, 1, 0⟩,
   ⟨0x06C, 1, 4, 1, .ro, 0, 0⟩, ⟨0x070, 1, 4, 1, .wo, 0x7FFFF, 0⟩, ⟨0x074, 1, 4, 1, .ro, 0, 0⟩]

/-- `HLK[0]` and its DMA blocks (20_host_satchel.md). -/
def hlkRows : List RegRow :=
  [⟨0x040, 1, 4, 1, .ro, 0, 0⟩, ⟨0x044, 1, 4, 1, .ro, 0, 0x42560000 + Config.vendorId.toNat⟩,
   ⟨0x048, 1, 8, 2, .rw, 0xFFFFC0000000, 0⟩, ⟨0x050, 1, 4, 1, .ro, 0, 0⟩, ⟨0x054, 1, 4, 1, .rc, 0, 0⟩,
   ⟨0x058, 1, 4, 1, .rw, 0x3FFFFFF, 0⟩, ⟨0x05C, 1, 4, 1, .rw, 0x1FF03, 0⟩, ⟨0x060, 1, 4, 1, .ro, 0, 0⟩] ++
  [⟨0x100, 8, 0x40, 2, .rw, 0xFFFFFFFFFFE0, 0⟩, ⟨0x108, 8, 0x40, 1, .w1s, 3, 0⟩,
   ⟨0x10C, 8, 0x40, 1, .rw, 0xFFFFFFFF, 0⟩, ⟨0x110, 8, 0x40, 1, .ro, 0, 0⟩, ⟨0x114, 8, 0x40, 1, .ro, 0, 0⟩,
   ⟨0x118, 8, 0x40, 2, .ro, 0, 0⟩, ⟨0x120, 8, 0x40, 2, .ro, 0, 0⟩]

/-- Both `SAT` pages (20_host_satchel.md); `CREDIT[k]` resets to the class's credits, all available (R403). -/
def satRows (host : Bool) : List RegRow :=
  [⟨0x040, 1, 4, 1, .ro, 0, 0⟩, ⟨0x044, 1, 4, 1, .ro, 0, 0⟩, ⟨0x048, 1, 4, 1, .ro, 0, 0x200020⟩,
   ⟨0x04C, 1, 4, 1, .ro, 0, 0x400040⟩, ⟨0x050, 1, 4, 1, .ro, 0, 0x800080⟩, ⟨0x054, 1, 4, 1, .ro, 0, 0x200020⟩,
   ⟨0x058, 1, 4, 1, .ro, 0, 0x040004⟩, ⟨0x05C, 1, 4, 1, .ro, 0, 0x100010⟩, ⟨0x060, 1, 4, 1, .rc, 0, 0⟩,
   ⟨0x06C, 1, 4, 1, .ro, 0, 0⟩] ++
  (if host then [⟨0x064, 1, 4, 1, .rc, 0, 0⟩, ⟨0x068, 1, 4, 1, .rc, 0, 0⟩, ⟨0x080, 16, 4, 1, .ro, 0, 0⟩] else [])

/-- `CHN[n]` (04_channels_desks_sites.md; the waveform library of 05_wavetables_edges.md, R90). -/
def chnRows : List RegRow :=
  [⟨0x040, 1, 4, 1, .rw, 0x3F03, 0⟩, ⟨0x044, 1, 4, 1, .rw, 0xFFFF0007, 0⟩, ⟨0x048, 1, 4, 1, .rw, 0x7C, 0xC⟩,
   ⟨0x04C, 4, 4, 1, .rw, 0xFFFFF, 0⟩, ⟨0x060, 1, 4, 1, .ro, 0, 0⟩, ⟨0x064, 1, 4, 1, .ro, 0, 0⟩,
   ⟨0x400, 384, 8, 2, .rw, 0xF0FFFFFFFFF, 0⟩]

/-- `DSK[n]` (04_channels_desks_sites.md); the PE_CTL registers are in `DSK[8g]` only. -/
def dskRows (i : Nat) : List RegRow :=
  [⟨0x040, 1, 4, 1, .rw, 0x1FCF, 0⟩, ⟨0x044, 1, 4, 1, .ro, 0, 1⟩, ⟨0x048, 1, 8, 2, .ro, 0, 0⟩] ++
  (if i % 8 = 0 then
    [⟨0x200, 2, 0x100, 1, .rw, 0xFF037F00, 0x07000100⟩, ⟨0x204, 2, 0x100, 1, .ro, 0, 0⟩,
     ⟨0x240, 16, 4, 1, .rw, 0xFFFFFFFF, 0⟩, ⟨0x280, 16, 4, 1, .ro, 0, 0⟩,
     ⟨0x340, 16, 4, 1, .rw, 0xFFFFFFFF, 0⟩, ⟨0x380, 16, 4, 1, .ro, 0, 0⟩]
   else [])

/-- `SIG[n]` (09_signatures_check.md). -/
def sigRows : List RegRow :=
  [⟨0x040, 1, 4, 1, .rw, 0x3FF, 0⟩, ⟨0x044, 1, 4, 1, .rc, 0, 0⟩,
   ⟨0x048, 1, 8, 2, .rw, 0xFFFFFFFFFFFFFFFF, 0xFFFFFFFFFFFFFFFF⟩,
   ⟨0x080, 16, 0x20, 2, .ro, 0, 0xFFFFFFFFFFFFFFFF⟩, ⟨0x088, 16, 0x20, 2, .ro, 0, 0⟩,
   ⟨0x090, 16, 0x20, 1, .ro, 0, 0⟩, ⟨0x094, 16, 0x20, 1, .ro, 0, 0⟩, ⟨0x098, 16, 0x20, 1, .ro, 0, 0⟩,
   ⟨0x09C, 16, 0x20, 1, .ro, 0, 0⟩]

/-- Page 0 of a sequencer (06_segments_sequencer.md). -/
def seq0Rows : List RegRow :=
  [⟨0x040, 1, 8, 2, .rw, 0xFFFFFFFFFFC0, 0⟩, ⟨0x048, 1, 8, 2, .rw, 0xFFFFFFFFFFFFFFFF, 0xFFFFFFFFFFFFFFFF⟩,
   ⟨0x050, 1, 4, 1, .rw, 0x1FFFFF, 0⟩, ⟨0x054, 1, 4, 1, .rw, 0x30, 0⟩, ⟨0x058, 1, 4, 1, .rw, 0x1FFFFF, 0⟩,
   ⟨0x05C, 1, 4, 1, .rw, 0xFFFFFFFF, 0⟩, ⟨0x060, 1, 4, 1, .ro, 0, 0⟩, ⟨0x064, 1, 4, 1, .rw, 0xF1, 0⟩,
   ⟨0x068, 1, 4, 1, .wo, 0xF, 0⟩, ⟨0x06C, 1, 4, 1, .ro, 0, 0⟩] ++
  [⟨0x070, 2, 4, 1, .rc, 0, 0⟩, ⟨0x078, 1, 4, 1, .rw, 1, 0⟩, ⟨0x07C, 1, 4, 1, .rw, 0xFFFFFFFF, 0x400⟩,
   ⟨0x080, 6, 4, 1, .ro, 0, 0⟩, ⟨0x098, 1, 4, 1, .rc, 0, 0⟩, ⟨0x09C, 1, 4, 1, .ro, 0, 0⟩,
   ⟨0x0A0, 4, 4, 1, .ro, 0, 0⟩, ⟨0x0B0, 1, 8, 2, .ro, 0, 0⟩]

/-- Page 1, the timeset page (05_wavetables_edges.md). -/
def seq1Rows : List RegRow :=
  [⟨0x040, 1, 4, 1, .ro, 0, 0⟩, ⟨0x044, 1, 4, 1, .rc, 0, 0⟩, ⟨0x048, 1, 4, 1, .ro, 0, 0⟩,
   ⟨0x800, 256, 8, 2, .rw, 0xF1FFFFFFFFF, 0xA00⟩]

/-- Page 2 (06_segments_sequencer.md). -/
def seq2Rows : List RegRow :=
  [⟨0x040, 1, 4, 1, .ro, 0, 0⟩, ⟨0x080, 16, 4, 1, .rw, 0xFFFFF, 0⟩, ⟨0x0C0, 16, 4, 1, .rw, 1, 0⟩,
   ⟨0x100, 128, 4, 1, .rw, 0xFFFFFFFF, 0⟩]

/-- Page 3: the call stack and the underrun record. -/
def seq3Rows : List RegRow :=
  [⟨0x040, 16, 4, 1, .ro, 0, 0⟩, ⟨0x100, 12, 4, 1, .ro, 0, 0⟩, ⟨0x130, 1, 16, 4, .ro, 0, 0⟩]

/-- `DEC[0]` (07_decanters_streaming.md). -/
def dec0Rows : List RegRow :=
  [⟨0x040, 1, 4, 1, .rw, 0x7FFF, 0x200⟩, ⟨0x044, 1, 4, 1, .wo, 1, 0⟩, ⟨0x048, 1, 4, 1, .ro, 0, 0⟩,
   ⟨0x050, 4, 4, 1, .rc, 0, 0⟩, ⟨0x080, 16, 4, 1, .rw, 0x8000FFFF, 0⟩, ⟨0x0C0, 16, 4, 1, .rw, 0xFFFF, 0⟩,
   ⟨0x100, 16, 4, 1, .rw, 0xFFFFFFFF, 0⟩, ⟨0x140, 16, 4, 1, .rw, 0xFFFF, 0⟩, ⟨0x180, 16, 4, 1, .ro, 0, 0⟩,
   ⟨0x1C0, 16, 4, 1, .ro, 0, 0⟩]

/-- A slice page `DEC[1 + n]`. -/
def decSRows : List RegRow :=
  [⟨0x040, 1, 4, 1, .rw, 1, 0⟩, ⟨0x044, 1, 4, 1, .ro, 0, 0⟩, ⟨0x048, 1, 4, 1, .ro, 0, 0x10000⟩,
   ⟨0x04C, 3, 4, 1, .ro, 0, 0⟩, ⟨0x058, 1, 4, 1, .rc, 0, 0⟩, ⟨0x400, 256, 4, 1, .rw, 0xFFFFFFFF, 0⟩]

/-- `CMP[0]` (08_compare_capture.md). -/
def cmp0Rows : List RegRow :=
  [⟨0x040, 1, 4, 1, .rw, 1, 0⟩, ⟨0x044, 1, 4, 1, .rw, 0x3FFFFFF, 0x400⟩, ⟨0x048, 1, 8, 2, .rw, 0xFFFFFFFFF000, 0⟩,
   ⟨0x050, 1, 4, 1, .rw, 0x7FFFFFF, 0x400⟩, ⟨0x054, 1, 4, 1, .ro, 0, 0⟩, ⟨0x058, 1, 4, 1, .rw, 0x3FFFFFF, 0⟩,
   ⟨0x05C, 1, 4, 1, .rc, 0, 0⟩, ⟨0x060, 1, 8, 2, .ro, 0, 0⟩, ⟨0x068, 1, 4, 1, .rw, 0xFFFF0001, 0⟩,
   ⟨0x06C, 1, 4, 1, .rw, 0x7FFFFFF, 0x400⟩, ⟨0x070, 1, 8, 2, .rw, 0xFFFFFFFFF000, 0⟩] ++
  [⟨0x078, 1, 4, 1, .ro, 0, 0⟩, ⟨0x07C, 1, 4, 1, .rw, 0x3FFFFFF, 0⟩, ⟨0x080, 2, 4, 1, .rc, 0, 0⟩,
   ⟨0x090, 16, 4, 1, .rw, 0x800000FF, 0⟩, ⟨0x100, 16, 0x20, 2, .rw, 0xFFFFFFFFF000, 0⟩,
   ⟨0x108, 16, 0x20, 1, .rw, 0xE000FFFF, 0⟩, ⟨0x10C, 16, 0x20, 1, .rw, 0xFFFFFFFF, 0⟩,
   ⟨0x110, 16, 0x20, 1, .rw, 0xFFFFFFFF, 0⟩, ⟨0x114, 16, 0x20, 1, .ro, 0, 0⟩, ⟨0x118, 16, 0x20, 1, .ro, 0, 0⟩,
   ⟨0x300, 1, 4, 1, .rw, 0xFFFFFFFF, 0⟩, ⟨0x340, 16, 4, 1, .ro, 0, 0⟩, ⟨0x800, 256, 8, 2, .ro, 0, 0⟩]

/-- A site page `CMP[1 + h]` with its site blocks. -/
def cmpSRows : List RegRow :=
  [⟨0x040, 2, 4, 1, .ro, 0, 0⟩, ⟨0x080, 32, 4, 1, .rw, 0x8000FFFF, 0x80000000⟩,
   ⟨0x400, 32, 0x20, 1, .ro, 0, 0⟩, ⟨0x404, 32, 0x20, 1, .ro, 0, 0⟩, ⟨0x408, 32, 0x20, 2, .ro, 0, 0⟩,
   ⟨0x410, 32, 0x20, 2, .ro, 0, 0⟩, ⟨0x418, 32, 0x20, 1, .ro, 0, 0⟩, ⟨0x41C, 32, 0x20, 1, .ro, 0, 0⟩]

/-- `TIM[0]` (10_time_measurement.md). -/
def tim0Rows : List RegRow :=
  [⟨0x040, 1, 4, 1, .ro, 0, 0⟩, ⟨0x044, 1, 4, 1, .rw, 3, 0⟩, ⟨0x048, 1, 8, 2, .ro, 0, 0⟩,
   ⟨0x050, 1, 8, 2, .rw, 0xFFFFFFFFF000, 0⟩, ⟨0x058, 1, 4, 1, .rw, 0x7FFFFFF, 0x400⟩, ⟨0x05C, 1, 4, 1, .ro, 0, 0⟩,
   ⟨0x060, 1, 4, 1, .rw, 0x3FFFFFF, 0⟩, ⟨0x064, 1, 4, 1, .rw, 0x3FFFFFF, 0x400⟩, ⟨0x068, 1, 4, 1, .rc, 0, 0⟩,
   ⟨0x06C, 1, 4, 1, .rw, 0xFFFF, 0x3E8⟩, ⟨0x070, 8, 4, 1, .rw, 0x80000FFF, 0⟩, ⟨0x090, 8, 4, 1, .ro, 0, 0⟩]

/-- An engine page: 32 TDC engine blocks. -/
def timERows : List RegRow :=
  [⟨0x400, 32, 0x40, 1, .rw, 0x0FF1F000, 0⟩, ⟨0x404, 32, 0x40, 1, .rw, 0xFFF, 0⟩, ⟨0x408, 32, 0x40, 1, .rw, 0xFFF, 0⟩,
   ⟨0x40C, 32, 0x40, 1, .rw, 0xFFFFFFFF, 0xC80⟩, ⟨0x410, 32, 0x40, 1, .rw, 0xFFFFFFFF, 0⟩,
   ⟨0x414, 32, 0x40, 1, .rw, 0xFFFFFFFF, 0⟩, ⟨0x418, 32, 0x40, 2, .rw, 0x1FFFFFFFFF, 0xA00⟩,
   ⟨0x420, 32, 0x40, 1, .w1s, 7, 0⟩, ⟨0x424, 32, 0x40, 1, .rw, 0xFFFFFFFF, 0⟩] ++
  [⟨0x428, 32, 0x40, 1, .ro, 0, 0⟩, ⟨0x42C, 32, 0x40, 1, .ro, 0, 0⟩, ⟨0x430, 32, 0x40, 1, .rc, 0, 0⟩,
   ⟨0x434, 32, 0x40, 1, .rc, 0, 0⟩, ⟨0x438, 32, 0x40, 1, .rc, 0, 0⟩, ⟨0x43C, 32, 0x40, 1, .rc, 0, 0⟩]

/-- The default map mask of selector `k` of a store (R224). -/
def mapDefault (near : Bool) (k : Nat) : Nat :=
  if near then
    [0x8001, 0x10002, 0x20004, 0x40008, 0x80010, 0x100020, 0x200400, 0x400800, 0x801000, 0x1002000,
     0x2004000].getD k 0
  else
    [0x1, 0x12, 0x24, 0x48, 0x400800, 0x801000, 0x1002000, 0x2004000, 0x4008000].getD k 0

/-- The selectors a store has (R224): 9 of the cellar, 11 of the near store. -/
def mapRows (near : Bool) : List RegRow :=
  (List.range (if near then 11 else 9)).map fun k =>
    ⟨0x140 + 8 * k, 1, 8, 2, .rws, 0xFFFFFFFFFF, mapDefault near k⟩

/-- `CEL[c]` (11_cellar_controllers.md); the store registers are in `CEL[0]` and `CEL[8]` only. -/
def celRows (i : Nat) : List RegRow :=
  [⟨0x040, 3, 4, 1, .ro, 0, 0⟩, ⟨0x04C, 3, 4, 1, .rc, 0, 0⟩, ⟨0x058, 1, 8, 2, .ro, 0, 0⟩, ⟨0x060, 1, 4, 1, .ro, 0, 0⟩,
   ⟨0x064, 1, 4, 1, .rws, 0x3F003F, 0x100030⟩, ⟨0x068, 1, 4, 1, .rws, 0x800000FF, 0x80000018⟩] ++
  (if i = 0 ∨ i = 8 then
    [⟨0x100, 1, 4, 1, .ro, 0, 0⟩, ⟨0x200, 2, 4, 1, .rws, 0x8FFFFFFF, 0⟩, ⟨0x208, 1, 4, 1, .rws, 0x8FFFFFFF, 0x81000180⟩,
     ⟨0x20C, 1, 4, 1, .rws, 0x8FFFFFFF, 0x80400040⟩, ⟨0x210, 1, 4, 1, .rws, 0x8FFFFFFF, 0x80400020⟩,
     ⟨0x214, 1, 4, 1, .rws, 0x8FFFFFFF, 0x80400010⟩, ⟨0x220, 6, 4, 1, .ro, 0, 0⟩, ⟨0x240, 6, 8, 2, .ro, 0, 0⟩] ++
    mapRows (i = 8)
   else [])

/-- `TTB[0]` (12_timetable.md). -/
def ttb0Rows : List RegRow :=
  [⟨0x040, 1, 4, 1, .rw, 0xFFF, 0⟩, ⟨0x044, 8, 4, 1, .rw, 0xFFFFFFFF, 0⟩, ⟨0x064, 3, 4, 1, .ro, 0, 0⟩,
   ⟨0x070, 1, 4, 1, .wo, 0xFC00FFFF, 0⟩, ⟨0x074, 1, 4, 1, .rc, 0, 0⟩, ⟨0x078, 3, 4, 1, .ro, 0, 0⟩,
   ⟨0x084, 1, 4, 1, .rc, 0, 0⟩, ⟨0x088, 1, 8, 2, .ro, 0, 0⟩, ⟨0x090, 1, 8, 2, .ro, 0, 0⟩, ⟨0x200, 128, 4, 1, .ro, 0, 0⟩]

/-- `TTB[1]`: the eight submission queues, staging words 0 to 8 in separate rows of stride 0x40. -/
def ttb1Rows : List RegRow :=
  (List.range 9).map (fun i =>
    ⟨0x040 + 4 * i, 8, 0x40, 1, .rw, if i = 0 then 0xFC000FFF else if i = 1 then 0xFFFCFFFF else 0xFFFFFFFF, 0⟩) ++
  [⟨0x064, 8, 0x40, 1, .wo, 1, 0⟩, ⟨0x068, 8, 0x40, 1, .ro, 0, 0x100⟩, ⟨0x06C, 8, 0x40, 1, .rc, 0, 0⟩,
   ⟨0x070, 8, 0x40, 1, .ro, 0, 0⟩]

/-- A delay-list page `TTB[2 + b]`. -/
def ttbDRows : List RegRow :=
  [⟨0x040, 1, 16, 4, .rw, 0xFFFFFFFFFFFFFFFFFFFFFFFF0000FFFF, 0⟩, ⟨0x050, 1, 4, 1, .rw, 0xE0003FFF, 0⟩,
   ⟨0x054, 1, 4, 1, .rw, 0xFFFF, 0⟩, ⟨0x058, 1, 4, 1, .wo, 7, 0⟩, ⟨0x05C, 2, 4, 1, .ro, 0, 0⟩,
   ⟨0x064, 2, 4, 1, .rc, 0, 0⟩, ⟨0x06C, 1, 4, 1, .ro, 0, 0⟩, ⟨0x070, 1, 16, 4, .ro, 0, 0⟩,
   ⟨0x080, 1, 4, 1, .ro, 0, 0⟩, ⟨0x090, 1, 16, 4, .ro, 0, 0⟩, ⟨0x0A0, 1, 16, 4, .ro, 0, 0⟩]

/-- `BUR[0]` (13_bursar.md). -/
def bur0Rows : List RegRow :=
  [⟨0x040, 1, 4, 1, .rws, 0xFF, 0xF0⟩, ⟨0x044, 1, 4, 1, .ro, 0, 0⟩, ⟨0x048, 1, 4, 1, .rws, 0xF, 8⟩,
   ⟨0x04C, 1, 4, 1, .ro, 0, 0⟩, ⟨0x050, 1, 4, 1, .rws, 0xFFFFFFFF, 0x011A49A0⟩, ⟨0x058, 5, 8, 2, .ro, 0, 0⟩,
   ⟨0x080, 1, 4, 1, .ro, 0, 0⟩, ⟨0x084, 1, 4, 1, .rc, 0, 0⟩, ⟨0x088, 1, 4, 1, .ro, 0, 0⟩]

/-- `BUR[1]`: the thermal sensors. -/
def bur1Rows : List RegRow :=
  [⟨0x040, 1, 4, 1, .rw, 0xFFF, 0x2F8⟩, ⟨0x044, 1, 4, 1, .rw, 0xFFF, 0x348⟩, ⟨0x048, 1, 4, 1, .rw, 0xFFFF, 0x50A⟩,
   ⟨0x04C, 1, 4, 1, .ro, 0, 0⟩, ⟨0x050, 1, 8, 2, .rw, 0xFFFFFFFFFFFFFFFF, 0xFFFFFFFFFFFFFFFF⟩,
   ⟨0x058, 1, 4, 1, .rc, 0, 0⟩, ⟨0x100, 64, 4, 1, .ro, 0, 0⟩]

/-- `FLW[0]` (14_flow_services.md). -/
def flw0Rows : List RegRow :=
  [⟨0x040, 1, 8, 2, .rw, 0xFFFFFFFFFFE0, 0⟩, ⟨0x048, 1, 4, 1, .rw, 0x7FFF, 0⟩, ⟨0x04C, 1, 4, 1, .rw, 0x1FFFF, 0⟩,
   ⟨0x050, 1, 8, 2, .rw, 0xFFFFFFFFFFE0, 0⟩, ⟨0x058, 1, 8, 2, .rw, 0xFFFFFFFFFFF8, 0⟩,
   ⟨0x060, 1, 8, 2, .rw, 0xFFFFFFFFF000, 0⟩, ⟨0x068, 1, 4, 1, .rw, 0x7FFFFFF, 0x400⟩, ⟨0x06C, 1, 4, 1, .ro, 0, 0⟩,
   ⟨0x070, 1, 4, 1, .rw, 0x3FFFFFF, 0⟩, ⟨0x074, 1, 4, 1, .rw, 0xFFFF001F, 8⟩, ⟨0x078, 1, 8, 2, .ro, 0, 0⟩] ++
  [⟨0x080, 1, 4, 1, .rw, 0x3FFF, 0⟩, ⟨0x084, 1, 4, 1, .rw, 0xFFFFFFFF, 0⟩, ⟨0x088, 1, 4, 1, .w1s, 3, 0⟩,
   ⟨0x08C, 3, 4, 1, .ro, 0, 0⟩, ⟨0x098, 1, 4, 1, .rw, 0x8000FFFF, 0xA⟩, ⟨0x0A0, 4, 4, 1, .ro, 0, 0⟩,
   ⟨0x0C0, 4, 8, 2, .ro, 0, 0⟩, ⟨0x100, 32, 4, 1, .ro, 0, 0⟩, ⟨0x200, 64, 4, 1, .ro, 0, 0⟩]

/-- A site page `FLW[1 + h]`: two maps and 32 report cards of 16 words. -/
def flwSRows : List RegRow :=
  [⟨0x040, 2, 4, 1, .ro, 0, 0⟩, ⟨0x400, 32, 0x40, 1, .ro, 0, 0⟩, ⟨0x404, 32, 0x40, 1, .ro, 0, 0⟩, ⟨0x408, 32, 0x40, 1, .ro, 0, 0⟩,
   ⟨0x40C, 32, 0x40, 1, .ro, 0, 0⟩, ⟨0x410, 32, 0x40, 2, .ro, 0, 0⟩, ⟨0x418, 32, 0x40, 2, .ro, 0, 0⟩,
   ⟨0x420, 32, 0x40, 1, .ro, 0, 0⟩, ⟨0x424, 32, 0x40, 1, .ro, 0, 0⟩, ⟨0x428, 32, 0x40, 1, .ro, 0, 0⟩,
   ⟨0x42C, 32, 0x40, 1, .ro, 0, 0⟩, ⟨0x430, 32, 0x40, 4, .ro, 0, 0⟩]

/-- `COR[0]` (15_corridor.md). -/
def cor0Rows : List RegRow :=
  [⟨0x040, 1, 4, 1, .rw, 0xFFFF, 0x100⟩, ⟨0x044, 1, 4, 1, .ro, 0, 0⟩, ⟨0x048, 1, 4, 1, .rc, 0, 0⟩,
   ⟨0x04C, 1, 4, 1, .ro, 0, 0⟩, ⟨0x050, 1, 4, 1, .rw, 0xFFFFFFFF, 0⟩, ⟨0x054, 1, 4, 1, .rw, 0xFFFFFFFF, 0⟩,
   ⟨0x058, 1, 4, 1, .rw, 0xFFFF, 0⟩, ⟨0x05C, 1, 4, 1, .rw, 0xFF, 4⟩, ⟨0x060, 1, 4, 1, .ro, 0, 0⟩,
   ⟨0x064, 1, 4, 1, .rc, 0, 0⟩, ⟨0x068, 3, 8, 2, .ro, 0, 0⟩]

/-- `COR[1]`: the selectors. Reserved consumers (R301) read 0 and ignore writes, so they have no row. -/
def cor1Rows : List RegRow :=
  [⟨0x800, 185, 4, 1, .rw, 0xFFF, 0⟩, ⟨0xB00, 24, 4, 1, .rw, 0xFFF, 0⟩]

/-- `CHK[n]` (09_signatures_check.md). -/
def chkRows : List RegRow :=
  [⟨0x040, 1, 4, 1, .rw, 0x77F, 0x320⟩, ⟨0x048, 1, 8, 2, .rw, 0xFFFFFFFFFFFFFFFF, 0x04C11DB7⟩,
   ⟨0x050, 2, 8, 2, .rw, 0xFFFFFFFFFFFFFFFF, 0xFFFFFFFF⟩, ⟨0x060, 1, 8, 2, .rw, 0xFFFFFFFFFFFFFFFF, 0⟩,
   ⟨0x068, 1, 8, 2, .rw, 0xFFFFFFFFFFFFFFFF, 0xFFFFFFFF⟩, ⟨0x070, 1, 8, 2, .ro, 0, 0⟩,
   ⟨0x078, 1, 8, 2, .rw, 0xFFFFFFFFFFFF, 0⟩, ⟨0x080, 1, 4, 1, .rw, 0xFFFFFFFF, 0⟩, ⟨0x084, 1, 4, 1, .w1s, 0xF, 0⟩,
   ⟨0x088, 1, 4, 1, .rw, 0xFFFFFFFF, 0⟩, ⟨0x08C, 1, 4, 1, .ro, 0, 0⟩, ⟨0x090, 3, 4, 1, .wo, 0, 0⟩,
   ⟨0x09C, 1, 4, 1, .rc, 0, 0⟩]

/-- `VIN[0]` (16_calibration.md). -/
def vin0Rows : List RegRow :=
  [⟨0x040, 1, 4, 1, .rw, 0xFF, 3⟩, ⟨0x044, 1, 4, 1, .rw, 0xFFFFFFFF, 0xFFFFFFFF⟩, ⟨0x048, 1, 4, 1, .w1s, 3, 0⟩,
   ⟨0x04C, 1, 4, 1, .rw, 0xFFFFFFFF, 0⟩, ⟨0x050, 1, 4, 1, .ro, 0, 0⟩, ⟨0x054, 1, 4, 1, .rw, 0x8000FFFF, 0x80000018⟩,
   ⟨0x058, 1, 4, 1, .rw, 0xFFFFFFFF, 0x9C40⟩, ⟨0x05C, 1, 4, 1, .ro, 0, 0⟩, ⟨0x060, 1, 8, 2, .ro, 0, 0xBFE000000⟩,
   ⟨0x068, 1, 8, 2, .rw, 0xFFFFFFFFFFF0, 0⟩]

/-- `VIN[1]`: `SLOT_ID[i]` and `SLOT_FLAGS[i]`, `DESK_ACT`, `ENGINE_SLOT`, `NEWEST`. -/
def vin1Rows : List RegRow :=
  [⟨0x040, 16, 8, 1, .ro, 0, 0⟩, ⟨0x044, 16, 8, 1, .rws, 0xC0000000, 0⟩, ⟨0x0C0, 4, 4, 1, .ro, 0, 0⟩,
   ⟨0x0E0, 2, 4, 1, .ro, 0, 0⟩]

/-- A link block at offset `o` of a summary page (17_lanes.md). -/
def linkRows (o : Nat) : List RegRow :=
  [⟨o, 1, 4, 1, .rw, 3, 3⟩, ⟨o + 4, 6, 4, 1, .ro, 0, 0⟩, ⟨o + 0x1C, 3, 4, 1, .rc, 0, 0⟩, ⟨o + 0x28, 2, 4, 1, .ro, 0, 0⟩]

/-- A lane page. -/
def lanLRows : List RegRow :=
  [⟨0x040, 1, 4, 1, .rw, 2, 0⟩, ⟨0x044, 1, 4, 1, .ro, 0, 0⟩, ⟨0x048, 1, 4, 1, .ro, 0, 0x3F00⟩, ⟨0x04C, 4, 4, 1, .ro, 0, 0⟩,
   ⟨0x05C, 1, 4, 1, .rc, 0, 0⟩, ⟨0x060, 1, 4, 1, .rw, 0x310, 0⟩, ⟨0x064, 1, 4, 1, .rw, 0x0FFF003F, 0⟩,
   ⟨0x068, 1, 4, 1, .ro, 0, 0⟩, ⟨0x070, 2, 8, 2, .ro, 0, 0⟩]

/-- `RNG[0]` with the Bell registers (18_ring_time.md, 19_alignment.md). -/
def rngRows : List RegRow :=
  [⟨0x040, 1, 4, 1, .rws, 0xF03, 0x600⟩, ⟨0x044, 1, 4, 1, .ro, 0, 0⟩, ⟨0x048, 1, 8, 2, .ro, 0, Config.uid.toNat⟩,
   ⟨0x050, 1, 4, 1, .ro, 0, Config.bypDelay.toNat⟩, ⟨0x054, 1, 4, 1, .w1s, 1, 0⟩, ⟨0x058, 1, 4, 1, .ro, 0, 0⟩,
   ⟨0x05C, 1, 4, 1, .rc, 0, 0⟩, ⟨0x060, 3, 4, 1, .ro, 0, 0⟩, ⟨0x06C, 1, 4, 1, .rw, 0xFFFFFFFF, 0⟩,
   ⟨0x070, 3, 4, 1, .ro, 0, 0⟩, ⟨0x07C, 1, 4, 1, .rw, 0xFFFFFFFF, 0⟩] ++
  [⟨0x080, 1, 4, 1, .rw, 0xFFFF, 0⟩, ⟨0x084, 1, 4, 1, .rc, 0, 0⟩, ⟨0x088, 1, 4, 1, .wo, 0xFF, 0⟩,
   ⟨0x090, 1, 8, 2, .rw, 0xFFFFFFFFFFFF, 0⟩, ⟨0x098, 1, 4, 1, .rw, 0xFFFF81FF, 0⟩, ⟨0x09C, 1, 4, 1, .w1s, 1, 0⟩,
   ⟨0x0A0, 1, 4, 1, .ro, 0, 0⟩, ⟨0x0A4, 1, 4, 1, .rw, 0x1FFFF, 0x40⟩, ⟨0x0A8, 1, 8, 2, .rw, 0xFFFFFFFFF000, 0⟩,
   ⟨0x0B0, 1, 4, 1, .ro, 0, 0⟩, ⟨0x0B4, 1, 4, 1, .rw, 0xFFFF, 0⟩] ++
  [⟨0x0B8, 1, 4, 1, .ro, 0, 0⟩, ⟨0x0BC, 1, 4, 1, .rc, 0, 0⟩, ⟨0x0C0, 1, 4, 1, .ro, 0, 0⟩, ⟨0x0C4, 1, 16, 4, .ro, 0, 0⟩,
   ⟨0x0D4, 1, 4, 1, .wo, 1, 0⟩, ⟨0x100, 16, 4, 1, .rw, 0xFF, 0xFF⟩, ⟨0x140, 16, 4, 1, .ro, 0, 0⟩] ++
  [⟨0x180, 1, 4, 1, .rw, 0x1FFFF, 0x3E8⟩, ⟨0x184, 1, 4, 1, .rw, 0xFFFFF, 0⟩, ⟨0x188, 1, 4, 1, .rw, 0xFFFF, 0⟩,
   ⟨0x18C, 1, 4, 1, .rw, 0xFFFFF, 0⟩, ⟨0x190, 1, 4, 1, .rw, 0xFFFFFFFF, 0x00FA0000⟩, ⟨0x194, 1, 4, 1, .rc, 0, 0⟩,
   ⟨0x198, 1, 4, 1, .ro, 0, 0⟩, ⟨0x1A0, 1, 4, 1, .wo, 0x1FF, 0⟩, ⟨0x1C0, 8, 4, 1, .rw, 0xFFFFF, 0⟩,
   ⟨0x200, 16, 4, 1, .rw, 0xF, 0⟩] ++
  [⟨0x400, 16, 0x40, 4, .rw, 0xFFFFFFFFFFFFFFFFFFFFFFFF0000FFFF, 0⟩, ⟨0x410, 16, 0x40, 1, .wo, 0x1F3, 0⟩,
   ⟨0x414, 16, 0x40, 1, .ro, 0, 0⟩, ⟨0x418, 16, 0x40, 1, .ro, 0, 0⟩]

/-- `TKP[0]` with the four time-base blocks (18_ring_time.md). `CFG` of TB0 and TB1 is all reserved. -/
def tkpRows : List RegRow :=
  [⟨0x040, 1, 8, 2, .rw, 0xFFFFFFFFFFFFFF, 0⟩, ⟨0x048, 1, 4, 1, .rw, 0x83FF0003, 0⟩, ⟨0x04C, 1, 4, 1, .ro, 0, 0⟩,
   ⟨0x050, 1, 16, 4, .ro, 0, 0⟩, ⟨0x060, 1, 4, 1, .rw, 1, 0⟩, ⟨0x100, 4, 0x40, 4, .ro, 0, 0⟩,
   ⟨0x110, 4, 0x40, 4, .rw, 0xFFFFFFFFFFFFFFFFFFFFFFFF0000FFFF, 0⟩, ⟨0x1A0, 2, 0x40, 1, .rw, 0xFC03, 0⟩,
   ⟨0x124, 4, 0x40, 1, .ro, 0, 0⟩, ⟨0x128, 4, 0x40, 1, .ro, 0, 0⟩, ⟨0x12C, 4, 0x40, 1, .ro, 0, 0⟩,
   ⟨0x130, 4, 0x40, 1, .ro, 0, 0⟩]

/-- `GAL[0]` (22_gallery.md). -/
def gal0Rows : List RegRow :=
  [⟨0x040, 1, 4, 1, .rw, 0xC0FF0000, 0⟩, ⟨0x044, 1, 4, 1, .w1s, 3, 0⟩, ⟨0x048, 2, 4, 1, .ro, 0, 0⟩,
   ⟨0x050, 1, 4, 1, .rc, 0, 0⟩, ⟨0x054, 1, 4, 1, .rw, 0xFFFFF, 0⟩, ⟨0x058, 1, 8, 2, .rw, 0xFFFFFFFFF000, 0⟩,
   ⟨0x060, 1, 4, 1, .rw, 0x7FFFFFF, 0x400⟩, ⟨0x064, 1, 4, 1, .ro, 0, 0⟩, ⟨0x068, 1, 4, 1, .rw, 0x3FFFFFF, 0⟩,
   ⟨0x06C, 1, 4, 1, .rw, 0x3FFFFFF, 0⟩, ⟨0x070, 1, 4, 1, .ro, 0, 0⟩, ⟨0x074, 1, 4, 1, .rw, 0x7FFFF, 0⟩,
   ⟨0x080, 16, 4, 1, .rw, 0x8FFF0FFF, 0⟩, ⟨0x800, 512, 4, 1, .ro, 0, 0⟩]

/-- `GAL[1]`: the counters. -/
def gal1Rows : List RegRow :=
  [⟨0x040, 1, 4, 1, .rw, 0x3FF, 0⟩, ⟨0x044, 1, 4, 1, .rw, 0xB0000FFF, 0⟩, ⟨0x048, 1, 4, 1, .rw, 3, 0⟩,
   ⟨0x04C, 1, 4, 1, .w1s, 3, 0⟩, ⟨0x050, 1, 8, 2, .ro, 0, 0⟩, ⟨0x800, 256, 8, 2, .ro, 0, 0⟩]

/-- `PWR[0]` (21_pruning_conservation.md). -/
def pwrRows : List RegRow :=
  [⟨0x040, 1, 4, 1, .ro, 0, 0⟩, ⟨0x044, 1, 4, 1, .rw, 7, 0⟩, ⟨0x048, 4, 4, 1, .rc, 0, 0⟩, ⟨0x058, 4, 4, 1, .ro, 0, 0⟩,
   ⟨0x080, 1, 4, 1, .ro, 0, 0⟩, ⟨0x084, 1, 4, 1, .rc, 0, 0⟩, ⟨0x088, 1, 4, 1, .wo, 1, 0⟩, ⟨0x090, 8, 4, 1, .ro, 0, 0⟩]

/-- The block registers of page `i` of a layout, after the header. -/
def blockRows : PageKind → Nat → List RegRow
  | .glb0, _ => glbRows | .glb1, _ => [] | .hlk, _ => hlkRows | .sat0, _ => satRows true
  | .fsh, _ => [⟨0x800, 64, 4, 1, .rw, 0xFFFFFFFF, 0⟩] | .sat1, _ => satRows false | .chn, _ => chnRows
  | .dsk, i => dskRows i | .sig, _ => sigRows | .seq0, _ => seq0Rows | .seq1, _ => seq1Rows
  | .seq2, _ => seq2Rows | .seq3, _ => seq3Rows | .dec0, _ => dec0Rows | .decS, _ => decSRows
  | .cmp0, _ => cmp0Rows | .cmpS, _ => cmpSRows | .tim0, _ => tim0Rows | .timE, _ => timERows
  | .cel, i => celRows i | .ttb0, _ => ttb0Rows | .ttb1, _ => ttb1Rows | .ttbD, _ => ttbDRows
  | .bur0, _ => bur0Rows | .bur1, _ => bur1Rows | .flw0, _ => flw0Rows | .flwS, _ => flwSRows
  | .cor0, _ => cor0Rows | .cor1, _ => cor1Rows | .chk, _ => chkRows | .vin0, _ => vin0Rows
  | .vin1, _ => vin1Rows | .lan0, _ => linkRows 0x040 | .lan1, _ => linkRows 0x040 ++ linkRows 0x080
  | .lanL, _ => lanLRows | .rng, _ => rngRows | .tkp, _ => tkpRows | .gal0, _ => gal0Rows
  | .gal1, _ => gal1Rows | .pwr, _ => pwrRows

/-- Offset `o` lies in register row `r`. -/
def RegRow.has (r : RegRow) (o : Nat) : Bool :=
  decide (r.off ≤ o) && decide ((o - r.off) / r.stride < r.n) && decide ((o - r.off) % r.stride < 4 * r.words)

/-- The row of offset `o` in page `i` of a layout. -/
def rowAt (k : PageKind) (i o : Nat) : Option RegRow :=
  if o < 0x040 then (headerRows k i).find? (·.has o) else (blockRows k i).find? (·.has o)

/-- The row of a BAR0 address with the index of the 32-bit word in its register. -/
def regAt (a : Nat) : Option (PageKind × Nat × Nat × RegRow × Nat) :=
  match pageOf a with
  | none => none
  | some (g, i, o) => (rowAt g.kind i o).map fun r => (g.kind, i, o, r, (o - r.off) % r.stride / 4)

/-- What the word at a BAR0 address reads at reset; 0 where there is no register (R9, R48). -/
def resetValue (a : Nat) : Word :=
  match regAt a with
  | none => 0
  | some (_, _, _, r, w) => wd (r.reset / 2 ^ (32 * w))

/-- The bits of the word at `a` that a software write sets. -/
def writeMask (a : Nat) : Nat :=
  match regAt a with
  | none => 0
  | some (_, _, _, r, w) => r.wmask / 2 ^ (32 * w) % 2 ^ 32

end Sys2Proof.Machine
end

