-- ==== Sys2Proof/Machine/Tab.lean ====
section
/-! DEFINITION. Sparse tables in one canonical form: the part's register file, its memories and its
numbered units are lists of (index, value) pairs with strictly rising indices, and no pair equal to what
an unlisted index reads as, so that equal contents are equal lists. -/

namespace Sys2Proof.Machine

/-- A sparse table. What an unlisted index reads as is the default function given to each operation. -/
abbrev Tab (α : Type) := List (Nat × α)

/-- The value at `k`: the listed one, else the default. -/
def Tab.get {α : Type} (d : Nat → α) : Tab α → Nat → α
  | [], k => d k
  | (j, v) :: t, k => if k = j then v else Tab.get d t k

/-- `t` without the entry of `k`. -/
def Tab.erase {α : Type} : Tab α → Nat → Tab α
  | [], _ => []
  | (j, v) :: t, k => if k = j then Tab.erase t k else (j, v) :: Tab.erase t k

/-- `t` with `v` listed at `k`, in order. -/
def Tab.insert {α : Type} : Tab α → Nat → α → Tab α
  | [], k, v => [(k, v)]
  | (j, u) :: t, k, v =>
    if k = j then (k, v) :: t
    else if k < j then (k, v) :: (j, u) :: t
    else (j, u) :: Tab.insert t k v

/-- `t` with `k` reading as `v`; writing the default removes the entry. -/
def Tab.set {α : Type} [DecidableEq α] (d : Nat → α) (t : Tab α) (k : Nat) (v : α) : Tab α :=
  if v = d k then Tab.erase t k else Tab.insert t k v

/-- The entries of a run of values from `k` up: those that are not the default. -/
def Tab.listed {α : Type} [DecidableEq α] (d : Nat → α) (k : Nat) (vs : List α) : Tab α :=
  ((List.range vs.length).zip vs).filterMap fun p => if p.2 = d (k + p.1) then none else some (k + p.1, p.2)

/-- `t` with the run of values `vs` from `k` up: the same as setting each of them, in one pass. -/
def Tab.setRun {α : Type} [DecidableEq α] (d : Nat → α) (t : Tab α) (k : Nat) (vs : List α) : Tab α :=
  t.takeWhile (fun e => decide (e.1 < k)) ++ Tab.listed d k vs ++ t.dropWhile (fun e => decide (e.1 < k + vs.length))

/-- One index further through a table whose entries lie at `j` or above: what is left of it, and the values so far, latest first. -/
def Tab.runStep {α : Type} (d : Nat → α) (r : Tab α × List α) (j : Nat) : Tab α × List α :=
  match r.1 with
  | [] => ([], d j :: r.2)
  | (i, v) :: t => if i = j then (t, v :: r.2) else (r.1, d j :: r.2)

/-- The `n` values from `k` up: the same as getting each of them, in one pass. -/
def Tab.getRun {α : Type} (d : Nat → α) (t : Tab α) (k n : Nat) : List α :=
  ((List.range' k n).foldl (Tab.runStep d) (t.dropWhile (fun e => decide (e.1 < k)), [])).2.reverse

/-- Every index of `t` is above `lo`, and the indices rise strictly. -/
def Tab.above {α : Type} (lo : Nat) : Tab α → Bool
  | [] => true
  | (j, _) :: t => decide (lo ≤ j) && Tab.above (j + 1) t

/-- The canonical form: strictly rising indices and no entry equal to the default. -/
def Tab.wf {α : Type} [DecidableEq α] (d : Nat → α) (t : Tab α) : Bool :=
  Tab.above 0 t && t.all (fun p => decide (p.2 ≠ d p.1))

/-- The listed indices, rising. -/
def Tab.keys {α : Type} (t : Tab α) : List Nat := t.map Prod.fst

end Sys2Proof.Machine
end

