-- ==== Sys2Proof/Machine/State.lean ====
section
/-! DEFINITION. The machine's state, as plain data: the register file of BAR0, the field memory, the hidden state of
every unit, and the queue of commands that wait. `State.reset` is the part with its supplies present and both
`RESET_N` inputs still low (log 1). -/

namespace Sys2Proof.Machine

/-- How the part rests or leaves RECESS (R40, R41): not in it, in the 10 µs of entry, at rest, in the 25 µs of
PLL lock, in the 15 µs of fine re-lock. -/
inductive RecessPhase where
  | none | entering | resting | locking | fine
  deriving DecidableEq, Repr

/-- A mode request that awaits quiescence (R31): its target, whether it aborts, and whether the host made it
(the field side's own requests of R46 raise no event). -/
structure ModeReq where
  target : Nat
  abort : Bool
  byHost : Bool
  deriving DecidableEq, Repr

/-- A host access held until exit from RECESS completes (R43). -/
structure HeldAccess where
  req : Nat
  addr : Nat
  write : Bool
  val : Word
  /-- A BAR2 access: the bytes it writes where enabled, or the length it reads. -/
  bar2 : Bool := false
  data : List (Option Byte) := []
  len : Nat := 0
  deriving DecidableEq, Repr

/-- The mode of the part (R25 to R46). `mode` is the field side's own mode code (OFF, which has none, is `supplies` false); `hostMode` is what
the host side reports in its place while it cannot see it (DETENTION, HELD, BOOT). -/
structure ModeCtl where
  mode : Nat := 2
  hostMode : Option Nat := none
  prior : Nat := 0
  pend : Option ModeReq := none
  recess : RecessPhase := .none
  /-- The exit in progress was started by a `MODE_REQ` naming `PRIOR` (R41). -/
  exitByReq : Bool := false
  /-- A wake that stage 2 or the 10 µs of entry holds back (R40, R45). -/
  wakeHeld : Bool := false
  /-- Host accesses held until exit completes (R43), oldest first. -/
  held : List HeldAccess := []
  /-- The field side's copy of `AUTO_EN` (R46). -/
  autoEn : Bool := false
  /-- `POWER_GOOD` and `RESET_N` of each side (R12), as levels. -/
  pgHost : Bool := true
  pgField : Bool := true
  rnHost : Bool := false
  rnField : Bool := false
  /-- The supplies are present (mode OFF without them). -/
  supplies : Bool := true
  /-- The next boot tries the non-preferred bank first, once (`RESET_CTRL.BANK_SWITCH`). -/
  bankSwitch : Bool := false
  /-- The pruning hold of R416 keeps the field side reset. -/
  pruneHold : Bool := false
  /-- The fast clocks run: false in RECESS, at stages 3 and 4, and while the field PLLs are not locked. -/
  clocks : Bool := false
  /-- The fine time re-lock runs: timestamps carry COARSE and no energy-drawing start goes (R42, R420). -/
  fineRelock : Bool := false
  /-- Times of the fine re-locks after a loss of REF_IN (R215) and of a reference switch (R214), each as its first cycle and the cycle after its
  last: timestamps of that span carry COARSE. -/
  fineLoss : Nat × Nat := (0, 0)
  fineSwitch : Nat × Nat := (0, 0)
  /-- Fabric cycles before the current beat count 0, for the host side's own times. -/
  before : Nat := 0
  /-- The cycle in which the Recess entry, or the current part of an exit, started. -/
  recessAt : Nat := 0
  /-- The cycle in which a restart of the fast clocks after stage 3 began (R420). -/
  restart : Option Nat := none
  /-- `FIELD_STAT.STATE`: 0 OFF, 1 HELD, 2 BOOT, 3 RUNNING, 4 UNREACHABLE, 5 DETAINED. -/
  fieldStat : Nat := 0
  /-- The FMI has been accepted by the field boot ROM since the field side's reset; `fmiLevel` and the result of R35 are those of the bank
  that booted. -/
  fmi : Bool := false
  fmiLevel : Word := 0
  booted : Bool := false
  /-- The supplies of the host side are present (mode OFF without them), as `supplies` says of the field side. -/
  supHost : Bool := true
  deriving DecidableEq, Repr

/-- A time base (R368 to R371): the time `base` (in units of 2^-16 ns) it showed in fabric cycle `at0`, and its rate
correction ρ in units of 2^-40. -/
structure TimeBase where
  counting : Bool := false
  base : Int := 0
  at0 : Nat := 0
  rho : Int := 0
  holdover : Bool := false
  holdFrom : Nat := 0
  /-- The cycle of the latest step, for BEFORE_STEP (R372). -/
  stepAt : Nat := 0
  /-- TB2 or TB3 on SRC TB0: what it shows over TB0. -/
  follow : Option Int := none
  deriving DecidableEq, Repr

/-- One trace record (R431). -/
structure TraceRec where
  kind : Nat
  holdover : Bool
  coarse : Bool
  source : Nat
  raw : Word
  seq : Nat
  time : Nat
  deriving DecidableEq, Repr

/-- The trace (R430 to R434). `recs` is the SRAM's content, oldest first; `first` the SRAM index of the oldest. -/
structure Trace where
  st : Nat := 0
  cause : Nat := 0
  seq : Nat := 0
  recs : List TraceRec := []
  first : Nat := 0
  postLeft : Nat := 0
  /-- `TRC_CFG` as read at ARM. -/
  cfg : Word := 0
  /-- Records written in fabric cycle `stamp`: at most two per cycle (R431). -/
  stamp : Nat := 0
  inCycle : Nat := 0
  /-- One more than the cycle of the latest stop trigger that met a trace in ARMED (R432). -/
  stopAt : Nat := 0
  deriving DecidableEq, Repr

/-- A Gallery counter (R435). `hitAt` is one more than the fabric cycle of its latest occurrence counted in MODE 0. -/
structure Counter where
  en : Bool := false
  ovf : Bool := false
  mode : Nat := 0
  source : Nat := 0
  live : Nat := 0
  shadow : Nat := 0
  hitAt : Nat := 0
  deriving DecidableEq, Repr

/-- A RESYNC record (R427). -/
structure Resync where
  hostSide : Bool
  ovf : Bool
  cause : Nat
  kind : Nat
  page : Nat
  sub : Nat
  amount : Int
  time : Nat
  deriving DecidableEq, Repr

/-- What waits for the Bursar's admission, or holds a charge: an executor class (R252), a unit, and whether
the start is direct (R267) or the run of a Timetable slot. -/
structure Wait where
  cls : Nat
  unit : Nat
  direct : Bool
  slot : Nat
  energy : Nat
  since : Nat
  deriving DecidableEq, Repr

/-- The Bursar's account and heat state (R264 to R277). -/
structure Bursar where
  pool : Int := 0
  held : Int := 0
  accrued : Int := 0
  declared : Nat := 0
  measured : Nat := 0
  bypass : Nat := 0
  /-- The cycle after the latest admission. -/
  nextAt : Nat := 0
  head : Option (Nat × Nat × Bool × Nat) := none
  /-- Direct starts waiting for admission, oldest first. -/
  waits : List Wait := []
  /-- Runs admitted and not yet settled, with the energy each was charged. -/
  runs : List Wait := []
  effW : Nat := 0
  thermW : Nat := 240
  fixedW : Nat := 0
  availW : Nat := 0
  hard : Bool := false
  deriving DecidableEq, Repr

/-- A pulse on hop 1 (R302, R303): its event's global number, the cycle in which it reaches the Corridor, and whether the wake input has
had it while the fabric clock stood. -/
structure Pulse where
  g : Nat
  due : Nat
  woke : Bool := false
  deriving DecidableEq, Repr

/-- The Corridor between a page and a consumer input (R302, R303). -/
structure Corridor where
  /-- Pulses on hop 1, oldest first. -/
  pulses : List Pulse := []
  /-- Pulses on hop 2: consumer input, source, and the cycle of registration, in order of routing. -/
  routed : List (Nat × Nat × Nat) := []
  /-- Pulses registered per consumer in the current storm window (R306). -/
  window : Tab Nat := []
  /-- The latest write of each selector: the cycle in which it takes effect, and the count of the window that it ends, 0 if the input was gated
  (R302, R307). -/
  selAt : Tab (Nat × Nat) := []
  /-- GPE_OUT balls in PULSE mode: the cycle in which each goes low; 0 when it is low. -/
  gpeDue : Tab Nat := []
  /-- The GPE_IN edge that started a Recess exit and becomes an occurrence when it completes (R311). -/
  gpeWake : List Nat := []
  /-- TRIG_OUT balls: the pulses that drive each, as (rise, fall) in ET (R123, R310). -/
  trigOut : Tab (List (Nat × Nat)) := []
  deriving DecidableEq, Repr

/-- The supply monitor (R413 to R416, R427). -/
structure Prune where
  /-- The stage judged from the input (R413, R414). -/
  judged : Nat := 0
  /-- The stage in force (R415). -/
  stage : Nat := 0
  /-- Consecutive always-on ticks below each deeper stage's entry level, stages 1 to 4, and below 9.00 V. -/
  below : List Nat := [0, 0, 0, 0, 0]
  climbing : Bool := false
  /-- The cycle in which the current climb count started. -/
  climbFrom : Nat := 0
  /-- The stage from which a lowered FORCE lets the part climb (R415). -/
  floor : Nat := 0
  /-- The cycle since which the input has been above 9.05 V (R416). -/
  aboveFrom : Option Nat := none
  /-- `PRUNE_STAT.MEASURED`: the stage that the input alone leads to (R413, R414; log 30). -/
  measured : Nat := 0
  queue : List Resync := []
  /-- RESYNC records of the host end that wait for the link, at most 16. -/
  hostQueue : List Resync := []
  hostOvf : Bool := false
  deriving DecidableEq, Repr

/-- A Timetable slot (R242): its eight image words, its status, its four input counters, and the cycle in which it
became READY. `aged` is how many steps its priority has risen (R250), `toIdle` a DISARM or ABORT taken in RUN or HOLD, and
`ended` the outcome and NOOP of an executor that has ended, until the task completes (R254), with the cycle of that end and the reading
M where the spec fixes it. -/
structure Task where
  img : List Word := [0, 0, 0, 0, 0, 0, 0, 0]
  st : Nat := 0
  outcome : Nat := 0
  noop : Bool := false
  runsLeft : Nat := 0
  cnt : List Nat := [0, 0, 0, 0]
  since : Nat := 0
  aged : Nat := 0
  toIdle : Bool := false
  ended : Option (Nat × Bool) := none
  endAt : Nat := 0
  endM : Option Nat := none
  deriving DecidableEq, Repr

/-- A delay-list entry (R259). `late` marks a LATE entry that runs at the next tick with the fast clocks running (LATE_OK). -/
structure DlEntry where
  time : Nat
  action : Word
  tag : Nat
  late : Bool
  /-- It fell due with the fast clocks stopped and has no late record yet (R44). -/
  slept : Bool := false
  deriving DecidableEq, Repr

/-- The Timetable beyond its registers (R242 to R262). -/
structure Timetable where
  tasks : Tab Task := []
  /-- The queued entries of each submission queue, oldest first; an entry is nine words. -/
  queues : Tab (List (List Word)) := []
  /-- The delay list of each time base, in firing order. -/
  lists : Tab (List DlEntry) := []
  /-- How many entries at the head of each list are due and await their firing cycle. -/
  due : Tab Nat := []
  /-- The operand port served first in the previous cycle, and the queue served last (R247, R258). -/
  lastPort : Nat := 127
  lastQueue : Nat := 7
  /-- The latest cycle in which the matching store took arrivals, how many, and the first class of R247 that it may still take in it: 0
  completions, 1 to 4 the delay lists, 5 operand ports, 6 a command or queue entry, 7 none. -/
  matchAt : Nat := 0
  matchUsed : Nat := 0
  matchNext : Nat := 0
  /-- The first cycle in which each list may fire again (R260). -/
  fired : Tab Nat := []
  /-- An entry fell due with the fast clocks stopped; `LATE` occurs when they return (R260). -/
  lateDue : Bool := false
  deriving DecidableEq, Repr

/-- A change of an output pair of a channel (R75, R78, R95, R102): the pair, DEN or else DRV; its ET instant at the ball; the level from
then on, before inversion; for the start of a CLOCK park the half period in beats after which DRV toggles, over and over; and how the
interpolator splits its instant, as beat, phase, tap and blend. -/
structure PinEdge where
  isDen : Bool
  at0 : Nat
  level : Bool
  half : Nat := 0
  split : Nat × Nat × Nat × Nat := (0, 0, 0, 0)
  deriving DecidableEq, Repr

/-- The edge engines of a channel while a burst drives it (R93 to R100): the levels last driven, the effective times in ET
of the last transition of each pair, and the open window with its expected level code and opening time. `took` says the
channel has taken part in a burst (R77); `clkFrom` is the beat at which its CLOCK park started. -/
structure ChanEdges where
  drv : Bool := false
  den : Bool := false
  drvAt : Option Nat := none
  denAt : Option Nat := none
  cmpAt : Option Nat := none
  window : Option (Nat × Nat) := none
  took : Bool := false
  clkFrom : Nat := 0
  /-- Half period in beats of a CLOCK park that still toggles DRV in a burst, until its first drive-data edge (R79); else 0. -/
  clkHalf : Nat := 0
  /-- What the output pairs do, as placed: the latest change of each that has left its ball, and those still to leave. -/
  pins : List PinEdge := []
  deriving DecidableEq, Repr

/-- A PE_CTL bus (R81 to R83): the transfer in progress with its chip select, its bytes out, the cycle it started and its SCLK period in
cycles; `noop` an ABORT registered in its commit cycle; `lastEnd` when its chip select last deasserted. -/
structure Pec where
  busy : Bool := false
  cs : Nat := 0
  start : Nat := 0
  period : Nat := 0
  out : List Byte := []
  noop : Bool := false
  lastEnd : Nat := 0
  deriving DecidableEq, Repr

/-- Channels and desks. `inForce` holds, for each word whose written value is staged (R70, R87, R132, R136), the value
still in force; applying the staged value removes the entry. -/
structure Channels where
  inForce : Tab (Option Word) := []
  edges : Tab ChanEdges := []
  pec : Tab Pec := []
  /-- Clusters that are not powered and usable (R76). -/
  peDown : Tab Bool := []
  /-- The cycle at which a cluster powering up is usable; 0 when none is. -/
  peDue : Tab Nat := []
  /-- The desks' channels that are stray (R67), as last judged. -/
  stray : Tab Bool := []
  deriving DecidableEq, Repr

/-- What compare edges judge in a vector: a window with its expected level code and its two instants, or a strobe (R91). -/
inductive Judge where
  | window (expect opened closed : Nat)
  | strobe (expect at0 : Nat)
  deriving DecidableEq, Repr

/-- A block of vector data as a slice holds it (R133, R138): the segment and granule it serves, its field address and bytes,
whether it has an uncorrectable error, and whether a HOST-port write has overlapped it since, so that it is not retained. -/
structure Block where
  seg : Nat
  g : Nat
  addr : Nat
  data : List Byte
  bad : Bool
  stale : Bool
  deriving DecidableEq, Repr

/-- The buffer of a source desk (R136 to R143): blocks of the path ahead of output, in output order; heads held in reserve; locked
blocks; and blocks retained from earlier bursts. -/
structure Slice where
  ahead : List Block := []
  heads : List Block := []
  locked : List Block := []
  retained : List Block := []
  deriving DecidableEq, Repr

/-- One channel of a vector that has been output: its waveform, its compares in order, and whether R115 takes them for a MATCH. -/
structure ChanJob where
  ch : Nat
  wave : Nat
  judges : List Judge
  mask : Bool
  deriving DecidableEq, Repr

/-- A real vector that has been output and whose verdicts are still to be formed (R164). `run` numbers the segment entry and `last`
marks the last vector of an instance. -/
structure VecJob where
  run : Nat
  seg : Nat
  iter : Nat
  voff : Nat
  bvec : Nat
  t0 : Nat
  per : Nat
  chans : List ChanJob
  isMatch : Bool
  sig : Bool
  expSig : Nat
  last : Bool
  deriving DecidableEq, Repr

/-- The successor decided at a commit point (R111): a segment, as a repeat or not, or the end of the burst with its result. -/
inductive Succ where
  | seg (i : Nat) (rep : Bool)
  | stop (result : Nat)
  deriving DecidableEq, Repr

/-- The jump slot (R120): the entry requested, the instance at whose CP it acts, and whether the Corridor asked. -/
structure Jump where
  entry : Nat
  inst : Nat
  deriving DecidableEq, Repr

/-- A staged block in the near-store ring that its engine has not read yet (R148). -/
structure Staged where
  seg : Nat
  g : Nat
  desk : Nat
  addr : Nat
  size : Nat
  deriving DecidableEq, Repr

/-- Level capture of a burst, as fixed at admission (R172, R173): the area's base, the configuration, first granule, count, the
capturing desks, the rows written, and whether it still runs. -/
structure Capture where
  on : Bool := false
  base : Nat := 0
  cfg : Word := 0
  first : Nat := 0
  count : Nat := 0
  desks : List Nat := []
  rows : Nat := 0
  /-- The entries of the granule being formed, by channel, oldest vector first. -/
  acc : Tab (List Nat) := []
  deriving DecidableEq, Repr

/-- A sequencer (R105 to R131). Times `sAt`, `t`, `cp` and `park` are in ET since beat 0. -/
structure Seq where
  st : Nat := 0
  base : Nat := 0
  len : Nat := 0
  siteEn : Nat := 0
  start : Nat := 0
  bell : Bool := false
  /-- `BELL_SEL` at admission (R387). -/
  bellSel : Nat := 0
  jmp : List Nat := []
  pin : Nat := 0
  specG : Nat := 512
  /-- Descriptors on the die; an index not listed has not arrived. -/
  descs : Tab (List Word) := []
  /-- The source desks in rank order (R133, R135). -/
  desks : List Nat := []
  /-- The admission set (R144). -/
  adm : List Nat := []
  sAt : Option Nat := none
  /-- Numbers of the instance in output, each repeat counted, and of the segment entry. -/
  inst : Nat := 0
  run : Nat := 0
  idx : Nat := 0
  iter : Nat := 0
  /-- The next granule of the instance to be judged, and its start. -/
  g : Nat := 0
  t : Nat := 0
  /-- S of the instance, and its real vectors output so far. -/
  s0 : Nat := 0
  outv : Nat := 0
  begun : Bool := false
  /-- The instance has started and its start has not been announced (R123). -/
  opening : Bool := false
  cp : Option Nat := none
  succ : Option Succ := none
  stop : Option Nat := none
  /-- R129 ends the burst at the end of the instance in output. -/
  shed : Bool := false
  slot : Option Jump := none
  wait : Option Nat := none
  /-- Idle granules inserted, and whether an episode of STRETCH runs (R153). -/
  idle : Nat := 0
  stretching : Bool := false
  /-- The instant from which an abort ends output at the next vector boundary (R128). -/
  abort : Option Nat := none
  /-- The park point and the result, once known. -/
  park : Option (Nat × Nat) := none
  /-- The edge engines as they stood before the granule last judged. -/
  snap : List (Nat × ChanEdges) := []
  jobs : List VecJob := []
  /-- MATCH (R115, R116): the sites that failed in the iteration whose verdicts are being formed, the sites that have
  matched in this entry, the iteration results not yet ready, and the iteration that met the condition with the instant
  its result was available. -/
  mFail : List Nat := []
  mSites : List Nat := []
  mReady : List (Nat × Nat × List Nat × Nat) := []
  mMet : Option (Nat × Nat) := none
  /-- The call stack, newest first (R113); `STACK` shows the low 20 bits of its entries. -/
  stack : List Nat := []
  /-- The cycle in which a register's jump request was handled, and that of the Corridor's with its entry (R120). -/
  jumpReg : Option Nat := none
  jumpCor : Option (Nat × Nat) := none
  /-- FAIL records produced for each site, and written for the burst (R167). -/
  produced : Tab Nat := []
  written : Nat := 0
  /-- A BURST_END record awaits its place in the log (R167), with its RESULT and its count of vectors. -/
  endRec : Option (Nat × Nat) := none
  /-- Copies taken at admission (R157, R178): `SITE_CFG`, the idle vectors by register address, `ECAP_SEL`. -/
  idleVec : Tab Word := []
  siteCfg : Tab Word := []
  ecapSel : List Word := []
  cap : Capture := {}
  /-- Each desk's signature of the instance being formed, and each site's instances checked and mismatched (R182, R183). -/
  crc : Tab (Option Nat) := []
  sigSet : Tab (Word × Nat) := []
  sigs : Tab (Nat × Nat) := []
  /-- The stager (R148). -/
  staged : List Staged := []
  ringAt : Nat := 0
  stageBase : Nat := 0
  stageSize : Nat := 0
  stageLead : Nat := 0
  flushPend : Bool := false
  deriving DecidableEq, Repr

/-- A dropped edge (R101): its sequencer, the ET instant of its vector's start, and what `TS_DROP_INFO` records of it. -/
structure EdgeDrop where
  seq : Nat
  at0 : Nat
  info : Nat
  deriving DecidableEq, Repr

/-- The sequencers and the slices. -/
structure Sequencers where
  seqs : Tab Seq := []
  slices : Tab Slice := []
  /-- Dropped edges whose vectors have not started (R101). -/
  drops : List EdgeDrop := []
  /-- The engine served last of each sequencer, and for one with CAP = 1 the first cycle in which its share admits a request (R156). -/
  served : Tab Nat := []
  shareAt : Tab Nat := []
  deriving DecidableEq, Repr

/-- A level-capture block that waits in its desk's queue (R174): its sequencer, field address, bytes and burst granule. -/
structure CapBlock where
  seq : Nat
  addr : Nat
  data : List Byte
  row : Nat
  deriving DecidableEq, Repr

/-- An edge-capture slot (R175): its queued records, the instant of its last recorded transition, and the transitions merged since. -/
structure EcapSlot where
  queue : List (List Word) := []
  lastAt : Option Nat := none
  merged : Nat := 0
  /-- The first cycle in which the slot's next record may be written, at 400 M records/s. -/
  nextAt : Nat := 0
  deriving DecidableEq, Repr

/-- A log-like ring's lost records (R169): how many are pending, with SEQ, CHANNEL, SITE, BURST and BVEC of the first. -/
structure Lost where
  count : Nat := 0
  seq : Nat := 0
  ch : Nat := 0
  site : Nat := 0
  burst : Nat := 0
  bvec : Nat := 0
  /-- No record has been lost since one was written or the pointers were set, so that the next loss is an event. -/
  quiet : Bool := true
  deriving DecidableEq, Repr

/-- Compare, log and capture beyond their registers. -/
structure Compare where
  /-- The desk queues of the fail log, of 64 records each, and the desk served last (R168). -/
  logq : Tab (List (List Word)) := []
  lastDesk : Nat := 31
  lost : Lost := {}
  /-- BURST_END records of bursts that ended without output. -/
  ends : List (List Word) := []
  capq : Tab (List CapBlock) := []
  slots : Tab EcapSlot := []
  /-- What a writer has written in a cycle, as (cycle, records): 0 the fail-log writer, 1 the edge-capture writer (R168, R175). -/
  paces : Tab (Nat × Nat) := []
  deriving DecidableEq, Repr

/-- A flow step in progress (R284, R286): the node's index and words, the limit entries it read, the values of TDC and MEM with
their validity and flags by site, and the soft bin entries it read. -/
structure FlowStep where
  node : Nat
  words : List Word
  /-- The 64-byte accesses of its reads that are still to be made at the FLW port (R237). -/
  reads : List (Nat × Bool) := []
  limits : Tab (List Word) := []
  vals : Tab (Nat × Bool × Nat) := []
  bins : Tab (Option Word) := []
  /-- Sites whose engine byte says that they have no engine (R285). -/
  skip : List Nat := []
  deriving DecidableEq, Repr

/-- The flow services beyond their registers (R279 to R298). -/
structure Flow where
  step : Option FlowStep := none
  /-- The post of the last step, until the Timetable takes it (R292). -/
  post : Option Word := none
  postAt : Nat := 0
  /-- Datalog records queued (R295), the next SEQNO, the losses pending with the SEQNO of the first, and the first cycle in which the
  writer may write again. -/
  queue : List (List Word) := []
  seqno : Nat := 0
  lost : Nat := 0
  lostSeq : Nat := 0
  quiet : Bool := true
  nextAt : Nat := 0
  /-- The `SITE_EN` bits that steps have changed in a cycle (R291). -/
  enAt : Nat := 0
  ens : List (Nat × Bool) := []
  /-- TDC records written in all, the count at each engine's latest and at each site's OPEN. -/
  recs : Nat := 0
  lastRec : Tab Nat := []
  openAt : Tab Nat := []
  /-- The handler words of binned sites, and the handler sequences: slot, the words of its sites still to be signalled, in ascending order of
  the sites, and the cycle of the next. -/
  hnd : Tab Nat := []
  handler : List (Nat × List Nat × Nat) := []
  deriving DecidableEq, Repr

/-- An edge in a TDC engine's FIFO (R197 to R202): its ET instant, whether it is input B's, and the flags of its instant: COARSE,
HOLDOVER, WARM. -/
structure TdcEdge where
  et : Nat
  isB : Bool
  coarse : Bool
  hold : Bool
  warm : Bool
  deriving DecidableEq, Repr

/-- A TDC engine's run (R205 to R212): the configuration read at START, and the measurement in progress. `slot` is the vintage
slot whose tables it uses. -/
structure Tdc where
  st : Nat := 0
  cfg : Word := 0
  srcA : Nat := 0
  srcB : Nat := 0
  gate : Nat := 0
  tmo : Nat := 0
  count : Nat := 0
  period : Nat := 0
  slot : Option Nat := none
  fifo : List TdcEdge := []
  lastA : Option Nat := none
  lastB : Option Nat := none
  deadA : Bool := false
  deadB : Bool := false
  armed : Option TdcEdge := none
  early : Bool := false
  waitA : List (Nat × TdcEdge) := []
  waitB : List (Nat × TdcEdge) := []
  kA : Nat := 0
  kB : Nat := 0
  /-- The ET instant at which the gate opened, and the beat at which the first gate of the run did. -/
  opened : Nat := 0
  t0 : Nat := 0
  first : Option TdcEdge := none
  last : Option TdcEdge := none
  edges : Nat := 0
  sum : Int := 0
  phi0 : Option Int := none
  /-- Flags of the gate's edges: COARSE of any, HOLDOVER and WARM of the last. -/
  gCoarse : Bool := false
  gHold : Bool := false
  gWarm : Bool := false
  seq : Nat := 0
  formed : Nat := 0
  /-- Wraps of the coarse count that a TIMESTAMP record has seen. -/
  epoch : Nat := 0
  /-- The earliest cycle in which the next event leaves the FIFO, and how many records a STOP lets the run form (R202, R212). -/
  takeAt : Nat := 0
  stopAt : Option Nat := none
  /-- Records formed and not yet written. -/
  out : List (List Word) := []
  deriving DecidableEq, Repr

/-- Time measurement beyond its registers. -/
structure Timing where
  engines : Tab Tdc := []
  /-- Engines a calibration item holds (R210, R317). -/
  calHeld : List Nat := []
  /-- A reference switch requested, and the cycle in which the one applied ends (R214). -/
  switchReq : Option Bool := none
  switchDue : Option Nat := none
  /-- The cycle in which each frequency counter's gate opened (R216). -/
  fcFrom : Tab Nat := []
  /-- Rising edges counted in the current gate of each counter, and in the one after it. -/
  fcLive : Tab Nat := []
  fcNext : Tab Nat := []
  /-- The engine whose turn is next at the ring writer; the cycle of its latest record, and how many it wrote in it (R203). -/
  turn : Nat := 0
  wroteAt : Nat := 0
  wrote : Nat := 0
  /-- The cycle in which the oven was powered. -/
  ovenAt : Nat := 0
  deriving DecidableEq, Repr

/-- A check unit's run (R191, R194). -/
structure ChkRun where
  active : Bool := false
  began : Nat := 0
  deriving DecidableEq, Repr

/-- The calibration item in progress (R316 to R321): its code, slot, kind of start, parent slot, desk mask and fixture table, and the
range of `TEMP_NOW` since it began. -/
structure CalItem where
  code : Nat
  slot : Nat
  trigger : Nat
  parent : Option Nat
  mask : Word
  fixture : List Word := []
  running : Bool := false
  tmin : Int := 0
  tmax : Int := 0
  deriving DecidableEq, Repr

/-- The calibration executor (R314 to R323). `nextId` numbers vintages; `deskSlot` is the slot each desk uses; `autoPend` a
temperature re-run that waits; `judged` says that the temperature difference has reached CAL_DT since the newest vintage;
`saved` the IDs in flash with the copy each has, oldest first. -/
structure Calib where
  item : Option CalItem := none
  nextId : Nat := 1
  deskSlot : Tab (Option Nat) := []
  autoPend : Bool := false
  judged : Bool := false
  saved : List (Nat × Nat) := []
  deriving DecidableEq, Repr

/-- A DMA channel (R398 to R402): 0 idle, 1 waiting for admission, 2 reading its descriptor, 3 moving. `task` says that a Timetable task runs
it; `words` are the descriptor's; `inbound` are host bytes that have arrived at the endpoint and not yet crossed; `moved` counts the
bytes at their destination; `askedAt` is the cycle from which a completion is awaited. -/
structure DmaChan where
  st : Nat := 0
  task : Bool := false
  words : List Word := []
  inbound : List Byte := []
  moved : Nat := 0
  askedAt : Nat := 0
  deriving DecidableEq, Repr

/-- A flash operation in progress (R410): OP 0 READ, 1 PROGRAM, 2 ERASE (log 21), its address and, for PROGRAM, its bytes. -/
structure FlashOp where
  op : Nat
  addr : Nat
  len : Nat
  data : List Byte
  deriving DecidableEq, Repr

/-- The host link beyond its registers. `bar2` and `poisoned` are the model's own: what the latest BAR2 read returned; `out` the posted
writes to host memory, oldest first, as host address and bytes. -/
structure HostLink where
  /-- The DMA channel that last had the barrier, and what is left of its unit of 4 KiB (R400). -/
  unitOf : Nat := 7
  unitLeft : Nat := 0
  d3hot : Bool := false
  bar2 : List Byte := []
  poisoned : Bool := false
  out : List (Nat × List Byte) := []
  dma : Tab DmaChan := []
  /-- Flash contents; an unlisted byte reads 0xFF (log 21). -/
  flash : Tab Byte := []
  op : Option FlashOp := none
  deriving DecidableEq, Repr

/-- A FLOW message (R403): to the host, a DMA task's dispatch; to the field, a DMA task's end, a copy of `AUTO_EN`, host-die readings, a
RESYNC record of the host end. -/
inductive FlowMsg where
  | dmaStart (c addr : Nat)
  | dmaEnd (c outcome : Nat) (noop : Bool)
  | autoEn (b : Bool)
  | sensors (readings : List (Nat × Nat))
  | resync (r : Resync)
  deriving DecidableEq, Repr

/-- A field read that is outstanding (R405): its tag, whether it is a BAR2 read, its address and length, and the data found at the field
end. -/
structure SatRead where
  tag : Nat
  bar2 : Bool
  addr : Nat
  len : Nat
  data : List Byte
  poisoned : Bool := false
  deriving DecidableEq, Repr

/-- The Satchel between its two ends. -/
structure Satchel where
  hostUp : Bool := false
  fieldUp : Bool := false
  /-- `EVENT` messages queued at the field end: ordinal, pending state, and the vector if they carry a request. -/
  evtTx : List (Nat × Word × Option Nat) := []
  /-- The host end's shadows of pending state (R63), by ordinal. -/
  shadow : Tab Word := []
  /-- `EVENT` messages of the host end: the global numbers of host-side pulses (R304). -/
  evtRx : List Nat := []
  /-- Pulses whose occurrence fell while no lane was ACTIVE (R304). -/
  hostPulses : Nat := 0
  reads : List SatRead := []
  /-- TIME messages on their way, and the latest the host side has: TB0 time, HOLDOVER, COARSE. -/
  timeTx : List (Nat × Bool × Bool) := []
  hostTime : Option (Nat × Bool × Bool) := none
  hostTimeAt : Nat := 0
  /-- FLOW messages in each direction, oldest first. -/
  flowUp : List FlowMsg := []
  /-- Dispatches that were queued for the host when the field end saw the loss (R406): they are never sent. -/
  stale : Nat := 0
  flowDown : List FlowMsg := []
  /-- Cycles of the last TIME message, of the last host-die readings, and of the latest loss as each end saw it. -/
  timeAt : Nat := 0
  sensorAt : Nat := 0
  downAt : Nat := 0
  /-- One side has been reset since the link was last up: the host side, the field side (R425, R426). -/
  hostFresh : Bool := false
  fieldFresh : Bool := false
  /-- The field `POWER_GOOD` as last reported across the barrier. -/
  vfPg : Bool := false
  deriving DecidableEq, Repr

/-- A lane (R325 to R344). `cm1` and `cp1` are its transmitter's C−1 and C+1; `best` is the preset with the widest eye `bestW` of the pass
in progress, which has spent `trials`; `ask` are the requests of the trial in progress, code and preset in order, and `askNo` the number of
the latest; `shown` the trials of the last pass. `drops` are the cycles of the drops in the last second,
`echo` the number of the last request applied, `matched` and `held` what the far CAPS said, `slept` a lane that left SLEEP, `prbs` its
FILLER generator, `diag` the diagnostic that runs: is it PRBS, its bits, and the cycle of its last one. -/
structure Lane where
  st : Nat := 0
  preset : Nat := 0
  cm1 : Int := 0
  cp1 : Int := 0
  echo : Nat := 0
  eyeW : Nat := 0
  eyeH : Nat := 0
  trials : Nat := 0
  shown : Nat := 0
  best : Nat := 0
  bestW : Nat := 0
  ask : List (Nat × Nat) := []
  askNo : Nat := 0
  trialAt : Nat := 0
  lockAt : Nat := 0
  capsAt : Nat := 0
  matched : Bool := false
  held : Bool := false
  slept : Bool := false
  deskew : Nat := 0
  idleRun : Nat := 0
  drops : List Nat := []
  prbs : Nat := 0
  filler : List Byte := []
  diag : Option (Bool × Nat × Nat) := none
  deriving DecidableEq, Repr

/-- What a ROSTER frame says of a node (R355). -/
structure Roster where
  uid : Nat
  num : Nat
  master : Bool
  recess : Bool
  left : Bool
  bypA : Nat
  bypB : Nat
  eastUid : Nat
  eastDelay : Nat
  westUid : Nat
  westDelay : Nat
  deriving DecidableEq, Repr

/-- A re-stripe in progress (R336): its cause, direction, lane and the width before. -/
structure Restripe where
  cause : Nat
  dir : Nat
  lane : Nat
  old : Nat
  deriving DecidableEq, Repr

/-- One end of a link (R332 to R337, R352): the receive map in logical order, the transmit map as bits, and the link layer. `audit` is 0 with
the link down, 1 while its exchange runs, 2 when it is done. `replay` holds the frames not acknowledged: sequence, class and bytes. `owed` are credit
returns that wait, by class; `copied` are the broadcast DATA frames forwarded less those written to the receive ring (R376); `sent` are the
ordered sets of the latest exchange that this end has sent (R325). -/
structure Link where
  rx : List Nat := []
  tx : Nat := 0
  re : Option Restripe := none
  audit : Nat := 0
  auditAt : Nat := 0
  fresh : Bool := true
  capsOwn : Word := 0
  capsFar : Word := 0
  txSeq : Nat := 0
  rxNext : Nat := 0
  replay : List (Nat × Nat × List Byte) := []
  ackAt : Nat := 0
  got : Nat := 0
  ackSent : Option (Nat × Bool) := none
  ackSentAt : Nat := 0
  fillAt : Nat := 0
  credit : Tab Nat := []
  owed : Tab Nat := []
  owedAt : Nat := 0
  copied : Int := 0
  sent : List (List Byte) := []
  deriving DecidableEq, Repr

/-- The lanes and links. Lanes 0 to 15 are the Satchel's at the field end, 16 to 19 East's, 20 to 23 West's, 24 to 39 the Satchel's at the
host end; links 0 to 3 likewise. -/
structure Lanes where
  lanes : Tab Lane := []
  links : Tab Link := []
  deriving DecidableEq, Repr

/-- A frame that waits at a ring port for credit (R352, R374): its port, class, destination, what else its header says (R349; `src` is `none` for
this node), its payload, and the port whose buffer it came from. -/
structure RFrame where
  port : Nat
  cls : Nat
  dest : Nat
  typ : Nat := 0
  src : Option Nat := none
  hops : Nat := 0
  id : Nat := 0
  tsReq : Bool := false
  wrapped : Bool := false
  data : List Byte := []
  origin : Option Nat := none
  deriving DecidableEq, Repr

/-- The latest SYNC of an arriving ring (R363): hops, HOLDOVER, and its cycle. -/
structure Sync where
  hops : Nat
  hold : Bool
  at0 : Nat
  deriving DecidableEq, Repr

/-- A ring port (R355 to R361): 0 East, 1 West. `changed` is a hop that changed since its last roll-call measurement; `sum` and `cnt` the
exchanges of the roll call, `dreq` the outstanding one with its SEQ and departure in ET, `turn` the latest DRESP sent; `timeOut` is the latest TIME
set that left the port (R360), and the next may leave from ET instant `timeFree` on (R350). -/
structure RingPort where
  nbrUid : Nat := 0
  nbr : Nat := 0
  changed : Bool := false
  span : Bool := false
  asymUnknown : Bool := false
  bypassed : Nat := 0
  sum : Int := 0
  cnt : Nat := 16
  seq : Nat := 0
  dreq : Option (Nat × Nat) := none
  turn : Option (Nat × Nat) := none
  exchAt : Nat := 0
  sync : Option Sync := none
  timeOut : List Byte := []
  timeFree : Nat := 0
  deriving DecidableEq, Repr

/-- A DATA frame in a receive buffer (R376): its port, header words, payload, flags and TB0 time of arrival. -/
structure RxData where
  port : Nat
  words : List Word
  data : List Byte
  hold : Bool
  coarse : Bool
  time : Nat
  deriving DecidableEq, Repr

/-- A DATA frame of this node that waits to leave (R375), with its payload once the FLW port has read it. -/
structure Dtx where
  dest : Nat
  id : Nat
  tsReq : Bool
  addr : Nat
  len : Nat
  data : Option (List Byte) := none
  deriving DecidableEq, Repr

/-- The ring beyond its registers (R346 to R378). `st` is the state of R356, `closed` the bypass, `register` the master's UIDs with their
numbers and the roll call each was last present at, `roster` the latest FORMED in ring order as number and UID, `byp` the BYP_DELAY values kept
by UID, `collect` the rosters of the roll call in progress since `rollAt`, `forming` the FORMED frames received, `since` says that a roll call
has completed after the last change under R365, and `first` that the next SYNC accepted is the first. -/
structure Ring where
  st : Nat := 0
  num : Option Nat := none
  n : Nat := 0
  master : Bool := false
  closed : Bool := true
  register : List (Nat × Nat × Nat) := []
  roster : List (Nat × Nat) := []
  /-- The UIDs of the ring order that this node knows, with nodes that have since left (R357, R359). -/
  known : List Nat := []
  byp : List (Nat × Nat × Nat) := []
  collect : Option (List Roster) := none
  rollAt : Nat := 0
  rollSeq : Nat := 0
  rollSeen : Option Nat := none
  exchanging : Bool := false
  forming : List (Nat × List (Nat × Nat)) := []
  changeAt : Option Nat := none
  since : Bool := false
  first : Bool := true
  stepLeft : Nat := 0
  syncSeq : Nat := 0
  syncAt : Nat := 0
  /-- The roll call at which this node last saw a master of lower UID while it has MASTER = 1 (R347). -/
  clash : Option Nat := none
  ports : Tab RingPort := []
  /-- Nodes whose latest STATE reported RECESS (R374). -/
  recess : Tab Bool := []
  wait : List RFrame := []
  /-- Frames of this node held for nodes in RECESS. -/
  held : List RFrame := []
  rx : List RxData := []
  dtx : Option Dtx := none
  tsq : List (Nat × Bool × Bool × Nat) := []
  deriving DecidableEq, Repr

/-- The timekeeper's own records (R369, R370): the seconds of a TB1 epoch committed and not yet used, the cycle of the latest PPS edge
accepted, and of TB2 and TB3 the offset from TB0 fixed at the last commit, the value committed for the next edge, the latest VALUE used, and the gates since. -/
structure TimeKeep where
  ppsSet : Option Nat := none
  ppsAt : Nat := 0
  offsets : Tab Int := []
  phaseSet : Tab (Option Nat) := []
  phaseVal : Tab (Option Int) := []
  phaseMiss : Tab Nat := []
  deriving DecidableEq, Repr

/-- A Bell (R384 to R387): its state, what it was armed with, the cycle of the arm, its rung latch as GEN and ORIGIN, and the S still to come, in
the order of their firings. -/
structure Bell where
  st : Nat := 0
  gen : Nat := 0
  pin : Bool := false
  time : Nat := 0
  armAt : Nat := 0
  latch : Option (Nat × Nat) := none
  hold : Bool := false
  joined : Nat := 0
  sAt : List Nat := []
  deriving DecidableEq, Repr

/-- The Bells, the copies of Bell sets still to send (Bell, GEN, ORIGIN, CANCEL, copies left, cycle of the next), and the pulses on
BELL_OUT as start and end in ET. -/
structure Bells where
  bells : Tab Bell := []
  repeats : List (Nat × Nat × Nat × Bool × Nat × Nat) := []
  out : List (Nat × Nat) := []
  deriving DecidableEq, Repr

/-- The Gallery beyond its registers: trace, counters, and the address register of each TAP (0 host, 1 field; R436); and what has happened in
the present cycle, for ties of an update with an access (R8). -/
structure Gallery where
  trace : Trace := {}
  cnts : Tab Counter := []
  tapAddr : Tab Nat := []
  /-- The events that the hardware has set in fabric cycle `setAt` (R8). -/
  setAt : Nat := 0
  sets : List Nat := []
  /-- The RC words updated in fabric cycle `rcAt`: the value before, and what the updates leave of a word read in it (R8). -/
  rcAt : Nat := 0
  rcs : Tab (Option (Word × Word)) := []
  deriving DecidableEq, Repr

/-- MSI-X (R62): function mask, unmasked vectors, pending bits, and how many messages each vector has sent. -/
structure Msix where
  fnMask : Bool := false
  unmasked : Tab Bool := []
  pba : Tab Bool := []
  sent : Tab Nat := []
  deriving DecidableEq, Repr

/-- A 64-byte request at a memory controller (R227, R228): the controller, its subchannel or pseudo-channel, rank, bank and row as the
map decodes them; the port, the field address, whether it writes, the cycle of its admission, and whether it has been issued. A
request that waits at its port holds the bytes it writes and their place in the 64. -/
structure MemReq where
  ctl : Nat
  unit : Nat
  rank : Nat
  bank : Nat
  row : Nat
  port : Nat
  addr : Nat
  write : Bool
  off : Nat := 0
  data : List Byte := []
  since : Nat := 0
  flight : Bool := false
  /-- The bytes of the 64 that a queued write holds, merged ones included (R229). -/
  cover : Nat := 0
  deriving DecidableEq, Repr

/-- The memory controllers (R219 to R241) beyond their registers. -/
structure Cellar where
  /-- Capacity of the cellar in bytes, first channel and log2 of the number of channels of its group, and its data rate in MT/s. -/
  capacity : Nat := 0
  first : Nat := 0
  log2n : Nat := 0
  rate : Nat := 0
  /-- The data rate each channel permits, as training found it (R220). -/
  rates : Tab Nat := []
  /-- Fenced pseudo-channels (R222). -/
  fenced : List Nat := []
  /-- 64-byte accesses whose check code reads back as uncorrectable (R229, R238), by field address / 64. -/
  poison : List Nat := []
  /-- Requests queued or in flight, and those that wait at their ports, oldest first. -/
  queue : List MemReq := []
  ports : List MemReq := []
  /-- The real-time port, and the other port, admitted last, by controller. -/
  lastRt : Tab Nat := []
  lastPort : Tab Nat := []
  /-- Units whose writes drain (R228), by 64 × controller + unit. -/
  drain : Tab Bool := []
  /-- The open row of each bank. -/
  rows : Tab (Option Nat) := []
  /-- By rank: the owed count (R230), the cycle in which its real-time hold ends, and the cycle of its last tREFI tick. -/
  owed : Tab Int := []
  hold : Tab Nat := []
  tickAt : Tab Nat := []
  /-- The cycle in which each controller last read its temperatures. -/
  pollAt : Tab Nat := []
  /-- Buckets that are not full: units, and the count of `fast` at which they held them, by 8 × store + port (R234). -/
  tok : Tab (Option (Nat × Nat)) := []
  /-- Fabric cycles with the fast clocks running (R236), and those of them outside LOAD, in which the HOST buckets accrue (R234). -/
  fast : Nat := 0
  fastHost : Nat := 0
  /-- By rank: the bank indexes that the refresh in progress has covered (R230), and the cycle in which a forced REFab ends (R231). -/
  swept : Tab (List Nat) := []
  refUntil : Tab Nat := []
  /-- tRFC of each channel in fabric cycles, as training read it (R231). -/
  trfc : Tab Nat := []
  /-- The patrol scrub of each controller: the cycle in which its pass began, and the accesses read in it (R239). -/
  scrub : Tab (Nat × List Nat) := []
  /-- The model's own: the bytes of the latest completed read of a port, and whether they were marked uncorrectable. -/
  data : List Byte := []
  marked : Bool := false
  deriving DecidableEq, Repr

/-- The machine. -/
structure State where
  /-- Fabric cycles since beat count 0 (R199, R455). -/
  cycle : Nat := 0
  /-- The BAR0 register file, words by byte address; unlisted words read `resetValue`. -/
  regs : Tab Word := []
  /-- Field memory (R14); an unlisted byte reads 0x00 (log 3). -/
  mem : List Host.Cell := []
  /-- The commands that wait, first in, first out. -/
  pending : List Instr := []
  /-- The model's own: what the latest modelled read returned. -/
  lastRead : Word := 0
  /-- The model's own: how many free values the run has taken (log 4). -/
  fresh : Nat := 0
  /-- The cycle after the latest boundary processed of each grid (R455): 0 storm windows, 1 Bursar intervals, 2 thermal steps, 3 sensor
  samples, 4 Timetable ticks, 5 always-on ticks; 6 is the phase of the always-on clock. -/
  grids : Tab Nat := []
  /-- Read latches of 64-bit and time registers, by word address and requester (R4, R55). -/
  latches : Tab (Option Word) := []
  /-- Staged words of 64-bit and time registers, by word address and requester (R4, R56). -/
  staged : Tab (Option Word) := []
  ctl : ModeCtl := {}
  tbs : Tab TimeBase := []
  gal : Gallery := {}
  msix : Msix := {}
  sat : Satchel := {}
  host : HostLink := {}
  cor : Corridor := {}
  prune : Prune := {}
  bur : Bursar := {}
  ttb : Timetable := {}
  chn : Channels := {}
  sq : Sequencers := {}
  cmp : Compare := {}
  flw : Flow := {}
  tim : Timing := {}
  chk : Tab ChkRun := []
  cal : Calib := {}
  cel : Cellar := {}
  lan : Lanes := {}
  ring : Ring := {}
  tk : TimeKeep := {}
  bel : Bells := {}
  deriving DecidableEq, Repr

/-- Why the block stops. No command stops it: every refusal, discard and error of the spec is an effect on the state. -/
inductive Fault where
  deriving DecidableEq, Repr

/-- Why a command has no outcome. -/
inductive Refusal where
  /-- The command has no meaning in this model yet. Safe: nothing can be proved about a run past it. -/
  | notModelled (mnemonic : String)
  deriving DecidableEq, Repr

/-- The part right after reset (log 1). -/
def State.reset : State := {}

end Sys2Proof.Machine
end

