-- ==== Sys2Proof/Machine/Ops.lean ====
section
/-! DEFINITION. The named operations over registers, memory, time and the two sides' shared records that every
command family uses. -/

namespace Sys2Proof.Machine

/-- The outcome of a command. -/
abbrev Out := Host.Outcome State Fault Refusal

/-! ### Registers -/

/-- The word at a BAR0 address of the register file. -/
def State.reg (s : State) (a : Nat) : Word := Tab.get resetValue s.regs a

/-- `s` with the word at `a` replaced. -/
def State.setReg (s : State) (a : Nat) (w : Word) : State := { s with regs := Tab.set resetValue s.regs a w }

/-- Bits `hi:lo` of the register at `a`. -/
def State.getF (s : State) (a hi lo : Nat) : Nat := fld (s.reg a) hi lo

/-- Bit `n` of the register at `a`. -/
def State.getB (s : State) (a n : Nat) : Bool := bit (s.reg a) n

/-- `s` with bits `hi:lo` of the register at `a` set to `v`. -/
def State.setF (s : State) (a hi lo v : Nat) : State := s.setReg a (setFld (s.reg a) hi lo v)

/-- `s` with bit `n` of the register at `a` set to `b`. -/
def State.setB (s : State) (a n : Nat) (b : Bool) : State := s.setReg a (setBit (s.reg a) n b)

/-- The 64-bit register whose low half is at `a` (R55). -/
def State.reg64 (s : State) (a : Nat) : Nat := (s.reg a).toNat + 2 ^ 32 * (s.reg (a + 4)).toNat

/-- `s` with the 64-bit register at `a` replaced, both halves in one cycle (R56). -/
def State.setReg64 (s : State) (a v : Nat) : State :=
  (s.setReg a (wd v)).setReg (a + 4) (wd (v / 2 ^ 32))

/-- The word at `a` is of an RC register. -/
def isRc (a : Nat) : Bool :=
  match regAt a with
  | some (_, _, _, r, _) => r.acc = .rc
  | none => false

/-- The RC word at `a` becomes `w` in this cycle; a read of it in this cycle leaves `kept` (R8). -/
def State.noteRc (s : State) (a : Nat) (kept : Word → Word) : State :=
  let t := if s.gal.rcAt = s.cycle then s.gal.rcs else []
  let was := (Tab.get (fun _ => none) t a).getD (s.reg a, 0)
  { s with gal := { s.gal with rcAt := s.cycle, rcs := Tab.set (fun _ => none) t a (some (was.1, kept was.2)) } }

/-- A 32-bit count that stops at its largest value. -/
def State.incSat (s : State) (a k : Nat) : State :=
  (if isRc a then s.noteRc a fun w => satAdd 32 w k else s).setReg a (satAdd 32 (s.reg a) k)

/-- A count of 32 bits that wraps. -/
def State.incWrap (s : State) (a k : Nat) : State := s.setReg a (wd ((s.reg a).toNat + k))

/-- A 64-bit total. -/
def State.inc64 (s : State) (a k : Nat) : State := s.setReg64 a (s.reg64 a + k)

/-! ### Times (00_scope.md, "Time format") -/

/-- A time in units of 2^-16 ns as its four words, lowest address first (R4). -/
def timeWords (t : Nat) : List Word :=
  let ns := t / 65536
  [wd (t % 65536), wd (ns % 1000000000), wd (ns / 1000000000), wd (ns / 1000000000 / 2 ^ 32)]

/-- The time four words stand for. -/
def wordsTime (w0 w1 w2 w3 : Word) : Nat :=
  ((w2.toNat + 2 ^ 32 * w3.toNat) * 1000000000 + w1.toNat) * 65536 + w0.toNat % 65536

/-- The time in the time register at `a`. -/
def State.time4 (s : State) (a : Nat) : Nat :=
  wordsTime (s.reg a) (s.reg (a + 4)) (s.reg (a + 8)) (s.reg (a + 12))

/-- `s` with the time register at `a` holding `t`. -/
def State.setTime4 (s : State) (a t : Nat) : State :=
  match timeWords t with
  | [w0, w1, w2, w3] => (((s.setReg a w0).setReg (a + 4) w1).setReg (a + 8) w2).setReg (a + 12) w3
  | _ => s

/-- Units of 2^-16 ns in a fabric cycle: 4 beats of 20,480 (00_scope.md, "Units"). -/
def unitsPerCycle : Nat := 81920

/-- What time base `tb` shows at cycle `c`: its rate is 1 + ρ (R364, R368); the part below one unit is cut (log 9). -/
def TimeBase.now (tb : TimeBase) (c : Nat) : Int :=
  let d : Int := ((c - tb.at0) * unitsPerCycle : Nat)
  tb.base + d + d * tb.rho / 2 ^ 40

/-- Time base `b` of the timekeeper. -/
def State.tb (s : State) (b : Nat) : TimeBase := Tab.get (fun _ => {}) s.tbs b

/-- `s` with time base `b` replaced. -/
def State.setTb (s : State) (b : Nat) (t : TimeBase) : State := { s with tbs := Tab.set (fun _ => {}) s.tbs b t }

/-- What time base `tb` shows at ET instant `et`, 4 units an ET. -/
def TimeBase.atEt (tb : TimeBase) (et : Nat) : Int :=
  let d : Int := (et * 4 : Nat) - (tb.at0 * unitsPerCycle : Nat)
  tb.base + d + d * tb.rho / 2 ^ 40

/-- Time base `b` as it counts: on SRC TB0 it is TB0 with an offset, and counts and holds over as TB0 does (R370). -/
def State.tbSrc (s : State) (b : Nat) : TimeBase :=
  match (s.tb b).follow with
  | none => s.tb b
  | some off => { s.tb 0 with base := (s.tb 0).base + off, stepAt := max (s.tb 0).stepAt (s.tb b).stepAt }

/-- `NOW` of time base `b`; 0 while it does not count (R368). -/
def State.tbNow (s : State) (b : Nat) : Nat :=
  if (s.tbSrc b).counting then ((s.tbSrc b).now s.cycle).toNat else 0

/-- The time of base `b` at ET instant `et`; 0 while it does not count. -/
def State.tbAt (s : State) (b et : Nat) : Nat := if (s.tbSrc b).counting then ((s.tbSrc b).atEt et).toNat else 0

/-- The beat count of R199: 48 bits, 4 per fabric cycle (R455). -/
def State.beats (s : State) : Nat := 4 * s.cycle % 2 ^ 48

/-- A fresh free value of `n` bits: what the spec leaves open (log 4). -/
def State.freshNat (s : State) (n : Nat) : Nat × State :=
  ((Config.freeValue s.fresh).toNat % 2 ^ n, { s with fresh := s.fresh + 1 })

/-! ### Events' addresses -/

/-- Global number of bit `b` of the page with ordinal `o` (R61). -/
def evNo (o b : Nat) : Nat := o * 32 + b

def glbBase : Nat := 0x0000000
def hlkBase : Nat := 0x0010000
def sat0Base : Nat := 0x0011000
def fshBase : Nat := 0x0012000
def sat1Base : Nat := 0x0100000
def chnBase (n : Nat) : Nat := 0x0200000 + n * 0x1000
def dskBase (n : Nat) : Nat := 0x0300000 + n * 0x1000
def sigBase (n : Nat) : Nat := 0x0320000 + n * 0x1000
/-- Page `p` of sequencer `q` (R47). -/
def seqBase (q p : Nat) : Nat := 0x0400000 + q * 0x4000 + p * 0x1000
def decBase : Nat := 0x0500000
def sliceBase (n : Nat) : Nat := 0x0501000 + n * 0x1000
def cmpBase : Nat := 0x0600000
def cmpSite (st : Nat) : Nat := 0x0601000 + st / 32 * 0x1000
def timBase : Nat := 0x0700000
/-- The block of TDC engine `e` (10_time_measurement.md). -/
def tdcBase (e : Nat) : Nat := 0x0701000 + e / 32 * 0x1000 + 0x400 + e % 32 * 0x40
def celBase (c : Nat) : Nat := 0x0800000 + c * 0x1000
def ttbBase : Nat := 0x0900000
def sqBase (q : Nat) : Nat := 0x0901040 + q * 0x40
def dlBase (b : Nat) : Nat := 0x0902000 + b * 0x1000
def burBase : Nat := 0x0A00000
def bur1Base : Nat := 0x0A01000
def flwBase : Nat := 0x0B00000
def corBase : Nat := 0x0C00000
/-- `SEL[i]` of `COR[1]`. -/
def selAddr (i : Nat) : Nat := 0x0C01800 + 4 * i
def chkBase (n : Nat) : Nat := 0x0D00000 + n * 0x1000
def vinBase : Nat := 0x0E00000
def vin1Base : Nat := 0x0E01000
def lanBase (p : Nat) : Nat := 0x0F00000 + p * 0x1000
def rngBase : Nat := 0x1000000
def tkpBase : Nat := 0x1001000
/-- The block of time base `b`. -/
def tbBase (b : Nat) : Nat := 0x1001100 + 0x40 * b
def galBase : Nat := 0x1100000
def gal1Base : Nat := 0x1101000
def pwrBase : Nat := 0x1200000

/-! ### Field memory (R14, R15) -/

/-- What a byte that nothing has written reads as: 0x00 (DESIGN CHOICE, log 3). -/
def memDefault (_ : Nat) : Byte := 0

/-- The byte of field memory at `a`. -/
def State.byte (s : State) (a : Nat) : Byte := Tab.get memDefault s.mem a

/-- `s` with the byte at `a` written. -/
def State.setByte (s : State) (a : Nat) (b : Byte) : State := { s with mem := Tab.set memDefault s.mem a b }

/-- The canonical form of field memory. -/
def Memory.wf (m : List Host.Cell) : Bool := Tab.wf memDefault m

/-- Capacity of the cellar in bytes: 2^(29 + CAP_LOG2)-like, as `CEL[0].MAP_STAT` gives it; kept by training (R221). -/
def State.cellarBytes (s : State) : Nat := s.cel.capacity

/-- A field address that R14 and R15 map: the near store's 48 GiB, or the cellar up to its installed capacity. -/
def State.mapped (s : State) (a : Nat) : Bool :=
  decide (a < 0x000C00000000) || (decide (0x040000000000 ≤ a) && decide (a < 0x040000000000 + s.cellarBytes))

/-! ### Values in force (R70), and the address maps (R223, R224) -/

/-- The value in force of the word at `a`: the one before the staged write, if one is staged. -/
def State.eff (s : State) (a : Nat) : Word := (Tab.get (fun _ => none) s.chn.inForce a).getD (s.reg a)

/-- The 64-bit value in force at `a`. -/
def State.eff64 (s : State) (a : Nat) : Nat := (s.eff a).toNat + 2 ^ 32 * (s.eff (a + 4)).toNat

/-- The base address of a store: the near store's or the cellar's (R223). -/
def storeBase (near : Bool) : Nat := if near then 0 else 0x040000000000

/-- The base bits of a store's selectors (R224). -/
def mapBase (near : Bool) : List Nat :=
  if near then [6, 7, 8, 9, 10, 11, 16, 17, 18, 19, 20] else [6, 7, 8, 9, 17, 18, 19, 20, 21]

/-- The page that holds a store's map and regulators. -/
def storeCtl (near : Bool) : Nat := if near then 8 else 0

/-- The mask of selector `k` in force. -/
def State.mapMask (s : State) (near : Bool) (k : Nat) : Nat := s.eff64 (celBase (storeCtl near) + 0x140 + 8 * k)

/-- Selector `k` is present (R223): a CH selector of the cellar only up to the number of its channels. -/
def State.mapPresent (s : State) (near : Bool) (k : Nat) : Bool :=
  near || k = 0 || decide (3 < k) || decide (k ≤ s.cel.log2n)

/-- XOR of the bits of a number of 46 bits. -/
def parity (n : Nat) : Bool := (bitsOf 46 n).length % 2 = 1

/-- Selector `k` at offset `o` of a store; 0 if absent. -/
def State.mapSel (s : State) (near : Bool) (o k : Nat) : Nat :=
  if s.mapPresent near k && parity (o &&& (s.mapMask near k * 64)) then 1 else 0

/-- The value of selectors `lo` to `hi`, the first as bit 0. -/
def State.mapField (s : State) (near : Bool) (o lo n : Nat) : Nat :=
  ((List.range n).map fun i => s.mapSel near o (lo + i) * 2 ^ i).sum

/-- What is left of an offset with the base bits of the present selectors removed, packed from bit 0 up. -/
def State.mapRest (s : State) (near : Bool) (o : Nat) : Nat :=
  let base := ((List.range (mapBase near).length).filter fun k => s.mapPresent near k).map fun k => (mapBase near).getD k 0
  let ps := ((List.range 40).map (6 + ·)).filter fun p => !base.contains p
  ((List.range ps.length).map fun i => (nbit o (ps.getD i 0)).toNat * 2 ^ i).sum

/-- The pseudo-channel of a near-store address (R223). -/
def State.pseudo (s : State) (a : Nat) : Nat := s.mapField true a 0 6

/-- The address lies in a fenced pseudo-channel (R222). -/
def State.fencedAt (s : State) (a : Nat) : Bool :=
  !s.cel.fenced.isEmpty && decide (a < 0x040000000000) && s.cel.fenced.contains (s.pseudo a)

/-- The address answers: it is mapped and not fenced. -/
def State.answers (s : State) (a : Nat) : Bool := s.mapped a && !(s.fencedAt a)

/-- All of `n` bytes from `a` answer, and none is fenced anywhere. -/
def State.wholeRun (s : State) (a n : Nat) : Bool :=
  s.cel.fenced.isEmpty && (decide (a + n ≤ 0x000C00000000) ||
    (decide (0x040000000000 ≤ a) && decide (a + n ≤ 0x040000000000 + s.cellarBytes)))

/-- Bytes read one by one; an unmapped or fenced byte reads all-ones. -/
def State.readEach (s : State) (a : Nat) : Nat → List Byte
  | 0 => []
  | n + 1 => (if s.answers a then s.byte a else 0xFF) :: s.readEach (a + 1) n

/-- `n` bytes from `a`, lowest first, as they lie in memory; an unmapped or fenced byte reads all-ones (R15, R222). -/
def State.readBytes (s : State) (a n : Nat) : List Byte :=
  if s.wholeRun a n then Tab.getRun memDefault s.mem a n else s.readEach a n

/-- Bytes stored one by one; a byte for an unmapped or fenced address is discarded. -/
def State.putEach (s : State) (a : Nat) : List Byte → State
  | [] => s
  | b :: l => State.putEach (if s.answers a then s.setByte a b else s) (a + 1) l

/-- Bytes stored from `a` upwards; a byte for an unmapped or fenced address is discarded (R15, R222). -/
def State.putBytes (s : State) (a : Nat) (l : List Byte) : State :=
  if s.wholeRun a l.length then { s with mem := Tab.setRun memDefault s.mem a l } else s.putEach a l

/-- Bytes written from `a` upwards. An access written whole has a good check code again; one written in part keeps an uncorrectable
one (R229). -/
def State.writeBytes (s : State) (a : Nat) (l : List Byte) : State :=
  let t := s.putBytes a l
  { t with cel := { t.cel with
      poison := t.cel.poison.filter fun p => !(decide (a ≤ 64 * p) && decide (64 * p + 64 ≤ a + l.length)) } }

/-- The little-endian value of `n` bytes at `a`. -/
def State.readLE (s : State) (a n : Nat) : Nat := ofBytesLE (s.readBytes a n)

/-- `v` stored little-endian in `n` bytes at `a`. -/
def State.writeLE (s : State) (a n v : Nat) : State := s.writeBytes a (bytesLE n v)

/-- Every one of `n` bytes at `a` answers and is free of an uncorrectable error (R15, R222, R238). -/
def State.readOk (s : State) (a n : Nat) : Bool :=
  (List.range n).all fun i => s.answers (a + i) && !(s.cel.poison.contains ((a + i) / 64))

/-- The 32-bit words `ws` stored from `a` upwards. -/
def State.writeWords (s : State) (a : Nat) (ws : List Word) : State :=
  s.writeBytes a (ws.flatMap fun w => bytesLE 4 w.toNat)

/-- A pulse of 8 beats on TRIG_OUT ball `k` from ET instant `et`, moved by `TRIG_SKEW[k]` (R123, R310, R391); pulses that are over are
forgotten. -/
def State.trigPulse (s : State) (k et : Nat) : State :=
  let at0 := ((et : Int) + sext 20 (s.getF (rngBase + 0x1C0 + 4 * k) 19 0)).toNat
  let kept := (Tab.get (fun _ => []) s.cor.trigOut k).filter fun p => 20480 * s.cycle < p.2
  { s with cor := { s.cor with trigOut := Tab.set (fun _ => []) s.cor.trigOut k (kept ++ [(at0, at0 + 40960)]) } }

/-- The level of TRIG_OUT ball `k` at ET instant `et`: the OR of every pulse that drives it (R123). -/
def State.trigLevel (s : State) (k et : Nat) : Bool :=
  (Tab.get (fun _ => []) s.cor.trigOut k).any fun p => decide (p.1 ≤ et) && decide (et < p.2)

/-! ### Flash (R409) -/

/-- What an erased flash byte reads (log 21). -/
def flashDefault (_ : Nat) : Byte := 0xFF

/-- `n` bytes of flash from `a`. -/
def State.flashBytes (s : State) (a n : Nat) : List Byte := Tab.getRun flashDefault s.host.flash a n

/-- `s` with bytes put in flash from `a`. -/
def State.flashPut (s : State) (a : Nat) (l : List Byte) : State :=
  { s with host := { s.host with flash := Tab.setRun flashDefault s.host.flash a l } }

/-! ### Clock -/

/-- MODE 1 counters count every fabric cycle in which their source's `EV_RAW` bit reads 1 (R435). -/
def State.rawBit (s : State) (g : Nat) : Bool :=
  match ordinalPage (g / 32) with
  | none => false
  | some p => s.getB (p + 0x10) (g % 32)

/-- A counter after `n` counts: 48 bits, OVF at a wrap (R435). -/
def Counter.add (c : Counter) (n : Nat) : Counter :=
  { c with live := (c.live + n) % 2 ^ 48, ovf := c.ovf || decide (2 ^ 48 ≤ c.live + n) }

end Sys2Proof.Machine
end

