-- ==== Sys2Proof/Machine/Flags.lean ====
section
/-! DEFINITION. Events (R57 to R64), the records that every occurrence leaves (interrupt requests, Corridor pulses,
trace records and counts, R430 to R435), refusals (R27) and RESYNC records (R427). -/

namespace Sys2Proof.Machine

/-! ### Interrupt delivery -/

/-- One MSI-X message on vector `v`, or its pending bit while the vector or the function is masked (R62); nothing but its unmasking takes the
bit back (log 11). -/
def State.msixSend (s : State) (v : Nat) : State :=
  if s.msix.fnMask || !(Tab.get (fun _ => false) s.msix.unmasked v) then
    { s with msix := { s.msix with pba := Tab.set (fun _ => false) s.msix.pba v true } }
  else
    { s with msix := { s.msix with sent := Tab.set (fun _ => 0) s.msix.sent v
                                            (Tab.get (fun _ => 0) s.msix.sent v + 1) } }

/-- The page with ordinal `o` requests an interrupt (R62): a host-side page sends its message; a field page queues an
`EVENT` message, and none while the barrier is down (R63, R64). -/
def State.request (s : State) (o : Nat) : State :=
  match ordinalPage o with
  | none => s
  | some p =>
    if o ≤ 3 then s.msixSend (fld (s.eff (p + 0x1C)) 7 0)
    else if s.sat.fieldUp then
      { s with sat := { s.sat with evtTx := s.sat.evtTx ++ [(o, s.reg (p + 0x14), some (fld (s.eff (p + 0x1C)) 7 0))] } }
    else s

/-- Pending-and-enabled of the page at `p` (R62). -/
def State.pendEn (s : State) (p : Nat) : Word := s.reg (p + 0x14) &&& s.eff (p + 0x18)

/-- A request of page `p` if pending-and-enabled was zero in `old` and is not now. -/
def State.requestRise (s : State) (o : Nat) (old : Word) : State :=
  match ordinalPage o with
  | none => s
  | some p => if old = 0 ∧ s.pendEn p ≠ 0 then s.request o else s

/-! ### Corridor pulses and counters -/

/-- Hop 1 of a page's pulses in fabric cycles (R303), by ordinal: 2 from another clock domain. -/
def hopOne (o : Nat) : Nat :=
  if (5 ≤ o ∧ o ≤ 24) ∨ o = 30 ∨ o = 31 ∨ o = 60 ∨ o = 62 ∨ o = 4 ∨ (57 ≤ o ∧ o ≤ 59) then 2 else 1

/-- The pulse of an occurrence of `g` leaves its page one cycle later (R58). A host-side page's pulse crosses in an `EVENT` message, or is
counted as not carried while no lane is ACTIVE (R304); at pruning stage 4 the Corridor has stopped (R312). -/
def State.pulse (s : State) (g : Nat) : State :=
  if g / 32 ≤ 3 then
    if s.sat.hostUp then { s with sat := { s.sat with evtRx := s.sat.evtRx ++ [g] } }
    else { s with sat := { s.sat with hostPulses := s.sat.hostPulses + 1 } }
  else if 4 ≤ s.prune.stage then s
  else { s with cor := { s.cor with pulses := s.cor.pulses ++ [Pulse.mk g (s.cycle + 1 + hopOne (g / 32)) false] } }

/-- Counter `c` of the Gallery. -/
def State.counter (s : State) (c : Nat) : Counter := Tab.get (fun _ => {}) s.gal.cnts c

/-- `s` with counter `c` replaced. -/
def State.setCounter (s : State) (c : Nat) (x : Counter) : State :=
  { s with gal := { s.gal with cnts := Tab.set (fun _ => {}) s.gal.cnts c x } }

/-- The Gallery counts: from READY to pruning stage 2, with the fast clocks running (R435). -/
def State.countersRun (s : State) : Bool :=
  s.ctl.clocks && decide (5 ≤ s.ctl.mode) && decide (s.prune.stage ≤ 2)

/-- Every MODE 0 counter of `g` counts one occurrence; the answer says whether one wrapped (R435). -/
def State.countOcc (s : State) (g : Nat) : Bool × State :=
  if s.countersRun then
    (Tab.keys s.gal.cnts).foldl (fun (r : Bool × State) k =>
      let c := r.2.counter k
      if c.en && c.mode = 0 && c.source = g then
        (r.1 || decide (c.live + 1 = 2 ^ 48), r.2.setCounter k { c.add 1 with hitAt := s.cycle + 1 })
      else r) (false, s)
  else (false, s)

/-! ### Occurrences -/

/-- The hardware has set `g` in this cycle. -/
def State.setNow (s : State) (g : Nat) : Bool := s.gal.setAt == s.cycle && s.gal.sets.contains g

/-- The hardware sets `g` in this cycle, so that a clear written in it does not clear it (R8). -/
def State.noteSet (s : State) (g : Nat) : State :=
  if s.setNow g then s
  else { s with gal := { s.gal with sets := g :: (if s.gal.setAt = s.cycle then s.gal.sets else []), setAt := s.cycle } }

/-- `EV_PEND` of `g` is set, and `EV_RAW` too if `raw`; the page requests an interrupt if pending-and-enabled rises from
zero; the pulse leaves, one in a fabric cycle (R57, R58, R62, R302). A reserved number does nothing (R61). -/
def State.pend (s : State) (raw : Bool) (g : Nat) : State :=
  match ordinalPage (g / 32) with
  | none => s
  | some p =>
    if nbit (writeMask (p + 0x14)) (g % 32) then
      let old := s.pendEn p
      let again := s.setNow g
      let s := s.setB (p + 0x14) (g % 32) true
      let s := if raw then (s.setB (p + 0x10) (g % 32) true).noteSet g else s
      let s := s.requestRise (g / 32) old
      if again then s else s.pulse g
    else s

/-- Global number of `GAL.CNT_WRAP`. -/
def evCntWrap : Nat := evNo 61 4

/-- An occurrence of `g` with its counts; an event occurs at most once in a fabric cycle (R302). A wrapped counter raises `CNT_WRAP`, itself an
occurrence that counts (R435); a second wrap in the cycle falls on the same occurrence. The trace is not written here. -/
def State.occurG (s : State) (raw : Bool) (g : Nat) : State :=
  if s.setNow g then s.pend raw g else
  let r := (s.pend raw g).countOcc g
  if r.1 then ((r.2.pend true evCntWrap).countOcc evCntWrap).2 else r.2

/-- Timestamps of cycle `c` carry COARSE: the fine re-lock of a Recess exit or clock restart runs (R42, R420), or one after a reference switch
or a loss of REF_IN (R214, R215). -/
def State.coarseAt (s : State) (c : Nat) : Bool :=
  s.ctl.fineRelock || (decide (s.ctl.fineLoss.1 ≤ c) && decide (c < s.ctl.fineLoss.2)) ||
    (decide (s.ctl.fineSwitch.1 ≤ c) && decide (c < s.ctl.fineSwitch.2))

/-- Timestamps carry COARSE. -/
def State.coarse (s : State) : Bool := s.coarseAt s.cycle

/-- The live `HOLDOVER` and COARSE flags a TB0 stamp carries (R20, R42, R367). -/
def State.stampFlags (s : State) : Bool × Bool := ((s.tb 0).holdover, s.coarse)

/-- The trace ends in DONE with a cause (R432). -/
def State.traceEnd (s : State) (cause : Nat) : State :=
  ({ s with gal := { s.gal with trace := { s.gal.trace with st := 4, cause := cause } } }).occurG true (evNo 61 0)

/-- Records the trace SRAM holds (R431). -/
def traceDepth : Nat := 524288

/-- `a` comes before `b` among the records of one cycle: event records in ascending number, then TRIGGER records (R431). -/
def TraceRec.before (a b : TraceRec) : Bool := decide (a.kind < b.kind) || (a.kind = b.kind && decide (a.source ≤ b.source))

/-- A record put in its place. -/
def TraceRec.place (a : TraceRec) : List TraceRec → List TraceRec
  | [] => [a]
  | b :: l => if a.before b then a :: b :: l else b :: TraceRec.place a l

/-- The SRAM's records with `r` among the latest `k`, those of one cycle: the first `keep` of them in order, numbered from the first on. -/
def placeRec (recs : List TraceRec) (k keep : Nat) (r : TraceRec) : List TraceRec :=
  let n := recs.length - k
  let same := recs.drop n
  recs.take n ++ (((r.place same).take keep).zip ((same ++ [r]).map TraceRec.seq)).map fun p => { p.1 with seq := p.2 }

/-- A record for the trace in RUN or POST (R430 to R433): at most two per cycle, those of the lowest numbers, dropped ones counted and numbered; a
full SRAM drops under spill, overwrites under WRAP, and otherwise ends the trace FULL. -/
def State.traceWrite (s : State) (kind source : Nat) (raw : Word) : State :=
  let t := s.gal.trace
  if t.st = 2 ∨ t.st = 3 then
    let inC := if t.stamp = s.cycle then t.inCycle else 0
    let full := decide (traceDepth ≤ t.recs.length)
    let spill := bit t.cfg 31
    let fl := s.stampFlags
    let r : TraceRec := ⟨kind, fl.1, fl.2, source, raw, t.seq, s.tbNow 0⟩
    if 2 ≤ inC ∨ (full ∧ spill) then
      let recs := if 2 ≤ inC ∧ 2 ≤ t.recs.length then placeRec t.recs 2 2 r else t.recs
      let s := { s with gal := { s.gal with trace := { t with recs := recs, seq := t.seq + 1 } } }
      (s.incSat (galBase + 0x50) 1).occurG true (evNo 61 2)
    else if full ∧ !(bit t.cfg 30) then
      (s.traceEnd 3).occurG true (evNo 61 1)
    else
      let recs := placeRec (if full then t.recs.drop 1 else t.recs) inC 2 r
      let first := if full then (t.first + 1) % traceDepth else t.first
      let left := if t.st = 3 then t.postLeft - 1 else t.postLeft
      let s := { s with gal := { s.gal with trace :=
        { t with recs := recs, first := first, seq := t.seq + 1, postLeft := left,
                 stamp := s.cycle, inCycle := inC + 1 } } }
      if t.st = 3 ∧ left = 0 then s.traceEnd 2 else s
  else s

/-- The fabric cycle ends: the EVENT records of it take RAW as the next cycle has it (R431). -/
def State.traceSettle (s : State) : State :=
  let t := s.gal.trace
  if t.stamp = s.cycle ∧ t.inCycle ≠ 0 then
    let n := t.recs.length - t.inCycle
    let now (r : TraceRec) : TraceRec :=
      match ordinalPage (r.source / 32) with
      | some p => if r.kind = 1 then { r with raw := s.reg (p + 0x10) } else r
      | none => r
    { s with gal := { s.gal with trace := { t with recs := t.recs.take n ++ (t.recs.drop n).map now, inCycle := 0, stamp := 0 } } }
  else s

/-- `g` lies within an enabled filter, and is not a `GAL[0]` event (R430). -/
def State.traced (s : State) (g : Nat) : Bool :=
  decide (g / 32 ≠ 61) && (List.range 16).any fun i =>
    let f := s.reg (galBase + 0x80 + 4 * i)
    bit f 31 && decide (fld f 11 0 ≤ g) && decide (g ≤ fld f 27 16)

/-- The EVENT record of an occurrence of `g`, if it is filtered in: RAW is the source page's `EV_RAW` (R430). -/
def State.traceOcc (s : State) (g : Nat) : State :=
  if s.traced g then
    match ordinalPage (g / 32) with
    | none => s
    | some p => s.traceWrite 1 g (s.reg (p + 0x10))
  else s

/-- One occurrence of the latched event `g` with everything it leaves (R57, R58, R62, R430, R435). -/
def State.occur (s : State) (g : Nat) : State := if s.setNow g then s.pend true g else (s.occurG true g).traceOcc g

/-- One occurrence made by `EV_TEST`: as `occur`, but `EV_RAW` is not changed (R59). -/
def State.occurTest (s : State) (g : Nat) : State := if s.setNow g then s.pend false g else (s.occurG false g).traceOcc g

/-- The live condition of event `g` is now `b`: `EV_RAW` follows it, and its rising edge is an occurrence (R57). -/
def State.setLive (s : State) (g : Nat) (b : Bool) : State :=
  match ordinalPage (g / 32) with
  | none => s
  | some p =>
    let was := s.getB (p + 0x10) (g % 32)
    let s := s.setB (p + 0x10) (g % 32) b
    if b && !was then ((s.occurTest g).noteSet g) else s

/-- `n` fabric cycles more, and as many with the fast clocks running if they do (R236). -/
def State.tick (s : State) (n : Nat) : State :=
  { s with cycle := s.cycle + n
           cel := { s.cel with
             fast := s.cel.fast + if s.ctl.clocks then n else 0
             fastHost := s.cel.fastHost + if s.ctl.clocks && s.ctl.mode != 6 then n else 0 } }

/-- `s` with other dropped edges that wait to be counted. -/
def State.setDrops (s : State) (l : List EdgeDrop) : State := { s with sq := { s.sq with drops := l } }

/-- A dropped edge is counted: `TS_DROP_INFO` keeps the first, and `EDGE_DROP` occurs (R101). -/
def State.dropCount (s : State) (d : EdgeDrop) : State :=
  let a := seqBase (d.seq % 16) 1
  let s := s.incSat (a + 0x44) 1
  let s := if s.reg (a + 0x48) = 0 then s.setReg (a + 0x48) (wd d.info) else s
  s.occur (evNo (5 + d.seq % 16) 10)

/-- The dropped edges are counted whose vectors have started, in the cycle after the one with that start (R101). -/
def State.dropsDue (s : State) : State :=
  let due (d : EdgeDrop) : Bool := d.at0 / 20480 < s.cycle
  (s.sq.drops.filter due).foldl State.dropCount (s.setDrops (s.sq.drops.filter fun d => !due d))

/-- The clock and the counters over `n` fabric cycles: each MODE 1 counter whose event condition holds counts them (R435). -/
def State.run (s : State) (n : Nat) : State :=
  if s.countersRun then
    let s' := (Tab.keys s.gal.cnts).foldl (fun (r : Bool × State) k =>
      let c := r.2.counter k
      if c.en && c.mode = 1 && s.rawBit c.source then
        (r.1 || decide (2 ^ 48 ≤ c.live + n), r.2.setCounter k (c.add n))
      else r) (false, s.tick n)
    if s'.1 then s'.2.occurG true evCntWrap else s'.2
  else s.tick n

/-- `n` fabric cycles, at least one, pass: the trace settles, the beat count, every time base and the counters go on with them, and dropped edges are counted. -/
def State.pass (s : State) (n : Nat) : State := (s.traceSettle.run n).dropsDue

/-- Time goes on to fabric cycle `c`, if it is still to come: a timed event happens at its time (log 2). -/
def State.passTo (s : State) (c : Nat) : State := if s.cycle < c then s.pass (c - s.cycle) else s

/-- The first cycle at or after `c` that begins an interval of `l` cycles. Intervals are counted from beat count 0, but for the 80 cycles of the
always-on clock, whose phase the spec leaves open: a free value that lasts from one field reset to the next (R455; log 4). -/
def State.boundary (s : State) (l c : Nat) : Nat :=
  let p := if l = 80 then Tab.get (fun _ => 0) s.grids 6 % 80 else 0
  (c + (l - 1 - p)) / l * l + p

/-- The boundary of a grid of `l` cycles that comes next after the latest one processed (R455). -/
def State.nextGrid (s : State) (g l : Nat) : Nat := s.boundary l (max (Tab.get (fun _ => 0) s.grids g) s.cycle)

/-- Time goes on to that boundary. -/
def State.toGrid (s : State) (g l : Nat) : State :=
  let c := s.nextGrid g l
  let s := s.passTo c
  { s with grids := Tab.set (fun _ => 0) s.grids g (c + 1) }

/-! ### Refusals (R27) -/

/-- The mode that `MODE_STAT` shows: the host side's own while it cannot see the field side (R38). -/
def State.shownMode (s : State) : Nat := s.ctl.hostMode.getD s.ctl.mode

/-- `MODE_DENY` with its record: `DENY_INFO` keeps the first refusal, `DENY_COUNT` counts every one (R27). -/
def State.deny (s : State) (cause off page : Nat) (access write : Bool) : State :=
  let info := setFld (setFld (setFld (setFld (setBit (setBit 0 29 (access && write)) 28 access)
    27 16 off) 15 8 page) 7 4 s.shownMode) 3 0 cause
  let s := if s.reg (glbBase + 0x4C) = 0 then s.setReg (glbBase + 0x4C) info else s
  (s.incSat (glbBase + 0x50) 1).occur (evNo 1 1)

/-- A direct start refused because the mode or `PG_CTRL.EN` forbids it, at the register at `a` (R27, R53). A lane page has no
ordinal: its refusal names the link's summary page and 0xF00 + n (R60). -/
def State.denyStart (s : State) (a : Nat) : State :=
  match pageOf a with
  | none => s
  | some (g, i, o) =>
    if g.kind = .lanL then s.deny 1 (0xF02 + i) (if i < 16 then 57 else 58) false false
    else s.deny 1 o (ordinalOf g i) false false

/-- The classes of operation that R26 lists. -/
inductive OpClass where
  | burst | flowNode | tim | chk | dma | calInternal | calExternal | diag | flash
  deriving DecidableEq, Repr

/-- R26: whether mode `m` at pruning stage `stage` permits an operation of a class. Host DMA is one class: in LOAD the HOST
regulator is not applied, elsewhere it is. -/
def modePermits (c : OpClass) (m stage : Nat) : Bool :=
  let shed := m == 12 && (stage == 1 || stage == 2)
  match c with
  | .burst | .flowNode => m == 8 || m == 10
  | .tim => m == 8 || m == 9 || m == 10 || m == 11 || shed
  | .chk => (5 ≤ m && m ≤ 11) || shed
  | .dma => (5 ≤ m && m ≤ 11) || shed
  | .calInternal => m == 5 || m == 7 || m == 9
  | .calExternal => m == 7
  | .diag => m == 11
  | .flash => m == 3 || m == 5 || m == 6

/-- A direct start of class `c` whose register is at `a` is accepted: the mode permits it, no pending transition
forbids it (R31), and the page's EN is 1 (R53). DMA and flash operations are the host side's, under the mode it shows. -/
def State.startAllowed (s : State) (c : OpClass) (a : Nat) : Bool :=
  let host := c = .dma ∨ c = .flash
  modePermits c (if host then s.shownMode else s.ctl.mode) s.prune.stage &&
  (match (if host ∧ s.ctl.hostMode.isSome then none else s.ctl.pend) with
   | none => true
   | some r => modePermits c r.target s.prune.stage) &&
  s.getB (a / 0x1000 * 0x1000 + 0x8) 0

/-! ### RESYNC records (R427) -/

/-- A record enters the 32-entry queue, if its amount is not 0 (R422); a full queue drops it, counts it and marks its newest
entry. -/
def State.resyncRec (s : State) (r : Resync) : State :=
  if r.amount = 0 then s
  else if s.prune.queue.length < 32 then
    ({ s with prune := { s.prune with queue := s.prune.queue ++ [r] } }).occur (evNo 62 1)
  else
    let q := s.prune.queue
    let q := q.take 31 ++ (q.drop 31).map fun e => { e with ovf := true }
    (({ s with prune := { s.prune with queue := q } }).incSat (pwrBase + 0x84) 1).occur (evNo 62 3)

/-- The field side discards `amount`: cause, kind, page and sub as R427 lists them, at the TB0 time of the discard. -/
def State.resync (s : State) (cause kind page sub : Nat) (amount : Int) : State :=
  s.resyncRec ⟨false, false, cause, kind, page, sub, amount, s.tbNow 0⟩

/-- The eight words of a RESYNC record (R427). -/
def Resync.words (r : Resync) : List Word :=
  [wd (2 ^ 31 + r.hostSide.toNat * 2 ^ 30 + r.ovf.toNat * 2 ^ 29 + r.cause * 2 ^ 20 + r.kind * 2 ^ 8 + r.page),
   wd r.sub, wd (unsext 64 r.amount), wd (unsext 64 r.amount / 2 ^ 32)] ++ timeWords r.time

end Sys2Proof.Machine
end

