-- ==== Sys2Proof/Machine/Ports.lean ====
section
/-! DEFINITION. The ports of the two stores (11_cellar_controllers.md): the regulators of R234, the check codes of R222 and R238, and the
access of a master through its port, which every unit that reads or writes field memory uses. -/

namespace Sys2Proof.Machine

/-! ### Port regulators (R234 to R236) -/

/-- The register of port `p` of a store's regulator. -/
def regCfg (near : Bool) (p : Nat) : Nat := celBase (storeCtl near) + 0x200 + 4 * p

/-- The regulator of port `p` is in force: EN, and in LOAD not HOST's (R234). -/
def State.regulated (s : State) (near : Bool) (p : Nat) : Bool :=
  s.getB (regCfg near p) 31 && !(p = 2 && s.ctl.mode = 6)

/-- A full bucket, in units of 1/64 byte. -/
def State.bucketFull (s : State) (near : Bool) (p : Nat) : Nat := s.getF (regCfg near p) 27 16 * 65536

/-- Key of a bucket. -/
def bucketKey (near : Bool) (p : Nat) : Nat := 8 * near.toNat + p

/-- The cycles in which the buckets of port `p` accrue: those with the fast clocks running (R236), and for HOST those outside LOAD (R234). -/
def State.accrued (s : State) (p : Nat) : Nat := if p = 2 then s.cel.fastHost else s.cel.fast

/-- Units in a bucket now: 5 × RATE for each cycle of accrual while EN = 1, up to full (R234, R236). -/
def State.bucket (s : State) (near : Bool) (p : Nat) : Nat :=
  match Tab.get (fun _ => none) s.cel.tok (bucketKey near p) with
  | none => s.bucketFull near p
  | some (u, at0) =>
    if s.getB (regCfg near p) 31 then
      min (s.bucketFull near p) (u + (s.accrued p - at0) * (5 * s.getF (regCfg near p) 15 0))
    else u

/-- `s` with a bucket holding `u` units; full for `none`. -/
def State.setBucket (s : State) (near : Bool) (p : Nat) (u : Option Nat) : State :=
  { s with cel := { s.cel with tok := Tab.set (fun _ => none) s.cel.tok (bucketKey near p) (u.map fun n => (n, s.accrued p)) } }

/-- An admission at port `p` (R234, R236): 64 bytes of tokens where it is regulated, and 64 bytes in `PORT_BYTES`. -/
def State.portTake (s : State) (near : Bool) (p : Nat) : State :=
  let s := if s.regulated near p then s.setBucket near p (some (s.bucket near p - 4096)) else s
  s.inc64 (celBase (storeCtl near) + 0x240 + 8 * p) 64

/-! ### The regulated rate (R234, R235) -/

/-- The regulated rate of the DEC port, in units of 0.5 MB/s (R235). -/
def State.decRate (s : State) : Nat :=
  let one (near : Bool) (peak : Nat) : Nat := if s.getB (regCfg near 0) 31 then s.getF (regCfg near 0) 15 0 * 125 else peak
  one false (if s.cel.capacity = 0 then 0 else 2 ^ s.cel.log2n * 8 * s.cel.rate * 2) + one true ((64 - s.cel.fenced.length) * 76800)

/-- The RATE values of the sixteen sequencers together, in the same units (R156). -/
def State.rateSum (s : State) : Nat := ((List.range 16).map fun q => s.getF (decBase + 0x80 + 4 * q) 15 0 * 125).sum

/-- `BUDGET_OVER` is live while the sequencers' rates together exceed the DEC port's (R156). -/
def State.budget (s : State) : State := s.setLive (evNo 25 4) (decide (s.decRate < s.rateSum))

/-! ### Check codes (R222, R238) -/

/-- The store of a field address: the two split at the cellar's base (R226). -/
def isNear (a : Nat) : Bool := decide (a < storeBase false)

/-- The controller that serves a field address under the maps in force (R223). -/
def State.ctlOf (s : State) (a : Nat) : Nat :=
  if isNear a then 8 + s.pseudo a / 32 else s.cel.first + s.mapField false (a - storeBase false) 1 3

/-- A corrected error in controller `c`. -/
def State.corrected (s : State) (c : Nat) : State := (s.incSat (celBase c + 0x50) 1).occur (evNo (32 + c) 1)

/-- An uncorrectable read at field address `a` in controller `c`; `ERR_ADDR` keeps the first. -/
def State.uncorrectable (s : State) (c a : Nat) : State :=
  let s := s.incSat (celBase c + 0x54) 1
  let s := if s.reg64 (celBase c + 0x58) = 0 then s.setReg64 (celBase c + 0x58) (2 ^ 63 + a % 2 ^ 48) else s
  s.occur (evNo (32 + c) 2)

/-- The access at `a` has data marked uncorrectable: its check code was written so, or its pseudo-channel is fenced. -/
def State.marked (s : State) (a : Nat) : Bool := s.fencedAt a || s.cel.poison.contains (a / 64)

/-- The check code of the access at `a` turns out uncorrectable. -/
def State.spoil (s : State) (a : Nat) : State :=
  if s.marked a then s else { s with cel := { s.cel with poison := s.cel.poison ++ [a / 64] } }

/-- An access read in controller `c` with check result `ecc` (0 none, 1 corrected, 2 uncorrectable) (R238). The answer says whether the
data is marked. -/
def State.checked (s : State) (c a ecc : Nat) : Bool × State :=
  if ecc = 2 ∨ s.marked a then (true, (s.spoil a).uncorrectable c a)
  else if ecc = 1 then (false, s.corrected c)
  else (false, s)

/-! ### Accesses of masters (R15, R222, R226, R227, R234 to R238) -/

/-- What an access leaves in its controller's page: `UNMAPPED` of the store that decodes it (R15, R226); a write to a fenced
pseudo-channel counts (R222); a read of marked data, and the read that completes a write in part (R229), is uncorrectable. -/
def State.portMark (s : State) (write whole : Bool) (a : Nat) : State :=
  if !(s.mapped a) then s.occur (evNo (32 + storeCtl (isNear a)) 0)
  else if write && s.fencedAt a then (s.incSat (celBase (s.ctlOf a) + 0x54) 1).occur (evNo (32 + s.ctlOf a) 2)
  else if s.marked a && !(write && whole) then s.uncorrectable (s.ctlOf a) a
  else s

/-- The controllers of a store serve requests: the fast clocks run, and none of them is in self-refresh (R233, R236). -/
def State.storeUp (s : State) (near : Bool) : Bool :=
  s.ctl.clocks && (List.range 10).all fun c => decide ((8 ≤ c) ≠ near) || decide (s.getF (celBase c + 0xC) 7 4 ≠ 3)

/-- Port `p` holds tokens for an access, at once or after the time they take to accrue (R234); `none` while they never do. -/
def State.portWait (s : State) (near : Bool) (p : Nat) : Option State :=
  let b := s.bucket near p
  let rate := 5 * s.getF (regCfg near p) 15 0
  if !(s.regulated near p) || decide (4096 ≤ b) then some s
  else if rate = 0 then none
  else some (s.pass ((4096 - b + rate - 1) / rate))

/-- One 64-byte access of port `p` at `a`: an unmapped one is only marked, any other waits for its tokens and is performed at once (log
87). `none` while it must wait at its port. -/
def State.portOne (s : State) (p : Nat) (write whole : Bool) (a : Nat) : Option State :=
  let near := isNear a
  if !(s.storeUp near) then none
  else if !(s.mapped a) then some (s.portMark write whole a)
  else (s.portWait near p).map fun s => (s.portTake near p).portMark write whole a

/-- The 64-byte accesses that cover `n` bytes from `a`, by address, in order, and whether each is covered whole. -/
def accesses (a n : Nat) : List (Nat × Bool) :=
  if n = 0 then []
  else (List.range' (a / 64) ((a + n - 1) / 64 + 1 - a / 64)).map fun x =>
    (64 * x, decide (a ≤ 64 * x) && decide (64 * x + 64 ≤ a + n))

/-- Accesses of port `p` in order; `none` while one must wait at the port. -/
def State.portEach (s : State) (p : Nat) (write : Bool) (l : List (Nat × Bool)) : Option State :=
  l.foldl (fun (r : Option State) x => r.bind fun s => s.portOne p write x.2 x.1) (some s)

/-- The accesses of port `p` to `n` bytes from `a`. -/
def State.portRun (s : State) (p : Nat) (write : Bool) (a n : Nat) : Option State := s.portEach p write (accesses a n)

/-- Port `p` writes `l` from `a` upwards; `none` while it must wait. -/
def State.portWrite (s : State) (p a : Nat) (l : List Byte) : Option State :=
  (s.portRun p true a l.length).map fun s => s.writeBytes a l

/-- An access of a unit for which R237 names no port: its errors are marked, and no regulator holds it. -/
def State.looseRun (s : State) (write : Bool) (a n : Nat) : State :=
  (accesses a n).foldl (fun s x => s.portMark write x.2 x.1) s

/-- The accesses of port `p` to `n` bytes from `a` that are over when a command tells of their end. -/
def State.portDone (s : State) (p : Nat) (write : Bool) (a n : Nat) : State := (s.portRun p write a n).getD (s.looseRun write a n)

end Sys2Proof.Machine
end

