-- ==== Sys2Proof/Machine/Operands.lean ====
section
/-! DEFINITION. The operand forms of the register interface: which host accesses a page takes (R29, R34, R43, R48,
R419), and the staging of 64-bit and 112-bit registers per requester (R4, R55, R56). -/

namespace Sys2Proof.Machine

/-- What becomes of a host access to a BAR0 address. -/
inductive Gate where
  /-- It reaches its page. -/
  | ok
  /-- Reserved or absent: reads 0, writes ignored (R48). -/
  | absent
  /-- The field side does not answer: reads all-ones, writes discarded (R29, R34, R406). -/
  | down
  /-- A page outside the always-on domain in RECESS (R43). -/
  | recess
  /-- Such a page at pruning stages 3 and 4 (R419). -/
  | pruned
  deriving DecidableEq, Repr

/-- The pages in the always-on domain (R26 note a): `TKP`, `PWR` and the delay lists. -/
def alwaysOn (k : PageKind) : Bool := k = .tkp || k = .pwr || k = .ttbD

/-- A page of the host die. -/
def hostPage (a : Nat) : Bool := decide (a < 0x0100000)

/-- The modes in which the field pages answer at all: 0x4 to 0xC, with the host side seeing them. -/
def State.fieldVisible (s : State) : Bool :=
  s.ctl.hostMode.isNone && decide (4 ≤ s.ctl.mode) && decide (s.ctl.mode ≤ 12)

/-- R29, R34, R43, R48, R419. -/
def State.gate (s : State) (a : Nat) : Gate :=
  match pageOf a with
  | none => .absent
  | some (g, _, _) =>
    if hostPage a then .ok
    else if !s.fieldVisible then .down
    else if alwaysOn g.kind then .ok
    else if 3 ≤ s.prune.stage then .pruned
    else if s.ctl.mode = 4 then .recess
    else .ok

/-- What a host read has answered. -/
def State.setRead (s : State) (w : Word) : State := { s with lastRead := w }

/-- Recess exit starts, if the part rests in RECESS; a wake during entry starts it when entry completes (R40, R41), and at
stage 2 or higher it is held (R45). The first source that waits so decides whether the exit is a requested one (R41). -/
def State.wake (s : State) (byReq : Bool) : State :=
  match s.ctl.recess with
  | .resting =>
    if 2 ≤ s.prune.stage then
      (if s.ctl.wakeHeld then s else { s with ctl := { s.ctl with wakeHeld := true, exitByReq := byReq } })
    else { s with ctl := { s.ctl with recess := .locking, exitByReq := byReq, wakeHeld := false, recessAt := s.cycle } }
  | .entering => if s.ctl.wakeHeld then s else { s with ctl := { s.ctl with wakeHeld := true, exitByReq := byReq } }
  | _ => s

/-- A host access outside the always-on domain in RECESS (R43): held, and waking the part, with `ACCESS_WAKE` = 1; otherwise
refused with cause RECESS_ACCESS. -/
def State.recessAccess (s : State) (req a : Nat) (write : Bool) (v : Word) : State :=
  if s.getB (glbBase + 0x64) 20 then
    ({ s with ctl := { s.ctl with held := s.ctl.held ++ [HeldAccess.mk req a write v false [] 0] } }).wake false
  else
    let s := s.deny 7 (a % 0x1000) (ordinalAt a) true write
    if write then s else s.setRead 0

/-- A host write of `v` to the word at `a`: `k` is what it does when it reaches its page. In D3hot
the endpoint answers Unsupported Request (R395). -/
def State.hostWrite (s : State) (req a : Nat) (v : Word) (k : State → State) : State :=
  if req = 0 ∧ s.host.d3hot then s else
  match s.gate a with
  | .ok => k s
  | .absent | .down => s
  | .recess => s.recessAccess req a true v
  | .pruned => s.deny 4 (a % 0x1000) (ordinalAt a) true true

/-- A host read of the word at `a`: `k` answers the value and what the read does besides. -/
def State.hostRead (s : State) (req a : Nat) (k : State → Word × State) : State :=
  if req = 0 ∧ s.host.d3hot then s.setRead 0xFFFFFFFF else
  match s.gate a with
  | .ok => (k s).2.setRead (k s).1
  | .absent => s.setRead 0
  | .down => s.setRead 0xFFFFFFFF
  | .recess => s.recessAccess req a false 0
  | .pruned => (s.deny 4 (a % 0x1000) (ordinalAt a) true false).setRead 0xFFFFFFFF

/-! ### Latches and staged words (R4, R55, R56) -/

/-- The key of the latch or staged word of the word at `a` for a requester: PCI Express 0, host TAP 1, field TAP 2. -/
def reqKey (req a : Nat) : Nat := 4 * a + req % 4

/-- The latched value of the word at `a` for a requester. -/
def State.latch (s : State) (req a : Nat) : Option Word := Tab.get (fun _ => none) s.latches (reqKey req a)

/-- `s` with that latch set or discarded. -/
def State.setLatch (s : State) (req a : Nat) (v : Option Word) : State :=
  { s with latches := Tab.set (fun _ => none) s.latches (reqKey req a) v }

/-- The staged value of the word at `a` for a requester. -/
def State.stagedW (s : State) (req a : Nat) : Option Word := Tab.get (fun _ => none) s.staged (reqKey req a)

/-- `s` with that staged word set or discarded. -/
def State.setStaged (s : State) (req a : Nat) (v : Option Word) : State :=
  { s with staged := Tab.set (fun _ => none) s.staged (reqKey req a) v }

/-- The value a commit takes for the word at `a`: the staged word, or the current one (R4, R56). -/
def State.commitWord (s : State) (req a : Nat) : Word := (s.stagedW req a).getD (s.reg a)

/-- The 64-bit value a high-half write of `v` commits to the register at `a` (its low half's address), and the state with the
staged low half taken (R56). -/
def State.take64 (s : State) (req a : Nat) (v : Word) : Nat × State :=
  ((s.commitWord req a).toNat + 2 ^ 32 * v.toNat, s.setStaged req a none)

/-- The time a commit of word 3 with `v` takes for the time register at `a` (R4). -/
def State.commitTimeValue (s : State) (req a : Nat) (v : Word) : Nat :=
  wordsTime (s.commitWord req a) (s.commitWord req (a + 4)) (s.commitWord req (a + 8)) v

/-- The commit would have NS above 999,999,999: it is refused (R5). -/
def State.commitTimeBad (s : State) (req a : Nat) : Bool := decide (999999999 < (s.commitWord req (a + 4)).toNat)

/-- The words staged for a time register are used up. -/
def State.timeTaken (s : State) (req a : Nat) : State :=
  ((s.setStaged req a none).setStaged req (a + 4) none).setStaged req (a + 8) none

/-- The plain commit of a time register (R4, R5). A refused one changes nothing, the staged words included. -/
def State.commitTime (s : State) (req a : Nat) (v : Word) : State :=
  if s.commitTimeBad req a then s else (s.setTime4 a (s.commitTimeValue req a v)).timeTaken req a

/-- The bits of a 64-bit register at `a` that a commit sets; reserved bits read 0 (R9). -/
def wmask64 (a : Nat) : Nat := writeMask a + 2 ^ 32 * writeMask (a + 4)

/-- The plain commit of a 64-bit register: its writable bits take the value. -/
def State.commit64 (s : State) (a v : Nat) : State := s.setReg64 a (v &&& wmask64 a)

/-- The latches and staged words of the registers of the page at `p` are discarded for every requester (R56). -/
def State.dropStaging (s : State) (p : Nat) : State :=
  let inPage (k : Nat) : Bool := decide (4 * p ≤ k) && decide (k < 4 * (p + 0x1000))
  { s with latches := s.latches.filter (fun e => !inPage e.1)
           staged := s.staged.filter (fun e => !inPage e.1) }

/-- A write of `v` to the word at `a`, bit by bit: the bits software sets take it, the others keep their value (R7, R9). -/
def State.writeMasked (s : State) (a : Nat) (v : Word) : State :=
  s.setReg a (wd (mergeMask (writeMask a) (s.reg a).toNat v.toNat))

/-- Every RW and W1C field at the offsets `on` of the page at `p` returns to its reset value; RWS and RO fields keep theirs, latched
`EV_RAW` bits go with their `EV_PEND` bits, and the latches and staged words of the page go (R54, R56; log 25). -/
def State.softResetOn (s : State) (p : Nat) (on : Nat → Bool) : State :=
  let one (s : State) (a : Nat) : State :=
    match regAt a with
    | some (k, _, o, r, _) =>
      if o = 0x10 then s.setReg a (s.reg a &&& wd (liveMask k))
      else if r.acc = .rws ∨ r.acc = .ro ∨ r.acc = .rc then s
      else s.setReg a (wd (mergeMask (writeMask a) (s.reg a).toNat (resetValue a).toNat))
    | none => s
  (((Tab.keys s.regs).filter fun a => decide (p ≤ a) && decide (a < p + 0x1000) && on (a - p)).foldl one s).dropStaging p

/-- The fields of the whole page at `p` (R54). -/
def State.softReset (s : State) (p : Nat) : State := s.softResetOn p fun _ => true

end Sys2Proof.Machine
end

