-- ==== Sys2Proof/Machine/Channels.lean ====
section
/-! DEFINITION. Channels, desks and sites (04_channels_desks_sites.md): staged configuration, site ownership and
strayness, park states, cluster power and the PE_CTL buses. -/

namespace Sys2Proof.Machine

/-! ### Values in force (R70) -/

/-- The value in force at `a` stays what it is until the staged one is applied. -/
def State.keepForce (s : State) (a : Nat) : State :=
  { s with chn := { s.chn with inForce := Tab.set (fun _ => none) s.chn.inForce a (some (s.eff a)) } }

/-- The staged value of `a`, if any, is applied. -/
def State.dropForce (s : State) (a : Nat) : State :=
  { s with chn := { s.chn with inForce := Tab.set (fun _ => none) s.chn.inForce a none } }

/-- A write of `v` to the word at `a`, staged if `staged`; it reads as written at once (R70, R87). -/
def State.stageWord (s : State) (staged : Bool) (a : Nat) (v : Word) : State :=
  (if staged then s.keepForce a else s.dropForce a).setReg a v

/-- The words of the page at `p` whose written value awaits application. -/
def State.stagedIn (s : State) (p : Nat) : List Nat :=
  (Tab.keys s.chn.inForce).filter fun a => decide (p ≤ a) && decide (a < p + 0x1000)

/-- Sequencer `q` runs a burst: its state is ADMIT to PARK (06_segments_sequencer.md, `PG_STAT`). -/
def State.burstRuns (s : State) (q : Nat) : Bool := s.getB (seqBase q 0 + 0xC) 0

/-! ### Assignment (R65 to R69) -/

/-- `CHN.CFG` of channel `n` in force; its FUNC and SITE. -/
def State.chnFunc (s : State) (n : Nat) : Nat := fld (s.eff (chnBase n + 0x40)) 1 0
def State.chnSite (s : State) (n : Nat) : Nat := fld (s.eff (chnBase n + 0x40)) 13 8

/-- The sequencer of desk `d` in force (R65). -/
def State.dskSeq (s : State) (d : Nat) : Nat := fld (s.eff (dskBase d + 0x40)) 3 0

/-- The lowest-numbered channel of a site with FUNC other than OFF (R67). -/
def State.siteHead (s : State) (site : Nat) : Option Nat :=
  (List.range 256).find? fun n => decide (s.chnFunc n ≠ 0) && decide (s.chnSite n = site)

/-- The sequencer a site belongs to (R67). -/
def State.siteSeq (s : State) (site : Nat) : Option Nat := (s.siteHead site).map fun n => s.dskSeq (n / 8)

/-- Channel `n` is stray: it names a site of another sequencer than its desk's (R67). -/
def State.isStray (s : State) (n : Nat) : Bool :=
  decide (s.chnFunc n ≠ 0) && decide (s.siteSeq (s.chnSite n) ≠ some (s.dskSeq (n / 8)))

/-- The cluster of desk `d` is powered and usable (R76). -/
def State.peOn (s : State) (d : Nat) : Bool := !(Tab.get (fun _ => false) s.chn.peDown d)

/-- The channel takes part in its sequencer's bursts: it has a function, is not stray, and its cluster is usable. -/
def State.chnActive (s : State) (n : Nat) : Bool :=
  decide (s.chnFunc n ≠ 0) && !(s.isStray n) && s.peOn (n / 8)

/-- The follower configuration of desk `d` is valid (R69). -/
def State.followerOk (s : State) (d : Nat) : Bool :=
  let c := s.eff (dskBase d + 0x40)
  let src := fld c 12 8
  bit c 7 && decide (src ≠ d) && decide (s.dskSeq src = s.dskSeq d) && !(bit (s.eff (dskBase src + 0x40)) 7)

/-- The desk whose slice desk `d` takes its symbols from (R68, R69). -/
def State.sourceDesk (s : State) (d : Nat) : Nat :=
  if s.followerOk d then fld (s.eff (dskBase d + 0x40)) 12 8 else d

/-- The channels that a burst of sequencer `q` drives: active channels on its desks (R65, R67). -/
def State.seqChannels (s : State) (q : Nat) : List Nat :=
  (List.range 256).filter fun n => decide (s.dskSeq (n / 8) = q) && s.chnActive n

/-- The desks of sequencer `q`. -/
def State.seqDesks (s : State) (q : Nat) : List Nat := (List.range 32).filter fun d => s.dskSeq d = q

/-- The source desks of sequencer `q`, ascending (R133). -/
def State.sourceDesks (s : State) (q : Nat) : List Nat := (s.seqDesks q).filter fun d => !s.followerOk d

/-- Slice `d` is lent to its source desk (R136). -/
def State.lent (s : State) (d : Nat) : Bool := s.followerOk d && bit (s.eff (sliceBase d + 0x40)) 0

/-- What retained blocks of desk `d` depend on: its sequencer's D, its rank, and the lending of its buffer (R138). -/
def State.deskPlace (s : State) (d : Nat) : Nat × Nat × List Nat :=
  let l := s.sourceDesks (s.dskSeq d)
  (l.length, l.idxOf d, (List.range 32).filter fun e => s.lent e && decide (s.sourceDesk e = d))

/-- `s` with the retained blocks invalidated of every desk whose D, rank or lending differs from what it was in `old` (R138). -/
def State.dropMoved (s old : State) : State :=
  let keep (e : Nat × Slice) : Nat × Slice :=
    if s.deskPlace e.1 = old.deskPlace e.1 then e else (e.1, { e.2 with retained := [] })
  { s with sq := { s.sq with slices := (s.sq.slices.map keep).filter fun e => e.2 ≠ {} } }

/-- `CHN.STAT` of channel `n`. `CLK_HELD` reads 1 while a CLOCK park is held static, for want of the fast clocks (R80). -/
def State.chnStat (s : State) (n : Nat) : Word :=
  let static := !s.ctl.clocks
  let clock := decide (fld (s.eff (chnBase n + 0x44)) 2 0 = 4) && decide (s.chnFunc n ≠ 3) && s.chnActive n
  wd ((decide (s.chnFunc n ≠ 0) && !s.isStray n).toNat * 2 ^ 12 + s.dskSeq (n / 8) * 2 ^ 8 +
    (static && clock).toNat * 8 + (!(s.stagedIn (chnBase n)).isEmpty).toNat * 4 + (s.isStray n).toNat * 2)

/-- `DSK.STAT` of desk `d`. -/
def State.dskStat (s : State) (d : Nat) : Word :=
  let followers := ((List.range 32).filter fun e => decide (e ≠ d) && s.followerOk e && decide (s.sourceDesk e = d)).length
  let strays := ofBits ((List.range 8).filter fun k => s.isStray (8 * d + k))
  wd (followers * 2 ^ 16 + strays * 2 ^ 8 + s.dskSeq d * 2 ^ 4 +
    (bit (s.eff (dskBase d + 0x40)) 7 && !s.followerOk d).toNat * 4 +
    (!(s.stagedIn (dskBase d)).isEmpty).toNat * 2 + (s.peOn d).toNat)

/-- `DSK.SITES` of desk `d`: the sites of its assigned channels. -/
def State.dskSites (s : State) (d : Nat) : Nat :=
  ((List.range 8).filter fun k => decide (s.chnFunc (8 * d + k) ≠ 0) && !s.isStray (8 * d + k)).foldl
    (fun m k => m ||| 2 ^ s.chnSite (8 * d + k)) 0

/-! ### The events of a desk -/

/-- Bit `b` (0 to 3) of desk `d` in its ordinal page (R85). -/
def evDesk (d b : Nat) : Nat := evNo (21 + d / 8) (4 * (d % 8) + b)

/-- Strayness is judged again: a desk's `STRAY` occurs when one of its channels becomes stray (R67). -/
def State.judgeStray (s : State) : State :=
  let now := (List.range 256).filter s.isStray
  let fresh := now.filter fun n => !(Tab.get (fun _ => false) s.chn.stray n)
  let desks := (fresh.map (· / 8)).eraseDups
  let s := { s with chn := { s.chn with stray := now.map fun n => (n, true) } }
  desks.foldl (fun s d => s.occur (evDesk d 2)) s

/-! ### Cluster power (R76) -/

/-- The power of desk `d`'s cluster follows its applied `PE_OFF`: down at once, up after 2 µs. -/
def State.applyPower (s : State) (d : Nat) : State :=
  let off := bit (s.eff (dskBase d + 0x40)) 6
  if off then
    { s with chn := { s.chn with peDown := Tab.set (fun _ => false) s.chn.peDown d true,
                                 peDue := Tab.set (fun _ => 0) s.chn.peDue d 0 } }
  else if s.peOn d || Tab.get (fun _ => 0) s.chn.peDue d ≠ 0 then s
  else { s with chn := { s.chn with peDue := Tab.set (fun _ => 0) s.chn.peDue d (s.cycle + 1600) } }

/-! ### Staging around bursts (R70) -/

/-- The sequencers a configuration names for the page of `a`: of a channel, those of its desk and site; of a desk, its own
and its source desk's (04_channels_desks_sites.md, "Changing configuration around bursts"). -/
def State.namedSeqs (s : State) (a : Nat) : List Nat :=
  match pageOf a with
  | some (g, i, _) =>
    if g.kind = .chn then
      s.dskSeq (i / 8) :: (if s.chnFunc i = 0 then [] else (s.siteSeq (s.chnSite i)).toList)
    else if g.kind = .dsk then
      s.dskSeq i :: (if bit (s.eff (dskBase i + 0x40)) 7 then [s.dskSeq (fld (s.eff (dskBase i + 0x40)) 12 8)] else [])
    else []
  | none => []

/-- A sequencer named by the configuration before or after the write of `v` at `a` runs a burst. -/
def State.mustStage (s : State) (a : Nat) (v : Word) : Bool :=
  (s.namedSeqs a ++ ((s.dropForce a).setReg a v).namedSeqs a).any s.burstRuns

/-- A value of `CHN.PARK` that leaves the register unchanged: a reserved state, or CLOCK with HALF below 2. -/
def parkRefused (v : Word) : Bool := decide (5 ≤ fld v 2 0) || (fld v 2 0 == 4 && decide (fld v 31 16 < 2))

/-! ### Park (R77 to R80) -/

/-- The edge state of channel `n`. -/
def State.edgesOf (s : State) (n : Nat) : ChanEdges := Tab.get (fun _ => {}) s.chn.edges n

/-- `s` with the edge state of channel `n` replaced. -/
def State.setEdges (s : State) (n : Nat) (e : ChanEdges) : State :=
  { s with chn := { s.chn with edges := Tab.set (fun _ => {}) s.chn.edges n e } }

/-- The park state that channel `n` rests in (R77): every state acts as OFF for COMPARE, and LAST until the channel has taken
part in a burst. 0 OFF, 1 LOW, 2 HIGH, 3 LAST, 4 CLOCK. -/
def State.parkState (s : State) (n : Nat) : Nat :=
  let p := fld (s.eff (chnBase n + 0x44)) 2 0
  if s.chnFunc n = 3 ∨ (p = 3 ∧ !(s.edgesOf n).took) then 0 else p

/-- The fail-safe biasing of a cluster that is unpowered or held: both pairs at ball level 0 (R72, R80). -/
def State.failSafe (s : State) (n : Nat) : Bool := decide (s.ctl.mode < 4) || decide (4 ≤ s.prune.stage) || !(s.peOn (n / 8))

/-- How channel `n` rests outside bursts (R72, R77, R80), before inversion: DRV, the half period in beats with which DRV toggles from then on,
or 0, and DEN. -/
def State.rest (s : State) (n : Nat) : Bool × Nat × Bool :=
  if s.failSafe n || !(s.chnActive n) || decide (s.ctl.mode = 11) then (false, 0, false)
  else
    let e := s.edgesOf n
    match s.parkState n with
    | 1 => (false, 0, true)
    | 2 => (true, 0, true)
    | 3 => (e.drv, 0, e.den)
    | 4 => (false, if s.ctl.clocks then fld (s.eff (chnBase n + 0x44)) 31 16 else 0, true)
    | _ => (false, 0, false)

/-- The DRV and DEN levels, before inversion and skew, that channel `n` rests at outside bursts in beat `b` (R72, R77, R80). -/
def State.restPins (s : State) (n b : Nat) : Bool × Bool :=
  let r := s.rest n
  (if r.2.1 = 0 then r.1 else decide ((b - (s.edgesOf n).clkFrom) / r.2.1 % 2 = 1), r.2.2)

/-! ### Output edges at the balls (R75, R78, R95, R102) -/

/-- The vintage slot that desk `d` has adopted, and the field address of a slot (16_calibration.md). -/
def State.deskSlot (s : State) (d : Nat) : Option Nat := Tab.get (fun _ => none) s.cal.deskSlot d
def State.vinSlot (s : State) (i : Nat) : Nat := s.reg64 (vinBase + 0x60) + i * 0x200000

/-- The entry of pair `p` of channel `n` in the adopted vintage: 0 DRV, 1 DEN, 2 CMPH, 3 CMPL. -/
def State.pairEntry (s : State) (n p : Nat) : Option Nat := (s.deskSlot (n / 8)).map fun i => s.vinSlot i + 0x1000 + 64 * (4 * n + p)

/-- The calibrated offset of a pair in ET; 0 without a vintage. -/
def State.pairOffset (s : State) (n p : Nat) : Int :=
  match s.pairEntry n p with
  | some a => sext 20 (s.readLE (a + 8) 4 % 2 ^ 20)
  | none => 0

/-- The residual of fine tap `f` of a pair in ET. -/
def State.pairResid (s : State) (n p f : Nat) : Int :=
  match s.pairEntry n p with
  | some a => sext 8 (s.readLE (a + 12 + f) 1)
  | none => 0

/-- The user skew of a pair in ET (R75). -/
def State.pairSkew (s : State) (n p : Nat) : Int := sext 20 (fld (s.eff (chnBase n + 0x4C + 4 * p)) 19 0)

/-- What a pair's edges are moved by: its user skew and its calibrated offset (R75, R95). -/
def State.pairMove (s : State) (n p : Nat) : Int := s.pairSkew n p + s.pairOffset n p

/-- t = 5,120 b + 320 p + 8 f + i (05_wavetables_edges.md, "The interpolator"). -/
def splitEt (t : Nat) : Nat × Nat × Nat × Nat := (t / 5120, t % 5120 / 320, t % 320 / 8, t % 8)

/-- An edge of pair `p` of channel `n` at effective time `t`: it leaves the ball after skew, calibrated offset and the common latency
(R95); the residual of its tap is added before the split (R102), the tap being that of the instant without it (log 84). -/
def State.pinEdge (s : State) (n p t : Nat) (level : Bool) (half : Nat) : PinEdge :=
  let x := ((t : Int) + s.pairMove n p).toNat
  ⟨p = 1, x + Config.pipeLatency.toNat, level, half, splitEt ((x : Int) + s.pairResid n p (x % 320 / 8)).toNat⟩

/-- The change of a pair that is the latest at ET instant `et`. -/
def latestPin (l : List PinEdge) (isDen : Bool) (et : Nat) : Option PinEdge := (l.filter fun p => p.isDen = isDen && p.at0 ≤ et).getLast?

/-- The level of a pair at `et` after its latest change. -/
def pinLevel (p : Option PinEdge) (et : Nat) : Bool :=
  match p with
  | none => false
  | some p => if p.half = 0 then p.level else p.level != decide ((et - p.at0) / (5120 * p.half) % 2 = 1)

/-- The output changes `l` of channel `n`, as (pair, effective time, level, half period), are placed; those that have long left the ball
are forgotten. -/
def State.addPins (s : State) (n : Nat) (e : ChanEdges) (l : List (Nat × Nat × Bool × Nat)) : ChanEdges :=
  let now := 20480 * s.cycle
  let kept := (latestPin e.pins false now).toList ++ (latestPin e.pins true now).toList ++ e.pins.filter fun p => now < p.at0
  { e with pins := kept ++ l.map fun x => s.pinEdge n x.1 x.2.1 x.2.2.1 x.2.2.2 }

/-- A calibration item that measures the channels of desk `d` sets their pins and uses their compare inputs (R80; 16_calibration.md). -/
def State.inCalib (s : State) (d : Nat) : Bool :=
  match s.cal.item with
  | none => false
  | some it => it.running && decide (0x10 ≤ it.code) && bit it.mask d

/-- The levels of channel `n`'s DRV and DEN at the balls at ET instant `et` (R72, R73): 0 under fail-safe biasing whatever `DRV_INV`, else as
placed, DRV with its inversion. `none` while a calibration item sets them. -/
def State.ballPins (s : State) (n et : Nat) : Option (Bool × Bool) :=
  if s.failSafe n then some (false, false)
  else if s.inCalib (n / 8) then none
  else
    let l := (s.edgesOf n).pins
    some (pinLevel (latestPin l false et) et != bit (s.eff (chnBase n + 0x48)) 4, pinLevel (latestPin l true et) et)

/-- The order of R78 from beat boundary `b0` on, from levels `drv` and `den` to rest `r`: DEN before DRV where DEN is to be 0, DRV before DEN
elsewhere. An edge that asks for the level its pair has is not placed; a pair that toggles takes its edge. -/
def parkOrder (b0 : Nat) (drv : Bool) (toggles : Bool) (den : Bool) (r : Bool × Nat × Bool) : List (Nat × Nat × Bool × Nat) :=
  let d (b : Nat) : List (Nat × Nat × Bool × Nat) := if den = r.2.2 then [] else [(1, 5120 * b, r.2.2, 0)]
  let v (b : Nat) : List (Nat × Nat × Bool × Nat) := if drv = r.1 ∧ r.2.1 = 0 ∧ !toggles then [] else [(0, 5120 * b, r.1, r.2.1)]
  if r.2.2 then v b0 ++ d (b0 + 1) else d b0 ++ v (b0 + 1)

/-- The level DRV has at ET instant `t`: under a CLOCK park it still toggles every HALF beats (R79). -/
def ChanEdges.drvLevel (st : ChanEdges) (t : Nat) : Bool :=
  if st.clkHalf = 0 then st.drv else decide ((t / 5120 - st.clkFrom) / st.clkHalf % 2 = 1)

/-- Channel `n` enters park at ET instant `p`, the end of its last vector (R78): from the first beat boundary at or after it the park edges
are placed; LAST keeps the levels of that end. -/
def State.parkChannel (s : State) (n p : Nat) : State :=
  let b0 := (p + 5119) / 5120
  let e := s.edgesOf n
  let drv := e.drvLevel p
  let e' := { e with drv := drv, took := true, clkFrom := b0, clkHalf := 0, window := none, drvAt := none, denAt := none, cmpAt := none }
  let s := s.setEdges n e'
  s.setEdges n (s.addPins n e' (parkOrder b0 drv (e.clkHalf ≠ 0) e.den (s.rest n)))

/-- Channel `n` moves from the rest it had in `old` to its rest now, outside a burst (R78, R80): in the order of park edges, from the first beat
boundary at or after now. A CLOCK that starts so has its phase from there (log 85). -/
def State.restMove (s old : State) (n : Nat) : State :=
  let b0 := 4 * s.cycle
  let e := s.edgesOf n
  if s.failSafe n then s.setEdges n { e with pins := [] }
  else
    let a := if old.failSafe n then (false, 0, false) else old.rest n
    let r := s.rest n
    if a = r then s
    else
      let e := { e with clkFrom := if r.2.1 = 0 then e.clkFrom else b0 }
      s.setEdges n (s.addPins n e (parkOrder b0 a.1 (a.2.1 ≠ 0) a.2.2 r))

/-- The channels whose rest differs from what it was in `old`, and which no burst drives, move to it. -/
def State.pinsMove (s old : State) : State :=
  ((List.range 256).filter fun n => (decide (s.chnFunc n ≠ 0) || decide (old.chnFunc n ≠ 0)) && !(s.burstRuns (s.dskSeq (n / 8)))).foldl
    (fun s n => s.restMove old n) s

/-! ### Staged writes (R70) -/

/-- What the part judges again when configuration of a `CHN` or `DSK` page is applied (R62, R67, R76). -/
def State.applied (s : State) (a : Nat) : State :=
  match pageOf a with
  | some (g, i, o) =>
    if g.kind = .dsk ∧ o = 0x40 then (s.applyPower i).judgeStray
    else if o = 0x40 then s.judgeStray
    else if o = 0x18 ∧ s.pendEn (a - o) ≠ 0 then s.request (ordinalAt a)
    else s
  | none => s

/-- A write of an RW word of a `CHN` or `DSK` page (R70). -/
def State.configWrite (s : State) (a : Nat) (v : Word) : State :=
  let v := wd (mergeMask (writeMask a) (s.reg a).toNat v.toNat)
  match pageOf a with
  | some (g, _, o) =>
    if g.kind = .chn ∧ o = 0x44 ∧ parkRefused v then s
    else if s.mustStage a v then s.stageWord true a v
    else (((s.stageWord false a v).applied a).dropMoved s).pinsMove s
  | none => s

/-- A page whose RW fields are staged around bursts (R70). -/
def stagedPage (k : PageKind) : Bool := k = .chn || k = .dsk

/-- The RW words of the two pages that R70 stages. -/
def isConfigWord (a : Nat) : Bool :=
  match regAt a with
  | some (k, _, _, r, _) => stagedPage k && decide (r.acc = .rw) && decide (writeMask a ≠ 0)
  | none => false

/-- A write of the RW word at `a` by its bits: staged where R70 says so. -/
def State.rwWrite (s : State) (a : Nat) (v : Word) : State := if isConfigWord a then s.configWrite a v else s.writeMasked a v

/-- CHN_DSK_CONFIG_WRITE (R70): a write of an RW word beyond the header and the waveform library; of `PEC_CTRL` without START and ABORT. -/
def execChnDskConfigWrite (req a : Nat) (v : Word) (s : State) : Out :=
  let o := a % 0x1000
  .next (if isConfigWord a ∧ 0x40 ≤ o ∧ o < 0x400 ∧ !((o = 0x200 ∨ o = 0x300) ∧ (bit v 0 ∨ bit v 1)) then
    s.hostWrite req a v fun s => s.configWrite a v else s)

/-- Every staged word of the page at `p` is applied, if no sequencer named before or after runs a burst (R70). -/
def State.applyStaged (s : State) (p : Nat) : State :=
  let as := s.stagedIn p
  let clear := as.foldl (fun s a => s.dropForce a) s
  if as.any fun a => (s.namedSeqs a ++ clear.namedSeqs a).any s.burstRuns then s
  else ((as.foldl (fun s a => s.applied a) clear).dropMoved s).pinsMove s

/-- PE_CLUSTER_POWER_UP_DONE (R76): 2 µs after PE_OFF is applied as 0 the cluster is usable. -/
def execPeClusterPowerUpDone (d : Nat) (s : State) : Out :=
  let due := Tab.get (fun _ => 0) s.chn.peDue d
  .next (if due = 0 then s else
    let s := s.passTo due
    State.pinsMove { s with chn := { s.chn with peDown := Tab.set (fun _ => false) s.chn.peDown d false,
                                                peDue := Tab.set (fun _ => 0) s.chn.peDue d 0 } } s)

/-- EDGE_SLOT_COMMIT (R90, R91): a high-half write of `v` to edge slot `k` of channel `n`'s library (slot e of waveform w is
6 w + e) commits it with the staged low half. A reserved TYPE leaves the slot unchanged. -/
def execEdgeSlotCommit (req n k : Nat) (v : Word) (s : State) : Out :=
  let a := chnBase n + 0x400 + 8 * k
  .next (if n < 256 ∧ k < 384 then
      s.hostWrite req (a + 4) v fun s =>
        let (x, s) := s.take64 req a v
        let x := x &&& wmask64 a
        let ty := x / 2 ^ 40
        if ty = 5 ∨ ty = 6 ∨ ty = 7 ∨ ty = 15 then s
        else
          let st := s.mustStage a (wd x)
          (s.stageWord st a (wd x)).stageWord st (a + 4) (wd (x / 2 ^ 32))
    else s)

/-! ### PE_CTL buses (R81 to R84) -/

/-- The PE_CTL registers of bus `b`, in `DSK[8g]` with g = b / 2. -/
def pecBase (b : Nat) : Nat := dskBase (8 * (b / 2)) + 0x200 + 0x100 * (b % 2)

/-- Bus `b`. -/
def State.pecOf (s : State) (b : Nat) : Pec := Tab.get (fun _ => {}) s.chn.pec b

/-- `s` with bus `b` replaced. -/
def State.setPec (s : State) (b : Nat) (p : Pec) : State :=
  { s with chn := { s.chn with pec := Tab.set (fun _ => {}) s.chn.pec b p } }

/-- `PEC_DONE` of bus `b` (R85): bit 4k + 3 of its group, k = 0 for the even bus and 4 for the odd one. -/
def evPecDone (b : Nat) : Nat := evNo (21 + b / 2) (4 * (4 * (b % 2)) + 3)

/-- `DSK[8g].PG_STAT.BUSY` reads 1 while a transfer of the page runs. -/
def State.pecPageBusy (s : State) (b : Nat) : State :=
  s.setB (dskBase (8 * (b / 2)) + 0xC) 0 ((s.pecOf (b / 2 * 2)).busy || (s.pecOf (b / 2 * 2 + 1)).busy)

/-- The bytes 0 to n - 1 of `PEC_TX` in force (byte i at offset 0x40 + i). -/
def State.pecTx (s : State) (b n : Nat) : List Byte :=
  (List.range n).map fun i => BitVec.ofNat 8 ((s.eff (pecBase b + 0x40 + i / 4 * 4)).toNat / 2 ^ (8 * (i % 4)))

/-- `PEC_RX` takes the received bytes. -/
def State.setPecRx (s : State) (b : Nat) (rx : List Byte) : State :=
  (rx.zipIdx).foldl (fun s p =>
    s.setF (pecBase b + 0x80 + p.2 / 4 * 4) (8 * (p.2 % 4) + 7) (8 * (p.2 % 4)) p.1.toNat) s

/-- The cycle in which the transfer's chip select deasserts: (8 LEN + 2) SCLK periods after its start (R81). -/
def Pec.commitAt (p : Pec) : Nat := p.start + (8 * p.out.length + 2) * p.period

/-- PEC_START (R81, R82): LEN, DIV, CS and the bytes in force. A START with DIV below 7 or LEN 0 or above 64 is refused BAD_CFG; one
while BUSY is ignored; one while a pending RECESS or EN forbids it is refused (R31, R53); a write with ABORT set too is an ABORT
(`execPecAbort`). The gap of 2 SCLK periods to the transfer before is of the new START's period (log 86). -/
def State.pecStart (s : State) (b : Nat) (v : Word) : State :=
  let a := pecBase b
  let s := s.configWrite a v
  let p := s.pecOf b
  let w := s.eff a
  let len := fld w 14 8
  if p.busy then s
  else if !(bit (s.eff (dskBase (8 * (b / 2)) + 0x8)) 0) ∨ s.ctl.pend.any (fun r => decide (r.target = 4)) then s.denyStart a
  else if fld w 31 24 < 7 ∨ len = 0 ∨ 64 < len then s.setF (a + 4) 3 1 3
  else
    let per := 2 * (fld w 31 24 + 1)
    let t := max s.cycle (if p.lastEnd = 0 then 0 else p.lastEnd + 2 * per)
    ((s.setPec b { p with busy := true, cs := fld w 17 16, start := t, period := per, out := s.pecTx b len, noop := false }).setReg
      (a + 4) 1).pecPageBusy b

/-- The balls of a PE_CTL bus that the part drives: the four chip selects, SCLK and MOSI. -/
structure PecBalls where
  csN : List Bool
  sclk : Bool
  mosi : Bool
  deriving DecidableEq, Repr

/-- Bit `k` of a transfer's bytes, each most significant bit first (R81). -/
def Pec.bitOut (p : Pec) (k : Nat) : Bool := nbit (p.out.getD (k / 8) 0).toNat (7 - k % 8)

/-- The PE_CTL balls of bus `b` in fabric cycle `c` (R81, R84); `none` is high impedance: field side unpowered or held, pruning stage 3 and
above, RECESS. Idle, every chip select is high and SCLK low. In a transfer, in SPI mode 0, SCLK cycle k of the 8 LEN starts k + 1 periods
after the chip select asserts, with its rising edge there and its falling edge half a period later (log 86); MOSI changes on the falling
edges. -/
def State.pecBalls (s : State) (b c : Nat) : Option PecBalls :=
  let p := s.pecOf b
  if s.ctl.mode ≤ 1 ∨ s.ctl.mode = 3 ∨ s.ctl.mode = 4 ∨ 3 ≤ s.prune.stage then none
  else if !p.busy ∨ c < p.start ∨ p.commitAt ≤ c then some ⟨List.replicate 4 true, false, false⟩
  else
    let h := (c - p.start) * 2 / p.period
    let clocking := decide (2 ≤ h) && decide (h < 2 + 16 * p.out.length)
    some ⟨(List.range 4).map (· ≠ p.cs), clocking && h % 2 == 0, p.bitOut (min ((h - 1) / 2) (8 * p.out.length - 1))⟩

/-- The end of a transfer: `PEC_STAT` shows SENT and RESULT, BUSY clears, `PEC_DONE` occurs (R83). -/
def State.pecEnd (s : State) (b sent result : Nat) : State :=
  let p := s.pecOf b
  (((s.setPec b { p with busy := false, lastEnd := s.cycle }).setReg (pecBase b + 4)
    (wd (sent * 256 + result * 2))).pecPageBusy b).occur (evPecDone b)

/-- An ABORT of bus `b` (R83): before the commit cycle it stops the transfer at the next byte boundary with SENT whole bytes;
in or after it the transfer stands and reports ABORT_NOOP. -/
def State.pecAbort (s : State) (b : Nat) : State :=
  let p := s.pecOf b
  if p.busy then
    if p.commitAt ≤ s.cycle then s.setPec b { p with noop := true }
    else
      let el := s.cycle - p.start - p.period
      let sent := min p.out.length ((el + 8 * p.period - 1) / (8 * p.period))
      (s.passTo (p.start + p.period + sent * 8 * p.period)).pecEnd b sent 2
  else if s.getF (pecBase b + 4) 3 1 = 1 then s.setF (pecBase b + 4) 3 1 4
  else s

/-- PEC_START: a write of `PEC_CTRL` of bus `b` with START set and ABORT clear. -/
def execPecStart (b : Nat) (v : Word) (s : State) : Out :=
  .next (if b < 8 ∧ bit v 0 ∧ !(bit v 1) then s.hostWrite 0 (pecBase b) v fun s => s.pecStart b v else s)

/-- PEC_ABORT: a write of `PEC_CTRL` with ABORT set (R82, R83). -/
def execPecAbort (b : Nat) (v : Word) (s : State) : Out :=
  .next (if b < 8 ∧ bit v 1 then
    s.hostWrite 0 (pecBase b) v fun s => (s.configWrite (pecBase b) v).pecAbort b else s)

/-- PEC_TRANSFER_END (R83): the chip select deasserts, RX takes the bytes the chip sent, and the result is written. -/
def execPecTransferEnd (b : Nat) (rx : List Byte) (s : State) : Out :=
  let p := s.pecOf b
  .next (if p.busy then
    let n := p.out.length
    ((s.passTo p.commitAt).setPecRx b (rx.take n)).pecEnd b n (if p.noop then 4 else 1)
  else s)

end Sys2Proof.Machine
end

