-- ==== Sys2Proof/Machine/Edges.lean ====
section
/-! DEFINITION. Timesets, wavetables and edge placement (05_wavetables_edges.md): which edges of a vector are placed and
which are dropped, and the timeset page. Times are in ET. -/

namespace Sys2Proof.Machine

/-! ### Placing the edges of one vector (R92 to R101) -/

/-- An edge of a waveform: its slot, TYPE and TIME (R90, R91). -/
structure Edge where
  slot : Nat
  type : Nat
  time : Nat
  deriving DecidableEq, Repr

/-- The result of a vector on one channel: the edge state it leaves, its judgements in order, what its placed drive edges do to the pairs,
as (pair, effective time, level, half period), and its drops as (slot, TIME, cause). -/
structure VecResult where
  st : ChanEdges
  judges : List Judge := []
  placed : List (Nat × Nat × Bool × Nat) := []
  drops : List (Nat × Nat × Nat) := []
  deriving DecidableEq, Repr

/-- The waveform index of symbol `v` under block `wt` (R88). -/
def waveIndex (wide : Bool) (wt v : Nat) : Nat := if wide then 16 * (wt / 4) + v else 4 * wt + v

/-- Per-vector limit of each edge class at period `p` (R96). -/
def edgeLimit (p : Nat) : Nat := min 4 (p / 640)

/-- A drive edge: TYPE 1 to 4. -/
def isDrive (ty : Nat) : Bool := 1 ≤ ty && ty ≤ 4

/-- FUNC allows the class of an edge (R92): IO both, DRIVE drive edges, COMPARE compare edges. -/
def funcTakes (func ty : Nat) : Bool :=
  match func with
  | 1 => ty ≠ 0
  | 2 => isDrive ty
  | 3 => 8 ≤ ty
  | _ => false

/-- The edges of waveform `w` of channel `n`, in force, that FUNC allows, in order of TIME and then slot (R92, R97). -/
def State.waveEdges (s : State) (n w : Nat) : List Edge :=
  let es := (List.range 6).map fun e =>
    let x := s.eff64 (chnBase n + 0x400 + 48 * w + 8 * e)
    (⟨e, x / 2 ^ 40 % 16, x % 2 ^ 36⟩ : Edge)
  (es.filter fun e => funcTakes (s.chnFunc n) e.type).mergeSort fun a b => a.time ≤ b.time

/-- The level code a compare edge expects: H 2, L 1, M 0 (R74, R91). -/
def expectCode (ty : Nat) : Nat := if ty % 4 = 0 then 2 else if ty % 4 = 1 then 1 else 0

/-- The cause for which an edge is dropped, 0 if it is placed (R97): TIME_RANGE, then NESTED or ORPHAN_CLOSE, then SPACING, then
COUNT. `t` is its effective time, `nd` and `nc` the drive and compare edges accepted in the vector. -/
def dropCause (st : ChanEdges) (p t nd nc : Nat) (e : Edge) : Nat :=
  let near (last : Option Nat) : Bool := match last with | none => false | some l => t < l + 1024
  if p ≤ e.time then 1
  else if isDrive e.type then
    let last := if e.type ≤ 2 then st.drvAt else st.denAt
    let cur := if e.type ≤ 2 then st.drvLevel t else st.den
    if decide (e.type % 2 = 0) ≠ cur ∧ near last then 3
    else if edgeLimit p ≤ nd then 2 else 0
  else if e.type ≤ 10 ∧ st.window.isSome then 5
  else if e.type = 11 ∧ st.window.isNone then 4
  else if near st.cmpAt then 3
  else if edgeLimit p ≤ nc then 2 else 0

/-- One edge placed at effective time `t` (R93, R98): a drive edge that asks for the level its pair has places no transition. -/
def placeEdge (st : ChanEdges) (t : Nat) (e : Edge) : ChanEdges × List Judge :=
  if isDrive e.type then
    let asks := decide (e.type % 2 = 0)
    if e.type ≤ 2 then
      (if asks = st.drvLevel t then { st with drv := asks, clkHalf := 0 }
       else { st with drv := asks, drvAt := some t, clkHalf := 0 }, [])
    else (if asks = st.den then st else { st with den := asks, denAt := some t }, [])
  else if e.type ≤ 10 then ({ st with window := some (expectCode e.type, t), cmpAt := some t }, [])
  else if e.type = 11 then
    ({ st with window := none, cmpAt := some t },
      match st.window with | some (x, o) => [.window x o t] | none => [])
  else ({ st with cmpAt := some t }, [.strobe (expectCode e.type) t])

/-- What a placed drive edge does to its pair: a transition, or the end of a CLOCK park's toggling (R79, R93). -/
def placedPin (st : ChanEdges) (t : Nat) (e : Edge) : List (Nat × Nat × Bool × Nat) :=
  if !(isDrive e.type) then []
  else
    let asks := decide (e.type % 2 = 0)
    if e.type ≤ 2 then (if asks = st.drvLevel t ∧ st.clkHalf = 0 then [] else [(0, t, asks, 0)])
    else if asks = st.den then [] else [(1, t, asks, 0)]

/-- The edges of a vector that starts at `t0` with period `p`, in order (R97). -/
def placeAll (p t0 : Nat) : List Edge → ChanEdges → Nat → Nat → VecResult → VecResult
  | [], st, _, _, r =>
    match st.window with
    | some (x, o) => { r with st := { st with window := none }, judges := r.judges ++ [.window x o (t0 + p)] }
    | none => { r with st := st }
  | e :: l, st, nd, nc, r =>
    let t := t0 + e.time
    match dropCause st p t nd nc e with
    | 0 =>
      let q := placeEdge st t e
      placeAll p t0 l q.1 (nd + (isDrive e.type).toNat) (nc + (!isDrive e.type).toNat)
        { r with judges := r.judges ++ q.2, placed := r.placed ++ placedPin st t e }
    | c => placeAll p t0 l st nd nc { r with drops := r.drops ++ [(e.slot, e.time, c)] }

/-- The vector with waveform `w` on channel `n`, from `t0`, with period `p` (R92 to R100): the edges of the classes that `cls` admits, by
their TYPE. A window still open at its end closes there (R100). -/
def State.vectorOf (s : State) (cls : Nat → Bool) (n w p t0 : Nat) (st : ChanEdges) : VecResult :=
  let r := placeAll p t0 ((s.waveEdges n w).filter fun e => cls e.type) st 0 0 { st := st }
  { r with st := s.addPins n r.st r.placed }

/-- The edges that a granule places: all of a real one, drive edges of an idle one (R153). -/
def edgeClass (real : Bool) (ty : Nat) : Bool := real || isDrive ty

/-- A burst's first vector finds each pair free of earlier transitions (R79): the park levels stand until its first edge. -/
def State.burstEdges (s : State) (n : Nat) : ChanEdges :=
  let pins := s.restPins n (s.beats)
  { s.edgesOf n with drv := pins.1, den := pins.2, drvAt := none, denAt := none, cmpAt := none, window := none, took := true,
                     clkHalf := if s.parkState n = 4 then fld (s.eff (chnBase n + 0x44)) 31 16 else 0 }

/-! ### The timeset page (R86, R87) and page 2 (R132) -/

/-- Timeset `t` of sequencer `q`. -/
def tsAddr (q t : Nat) : Nat := seqBase q 1 + 0x800 + 8 * t

/-- PERIOD and WT of a timeset in force. -/
def State.tsPeriod (s : State) (q t : Nat) : Nat := s.eff64 (tsAddr q t) % 2 ^ 37
def State.tsWt (s : State) (q t : Nat) : Nat := s.eff64 (tsAddr q t) / 2 ^ 40 % 16

/-- A value staged in page `p` of sequencer `q` while it runs a burst shows in the page's STAGED bit (R87, R132). -/
def State.stageSeq (s : State) (q p a : Nat) (v : Word) : State :=
  let st := s.burstRuns q
  let s := s.stageWord st a v
  if st then s.setB (seqBase q p + 0x40) 0 true else s

/-- TIMESET_COMMIT (R86, R87): a high-half write of `v` to timeset `t` of sequencer `q` commits it. PERIOD outside 1,280 to 2^36
leaves the entry unchanged and has no other effect: the staged low half stays staged. -/
def execTimesetCommit (req q t : Nat) (v : Word) (s : State) : Out :=
  let a := tsAddr q t
  .next (if q < 16 ∧ t < 256 then
      s.hostWrite req (a + 4) v fun s =>
        let r := s.take64 req a v
        let x := r.1 &&& wmask64 a
        let per := x % 2 ^ 37
        if per < 1280 ∨ 2 ^ 36 < per then s
        else (r.2.stageSeq q 1 a (wd x)).stageSeq q 1 (a + 4) (wd (x / 2 ^ 32))
    else s)

/-- SEQ_PAGE2_WRITE (R132): a write to a jump-table entry, `MASK_CFG` or a MATCH mask word of page 2. -/
def execSeqPage2Write (req a : Nat) (v : Word) (s : State) : Out :=
  .next (match pageOf a with
    | some (g, q, o) =>
      if g.kind = .seq2 ∧ 0x80 ≤ o ∧ writeMask a ≠ 0 then
        s.hostWrite req a v fun s => s.stageSeq q 2 a (wd (mergeMask (writeMask a) (s.reg a).toNat v.toNat))
      else s
    | none => s)

/-- STAGED_SEQ_CONFIG_APPLY (R87): with no burst running, the staged timesets and page-2 values take effect. -/
def execStagedSeqConfigApply (q : Nat) (s : State) : Out :=
  .next (if q < 16 ∧ !(s.burstRuns q) then
      let s := (s.stagedIn (seqBase q 1) ++ s.stagedIn (seqBase q 2)).foldl (fun s a => s.dropForce a) s
      (s.setB (seqBase q 1 + 0x40) 0 false).setB (seqBase q 2 + 0x40) 0 false
    else s)

/-- STAGED_CONFIG_APPLY (R70, R136): the staged words of a `CHN`, `DSK` or slice page take effect. -/
def execStagedConfigApply (p : Nat) (s : State) : Out :=
  .next (match pageOf p with
    | some (g, i, _) =>
      if g.kind = .chn ∨ g.kind = .dsk then s.applyStaged (pageBase g.kind i)
      else if g.kind = .decS then
        if (s.namedSeqs (dskBase i)).any s.burstRuns then s
        else ((s.stagedIn (sliceBase i)).foldl (fun s a => s.dropForce a) s).dropMoved s
      else s
    | none => s)

end Sys2Proof.Machine
end

