-- ==== Sys2Proof/Machine/Decanter.lean ====
section
/-! DEFINITION. Segment descriptors and the decanters (06_segments_sequencer.md, 07_decanters_streaming.md): the path of a
sequencer, what its refill engines fetch, the admission set, residency and staging. -/

namespace Sys2Proof.Machine

/-- Sequencer `q`. -/
def State.seqOf (s : State) (q : Nat) : Seq := Tab.get (fun _ => {}) s.sq.seqs q

/-- `s` with sequencer `q` replaced. -/
def State.setSeq (s : State) (q : Nat) (x : Seq) : State :=
  { s with sq := { s.sq with seqs := Tab.set (fun _ => {}) s.sq.seqs q x } }

/-- The buffer of source desk `d`. -/
def State.slice (s : State) (d : Nat) : Slice := Tab.get (fun _ => {}) s.sq.slices d

/-- `s` with the buffer of desk `d` replaced. -/
def State.setSlice (s : State) (d : Nat) (x : Slice) : State :=
  { s with sq := { s.sq with slices := Tab.set (fun _ => {}) s.sq.slices d x } }

/-! ### Descriptors (R105 to R108) -/

/-- A segment descriptor: its words 0 to 9. -/
abbrev Desc := List Word

def Desc.w (d : Desc) (n : Nat) : Word := d.getD n 0
def Desc.vbase (d : Desc) : Nat := (Desc.w d 0).toNat + 2 ^ 32 * fld (Desc.w d 1) 15 0
def Desc.len (d : Desc) : Nat := (Desc.w d 2).toNat
def Desc.lcsel (d : Desc) : Nat := fld (Desc.w d 3) 29 28
def Desc.endAct (d : Desc) : Nat := fld (Desc.w d 3) 26 24
def Desc.idle (d : Desc) : Nat := fld (Desc.w d 3) 23 16
def Desc.sigEn (d : Desc) : Bool := bit (Desc.w d 3) 11
def Desc.stretch (d : Desc) : Bool := bit (Desc.w d 3) 10
def Desc.streamed (d : Desc) : Bool := bit (Desc.w d 3) 9
def Desc.wide (d : Desc) : Bool := bit (Desc.w d 3) 8
def Desc.ts (d : Desc) : Nat := fld (Desc.w d 3) 7 0
def Desc.msel (d : Desc) : Nat := fld (Desc.w d 4) 23 20
def Desc.target (d : Desc) : Nat := fld (Desc.w d 4) 19 0
def Desc.lcount (d : Desc) : Nat := (Desc.w d 5).toNat
def Desc.timeout (d : Desc) : Nat := (Desc.w d 6).toNat
def Desc.segEn (d : Desc) : Bool := bit (Desc.w d 7) 8
def Desc.trig (d : Desc) : Nat := fld (Desc.w d 7) 7 0
def Desc.expSig (d : Desc) : Nat := (Desc.w d 8).toNat + 2 ^ 32 * (Desc.w d 9).toNat

/-- Bytes of a block of the segment (R133). -/
def Desc.blockSize (d : Desc) : Nat := if Desc.wide d then 128 else 64

/-- END is MATCH or WAIT. -/
def Desc.repeats (d : Desc) : Bool := Desc.endAct d == 4 || Desc.endAct d == 5

/-- Descriptor `i` as it lies in the table at `base` (R105). -/
def State.readDesc (s : State) (base i : Nat) : Desc :=
  (List.range 10).map fun w => wd (s.readLE (base + 64 * i + 4 * w) 4)

/-- The lowest cause code for which a descriptor is invalid, 0 if it is valid (R107). -/
def State.descCause (s : State) (q len : Nat) (d : Desc) : Nat :=
  let e := Desc.endAct d
  if fld (Desc.w d 1) 31 28 ≠ 1 then 1
  else if Desc.vbase d % 2048 ≠ 0 then 2
  else if Desc.len d < 8 then 3
  else if Desc.wide d ∧ s.tsPeriod q (Desc.ts d) < 2560 then 4
  else if e = 7 then 5
  else if (e = 1 ∨ e = 2 ∨ (Desc.repeats d ∧ Desc.timeout d ≠ 0)) ∧ len ≤ Desc.target d then 6
  else 0

/-- A descriptor on the die that passed R107. -/
def State.validDesc (s : State) (q i : Nat) : Option Desc :=
  let x := s.seqOf q
  match Tab.get (fun _ => []) x.descs i with
  | [] => none
  | d => if s.descCause q x.len d = 0 then some d else none

/-! ### Loop counters and the call stack (R112 to R114) -/

/-- The context that end actions change: the four counters, the ARMED bits, and the call stack, newest first. -/
structure Ctx where
  cnt : List Nat
  armed : Nat
  stack : List Nat
  deriving DecidableEq, Repr

/-- The live context of sequencer `q`: `LOOP_CNT`, `CTX_STAT` and the stack, of whose entries `STACK` shows the low 20 bits. -/
def State.ctxOf (s : State) (q : Nat) : Ctx :=
  let a := seqBase q 0
  { cnt := (List.range 4).map fun c => (s.reg (a + 0xA0 + 4 * c)).toNat
    armed := s.getF (a + 0x88) 11 8
    stack := (s.seqOf q).stack }

/-- `s` with that context replaced. -/
def State.setCtx (s : State) (q : Nat) (c : Ctx) : State :=
  let a := seqBase q 0
  let s := (List.range 4).foldl (fun s k => s.setReg (a + 0xA0 + 4 * k) (wd (c.cnt.getD k 0))) s
  let s := s.setReg (a + 0x88) (wd (c.armed % 16 * 256 + c.stack.length % 32))
  let s := (c.stack.reverse.zipIdx).foldl (fun s p => s.setReg (seqBase q 3 + 0x40 + 4 * p.2) (wd (p.1 % 2 ^ 20))) s
  s.setSeq q { s.seqOf q with stack := c.stack }

/-- What an end action gives: a segment, a repeat, the burst's end, or a failure with its cause (R113). -/
inductive EndOut where
  | go (i : Nat)
  | rep
  | halt
  | err (cause : Nat)
  deriving DecidableEq, Repr

/-- NEXT, or the i + 1 exit of LOOP, MATCH or WAIT (R113). -/
def nextOf (len i : Nat) : EndOut := if i + 1 = len then .err 7 else .go (i + 1)

/-- The end action of segment `i` (R111 to R114), with MATCH and WAIT taken as a repeat. -/
def endStep (len i : Nat) (d : Desc) (c : Ctx) : EndOut × Ctx :=
  match Desc.endAct d with
  | 0 => (nextOf len i, c)
  | 1 =>
    let k := Desc.lcsel d
    let n := (if nbit c.armed k then c.cnt.getD k 0 else max (Desc.lcount d) 1) - 1
    let cnt := c.cnt.set k n
    if 0 < n then (.go (Desc.target d), { c with cnt := cnt, armed := c.armed ||| 2 ^ k })
    else (nextOf len i, { c with cnt := cnt, armed := c.armed - (c.armed &&& 2 ^ k) })
  | 2 => if 16 ≤ c.stack.length then (.err 8, c) else (.go (Desc.target d), { c with stack := (i + 1) :: c.stack })
  | 3 =>
    match c.stack with
    | [] => (.err 9, c)
    | j :: l => (if len ≤ j then .err 7 else .go j, { c with stack := l })
  | 4 | 5 => (.rep, c)
  | _ => (.halt, c)

/-- The undecided successors that the end-action table lists (R139), RETURN's from the shadow stack. -/
def successorsOf (i : Nat) (d : Desc) (c : Ctx) : List Nat :=
  match Desc.endAct d with
  | 0 => [i + 1]
  | 1 => [Desc.target d, i + 1]
  | 2 => [Desc.target d]
  | 3 => c.stack.take 1
  | 4 | 5 => [i, i + 1] ++ (if Desc.timeout d ≠ 0 then [Desc.target d] else [])
  | _ => []

/-! ### Buffers (R133 to R138) -/

/-- Rank of desk `d` among the source desks fixed at admission (R135). -/
def Seq.rank (x : Seq) (d : Nat) : Nat := x.desks.idxOf d

/-- Units of the buffer of source desk `d` (R136). -/
def State.capacity (s : State) (d : Nat) : Nat :=
  if s.lent d then 0
  else 65536 * (1 + ((List.range 32).filter fun e => s.lent e && decide (s.sourceDesk e = d)).length)

/-- Field address of granule `g`'s block for desk `d` (R133). -/
def Seq.blockAddr (x : Seq) (d : Nat) (c : Desc) (g : Nat) : Nat :=
  Desc.vbase c + (x.rank d * Desc.len c + g) * Desc.blockSize c

/-- 64-byte units of a list of blocks. -/
def units (l : List Block) : Nat := (l.map fun b => b.data.length / 64).sum

/-- Granules of the head of a segment (R139). -/
def Seq.headLen (x : Seq) (d : Desc) : Nat := min x.specG (Desc.len d)

/-- Segments whose heads are pinned (R143). -/
def Seq.pinned (x : Seq) : List Nat := (((List.range 16).filter fun e => nbit x.pin e).map fun e => x.jmp.getD e 0).eraseDups

/-- The first granule of segment `i` that locked blocks do not serve: a segment of the admission set is locked whole, a pinned
one has its head locked (R142, R143). -/
def Seq.unlocked (x : Seq) (i : Nat) (d : Desc) : Nat :=
  if i ∈ x.adm then Desc.len d else if i ∈ x.pinned then x.headLen d else 0

/-! ### The path (R139) -/

/-- An instance of the path: its segment, the first granule still to be output, its descriptor, the context at its start, whether its successor
is decided, and whether the path ends with it, at a HALT or an end decided at a CP. -/
structure PathInst where
  idx : Nat
  lo : Nat
  desc : Desc
  ctx : Ctx
  decided : Bool
  ends : Bool
  deriving DecidableEq, Repr

/-- The path from segment `i` on. `inst` is the number of the instance, and `left` the granules of unlocked data that buffers may still hold: the
path is followed no further once it has so many, nor round and round a locked segment that is predicted to repeat. `fuel` bounds the recursion. -/
def State.pathFrom (s : State) (q : Nat) : Nat → Nat → Nat → Nat → Nat → Ctx → List PathInst
  | 0, _, _, _, _, _ => []
  | fuel + 1, left, inst, i, lo, c =>
    let x := s.seqOf q
    match s.validDesc q i with
    | none => []
    | some d =>
      let jump := match x.slot with
        | some j => if j.inst = inst then some (x.jmp.getD j.entry 0) else none
        | none => none
      let free := Desc.len d - max lo (x.unlocked i d)
      let here (b e : Bool) : PathInst := ⟨i, lo, d, c, b, e⟩
      let next (j : Nat) (c : Ctx) : List PathInst := if left ≤ free then [] else s.pathFrom q fuel (left - free) (inst + 1) j 0 c
      match jump with
      | some j => here true false :: next j c
      | none =>
        match endStep x.len i d c with
        | (.go j, c') => here false false :: next j c'
        | (.rep, c') => if lo = 0 ∧ free = 0 ∧ x.slot.isNone then [here false false] else here false false :: next i c'
        | (.halt, _) => [here false true]
        | (.err _, _) => [here false false]

/-- More instances than a path has: it ends, but for repeats, within the runs of four nested loops of a million segments each. -/
def pathFuel : Nat := 2 ^ 256

/-- Granules that the largest buffer holds: 32 slices of 65,536 units (R136). -/
def pathGranules : Nat := 32 * 65536

/-- The path of sequencer `q`: before S from its start index, else from the instance in output (R139). -/
def State.pathOf (s : State) (q : Nat) : List PathInst :=
  let x := s.seqOf q
  let c := s.ctxOf q
  if x.st < 3 then s.pathFrom q pathFuel pathGranules 0 x.start 0 c
  else
    match s.validDesc q x.idx, x.succ with
    | none, _ => []
    | some d, some (.stop _) => [⟨x.idx, x.g, d, c, true, true⟩]
    | some d, some (.seg j _) => ⟨x.idx, x.g, d, c, true, false⟩ :: s.pathFrom q pathFuel pathGranules (x.inst + 1) j 0 c
    | some _, none => s.pathFrom q pathFuel pathGranules x.inst x.idx x.g c

/-- The blocks of desk `d` that admission locks: the admission set's and the pinned heads', as (segment, granule) (R145). -/
def State.lockSet (s : State) (q : Nat) : List (Nat × Nat) :=
  let x := s.seqOf q
  let whole := x.adm.flatMap fun i => match s.validDesc q i with
    | some d => (List.range (Desc.len d)).map fun g => (i, g)
    | none => []
  let heads := (x.pinned.filter fun i => !(x.adm.contains i)).flatMap fun i => match s.validDesc q i with
    | some d => (List.range (x.headLen d)).map fun g => (i, g)
    | none => []
  whole ++ heads

/-- The `n`-th block on a path that no locked block serves: its instance, granule and distance in granules from output. -/
def pathBlock (x : Seq) : List PathInst → Nat → Nat → Option (PathInst × Nat × Nat)
  | [], _, _ => none
  | p :: l, n, pos =>
    let len := Desc.len p.desc
    let lo := max p.lo (x.unlocked p.idx p.desc)
    if n < len - lo then some (p, lo + n, pos + (lo + n - p.lo))
    else pathBlock x l (n - (len - lo)) (pos + (len - p.lo))

/-- Units of the stream space of desk `d`: its buffer less the locked units and the reserve (R140). -/
def State.streamSpace (s : State) (q d : Nat) : Nat := s.capacity d - units (s.slice d).locked - 6 * (s.seqOf q).specG

/-- The segments of a path whose blocks lie within the first `room` units that no locked block serves. -/
def pathWithin (x : Seq) : List PathInst → Nat → List Nat
  | [], _ => []
  | p :: l, room =>
    let n := (Desc.len p.desc - max p.lo (x.unlocked p.idx p.desc)) * (Desc.blockSize p.desc / 64)
    if room = 0 then [] else p.idx :: pathWithin x l (room - n)

/-- The segments that lie on the path as desk `d` fetches it: those its stream space reaches (R141; DEDUCED, log 82). -/
def State.onPath (s : State) (q d : Nat) (path : List PathInst) : List Nat := pathWithin (s.seqOf q) path (s.streamSpace q d)

/-- The head segments of class 2 of desk `d` (R140, R141): undecided successors of path instances, in path order, each once, with a valid
descriptor, not on the path as the desk fetches it and not locked. -/
def State.headSegs (s : State) (q d : Nat) (path : List PathInst) : List Nat :=
  let x := s.seqOf q
  let on := s.onPath q d path
  ((path.filter fun p => !p.decided).flatMap fun p => successorsOf p.idx p.desc p.ctx).eraseDups.filter fun i =>
    (s.validDesc q i).isSome && !(on.contains i) && !(x.adm.contains i) && !(x.pinned.contains i)

/-- The heads of desk `d` that take the reserve, and those that lie on the path, which count as path units (R141). -/
def State.heldHeads (s : State) (q d : Nat) (path : List PathInst) : List Block × List Block :=
  let on := s.onPath q d path
  (s.slice d).heads.partition fun k => !on.contains k.seg

/-- Where a fetched block goes: locked, on the path, or in the reserve. -/
inductive Place where
  | lock | path | head
  deriving DecidableEq, Repr

/-- A segment's vector data that the stager copies: cellar-resident and STREAMED, with staging enabled (R148). -/
def Seq.stages (x : Seq) (d : Desc) : Bool :=
  decide (x.stageSize ≠ 0) && Desc.streamed d && decide (0x040000000000 ≤ Desc.vbase d)

/-- The first block of a head that desk `d` does not hold. -/
def State.headNext (s : State) (q d i : Nat) : Option (Nat × Nat × Nat) :=
  (s.validDesc q i).bind fun c =>
    ((List.range ((s.seqOf q).headLen c)).find? fun g => !((s.slice d).heads.any fun k => k.seg = i && k.g = g)).map fun g =>
      (i, g, Desc.blockSize c / 64)

/-- The block that the engine of desk `d` has to fetch next, with its class (R140): what admission locks (0), then path blocks near output (1),
then heads, in path order, while the reserve has room (2), then further path blocks while the stream space has room (3). A path block near
output has to fit the buffer. -/
def State.wantedIn (s : State) (q d : Nat) : Option (Nat × Place × Nat × Nat) :=
  let x := s.seqOf q
  let b := s.slice d
  let path := s.pathOf q
  let toLock := if x.st = 1 then
      (s.lockSet q).find? fun p => !(b.locked.any fun k => k.seg = p.1 && k.g = p.2) else none
  match toLock with
  | some p => some (0, .lock, p.1, p.2)
  | none =>
    let held := s.heldHeads q d path
    let head := match (s.headSegs q d path).findSome? fun i => s.headNext q d i with
      | some (i, g, n) => if units held.1 + n ≤ 6 * x.specG then some (2, Place.head, i, g) else none
      | none => none
    match pathBlock x path b.ahead.length 0 with
    | none => head
    | some (p, g, pos) =>
      let have' := held.2.find? fun k => k.seg = p.idx && k.g = g
      let n := units b.ahead + units held.2 + (if have'.isSome then 0 else Desc.blockSize p.desc / 64)
      if pos < x.specG then
        (if n + units b.locked + units held.1 ≤ s.capacity d then some (1, .path, p.idx, g) else none)
      else match head with
        | some h => some h
        | none => if n ≤ s.streamSpace q d then some (3, .path, p.idx, g) else none

/-- The block that the engine of desk `d` has to fetch next. -/
def State.wanted (s : State) (q d : Nat) : Option (Place × Nat × Nat) := (s.wantedIn q d).map (·.2)

/-- A fetched block takes its place. -/
def State.place (s : State) (d : Nat) (p : Place) (k : Block) : State :=
  let b := s.slice d
  s.setSlice d (match p with
    | .lock => { b with locked := b.locked ++ [k] }
    | .path => { b with ahead := b.ahead ++ [k] }
    | .head => { b with heads := b.heads ++ [k] })

/-- Blocks that the buffer already holds are used without another read: a head that joins the path (R141), a retained block
whose address is needed (R138). -/
def State.absorb (s : State) (q d : Nat) : Nat → State
  | 0 => s
  | fuel + 1 =>
    let b := s.slice d
    match s.wanted q d with
    | none => s
    | some (p, i, g) =>
      match s.validDesc q i with
      | none => s
      | some c =>
        let addr := (s.seqOf q).blockAddr d c g
        match (if p = .path then b.heads.find? fun k => k.seg = i && k.g = g else none) with
        | some k => ((s.setSlice d { b with heads := b.heads.erase k }).place d p k).absorb q d fuel
        | none =>
          match b.retained.find? fun k => k.addr = addr && k.data.length = Desc.blockSize c with
          | some k => ((s.setSlice d { b with retained := b.retained.erase k }).place d p
              { k with seg := i, g := g }).absorb q d fuel
          | none => s

/-- `absorb` for every source desk of `q`. -/
def State.absorbAll (s : State) (q : Nat) : State :=
  (s.seqOf q).desks.foldl (fun s d => s.absorb q d ((s.slice d).heads.length + (s.slice d).retained.length)) s

/-- The path of `q` has changed (R141): path blocks left behind and heads no longer wanted are freed and counted. -/
def State.repath (s : State) (q : Nat) : State :=
  let x := s.seqOf q
  let path := s.pathOf q
  let s := x.desks.foldl (fun s d =>
    let b := s.slice d
    let want := s.headSegs q d path
    let on := s.onPath q d path
    let ok := ((b.ahead.zipIdx).takeWhile fun p => match pathBlock x path p.2 0 with
      | some (i, g, _) => i.idx = p.1.seg && g = p.1.g
      | none => false).length
    let heads := b.heads.filter fun k => want.contains k.seg || on.contains k.seg
    let lostHeads := b.heads.filter fun k => !(want.contains k.seg || on.contains k.seg)
    (s.setSlice d { b with ahead := b.ahead.take ok, heads := heads }).incSat (decBase + 0x58)
      (units (b.ahead.drop ok) + units lostHeads)) s
  s.absorbAll q

/-! ### Arrival of blocks -/

/-- The staged copy of a block, if the stager has one that is unread (R148). -/
def Seq.stagedCopy (x : Seq) (d i g : Nat) : Option Staged :=
  x.staged.find? fun k => k.desk = d && k.seg = i && k.g = g

/-- `DEC[0]`'s and slice events: one bit corrected, or an uncorrectable error (R158), found when a block comes in (log 12). -/
def State.sliceEcc (s : State) (d ecc : Nat) : State :=
  if ecc = 1 then (s.incSat (decBase + 0x5C) 1).occur (evNo 25 2)
  else if ecc = 2 then (s.incSat (sliceBase d + 0x58) 1).occur (evNo 25 3)
  else s

/-- `STAGE_FILL`: MiB staged and unread, rounded down (R149). -/
def State.showFill (s : State) (q : Nat) : State :=
  s.setReg (decBase + 0x180 + 4 * q) (wd (((s.seqOf q).staged.map (·.size)).sum / 2 ^ 20))

/-- The request of the engine of desk `d`: the block it has to fetch, unless that waits for the stager (R148). -/
def State.requestOf (s : State) (q d : Nat) : Option (Nat × Place × Nat × Nat) :=
  (s.wantedIn q d).filter fun w => match s.validDesc q w.2.2.1 with
    | some c => !(w.2.1 == .path && (s.seqOf q).stages c) || ((s.seqOf q).stagedCopy d w.2.2.1 w.2.2.2).isSome
    | none => false

/-- The engine of sequencer `q` whose request is served next (R156): of those with a block to fetch, one of the lowest class, in round robin. -/
def State.refillTurn (s : State) (q : Nat) : Option Nat :=
  let l := (s.seqOf q).desks.filterMap fun d => (s.requestOf q d).map fun w => (w.1, d)
  let m := (l.map (·.1)).foldl min 3
  let last := Tab.get (fun _ => 0) s.sq.served q
  ((List.range 32).map fun k => (last + 1 + k) % 32).find? fun d => l.contains (m, d)

/-- The share of sequencer `q` in 1/16 GB/s (R156): its RATE, scaled down while the RATE values exceed the DEC port's regulated rate. -/
def State.share (s : State) (q : Nat) : Nat :=
  let r := s.getF (decBase + 0x80 + 4 * q) 15 0
  if s.rateSum ≤ s.decRate then r else r * s.decRate / s.rateSum

/-- The share of a sequencer with CAP = 1 admits the request of a block of `n` bytes: at once, or when the block before has used up its time; a
share of 1/16 GB/s is 5/64 byte in a cycle. `none` while it never does. -/
def State.shareWait (s : State) (q n : Nat) : Option State :=
  if !(s.getB (decBase + 0x80 + 4 * q) 31) then some s
  else if s.share q = 0 then none
  else
    let s := s.passTo (Tab.get (fun _ => 0) s.sq.shareAt q)
    some { s with sq := { s.sq with shareAt := Tab.set (fun _ => 0) s.sq.shareAt q (s.cycle + (64 * n + 5 * s.share q - 1) / (5 * s.share q)) } }

/-- The block at `addr` comes in through the DEC port (R237) and takes its place, with slice error `ecc`: 0 none, 1 corrected, 2 uncorrectable. A
block with data that its store marks uncorrectable is not free of error (R222, R238). -/
def State.refill (s : State) (q d ecc : Nat) (p : Place) (i g addr : Nat) (c : Desc) : Option State :=
  let n := Desc.blockSize c
  ((s.shareWait q n).bind fun s => s.portRun 0 false addr n).map fun s =>
    let bad := ecc = 2 ∨ (accesses addr n).any fun a => s.marked a.1
    let k : Block := ⟨i, g, (s.seqOf q).blockAddr d c g, s.readBytes addr n, bad, false⟩
    let s : State := { s with sq := { s.sq with served := Tab.set (fun _ => 0) s.sq.served q d } }
    ((s.place d p k).sliceEcc d ecc).absorb q d ((s.slice d).heads.length + (s.slice d).retained.length)

/-- REFILL_BLOCK_ARRIVAL (R140, R156): the block that the engine of desk `d` fetches next arrives, if the engine's request is the one served, with
`ecc` 0 clean, 1 corrected, 2 uncorrectable. A block of a staged instance is read from the ring, once it is there (R148). -/
def execRefillBlockArrival (d ecc : Nat) (s : State) : Out :=
  let q := s.dskSeq d
  let x := s.seqOf q
  .next (if x.st = 0 ∨ x.st = 4 ∨ s.refillTurn q ≠ some d then s else
    match s.wanted q d with
    | none => s
    | some (p, i, g) =>
      match s.validDesc q i with
      | none => s
      | some c =>
        if p = .path ∧ x.stages c then
          match x.stagedCopy d i g with
          | some k => (((s.setSeq q { x with staged := x.staged.erase k }).showFill q).refill q d ecc p i g k.addr c).getD s
          | none => s
        else (s.refill q d ecc p i g (x.blockAddr d c g) c).getD s)

/-! ### Staging (R148 to R150) -/

/-- The instances of the path up to which the stager copies, and whether it stops there: at a MATCH or WAIT instance that has not decided, which
it still copies (log 12), and at HALT (R148). -/
def stagerPath : List PathInst → List PathInst × Bool
  | [] => ([], false)
  | p :: l =>
    if p.ends || (Desc.repeats p.desc && !p.decided) then ([p], true)
    else ((p :: (stagerPath l).1), (stagerPath l).2)

/-- The stager's path: with a jump in the slot it reaches only to the end of the instance that the jump leaves, since what it followed beyond is
discarded at that CP (R150). -/
def State.stagerOn (s : State) (q : Nat) : List PathInst × Bool :=
  let x := s.seqOf q
  match x.slot with
  | none => stagerPath (s.pathOf q)
  | some j => stagerPath ((s.pathOf q).take (j.inst + 1 - x.inst))

/-- The `n`-th block of the staged instances of a path, for one desk. -/
def stageBlock (x : Seq) : List PathInst → Nat → Option (PathInst × Nat)
  | [], _ => none
  | p :: l, n =>
    let lo := max p.lo (x.unlocked p.idx p.desc)
    let k := if x.stages p.desc then Desc.len p.desc - lo else 0
    if n < k then some (p, lo + n) else stageBlock x l (n - k)

/-- How many blocks of staged instances desk `d` holds ahead of output or has waiting in the ring. -/
def State.stagedFor (s : State) (q d : Nat) : Nat :=
  let x := s.seqOf q
  ((s.slice d).ahead.filter fun k => match s.validDesc q k.seg with
    | some c => x.stages c
    | none => false).length + (x.staged.filter fun k => k.desk = d).length

/-- What the stager copies next: instances in output order, granule by granule, desk by desk (R148; the order within an instance is
the model's, log 12). -/
def State.stageNext (s : State) (q : Nat) : Option (Nat × Nat × Nat × Desc) :=
  let x := s.seqOf q
  let l := x.desks.map fun d => (s.stagedFor q d, d)
  match l.mergeSort (fun a b => a.1 ≤ b.1) with
  | [] => none
  | (n, d) :: _ => (stageBlock x (s.stagerOn q).1 n).map fun p => (d, p.1.idx, p.2, p.1.desc)

/-- Bytes staged and unread. -/
def Seq.stageUnread (x : Seq) : Nat := (x.staged.map (·.size)).sum

/-- Where the stager puts its next `n` bytes: after those before, or at the start of the ring; `none` while unread data is in the way (R148). -/
def Seq.stagePlace (x : Seq) (n : Nat) : Option Nat :=
  let at0 := if x.stageSize < x.ringAt + n then 0 else x.ringAt
  let a := x.stageBase + at0
  if x.stageSize < n ∨ x.staged.any fun k => decide (k.addr < a + n) && decide (a < k.addr + k.size) then none else some at0

/-- The stager is enabled and works (R148). -/
def State.stagerActive (s : State) (q : Nat) : Bool :=
  let x := s.seqOf q
  decide (x.stageSize ≠ 0) && decide (1 ≤ x.st) && decide (x.st ≤ 3) && (s.stageNext q).isSome

/-- The stager's copies rank with class 3 (R156): no engine of the sequencer has a request of a lower class. -/
def State.stagerTurn (s : State) (q : Nat) : Bool :=
  (s.seqOf q).desks.all fun d => ((s.requestOf q d).filter fun w => w.1 < 3).isNone

/-- STAGER_BLOCK_COPY (R148, R156, R237): the next block is copied into the ring through the DEC port, if the ring has room. -/
def execStagerBlockCopy (q : Nat) (s : State) : Out :=
  let x := s.seqOf q
  .next (if x.stageSize = 0 ∨ x.st = 0 ∨ x.st = 4 ∨ !(s.stagerTurn q) then s else
    match s.stageNext q with
    | none => s
    | some (d, i, g, c) =>
      let n := Desc.blockSize c
      match x.stagePlace n with
      | none => s
      | some at0 =>
        match ((s.shareWait q n).bind fun s => s.portRun 0 false (x.blockAddr d c g) n).bind fun t =>
            t.portWrite 0 (x.stageBase + at0) (t.readBytes (x.blockAddr d c g) n) with
        | none => s
        | some s => (s.setSeq q { s.seqOf q with
            staged := x.staged ++ [⟨i, g, d, x.stageBase + at0, n⟩], ringAt := at0 + n }).showFill q)

/-- The staged blocks of desk `d` that belong to the instance in output: the first, as many as its buffer does not hold yet. -/
def State.stagedNow (s : State) (q d : Nat) : List Staged :=
  let x := s.seqOf q
  match s.validDesc q x.idx with
  | some c =>
    let rest := if x.stages c then Desc.len c - max x.g (x.unlocked x.idx c) else 0
    (x.staged.filter fun k => k.desk = d).take (rest - (s.slice d).ahead.length)
  | none => []

/-- The stager's path is left at a commit point (R150): the data beyond the instance in output is discarded. -/
def State.stageLeave (s : State) (q : Nat) : State :=
  let x := s.seqOf q
  if x.stageSize = 0 then s
  else
    ((s.setSeq q { x with staged := x.desks.flatMap (s.stagedNow q) }).showFill q |>.incSat (decBase + 0x54) 1).occur (evNo 25 1)

/-! ### Retained blocks (R138) -/

/-- The sequencer's blocks become retained when its burst has ended. A buffer keeps what it has room for, the newest first; during a burst,
blocks retained from before that it has not used take no room (log 12). -/
def State.retainAll (s : State) (q : Nat) : State :=
  let x := s.seqOf q
  let s := x.desks.foldl (fun s d =>
    let b := s.slice d
    let l := (b.locked ++ b.heads ++ b.ahead ++ b.retained).filter fun k => !k.stale && !k.bad
    let cap := s.capacity d
    let keep := l.foldl (fun (r : List Block) k => if units r + k.data.length / 64 ≤ cap then r ++ [k] else r) []
    s.setSlice d { retained := if x.flushPend then [] else keep }) s
  (s.setSeq q { x with flushPend := false, staged := [], descs := [] }).showFill q

/-- The retained blocks of slice `d` are invalidated. -/
def State.dropRetained (s : State) (d : Nat) : State := s.setSlice d { s.slice d with retained := [] }

/-- A HOST-port write of `bytes` to field memory (R138): it reaches memory, and no overlapped block is retained. -/
def State.hostMemWrite (s : State) (a : Nat) (bytes : List Byte) : State :=
  let n := bytes.length
  let hits (k : Block) : Bool := decide (k.addr < a + n) && decide (a < k.addr + k.data.length)
  let mark (l : List Block) : List Block := l.map fun k => { k with stale := k.stale || hits k }
  let s := s.writeBytes a bytes
  (Tab.keys s.sq.slices).foldl (fun s d =>
    let b := s.slice d
    s.setSlice d { ahead := mark b.ahead, heads := mark b.heads, locked := mark b.locked,
                   retained := b.retained.filter fun k => !hits k }) s

/-- DEC_FLUSH_WRITE (R138): a write of `FLUSH` with ALL set; slices of a sequencer that runs a burst follow when it leaves PARK. -/
def execDecFlushWrite (v : Word) (s : State) : Out :=
  .next (s.hostWrite 0 (decBase + 0x44) v fun s =>
    if bit v 0 then
      (List.range 32).foldl (fun s d =>
        let q := s.dskSeq d
        if s.burstRuns q then s.setSeq q { s.seqOf q with flushPend := true } else s.dropRetained d) s
    else s)

/-! ### Admission (R144 to R146) -/

/-- The walk of R144: `todo` holds (index, stack) pairs still to be visited, `seen` those visited. Answers the admission set in
order of visit. -/
def State.walk (s : State) (q base len : Nat) : Nat → List (Nat × List Nat) → List (Nat × List Nat) → List Nat → List Nat
  | 0, _, _, acc => acc
  | _, [], _, acc => acc
  | fuel + 1, (i, st) :: todo, seen, acc =>
    let d := s.readDesc base i
    if seen.contains (i, st) || decide (len ≤ i) || decide (s.descCause q len d ≠ 0) || Desc.streamed d then
      State.walk s q base len fuel todo seen acc
    else
      let c : Ctx := ⟨[], 0, st⟩
      let js := successorsOf i d c
      let next := match Desc.endAct d with
        | 2 => if 16 ≤ st.length then [] else js.map fun j => (j, (i + 1) :: st)
        | 3 => js.map fun j => (j, st.drop 1)
        | _ => js.map fun j => (j, st)
      State.walk s q base len fuel (next ++ todo) ((i, st) :: seen) (if acc.contains i then acc else acc ++ [i])

/-- A bound on the visits of the walk: three successors for each index and each stack of at most 16 entries. -/
def walkFuel (len : Nat) : Nat := 4 * (len + 1) ^ 18 + 20

/-- A buffer in which locked units, the reserve and 1,024 units do not fit (R146). -/
def State.noFit (s : State) (q : Nat) : Bool :=
  let x := s.seqOf q
  let locked := ((s.lockSet q).map fun p => match s.validDesc q p.1 with
    | some d => Desc.blockSize d / 64
    | none => 0).sum
  x.desks.any fun d => decide (s.capacity d < locked + 6 * x.specG + 1024)

/-- Every block that admission locks is resident, in every source buffer (R145). -/
def State.resident (s : State) (q : Nat) (p : Nat × Nat → Bool) : Bool :=
  let x := s.seqOf q
  let set := (s.lockSet q).filter p
  x.desks.all fun d => set.all fun p => (s.slice d).locked.any fun k => k.seg = p.1 && k.g = p.2

/-- The lead condition (R149): the lead is there, or the stager has stopped, at the end of what it copies or with the ring full. -/
def State.leadMet (s : State) (q : Nat) : Bool :=
  let x := s.seqOf q
  decide (x.stageSize = 0) || decide (x.stageLead ≤ x.stageUnread / 2 ^ 20) ||
    (match s.stageNext q with
     | none => (s.stagerOn q).2
     | some n => (x.stagePlace (Desc.blockSize n.2.2.2)).isNone)

/-- `RES_STAT[q]` (R145). -/
def State.resStat (s : State) (q : Nat) : Word :=
  let x := s.seqOf q
  let inAdmit := decide (x.st = 1)
  let rigid := inAdmit && !(s.resident q fun p => x.adm.contains p.1)
  let pinHead (p : Nat × Nat) : Bool := x.pinned.contains p.1 && (match s.validDesc q p.1 with
    | some d => decide (p.2 < x.headLen d)
    | none => false)
  let pin := inAdmit && !(s.resident q pinHead)
  let lead := inAdmit && !s.leadMet q
  wd (x.desks.length * 65536 + (s.stagerActive q).toNat * 8 + lead.toNat * 4 + pin.toNat * 2 + rigid.toNat)

/-- The registers of the decanters that show their buffers. -/
def State.decView (s : State) (a : Nat) : Option Word :=
  if decBase + 0x1C0 ≤ a ∧ a < decBase + 0x200 then some (s.resStat ((a - decBase - 0x1C0) / 4))
  else
    match pageOf a with
    | some (g, d, o) =>
      if g.kind ≠ .decS then none
      else
        let b := s.slice d
        let shown (n : Nat) : Option Word := some (wd (if s.lent d then 0 else n))
        match o with
        | 0x44 => some (wd (s.sourceDesk d * 256 * (s.lent d).toNat +
            (!(s.stagedIn (sliceBase d)).isEmpty).toNat * 4 + (s.lent d).toNat * 2))
        | 0x48 => shown (s.capacity d)
        | 0x4C => shown (units b.ahead + units (s.heldHeads (s.dskSeq d) d (s.pathOf (s.dskSeq d))).2)
        | 0x50 => shown (units b.locked)
        | 0x54 => shown (units (s.heldHeads (s.dskSeq d) d (s.pathOf (s.dskSeq d))).1)
        | _ => none
    | none => none

end Sys2Proof.Machine
end

