-- ==== Sys2Proof/Machine/RecordRing.lean ====
section
/-! DEFINITION. The record rings in field memory that share one rule (R169, R170): the fail log, the edge-capture ring, the
TDC result ring, the datalog ring, the DATA receive ring and the trace spill ring. -/

namespace Sys2Proof.Machine

/-- The six rings. -/
inductive RecRing where
  | log | ecap | res | dlog | drx | spill
  deriving DecidableEq, Repr

/-- The registers of a ring: base (64-bit), size, write and read pointers; the bytes of a record; and the place of its
threshold field and live threshold event, if it has one; and the port that R237 gives its writer, if it names one. -/
structure RingRegs where
  base : Nat
  size : Nat
  wr : Nat
  rd : Nat
  bytes : Nat
  port : Option Nat
  thresh : Option (Nat × Nat × Nat × Nat)
  deriving DecidableEq, Repr

/-- The registers of each ring, from its chapter's page map. -/
def RecRing.regs : RecRing → RingRegs
  | .log => ⟨cmpBase + 0x48, cmpBase + 0x50, cmpBase + 0x54, cmpBase + 0x58, 32, some 1, some (cmpBase + 0x44, 25, 0, evNo 26 0)⟩
  | .ecap => ⟨cmpBase + 0x70, cmpBase + 0x6C, cmpBase + 0x78, cmpBase + 0x7C, 16, some 1, some (cmpBase + 0x68, 31, 16, evNo 26 4)⟩
  | .res => ⟨timBase + 0x50, timBase + 0x58, timBase + 0x5C, timBase + 0x60, 16, some 1, some (timBase + 0x64, 25, 0, evNo 29 4)⟩
  | .dlog => ⟨flwBase + 0x60, flwBase + 0x68, flwBase + 0x6C, flwBase + 0x70, 64, some 3, some (flwBase + 0x74, 31, 16, evNo 44 1)⟩
  | .drx => ⟨rngBase + 0xA8, rngBase + 0xA4, rngBase + 0xB0, rngBase + 0xB4, 512, none, none⟩
  | .spill => ⟨galBase + 0x58, galBase + 0x60, galBase + 0x64, galBase + 0x68, 32, some 4, some (galBase + 0x6C, 25, 0, evNo 61 3)⟩

/-- The ring whose read pointer is at `a`. -/
def ringOfRd (a : Nat) : Option RecRing := [RecRing.log, .ecap, .res, .dlog, .drx, .spill].find? fun r => r.regs.rd = a

/-- The ring whose base or size register holds the word at `a`. -/
def ringOfCfg (a : Nat) : Option RecRing :=
  [RecRing.log, .ecap, .res, .dlog, .drx, .spill].find? fun r =>
    a = r.regs.base ∨ a = r.regs.base + 4 ∨ a = r.regs.size

/-- Slots of a ring, in force. -/
def State.ringSize (s : State) (r : RecRing) : Nat := (s.eff r.regs.size).toNat

/-- Field address of slot `i`. -/
def State.ringSlot (s : State) (r : RecRing) (i : Nat) : Nat := s.eff64 r.regs.base + i * r.regs.bytes

/-- Unread records: from the read pointer to the write pointer in ring order. -/
def State.ringUnread (s : State) (r : RecRing) : Nat :=
  let n := s.ringSize r
  if n = 0 then 0 else ((s.reg r.regs.wr).toNat + n - (s.reg r.regs.rd).toNat % n) % n

/-- Full: all slots but one unread (R169). -/
def State.ringFull (s : State) (r : RecRing) : Bool := decide (s.ringSize r - 1 ≤ s.ringUnread r)

/-- The live threshold condition follows the unread count; a threshold of 0 is never met. -/
def State.ringThresh (s : State) (r : RecRing) : State :=
  match r.regs.thresh with
  | none => s
  | some (a, hi, lo, g) =>
    let t := s.getF a hi lo
    s.setLive g (decide (t ≠ 0) && decide (t ≤ s.ringUnread r))

/-- The accesses of a ring's writer, through its port (R237); `none` while they must wait. -/
def State.ringRun (s : State) (r : RecRing) (a n : Nat) : Option State :=
  match r.regs.port with
  | some p => s.portRun p true a n
  | none => some (s.looseRun true a n)

/-- A record is stored in the next slot and the write pointer passes it (R170); `none` while the writer waits at its port. The caller has
found the ring not full. -/
def State.ringPush (s : State) (r : RecRing) (bytes : List Byte) : Option State :=
  let w := (s.reg r.regs.wr).toNat
  (s.ringRun r (s.ringSlot r w) bytes.length).map fun s =>
    ((s.writeBytes (s.ringSlot r w) bytes).setReg r.regs.wr (wd ((w + 1) % s.ringSize r))).ringThresh r

/-- A write of `v` to the read pointer: accepted from the current pointer up to and including the write pointer, in ring
order; any other value leaves it unchanged (R170). -/
def State.ringReturn (s : State) (r : RecRing) (v : Nat) : State :=
  let n := s.ringSize r
  let rd := (s.reg r.regs.rd).toNat
  if v < n ∧ (v + n - rd) % n ≤ s.ringUnread r then (s.setReg r.regs.rd (wd v)).ringThresh r else s

/-- A ring size that its register takes: a multiple of 128 from 1,024 to 2^26; of the DATA ring, a multiple of 64 from 64 to
65,536. -/
def ringSizeOk (r : RecRing) (n : Nat) : Bool :=
  if r = .drx then n % 64 = 0 && 64 ≤ n && n ≤ 65536 else n % 128 = 0 && 1024 ≤ n && n ≤ 2 ^ 26

/-- The fail-log ring lies wholly in the near store (08_compare_capture.md, `LOG_BASE`, `LOG_SIZE`); the others are not checked. -/
def ringPlaceOk (r : RecRing) (base n : Nat) : Bool :=
  r ≠ .log || decide (base + 32 * n ≤ 0x000C00000000)

/-- A new base or size, staged until the ring's writers are idle (R170); another write before that replaces it. -/
def State.ringStage (s : State) (a : Nat) (v : Word) : State := s.stageWord true a v

/-- The staged base and size take effect, and both pointers read 0 (R170). -/
def State.ringApply (s : State) (r : RecRing) : State :=
  let g := r.regs
  let s := ((s.dropForce g.base).dropForce (g.base + 4)).dropForce g.size
  ((s.setReg g.wr 0).setReg g.rd 0).ringThresh r

/-- A ring has a staged base or size. -/
def State.ringStaged (s : State) (r : RecRing) : Bool :=
  (Tab.keys s.chn.inForce).any fun a => ringOfCfg a = some r

end Sys2Proof.Machine
end

