-- ==== Sys2Proof/Machine/Compare.lean ====
section
/-! DEFINITION. Window compare, fail counts, the fail log, level and edge capture (08_compare_capture.md), and the signature units
(09_signatures_check.md). -/

namespace Sys2Proof.Machine

/-! ### What a channel's inputs show (R73, R74, R160) -/

/-- The two inputs as the samplers judge them: initial levels after inversion, and their edges in compare time, in order. -/
structure Wave where
  high : Bool
  low : Bool
  edges : List (Int × Bool)
  deriving DecidableEq, Repr

/-- The inputs of channel `n` after enables, inversions, user skew and calibrated offset (R73, R75, R160). -/
def State.sees (s : State) (n : Nat) (w : ChanWave) : Wave :=
  let pe := s.eff (chnBase n + 0x48)
  let keep := w.edges.filter fun e => if e.2 then bit pe 2 else bit pe 3
  let shift := keep.map fun e => (e.1 - (if e.2 then s.pairMove n 2 else s.pairMove n 3), e.2)
  { high := bit pe 2 && (w.high != bit pe 5), low := bit pe 3 && (w.low != bit pe 6)
    edges := shift.mergeSort fun a b => a.1 ≤ b.1 }

/-- The levels of CMPH and CMPL at instant `t`. -/
def Wave.at (w : Wave) (t : Int) : Bool × Bool :=
  let n (b : Bool) := ((w.edges.filter fun e => e.2 = b && decide (e.1 ≤ t)).length % 2 == 1)
  (w.high != n true, w.low != n false)

/-- The level code of a pair of levels: CMPH in bit 1, CMPL in bit 0 (R74). -/
def levelCode (p : Bool × Bool) : Nat := p.1.toNat * 2 + p.2.toNat

/-- One input's level as a strobe at `t` sees it: stable levels are judged right, and one that changes within 2.5 ps of `t` gives
either (R161), at an instant within the aperture that the free value picks (log 4). -/
def State.sample (s : State) (w : Wave) (high : Bool) (t : Int) : Bool × State :=
  let pick (u : Int) : Bool := if high then (w.at u).1 else (w.at u).2
  if w.edges.any fun e => e.2 = high && decide ((e.1 - t) * 100 ≤ 4096) && decide (-4096 ≤ (e.1 - t) * 100) then
    let r := s.freshNat 7
    (pick (t + ((r.1 % 83 : Nat) : Int) - 41), r.2)
  else (pick t, s)

/-- The level code that a strobe at `t` sees. -/
def State.strobeCode (s : State) (w : Wave) (t : Int) : Nat × State :=
  let h := s.sample w true t
  let l := h.2.sample w false t
  (levelCode (h.1, l.1), l.2)

/-- The intervals of `w` from `a` to `b`, as (start, end, code). -/
def Wave.pieces (w : Wave) (b : Int) : Int → List Int → List (Int × Int × Nat)
  | a, [] => [(a, b, levelCode (w.at a))]
  | a, t :: l => if t ≤ a then w.pieces b a l else (a, t, levelCode (w.at a)) :: w.pieces b t l

/-- The departures from code `x` among intervals, neighbours joined, as (start, end) (R160). -/
def departures (x : Nat) : List (Int × Int × Nat) → List (Int × Int)
  | [] => []
  | (a, b, c) :: l =>
    if c = x then departures x l
    else match departures x l with
      | (a', b') :: r => if a' = b then (a, b') :: r else (a, b) :: (a', b') :: r
      | [] => [(a, b)]

/-- The verdict of a compare: whether it fails, the codes observed as a mask, and DEPART (R161, R162, R171). -/
structure Verdict where
  fail : Bool
  seen : Nat
  depart : Nat
  deriving DecidableEq, Repr

/-- The first departure of a window that is judged as failing (R162): 60 ps or more fails, 62.5 ps where it reaches an end of the
window; anything shorter gives either verdict, a free value. -/
def State.firstDeparture (s : State) (o c : Int) : List (Int × Int) → Option Int × State
  | [] => (none, s)
  | (a, b) :: l =>
    let need : Int := if a = o ∨ b = c then 102400 else 98304
    if need ≤ (b - a) * 100 then (some a, s)
    else
      let r := s.freshNat 1
      if r.1 = 1 then (some a, r.2) else r.2.firstDeparture o c l

/-- Judge one compare of a vector that starts at `t0` (R160 to R162). -/
def State.judge (s : State) (w : Wave) (t0 : Nat) (j : Judge) : Verdict × Nat × State :=
  match j with
  | .strobe x t =>
    let r := s.strobeCode w ((t : Int) - t0)
    (⟨decide (r.1 ≠ x), 2 ^ r.1, 0⟩, r.1, r.2)
  | .window x o c =>
    let o : Int := (o : Int) - t0
    let c : Int := (c : Int) - t0
    let r := s.strobeCode w o
    let ps := w.pieces c o ((w.edges.map (·.1)).filter fun e => decide (o < e) && decide (e < c))
    let seen := ps.foldl (fun m p => m ||| 2 ^ p.2.2) (2 ^ r.1)
    if r.1 ≠ x then (⟨true, seen, 0⟩, r.1, r.2)
    else
      let d := r.2.firstDeparture o c (departures x ps)
      match d.1 with
      | some a => (⟨true, seen, min 0xFFFF ((a - o) / 20).toNat⟩, r.1, d.2)
      | none => (⟨false, seen, 0⟩, r.1, d.2)

/-- The compare edge at which a compare is judged first: a strobe's, or the one that opens a window. -/
def Judge.at0 : Judge → Nat
  | .window _ o _ => o
  | .strobe _ t => t

/-- CMP of a record: the edge type of the compare less 8 (R171): H 0, L 1, M 2, a strobe 4 more. -/
def Judge.cmp : Judge → Nat
  | .window x _ _ => 2 - x
  | .strobe x _ => 6 - x

/-! ### Fail counts (R164 to R166) -/

/-- The block of a site. -/
def siteBlock (st : Nat) : Nat := cmpSite st + 0x400 + 32 * (st % 32)

/-- A site is enabled for the burst of `x` (R126). -/
def Seq.enabled (x : Seq) (st : Nat) : Bool := nbit x.siteEn st

/-- `SITE_BLOCK_RESET` (R166): at admission the blocks of the sequencer's sites are cleared; enabled ones become VALID. -/
def State.siteReset (s : State) (q : Nat) : State :=
  ((List.range 64).filter fun st => s.siteSeq st = some q).foldl (fun s st =>
    let a := siteBlock st
    let s := (List.range 8).foldl (fun s w => s.setReg (a + 4 * w) 0) s
    let s := (s.setB (cmpSite st + 0x40) (st % 32) false).setB (cmpSite st + 0x44) (st % 32) false
    if (s.seqOf q).enabled st then s.setReg a (wd (2 ^ 29 + q)) else s) s

/-- Low 16 bits of `BURST_NUM` (R171). -/
def State.burstNum (s : State) (q : Nat) : Nat := s.getF (cmpBase + 0x340 + 4 * q) 15 0

/-! ### The fail log (R167 to R171) -/

/-- A record is lost: counted, and pending for the next LOST record; the first loss after a written record or a pointer reset
raises `LOG_LOST` (R169). -/
def State.logLost (s : State) (r : List Word) : State :=
  let w (n : Nat) : Word := r.getD n 0
  let l := s.cmp.lost
  let l' : Lost := if l.count = 0 then
      { count := 1, seq := fld (w 0) 27 24, ch := fld (w 0) 23 16, site := fld (w 0) 15 10, burst := fld (w 3) 15 0,
        bvec := (w 6).toNat + 2 ^ 32 * (w 7).toNat, quiet := false }
    else { l with count := l.count + 1, quiet := false }
  let s := { s with cmp := { s.cmp with lost := l' } }
  let s := s.inc64 (cmpBase + 0x60) 1
  if l.quiet then s.occur (evNo 26 1) else s

/-- A FAIL record enters the queue of its desk, or is lost there (R168). -/
def State.logQueue (s : State) (d : Nat) (r : List Word) : State :=
  let l := Tab.get (fun _ => []) s.cmp.logq d
  if 64 ≤ l.length then s.logLost r
  else { s with cmp := { s.cmp with logq := Tab.set (fun _ => []) s.cmp.logq d (l ++ [r]) } }

/-- The LOST record for the pending losses (R169, R171). -/
def Lost.record (l : Lost) : List Word :=
  [wd (2 * 2 ^ 28 + l.seq * 2 ^ 24 + l.ch * 2 ^ 16 + l.site * 2 ^ 10), 0, 0, wd l.burst, wd l.count, wd (l.count / 2 ^ 32),
   wd l.bvec, wd (l.bvec / 2 ^ 32)]

/-- Free slots of a ring: it is full at size − 1 unread records (R169). -/
def State.ringRoom (s : State) (r : RecRing) : Nat := s.ringSize r - 1 - s.ringUnread r

/-- Writer `k` writes one more record, in this cycle or, if it has written `n` in it, in the next (R168, R175). -/
def State.paced (s : State) (k n : Nat) : State :=
  let p := Tab.get (fun _ => (0, 0)) s.cmp.paces k
  let s := if p.1 = s.cycle ∧ n ≤ p.2 then s.pass 1 else s
  let m := if p.1 = s.cycle then p.2 else 0
  { s with cmp := { s.cmp with paces := Tab.set (fun _ => (0, 0)) s.cmp.paces k (s.cycle, m + 1) } }

/-- A record's bytes. -/
def recBytes (ws : List Word) : List Byte := ws.flatMap fun w => bytesLE 4 w.toNat

/-- The log writer writes one record, two in a cycle at most: with losses pending it is preceded by a LOST record, and both need room (R168, R169;
log 14). `none` while it waits at the CAP port. -/
def State.logWrite (s : State) (r : List Word) : Option State :=
  let l := s.cmp.lost
  let need := if l.count = 0 then 1 else 2
  if s.ringRoom .log < need then some (s.logLost r)
  else
    let put (s : State) (r : List Word) : Option State := (s.paced 0 2).ringPush .log (recBytes r)
    ((if l.count = 0 then some s else put s l.record).bind fun s =>
      put { s with cmp := { s.cmp with lost := {} } } r).map fun s =>
        let q := fld (r.getD 0 0) 27 24
        if fld (r.getD 0 0) 31 28 = 1 then s.setSeq q { s.seqOf q with written := (s.seqOf q).written + 1 } else s

/-- A BURST_END record (R167, R171). -/
def burstEndRec (q result burst written vectors : Nat) : List Word :=
  [wd (3 * 2 ^ 28 + q * 2 ^ 24), 0, wd result, wd burst, wd written, wd (written / 2 ^ 32), wd vectors, wd (vectors / 2 ^ 32)]

/-- A queued FAIL record of sequencer `q` still waits. -/
def State.logHolds (s : State) (q : Nat) : Bool :=
  s.cmp.logq.any fun e => e.2.any fun r => fld (r.getD 0 0) 27 24 = q

/-- The desk queues in round robin after the desk served last, those that hold a record. -/
def State.logTurn (s : State) : List Nat :=
  ((List.range 32).map fun k => (s.cmp.lastDesk + 1 + k) % 32).filter fun d =>
    !(Tab.get (fun _ => []) s.cmp.logq d).isEmpty

/-- A sequencer whose BURST_END record may be written: all its verdicts are formed and its records have left the queues. -/
def State.endReady (s : State) : Option Nat :=
  (List.range 16).find? fun q => (s.seqOf q).endRec.isSome && (s.seqOf q).jobs.isEmpty && !s.logHolds q

/-- FAIL_LOG_RECORD_WRITTEN (R168 to R170): the next record of the desk queues is written or lost; with none left of a burst that has
ended, its BURST_END record is. -/
def execFailLogRecordWritten (s : State) : Out :=
  .next ((match s.cmp.ends, s.endReady, s.logTurn with
    | r :: l, _, _ => ({ s with cmp := { s.cmp with ends := l } }).logWrite r
    | [], some q, _ =>
      let x := s.seqOf q
      let e := x.endRec.getD (0, 0)
      (s.setSeq q { x with endRec := none }).logWrite (burstEndRec q e.1 (s.burstNum q) x.written e.2)
    | [], none, d :: _ =>
      match Tab.get (fun _ => []) s.cmp.logq d with
      | [] => none
      | r :: l =>
        ({ s with cmp := { s.cmp with logq := Tab.set (fun _ => []) s.cmp.logq d l, lastDesk := d } }).logWrite r
    | [], none, [] => none).getD s)

/-- One failing compare (R164 to R167): counts, first-fail fields, `SITE_FAIL`, and its record. -/
def State.failCompare (s : State) (q : Nat) (j : VecJob) (c : ChanJob) (g : Judge) (v : Verdict) : State :=
  let st := s.chnSite c.ch
  let a := siteBlock st
  let first := !(s.getB a 31)
  let s := (s.inc64 (a + 8) 1).inc64 (cmpBase + 0x800 + 8 * c.ch) 1
  let s := if first then
      let s := (s.setB a 31 true).setB (cmpSite st + 0x40) (st % 32) true
      let s := (s.setReg (a + 4) (wd j.seg)).setReg64 (a + 0x10) j.bvec
      let s := (s.setReg (a + 0x18) (wd j.iter)).setReg (a + 0x1C) (wd c.ch)
      s.occur (evNo (27 + st / 32) (st % 32))
    else s
  let x := s.seqOf q
  let cfg := Tab.get (fun _ => 0) x.siteCfg st
  let lim := fld cfg 15 0
  let n := Tab.get (fun _ => 0) x.produced st
  if s.getB (cmpBase + 0x40) 0 && bit cfg 31 && (lim = 0 || n < lim) then
    let s := s.setSeq q { x with produced := Tab.set (fun _ => 0) x.produced st (n + 1) }
    let s := if lim ≠ 0 ∧ n + 1 = lim then
        (s.setB a 30 true).setB (cmpSite st + 0x44) (st % 32) true else s
    s.logQueue (c.ch / 8)
      [wd (2 ^ 28 + q * 2 ^ 24 + c.ch * 2 ^ 16 + st * 2 ^ 10 + g.cmp * 2 ^ 7 + v.seen * 8),
       wd (c.wave * 2 ^ 26 + j.seg), wd j.iter, wd (v.depart * 2 ^ 16 + s.burstNum q),
       wd j.voff, wd (j.voff / 2 ^ 32), wd j.bvec, wd (j.bvec / 2 ^ 32)]
  else s

/-! ### Signatures (R181 to R187) -/

/-- One bit folded into a signature (R182). -/
def sigBit (crc : Nat) (b : Bool) : Nat :=
  let x := crc * 2 % 2 ^ 64
  if nbit crc 63 != b then x ^^^ 0x42F0E1EBA9EA3693 else x

/-- A 16-bit word folded, bit 15 first (R182). -/
def sigFold (crc w : Nat) : Nat := ((List.range 16).map fun k => nbit w (15 - k)).foldl sigBit crc

/-- Context `q` of the signature unit of desk `d`. -/
def sigCtx (d q : Nat) : Nat := sigBase d + 0x80 + 32 * q

/-- `SIG.CFG` and `SEED` of desk `d` as read at admission (R187). -/
def Seq.sigCfgOf (x : Seq) (d : Nat) : Word := (Tab.get (fun _ => (0, 0)) x.sigSet d).1
def Seq.sigSeed (x : Seq) (d : Nat) : Nat := (Tab.get (fun _ => (0, 0)) x.sigSet d).2

/-- The value of the instance being formed on desk `d`, SEED at its start (R182). -/
def Seq.sigValue (x : Seq) (d : Nat) : Nat := (Tab.get (fun _ => none) x.crc d).getD (x.sigSeed d)

/-- The word W of desk `d` for one vector: the level codes at first judged compares (R181). -/
def sigWord (cfg : Word) (d : Nat) (codes : List (Nat × Nat)) : Nat :=
  (List.range 8).foldl (fun m k =>
    if bit cfg k then m
    else match codes.find? fun c => c.1 = 8 * d + k with
      | some c => m + c.2 * 4 ^ k
      | none => m) 0

/-- A vector's words are folded into the instance value and RUN of each desk of `q` (R182). -/
def State.sigVector (s : State) (q : Nat) (codes : List (Nat × Nat)) : State :=
  (s.seqDesks q).foldl (fun s d =>
    let x := s.seqOf q
    let w := sigWord (x.sigCfgOf d) d codes
    let crc := x.sigValue d
    let s := s.setSeq q { x with crc := Tab.set (fun _ => none) x.crc d (some (sigFold crc w)) }
    s.setReg64 (sigCtx d q) (sigFold (s.reg64 (sigCtx d q)) w)) s

/-- The sites to which a mismatch of desk `d` is charged (R183). -/
def State.sigSites (s : State) (q d : Nat) : List Nat :=
  (((List.range 8).filter fun k => s.chnFunc (8 * d + k) ≠ 0 && !s.isStray (8 * d + k) && !bit ((s.seqOf q).sigCfgOf d) k).map
    fun k => s.chnSite (8 * d + k)).eraseDups.filter fun st => (s.seqOf q).enabled st

/-- The value of a whole instance is recorded by each desk's unit, and checked against EXP_SIG where CHECK is set (R183). -/
def State.sigFinish (s : State) (q : Nat) (j : VecJob) : State :=
  let desks := s.seqDesks q
  let val (d : Nat) : Nat := (s.seqOf q).sigValue d
  let bad (d : Nat) : Bool := bit ((s.seqOf q).sigCfgOf d) 8 && decide (val d ≠ j.expSig)
  let sites (p : Nat → Bool) : List Nat := ((desks.filter p).flatMap fun d => s.sigSites q d).eraseDups
  let checked := sites fun _ => true
  let missed := sites bad
  let s' := desks.foldl (fun t d =>
    let a := sigCtx d q
    let t := (t.setReg64 (a + 8) (val d)).incSat (a + 0x10) 1
    if bad d then
      let t := t.incSat (a + 0x14) 1
      let t := if t.getB (a + 0x18) 31 then t
        else (t.setReg (a + 0x18) (wd (2 ^ 31 + j.seg))).setReg (a + 0x1C) (wd j.iter)
      t.occur (evDesk d 0)
    else t) s
  let x := s'.seqOf q
  let sigs := checked.foldl (fun (m : Tab (Nat × Nat)) st =>
    let c := Tab.get (fun _ => (0, 0)) m st
    Tab.set (fun _ => (0, 0)) m st (c.1 + 1, c.2 + (missed.contains st).toNat)) x.sigs
  s'.setSeq q { x with sigs := sigs, crc := [] }

/-- At admission every desk's unit clears the counts of the sequencer's context, and RUN too with RUN_CLR (R187). -/
def State.sigAdmit (s : State) (q : Nat) : State :=
  let s := s.setSeq q { s.seqOf q with crc := [] }
  (s.seqDesks q).foldl (fun s d =>
    let a := sigCtx d q
    let s := [0x10, 0x14, 0x18, 0x1C].foldl (fun s o => s.setReg (a + o) 0) s
    let cfg := s.reg (sigBase d + 0x40)
    let seed := s.reg64 (sigBase d + 0x48)
    let x := s.seqOf q
    let s := s.setSeq q { x with sigSet := Tab.set (fun _ => (0, 0)) x.sigSet d (cfg, seed) }
    if bit cfg 9 then s.setReg64 a seed else s) s

/-- An instance cut short is partial in every desk's unit (R184). Its vectors are the last of the burst: the verdicts of whole instances before it
that are still to be formed are folded and recorded as ever. -/
def State.sigPartial (s : State) (q : Nat) : State :=
  (s.seqDesks q).foldl (fun s d => (s.incSat (sigBase d + 0x44) 1).occur (evDesk d 1)) s

/-! ### Level capture (R172 to R174) -/

/-- Bytes of a capture block. -/
def Capture.blockSize (c : Capture) : Nat := if bit c.cfg 30 then 128 else 64

/-- Rows of the area (R173). -/
def Capture.rowCount (c : Capture) : Nat :=
  if c.desks.isEmpty then 0 else fld c.cfg 15 0 * 2 ^ 20 / (c.desks.length * c.blockSize)

/-- `CAP_SEQ[q]`. -/
def capSeq (q : Nat) : Nat := cmpBase + 0x100 + 32 * q

/-- The capture of sequencer `q` is at its end: `STAT.FULL` is set, and `CAP_FULL` occurs if it was not (R173). -/
def State.captureFull (s : State) (q : Nat) : State :=
  if s.getB (capSeq q + 0x14) 31 then s else (s.setB (capSeq q + 0x14) 31 true).occur (evNo 26 3)

/-- Granule `gq` of the burst has its entries in `acc`: one block per capturing desk (R172, R173). One outside FIRST and COUNT, or after the last row
without WRAP, makes none; with the last row FULL is set. With R = 0, and so with no capturing desk, nothing is captured, and the first granule sets FULL
and raises `CAP_FULL` (log 83). -/
def State.captureGranule (s : State) (q gq : Nat) (acc : Tab (List Nat)) : State :=
  let c := (s.seqOf q).cap
  let rowN := gq - c.first
  if c.rowCount = 0 then s.captureFull q
  else if gq < c.first ∨ (c.count ≠ 0 ∧ c.count ≤ rowN) ∨ (c.rowCount ≤ rowN ∧ !(bit c.cfg 29)) then s
  else
    let w := if bit c.cfg 30 then 4 else 2
    let s := (c.desks.zipIdx).foldl (fun s p =>
      let d := p.1
      let sym (v k : Nat) : Nat := (Tab.get (fun _ => []) acc (8 * d + k)).getD v 0 % 2 ^ w
      let n := (List.range 32).foldl (fun n v => (List.range 8).foldl (fun n k => n + sym v k * 2 ^ (w * (8 * v + k))) n) 0
      let blk : CapBlock := ⟨q, c.base + (rowN % c.rowCount * c.desks.length + p.2) * c.blockSize,
        bytesLE c.blockSize n, rowN⟩
      let l := Tab.get (fun _ => []) s.cmp.capq d
      if 256 ≤ l.length then (s.incSat (cmpBase + 0x5C) 1).occur (evNo 26 2)
      else { s with cmp := { s.cmp with capq := Tab.set (fun _ => []) s.cmp.capq d (l ++ [blk]) } }) s
    if rowN + 1 = c.rowCount ∧ !(bit c.cfg 29) then s.captureFull q else s

/-- A vector's entries join the granule being formed; its last vector completes it (R172). -/
def State.captureVector (s : State) (q : Nat) (j : VecJob) (entries : List (Nat × Nat)) : State :=
  let x := s.seqOf q
  let c := x.cap
  if !c.on then s
  else
    let acc := entries.foldl (fun (m : Tab (List Nat)) e =>
      Tab.set (fun _ => []) m e.1 (Tab.get (fun _ => []) m e.1 ++ [e.2])) c.acc
    if j.bvec % 32 ≠ 31 then s.setSeq q { x with cap := { c with acc := acc } }
    else (s.setSeq q { x with cap := { c with acc := [] } }).captureGranule q (j.bvec / 32) acc

/-- A granule that an abort cut short makes its blocks once all its verdicts are formed; vectors that were not output give 0 (R172; log 83). -/
def State.captureFlush (s : State) (q : Nat) : State :=
  let x := s.seqOf q
  if !x.jobs.isEmpty ∨ x.cap.acc.isEmpty then s
  else (s.setSeq q { x with cap := { x.cap with acc := [] } }).captureGranule q (s.reg64 (seqBase q 0 + 0xB0) / 32) x.cap.acc

/-- A block of sequencer `q` for row `row` waits in a desk's queue. -/
def State.rowWaits (s : State) (q row : Nat) : Bool := s.cmp.capq.any fun e => e.2.any fun k => k.seq = q && k.row = row

/-- CAPTURE_BLOCK_WRITTEN (R173, R174): the oldest block of desk `d` is written through the CAP port. With the last block of its row ROWS counts the
row; WRAPPED is set when a block takes an old row's place. -/
def execCaptureBlockWritten (d : Nat) (s : State) : Out :=
  .next (match Tab.get (fun _ => []) s.cmp.capq d with
    | [] => s
    | k :: l =>
      match s.portWrite 1 k.addr k.data with
      | none => s
      | some s =>
        let s : State := { s with cmp := { s.cmp with capq := Tab.set (fun _ => []) s.cmp.capq d l } }
        let a := capSeq k.seq
        let s := if (s.seqOf k.seq).cap.rowCount ≤ k.row then s.setB (a + 0x14) 30 true else s
        if s.rowWaits k.seq k.row then s else s.incSat (a + 0x18) 1)

/-! ### Verdicts (R115, R159, R164) -/

/-- The results of one channel of a vector: each compare's verdict with the level code at its edge. -/
def State.judgeChan (s : State) (t0 : Nat) (w : Wave) : List Judge → List (Judge × Verdict × Nat) × State
  | [] => ([], s)
  | j :: l =>
    let r := s.judge w t0 j
    let rest := r.2.2.judgeChan t0 w l
    ((j, r.1, r.2.1) :: rest.1, rest.2)

/-- The verdicts of one channel take effect: for a MATCH mask they decide the match only (R115); else each failing one counts
(R164), in the order of their compare edges (R166, R168). The answer is the channel's code for the signature, if it was judged, and its capture entry. -/
def State.chanVerdicts (s : State) (q : Nat) (j : VecJob) (waves : List ChanWave) (c : ChanJob) :
    Option (Nat × Nat) × (Nat × Nat) × State :=
  let w := s.sees c.ch ((waves.find? fun w => w.ch = c.ch).getD ⟨c.ch, false, false, []⟩)
  let r := s.judgeChan j.t0 w (c.judges.mergeSort fun a b => a.at0 ≤ b.at0)
  let failed := r.1.any fun x => x.2.1.fail
  if c.mask then
    let x := r.2.seqOf q
    let st := s.chnSite c.ch
    (none, (c.ch, 0), if failed then r.2.setSeq q { x with mFail := st :: x.mFail.filter (· ≠ st) } else r.2)
  else
    let s' := r.1.foldl (fun s x => if x.2.1.fail then s.failCompare q j c x.1 x.2.1 else s) r.2
    let code := match r.1 with
      | [] => levelCode (w.at 0)
      | x :: _ => x.2.2
    (if c.judges.isEmpty then none else some (c.ch, code),
     (c.ch, (!c.judges.isEmpty).toNat * 8 + failed.toNat * 4 + code), s')

/-- Every channel of a vector, in rising order. -/
def State.vectorVerdicts (s : State) (q : Nat) (j : VecJob) (waves : List ChanWave) :
    List ChanJob → List (Nat × Nat) × List (Nat × Nat) × State
  | [] => ([], [], s)
  | c :: l =>
    let r := s.chanVerdicts q j waves c
    let rest := r.2.2.vectorVerdicts q j waves l
    (r.1.toList ++ rest.1, r.2.1 :: rest.2.1, rest.2.2)

/-- The sites with a channel of the sequencer's bursts in MATCH mask `m`, enabled (R115). -/
def State.maskSites (s : State) (q m : Nat) : List Nat :=
  (((s.seqChannels q).filter fun n =>
    bit (s.eff (seqBase q 2 + 0x100 + 32 * m + 4 * (n / 32))) (n % 32)).map s.chnSite).eraseDups.filter
      fun st => (s.seqOf q).enabled st

/-- VERDICTS_FORMED (R164): 120 ns after the oldest vector without verdicts ended, they are formed from what the channels show. -/
def execVerdictsFormed (q : Nat) (waves : List ChanWave) (s : State) : Out :=
  let x := s.seqOf q
  .next (match x.jobs with
    | [] => s
    | j :: l =>
      let due := j.t0 + j.per + 1966080
      let s := s.passTo (due / 20480 + 1)
      let s := s.setSeq q { s.seqOf q with jobs := l }
      let r := s.vectorVerdicts q j waves (j.chans.filter fun c => s.chnFunc c.ch = 1 || s.chnFunc c.ch = 3)
      let s := r.2.2.captureVector q j r.2.1
      let s := if (s.seqOf q).st = 4 then s.captureFlush q else s
      let s := if j.sig then s.sigVector q r.1 else s
      let s := if j.sig && j.last then s.sigFinish q j else s
      if j.isMatch && j.last then
        let x := s.seqOf q
        s.setSeq q { x with mReady := x.mReady ++ [(j.run, j.iter, x.mFail, due)], mFail := [] }
      else s)

/-- MATCH_RESULT_READY (R115, R116): the result of the oldest finished iteration is available; it meets the exit condition if every
site of the mask matched in it (ALL) or in some iteration of the entry so far (EACH). -/
def execMatchResultReady (q : Nat) (s : State) : Out :=
  let x := s.seqOf q
  .next (match x.mReady with
    | [] => s
    | (run, iter, failed, due) :: l =>
      let s := s.passTo (due / 20480 + 1)
      let x := { s.seqOf q with mReady := l }
      if run ≠ x.run then s.setSeq q x
      else match s.validDesc q x.idx with
        | none => s.setSeq q x
        | some d =>
          let m := Desc.msel d
          let sites := s.maskSites q m
          let now := sites.filter fun st => !(failed.contains st)
          let got := (x.mSites ++ now).eraseDups
          let each := bit (s.eff (seqBase q 2 + 0xC0 + 4 * m)) 0
          let met := if each then sites.all got.contains else now.length = sites.length
          s.setSeq q { x with mSites := got,
                              mMet := if x.mMet.isSome ∨ !met then x.mMet else some (iter, due) })

/-! ### Edge capture (R175) -/

/-- Capture stops at pruning stage 2: blocks not yet formed are gone, and each running capture reads FULL (R177). -/
def State.captureStop (s : State) : State :=
  (List.range 16).foldl (fun s q =>
    let x := s.seqOf q
    if x.cap.on ∧ 1 ≤ x.st then
      (s.setSeq q { x with cap := { x.cap with on := false, acc := [] } }).setB (capSeq q + 0x14) 31 true
    else s) s

/-- Channel `n` is in the MATCH mask of the MATCH segment that sequencer `q` outputs (R115). -/
def State.matching (s : State) (q n : Nat) : Bool :=
  match s.validDesc q (s.seqOf q).idx with
  | some d => Desc.endAct d == 4 && bit (s.eff (seqBase q 2 + 0x100 + 32 * Desc.msel d + 4 * (n / 32))) (n % 32)
  | none => false

/-- Slot `i`'s channel is watched: its enable and the selection taken at admission, a burst in RUN, and R159's conditions (R175). -/
def State.ecapSeq (s : State) (i : Nat) : Option Nat :=
  if !(s.getB (cmpBase + 0x68) 0) ∨ 2 ≤ s.prune.stage then none
  else (List.range 16).find? fun q =>
    let x := s.seqOf q
    let sel := x.ecapSel.getD i 0
    let n := fld sel 7 0
    x.st = 3 && x.begun && bit sel 31 && decide (s.dskSeq (n / 8) = q) && s.chnActive n && x.enabled (s.chnSite n) &&
      (s.chnFunc n == 1 || s.chnFunc n == 3) && !x.stretching && !(s.matching q n)

/-- ECAP_TRANSITION (R175): the level code on slot `i`'s channel changes from `prev` to `code` at ET instant `et`. -/
def execEcapTransition (i et prev code : Nat) (s : State) : Out :=
  .next (match s.ecapSeq i with
    | none => s
    | some q =>
      let e := Tab.get (fun _ => {}) s.cmp.slots i
      let put (s : State) (e : EcapSlot) : State := { s with cmp := { s.cmp with slots := Tab.set (fun _ => {}) s.cmp.slots i e } }
      let code := code % 4
      if code = prev % 4 then s
      else if (match e.lastAt with | some l => decide ((et - l) * 10 < 16384) | none => false) then
        (put s { e with merged := e.merged + 1 }).incSat (cmpBase + 0x84) 1
      else if 32 ≤ e.queue.length then (s.incSat (cmpBase + 0x80) 1).occur (evNo 26 5)
      else
        let n := fld ((s.seqOf q).ecapSel.getD i 0) 7 0
        let time := et / 5120 % 2 ^ 48 * 256 + et % 5120 / 20 + s.coarse.toNat * 2 ^ 63
        let r := [wd time, wd (time / 2 ^ 32), wd (s.burstNum q * 2 ^ 16 + n * 2 ^ 8 + prev % 4 * 4 + code),
                  wd (min e.merged 0xFFFFFFFF)]
        put s { e with queue := e.queue ++ [r], lastAt := some et, merged := 0 })

/-- ECAP_RECORD_WRITTEN (R175): the oldest record of slot `i` is written, or dropped if the ring is full: one record a cycle in all, one in two cycles
of a slot. -/
def execEcapRecordWritten (i : Nat) (s : State) : Out :=
  let e := Tab.get (fun _ => {}) s.cmp.slots i
  .next (match e.queue with
    | [] => s
    | r :: l =>
      let take (s : State) : State :=
        { s with cmp := { s.cmp with slots := Tab.set (fun _ => {}) s.cmp.slots i { e with queue := l, nextAt := s.cycle + 2 } } }
      if s.ringFull .ecap then ((take s).incSat (cmpBase + 0x80) 1).occur (evNo 26 5)
      else ((((s.passTo e.nextAt).paced 1 1).ringPush .ecap (recBytes r)).map take).getD s)

/-! ### Held soft resets (R178, R188) -/

/-- Every RO word of the page at `p` from `lo` to `hi` returns to its reset value. -/
def State.clearWords (s : State) (p lo hi : Nat) : State :=
  ((Tab.keys s.regs).filter fun a => decide (p + lo ≤ a) && decide (a < p + hi)).foldl (fun s a => s.setReg a (resetValue a)) s

/-- The sum of the 64-bit counts at `a`, `n` of them `stride` apart. -/
def State.sum64 (s : State) (a n stride : Nat) : Nat := ((List.range n).map fun i => s.reg64 (a + stride * i)).sum

/-- The clear of CMP page `h` (0, or 1 + a site page), with its RESYNC record (R178). `BURST_NUM` is taken as one of the page's counters
(log 83). -/
def State.cmpClear (s : State) (h cause : Nat) : State :=
  if h = 0 then
    let n := s.sum64 (cmpBase + 0x800) 256 8
    let s := [RecRing.log, .ecap].foldl (fun s r => ((s.setReg r.regs.wr 0).setReg r.regs.rd 0).ringThresh r) s
    let s := [0x5C, 0x60, 0x64, 0x80, 0x84].foldl (fun s o => s.setReg (cmpBase + o) 0) s
    let s := ((s.clearWords cmpBase 0x340 0x380).clearWords cmpBase 0x800 0x1000)
    let s := (List.range 16).foldl (fun s q => (s.setReg (capSeq q + 0x14) 0).setReg (capSeq q + 0x18) 0) s
    ({ s with cmp := {} }).resync cause 8 26 0 n
  else
    let p := cmpBase + 0x1000 * h
    let n := s.sum64 (p + 0x408) 32 32
    (((s.clearWords p 0x40 0x48).clearWords p 0x400 0x800)).resync cause 8 (26 + h) 0 n

/-- The end of a held soft reset of the page at `p`: SRST reads 0 and READY 1 (R54). -/
def State.srstEnd (s : State) (p : Nat) : State := (s.setB (p + 8) 1 false).setB (p + 0xC) 1 true

/-- CMP_SRST_APPLY (R178): with no burst running, the held reset of CMP page `h` takes effect. -/
def execCmpSrstApply (h : Nat) (s : State) : Out :=
  let p := cmpBase + 0x1000 * h
  .next (if 2 < h ∨ !(s.getB (p + 8) 1) ∨ (List.range 16).any s.burstRuns then s
    else (((s.softReset p).cmpClear h 1)).srstEnd p)

/-- The clear of SIG page `d` with its RESYNC record (R188). -/
def State.sigClear (s : State) (d cause : Nat) : State :=
  let n := ((List.range 16).map fun q => (s.reg (sigCtx d q + 0x10)).toNat).sum
  ((s.setReg (sigBase d + 0x44) 0).clearWords (sigBase d) 0x80 0x280).resync cause 9 (21 + d / 8) d n

/-- SIG_SRST_APPLY (R188): with no burst of the desk's sequencer, the held reset of SIG page `d` takes effect. -/
def execSigSrstApply (d : Nat) (s : State) : Out :=
  let p := sigBase d
  .next (if 32 ≤ d ∨ !(s.getB (p + 8) 1) ∨ s.burstRuns (s.dskSeq d) then s
    else ((s.softReset p).sigClear d 1).srstEnd p)

/-! ### Ring pointers (R170) -/

/-- The writers of a ring are idle, so that a new base or size takes effect (R170, and each ring's chapter). -/
def State.ringIdle (s : State) (r : RecRing) : Bool :=
  match r with
  | .log => !(List.range 16).any s.burstRuns && s.cmp.logq.all fun e => e.2.isEmpty
  | .ecap => !(List.range 16).any s.burstRuns && s.cmp.slots.all fun e => e.2.queue.isEmpty
  | _ => true

end Sys2Proof.Machine
end

