-- ==== Sys2Proof/Machine/Gallery.lean ====
section
/-! DEFINITION. The Gallery (22_gallery.md): trace control and triggers, spill, counters, and the two TAPs. How an
occurrence is recorded and counted stands in Flags.lean. -/

namespace Sys2Proof.Machine

/-- `s` with the trace replaced. -/
def State.setTrace (s : State) (t : Trace) : State := { s with gal := { s.gal with trace := t } }

/-- The eight words of a trace record (R431). -/
def TraceRec.words (r : TraceRec) : List Word :=
  [wd (r.kind * 2 ^ 28 + r.holdover.toNat * 2 ^ 27 + r.coarse.toNat * 2 ^ 26 + r.source), r.raw,
   wd r.seq, wd (r.seq / 2 ^ 32)] ++ timeWords r.time

/-- ARM (R432): in IDLE or DONE it empties the SRAM, sets SEQ to 0, clears `TRC_DROP` and reads `TRC_CFG`; START_SRC 0 runs at
once. Elsewhere it is ignored. -/
def State.traceArm (s : State) : State :=
  let t := s.gal.trace
  if t.st = 0 ∨ t.st = 4 then
    let cfg := s.reg (galBase + 0x40)
    let st := if fld cfg 19 16 = 0 then 2 else 1
    (s.setTrace { t with st := st, cause := 0, seq := 0, recs := [], first := 0, cfg := cfg }).setReg (galBase + 0x50) 0
  else s

/-- STOP (R432) ends a trace in ARMED, RUN or POST. -/
def State.traceStop (s : State) (cause : Nat) : State :=
  let st := s.gal.trace.st
  if st = 1 ∨ st = 2 ∨ st = 3 then s.traceEnd cause else s

/-- TRACE_ARM: a write of `TRC_CTRL` with ARM set. -/
def execTraceArm (s : State) : Out := .next (s.hostWrite 0 (galBase + 0x44) 1 State.traceArm)

/-- TRACE_STOP: a write of `TRC_CTRL` with STOP set. -/
def execTraceStop (s : State) : Out := .next (s.hostWrite 0 (galBase + 0x44) 2 fun s => s.traceStop 1)

/-- The stop trigger on input `t` in RUN writes its TRIGGER record and begins POST (R432). -/
def State.traceToPost (s : State) (t : Nat) : State :=
  let s := s.traceWrite 2 t 0
  if s.gal.trace.st = 2 then
    let post := s.getF (galBase + 0x54) 19 0
    if post = 0 then s.traceEnd 2 else s.setTrace { s.gal.trace with st := 3, postLeft := post }
  else s

/-- A pulse on trigger input `t` (R430, R432): the start trigger begins RUN without a record; in RUN and POST a pulse writes a TRIGGER record, and
the stop trigger begins POST. With both in one cycle, in either order, RUN is entered and left. -/
def State.trigger (s : State) (t : Nat) : State :=
  let tr := s.gal.trace
  let stop := fld tr.cfg 23 20
  if tr.st = 1 then
    if fld tr.cfg 19 16 = t + 1 then
      let s := s.setTrace { tr with st := 2 }
      if stop = t + 1 ∨ tr.stopAt = s.cycle + 1 then s.traceToPost (stop - 1) else s
    else if stop = t + 1 then s.setTrace { tr with stopAt := s.cycle + 1 }
    else s
  else if tr.st = 2 ∧ stop = t + 1 then s.traceToPost t
  else s.traceWrite 2 t 0

/-- The bytes of a list of words, lowest first. -/
def wordBytes (ws : List Word) : List Byte := ws.flatMap fun w => bytesLE 4 w.toNat

/-- SPILL_RECORD_WRITTEN (R433): with SPILL_EN the oldest record moves into the spill ring, if the ring has space; from pruning
stage 3 spill stops (R434). -/
def execSpillRecordWritten (s : State) : Out :=
  let t := s.gal.trace
  .next (match t.recs with
    | [] => s
    | r :: _ =>
      if bit t.cfg 31 ∧ !(s.ringFull .spill) ∧ s.prune.stage < 3 then
        match s.ringPush .spill (wordBytes r.words) with
        | none => s
        | some s => s.setTrace { s.gal.trace with recs := s.gal.trace.recs.drop 1, first := (s.gal.trace.first + 1) % traceDepth }
      else s)

/-! ### Counters (R435) -/

/-- What a counter has counted in the present cycle: 1 for an occurrence in MODE 0; the cycle itself counts in MODE 1 when it has passed. -/
def State.hitNow (s : State) (c : Counter) : Nat := if c.hitAt = s.cycle + 1 then 1 else 0

/-- COUNTER_SNAP: every counter is copied to its shadow in one cycle, without what it counts in that cycle. -/
def execCounterSnap (s : State) : Out :=
  .next (s.hostWrite 0 (gal1Base + 0x4C) 1 fun s =>
    (Tab.keys s.gal.cnts).foldl (fun s c => s.setCounter c { s.counter c with shadow := ((s.counter c).live + 2 ^ 48 - s.hitNow (s.counter c)) % 2 ^ 48 }) s)

/-- COUNTER_CLEAR_ALL: every counter and every OVF is cleared; a count of the same cycle is applied after it. -/
def execCounterClearAll (s : State) : Out :=
  .next (s.hostWrite 0 (gal1Base + 0x4C) 2 fun s =>
    (Tab.keys s.gal.cnts).foldl (fun s c => s.setCounter c { s.counter c with live := s.hitNow (s.counter c), ovf := false }) s)

/-- At stage 4 the SRAM's contents, the counters and all state of the two pages are lost (R434); their page headers stay (log 79). -/
def State.galLost (s : State) : State :=
  let mine (a : Nat) : Bool := decide (galBase ≤ a) && decide (a < gal1Base + 0x1000) && decide (0x40 ≤ a % 0x1000)
  State.ringThresh { s with regs := s.regs.filter (fun e => !(mine e.1)), gal := { s.gal with trace := {}, cnts := [] } } .spill

/-- The counter `CNT_SEL` selects. -/
def State.cntSel (s : State) : Nat := s.getF (gal1Base + 0x40) 9 0

/-- CNT_CFG_WRITE: the selected counter takes EN, MODE and SOURCE, and its OVF clears; MODE 2 or 3 leaves the configuration
unchanged. -/
def execCntCfgWrite (v : Word) (s : State) : Out :=
  .next (s.hostWrite 0 (gal1Base + 0x44) v fun s =>
    let k := s.cntSel
    let c := { s.counter k with ovf := false }
    s.setCounter k (if 2 ≤ fld v 29 28 then c
      else { c with en := bit v 31, mode := fld v 29 28, source := fld v 11 0 }))

/-! ### Reads of the Gallery (R436) -/

/-- Word `w` of the record at SRAM index `i`; a slot that holds no record reads a free value (log 4). -/
def State.sramWord (s : State) (i w : Nat) : Word × State :=
  let t := s.gal.trace
  match t.recs[(i + traceDepth - t.first) % traceDepth]? with
  | some r => (r.words.getD w 0, s)
  | none => (wd (s.freshNat 32).1, (s.freshNat 32).2)

/-- The registers of `GAL[0]` and `GAL[1]` that show the trace and the counters. -/
def State.galView (s : State) (a : Nat) : Option Word :=
  let t := s.gal.trace
  if a = galBase + 0xC then some (setBit (setFld (s.reg a) 7 4 t.st) 0 (bit t.cfg 31 && !t.recs.isEmpty))
  else if a = galBase + 0x48 then some (wd (t.cause * 16 + t.st))
  else if a = galBase + 0x4C then some (wd t.recs.length)
  else if a = galBase + 0x70 then some (wd t.first)
  else if a = gal1Base + 0x44 then
    let c := s.counter s.cntSel
    some (wd (c.en.toNat * 2 ^ 31 + c.ovf.toNat * 2 ^ 30 + c.mode * 2 ^ 28 + c.source))
  else if a = gal1Base + 0x50 then some (wd (s.counter s.cntSel).live)
  else if a = gal1Base + 0x54 then some (wd ((s.counter s.cntSel).live / 2 ^ 32))
  else if gal1Base + 0x800 ≤ a ∧ a < gal1Base + 0x1000 then
    let o := a - (gal1Base + 0x800)
    let c := s.counter (256 * s.getF (gal1Base + 0x48) 1 0 + o / 8)
    some (wd (c.shadow / 2 ^ (32 * (o / 4 % 2))))
  else none

/-- The word at Gallery-space address `x` (R436): trace SRAM below 16 MiB, then the two `GAL` pages; elsewhere 0. -/
def State.galWord (s : State) (x : Nat) : Word × State :=
  if x < 0x1000000 then s.sramWord (x / 32) (x / 4 % 8)
  else if x < 0x1002000 then
    let a := galBase + (x - 0x1000000) / 4 * 4
    if galBase + 0x800 ≤ a ∧ a < gal1Base then
      let o := a - (galBase + 0x800)
      s.sramWord ((s.getF (galBase + 0x74) 18 0 + o / 32) % traceDepth) (o / 4 % 8)
    else ((s.galView a).getD (s.reg a), s)
  else (0, s)

/-- The field side is powered and not held: its mode is at least BOOT. -/
def State.fieldAlive (s : State) : Bool := decide (2 ≤ s.ctl.mode)

/-- TAP_GALADDR: the address register of TAP `t` (0 host, 1 field) is loaded (R436). -/
def execTapGaladdr (t x : Nat) (s : State) : Out :=
  .next { s with gal := { s.gal with tapAddr := Tab.set (fun _ => 0) s.gal.tapAddr t (x % 2 ^ 32) } }

/-- TAP_GALDATA (R436): the word at `GALADDR` is read without side effect and `GALADDR` increases by 4. Both TAPs read 0 while the
field side is held; the host TAP reads all-ones while the link is down. -/
def execTapGaldata (t : Nat) (s : State) : Out :=
  let x := Tab.get (fun _ => 0) s.gal.tapAddr t
  let r : Word × State :=
    if !s.fieldAlive then (0, s)
    else if t = 0 ∧ !s.sat.hostUp then (0xFFFFFFFF, s)
    else s.galWord x
  .next { r.2 with lastRead := r.1,
                   gal := { r.2.gal with tapAddr := Tab.set (fun _ => 0) r.2.gal.tapAddr t ((x + 4) % 2 ^ 32) } }

end Sys2Proof.Machine
end

