-- ==== Sys2Proof/Machine/Timetable.lean ====
section
/-! DEFINITION. The Timetable (12_timetable.md): slots and their commands, the matching store, submission queues and delay
lists; and the Bursar's account as far as a run's end settles it (R272). -/

namespace Sys2Proof.Machine

/-! ### Slots (R242 to R245) -/

/-- Slot `i`. -/
def State.task (s : State) (i : Nat) : Task := Tab.get (fun _ => {}) s.ttb.tasks i

/-- `s` with slot `i` replaced. -/
def State.setTask (s : State) (i : Nat) (t : Task) : State :=
  { s with ttb := { s.ttb with tasks := Tab.set (fun _ => {}) s.ttb.tasks i t } }

/-- The image words and fields of R242. -/
def Task.word (t : Task) (w : Nat) : Word := t.img.getD w 0
def Task.exec (t : Task) : Nat := fld (t.word 0) 31 28
def Task.unit (t : Task) : Nat := fld (t.word 0) 27 22
def Task.prio (t : Task) : Nat := fld (t.word 0) 21 19
def Task.runs (t : Task) : Nat := fld (t.word 0) 11 0
def Task.energy (t : Task) : Nat := (t.word 1).toNat
def Task.arg (t : Task) : Nat := (t.word 2).toNat + 2 ^ 32 * (t.word 3).toNat
def Task.kind (t : Task) (n : Nat) : Nat := fld (t.word (4 + n)) 31 30
def Task.filter (t : Task) (n : Nat) : Nat := fld (t.word (4 + n)) 29 28
def Task.src (t : Task) (n : Nat) : Nat := fld (t.word (4 + n)) 27 16
def Task.thresh (t : Task) (n : Nat) : Nat := fld (t.word (4 + n)) 15 0
def Task.counter (t : Task) (n : Nat) : Nat := t.cnt.getD n 0

/-- Every input is satisfied: KIND NONE, THRESH 0, or counter at least THRESH (R244). -/
def Task.satisfied (t : Task) : Bool :=
  (List.range 4).all fun n => t.kind n = 0 || t.thresh n ≤ t.counter n

/-- Units of an executor class (R252); classes 7 to 15 are reserved. -/
def execUnits : Nat → Nat
  | 0 => 1 | 1 => 16 | 2 => 64 | 3 => 8 | 4 => 8 | 5 => 1 | 6 => 1 | _ => 0

/-- The image passes the checks of ARM (R243). -/
def Task.imageOk (t : Task) : Bool :=
  decide (t.exec ≤ 6) && decide (t.unit < execUnits t.exec) &&
  (List.range 4).all fun n => !(t.kind n = 1 && 127 < t.src n) && !(t.kind n = 2 && t.filter n = 3)

/-- A WAIT task with every input satisfied at the end of this cycle is READY from the next (R245); `since` is that next cycle. -/
def State.judgeReady (s : State) (i : Nat) : State :=
  let t := s.task i
  if t.st = 1 ∧ t.satisfied then s.setTask i { t with st := 2, since := s.cycle + 1, aged := 0 } else s

/-- The effective priority of a slot (R250). -/
def Task.effPrio (t : Task) : Nat := if t.st = 2 then min 7 (t.prio + t.aged) else t.prio

/-- `TASK_STAT` of a slot. -/
def Task.stat (t : Task) : Word :=
  wd (t.st * 2 ^ 28 + t.outcome * 2 ^ 24 + t.noop.toNat * 2 ^ 23 + t.effPrio * 2 ^ 20 +
    (if t.runs = 0 then 0 else t.runsLeft))

/-- A command that fails (R256): counted, `ERR_INFO` keeps the first, `SQ_ERR` occurs. -/
def State.cmdFail (s : State) (cause source op i : Nat) : State :=
  let s := s.incSat (ttbBase + 0x74) 1
  let s := if s.reg (ttbBase + 0x78) = 0 then
      s.setReg (ttbBase + 0x78) (wd (cause * 2 ^ 28 + source * 2 ^ 24 + op * 2 ^ 20 + i)) else s
  s.occur (evNo 42 1)

/-! ### The matching store (R246 to R249) -/

/-- The cycle in which the matching store takes arrivals of class `k` (R247): this one, or the next if it has taken 8 in this one, or has come past
that class of source. -/
def State.matchOpen (s : State) (k : Nat) : State :=
  let t := s.ttb
  let s := if t.matchAt = s.cycle ∧ (8 ≤ t.matchUsed ∨ k < t.matchNext) then s.pass 1 else s
  if s.ttb.matchAt = s.cycle then s else { s with ttb := { s.ttb with matchAt := s.cycle, matchUsed := 0, matchNext := 0 } }

/-- `n` arrivals have been taken in this cycle, and class `k` is the first that may still be. -/
def State.matchDone (s : State) (n k : Nat) : State :=
  { s with ttb := { s.ttb with matchUsed := s.ttb.matchUsed + n, matchNext := max s.ttb.matchNext k } }

/-- An arrival's effect on one counter: slot, input and amount. -/
abbrev Arrival := List (Nat × Nat × Nat)

/-- The counter a held arrival names is recorded at the first hold after `HOLD_STAT` read 0, and `SAT_HOLD` occurs (R248). -/
def State.satHold (s : State) (i n : Nat) : State :=
  if s.reg (ttbBase + 0x7C) = 0 then
    (s.setReg (ttbBase + 0x7C) (wd (2 ^ 31 + n * 2 ^ 12 + i))).occur (evNo 42 4)
  else s

/-- An arrival would take the counter of slot `i`, input `n` above 65,535. -/
def State.saturates (s : State) (x : Nat × Nat × Nat) : Bool :=
  decide (65535 < (s.task x.1).counter x.2.1 + x.2.2)

/-- An arrival applied whole: every counter it names rises, and a WAIT task it satisfies becomes READY (R245, R246). -/
def State.applyWhole (s : State) (l : Arrival) : State :=
  l.foldl (fun s x =>
    let t := s.task x.1
    (s.setTask x.1 { t with cnt := t.cnt.set x.2.1 (t.counter x.2.1 + x.2.2) }).judgeReady x.1) s

/-- An arrival applied whole or not at all (R248); the answer says whether it was. -/
def State.arrive (s : State) (l : Arrival) : Bool × State :=
  match l.find? s.saturates with
  | some x => (false, s.satHold x.1 x.2.1)
  | none => (true, s.applyWhole l)

/-- The PORT inputs whose SRC is `p` (R245's first arrival kind), each by 1. -/
def State.portTargets (s : State) (p : Nat) : Arrival :=
  (Tab.keys s.ttb.tasks).flatMap fun i =>
    ((List.range 4).filter fun n => (s.task i).kind n = 1 && (s.task i).src n = p).map fun n => (i, n, 1)

/-- A FILTER accepts an outcome: ANY all, OK DONE and STOPPED, FAIL ABORTED and FAILED. -/
def filterAccepts (f outcome : Nat) : Bool :=
  match f with
  | 0 => true
  | 1 => outcome = 1 || outcome = 2
  | 2 => outcome = 3 || outcome = 4
  | _ => false

/-- The TASK inputs that a completion of slot `j` with an outcome reaches, each by 1. -/
def State.completionTargets (s : State) (j outcome : Nat) : Arrival :=
  (Tab.keys s.ttb.tasks).flatMap fun i =>
    ((List.range 4).filter fun n =>
      (s.task i).kind n = 2 && (s.task i).src n = j && filterAccepts ((s.task i).filter n) outcome).map fun n => (i, n, 1)

/-- The completion of a task in HOLD is offered; once applied the task leaves HOLD for WAIT or IDLE (R254). -/
def State.offerCompletion (s : State) (j : Nat) : Bool × State :=
  let r := s.arrive (s.completionTargets j (s.task j).outcome)
  if r.1 then
    let t := r.2.task j
    let again := !t.toIdle && (t.runs = 0 || 0 < t.runsLeft)
    (true, (r.2.setTask j { t with st := if again then 1 else 0, toIdle := false }).judgeReady j)
  else r

/-- An operand port takes in a delivered pulse, or refuses it when `PORT_PEND` is full (R249); the answer says whether it took it. -/
def State.portPulse (s : State) (p : Nat) : Bool × State :=
  let a := ttbBase + 0x200 + 4 * p
  if s.reg a = 0xFFFFFFFF then
    (false, (s.incSat (ttbBase + 0x84) 1).occur (evNo 42 5))
  else (true, s.incSat a 1)

/-- One pending pulse of port `p` is applied (R247). -/
def State.servePort (s : State) (p : Nat) : Bool × State :=
  let a := ttbBase + 0x200 + 4 * p
  if s.reg a = 0 then (false, s)
  else
    let r := s.arrive (s.portTargets p)
    if r.1 then (true, r.2.setReg a (wd ((r.2.reg a).toNat - 1))) else r

/-! ### Commands on a slot (R243, R244, R255, R256) -/

/-- An image word as a slot holds it: the reserved bits 17:16 of word 0 read 0 (R9, R242). -/
def imageWord (w : Nat) (v : Word) : Word := if w = 0 then setFld v 17 16 0 else v

/-- TASK_IMAGE_WRITE's effect: an IDLE slot takes the word; another fails with cause STATE, source 9 (R243). -/
def State.imageWrite (s : State) (w : Nat) (v : Word) : State :=
  let i := s.getF (ttbBase + 0x40) 11 0
  let t := s.task i
  if t.st = 0 then s.setTask i { t with img := t.img.set w (imageWord w v) } else s.cmdFail 2 9 0 i

/-- ARM of slot `i`, whose image is `t`'s (R243, R244). -/
def State.armTask (s : State) (source op i : Nat) (t : Task) : State :=
  if t.st ≠ 0 then s.cmdFail 2 source op i
  else if !t.imageOk then s.cmdFail 3 source op i
  else (s.setTask i { t with st := 1, runsLeft := t.runs, toIdle := false }).judgeReady i

/-- DISARM (R244's table): WAIT and READY go to IDLE, RUN and HOLD after completion, IDLE fails. -/
def State.disarmTask (s : State) (source i : Nat) : State :=
  let t := s.task i
  if t.st = 0 then s.cmdFail 2 source 3 i
  else if t.st ≤ 2 then s.setTask i { t with st := 0 }
  else s.setTask i { t with toIdle := true }

/-- ADD of an amount to an input (R246, R248): `none` if the arrival must wait at its source. A `TASK_CMD` ADD that would
saturate fails instead (cause 5), and so does one to a NONE input or of 0 (cause 4). -/
def State.addTask (s : State) (source i n amount : Nat) (waits : Bool) : Option State × State :=
  if (s.task i).kind n = 0 ∨ amount = 0 then let s := s.cmdFail 4 source 4 i; (some s, s)
  else
    let r := s.arrive [(i, n, amount)]
    if r.1 then (some r.2, r.2)
    else if waits then (none, r.2)
    else let s := s.cmdFail 5 source 4 i; (some s, s)

/-- CLEAR (R255's table): the counters of an IDLE slot return to 0 and `DISCARD_TOTAL` takes their amounts. -/
def State.clearTask (s : State) (source i : Nat) : State :=
  let t := s.task i
  if t.st ≠ 0 then s.cmdFail 2 source 6 i
  else (s.setTask i { t with cnt := [0, 0, 0, 0] }).inc64 (ttbBase + 0x90) t.cnt.sum

/-- ABORT of slot `i` (R255). `ab` is the executor's own abort, to which a RUN task's ABORT is passed; once the
executor has ended it finds it committed: a burst keeps its outcome with NOOP, another executor's RESULT is ABORT_NOOP and the task takes DONE
(R254); but a NOP task aborted in its dispatch cycle is ABORTED (R252). -/
def State.abortTask (s : State) (ab : Task → State → State) (i : Nat) : State :=
  let t := s.task i
  match t.st with
  | 1 => s.setTask i { t with st := 0, noop := false }
  | 2 => s.setTask i { t with st := 0, outcome := 3, noop := false }
  | 3 =>
    match t.ended with
    | none => ab t (s.setTask i { t with toIdle := true })
    | some (o, _) =>
      let e := if t.exec = 0 ∧ t.since = s.cycle then (3, false) else if t.exec = 1 then (o, true) else (1, true)
      s.setTask i { t with toIdle := true, ended := some e }
  | 4 => s.setTask i { t with noop := true }
  | _ => s

/-! ### Settling a run (R272, R277) -/

/-- Overdraw: counted, `OVERDRAW_INFO` keeps the first, the event occurs (R272). -/
def State.overdraw (s : State) (w : Wait) : State :=
  let s := s.incSat (burBase + 0x84) 1
  let s := if s.reg (burBase + 0x88) = 0 then
      s.setReg (burBase + 0x88) (wd (w.direct.toNat * 2 ^ 30 + 2 ^ 29 + w.cls * 2 ^ 12 +
        (if w.direct then w.unit else w.slot))) else s
  s.occur (evNo 43 0)

/-- The charge of run `w` is settled with the meter's reading `m` (R272): pool + (E − M), `HELD` − E, `MEASURED_TOTAL` + M. -/
def State.settle (s : State) (w : Wait) (m : Nat) : State :=
  let b := s.bur
  let s := { s with bur := { b with
    pool := b.pool + w.energy - m, held := b.held - w.energy, measured := b.measured + m,
    runs := b.runs.erase w } }
  if w.energy < m then s.overdraw w else s

/-- A meter reading: the one given, else a free value of 32 bits (log 4). -/
def State.meter (s : State) (m : Option Nat) : Nat × State :=
  match m with
  | some v => (v, s)
  | none => s.freshNat 32

/-- The run of unit `u` of executor class `c` ends with a Timetable outcome (1 DONE, 2 STOPPED, 3 ABORTED, 4 FAILED) and NOOP, and with reading
`m` where the spec fixes it. A direct start's charge is settled now; a task's when the task completes (R254, R272). -/
def State.endRun (s : State) (c u outcome : Nat) (noop : Bool) (m : Option Nat) : State :=
  match s.bur.runs.find? fun w => w.cls = c ∧ w.unit = u with
  | none => s
  | some w =>
    if w.direct then
      let r := s.meter m
      r.2.settle w r.1
    else s.setTask w.slot { s.task w.slot with ended := some (outcome, noop), endAt := s.cycle, endM := m }


/-! ### Command windows -/

/-- TASK_IMAGE_WRITE (R243): image word `w` of the slot in `TASK_SEL`. -/
def execTaskImageWrite (w : Nat) (v : Word) (s : State) : Out :=
  .next (if w < 8 then s.hostWrite 0 (ttbBase + 0x44 + 4 * w) v fun s => s.imageWrite w v else s)

/-- A `TASK_CMD` write on the slot in `TASK_SEL`. -/
def State.taskCmd (s : State) (v : Word) (k : Nat → State → State) : State :=
  s.hostWrite 0 (ttbBase + 0x70) v fun s => k (s.getF (ttbBase + 0x40) 11 0) s

/-- TASK_ARM (R244). -/
def execTaskArm (s : State) : Out :=
  .next (s.taskCmd (wd (2 * 2 ^ 28)) fun i s => s.armTask 8 2 i (s.task i))

/-- TASK_DISARM. -/
def execTaskDisarm (s : State) : Out := .next (s.taskCmd (wd (3 * 2 ^ 28)) fun i s => s.disarmTask 8 i)

/-- TASK_ADD (R246): the one command or queue entry that the matching store takes in a cycle (R247). -/
def execTaskAdd (n amount : Nat) (s : State) : Out :=
  .next (s.taskCmd (wd (4 * 2 ^ 28 + n % 4 * 2 ^ 26 + amount % 65536)) fun i s =>
    (((s.matchOpen 6).matchDone 1 7).addTask 8 i (n % 4) (amount % 65536) false).2)

/-- TASK_CLEAR (R421). -/
def execTaskClear (s : State) : Out := .next (s.taskCmd (wd (6 * 2 ^ 28)) fun i s => s.clearTask 8 i)

/-- Fabric cycles in a Timetable tick: 10 ns, or 100 ns with the fast clocks stopped. -/
def State.tickCycles (s : State) : Nat := if s.ctl.clocks then 8 else 80

/-- TASK_AGE_STEP (R250): a millisecond, measured on the Timetable tick, has passed since slot `i` became READY or last aged. -/
def execTaskAgeStep (i : Nat) (s : State) : Out :=
  let t := s.task i
  .next (if t.st = 2 then
    let s := s.passTo (s.boundary s.tickCycles (t.since / 8 * 8 + 800000 * (t.aged + 1)))
    s.setTask i { t with aged := t.aged + 1 }
  else s)

/-! ### Submission queues (R257, R258) -/

/-- The queued entries of queue `q`. -/
def State.queue (s : State) (q : Nat) : List (List Word) := Tab.get (fun _ => []) s.ttb.queues q

/-- `s` with them replaced. -/
def State.setQueue (s : State) (q : Nat) (l : List (List Word)) : State :=
  { s with ttb := { s.ttb with queues := Tab.set (fun _ => []) s.ttb.queues q l } }

/-- SQ_PUSH (R257): the nine staging words are queued for one credit; with no credit the push is refused. -/
def execSqPush (q : Nat) (s : State) : Out :=
  .next (if q < 8 then
    s.hostWrite 0 (sqBase q + 0x24) 1 fun s =>
      let cr := sqBase q + 0x28
      if s.reg cr = 0 then (s.incSat (sqBase q + 0x2C) 1).occur (evNo 42 0)
      else
        let e := (List.range 9).map fun w => s.reg (sqBase q + 4 * w)
        (s.setQueue q (s.queue q ++ [e])).setReg cr (wd ((s.reg cr).toNat - 1))
  else s)

/-- SUBMIT (R244, R258): writes an IDLE slot's image and arms it; a failure changes nothing. -/
def State.submitTask (s : State) (q i : Nat) (img : List Word) : State :=
  s.armTask q 1 i { s.task i with img := img.mapIdx imageWord }

/-- One queue entry applied: the commands of R255's table from a queue. `none` when the entry must wait (R248). -/
def State.applyEntry (s : State) (ab : Task → State → State) (q : Nat) (e : List Word) : Option State × State :=
  let w0 := e.getD 0 0
  let i := fld w0 11 0
  let done (s : State) : Option State × State := (some s, s)
  match fld w0 31 28 with
  | 1 => done (s.submitTask q i (e.drop 1))
  | 2 => done (s.armTask q 2 i (s.task i))
  | 3 => done (s.disarmTask q i)
  | 4 => s.addTask q i (fld w0 27 26) (fld (e.getD 1 0) 15 0) true
  | 5 => done (s.abortTask ab i)
  | 6 => done (s.clearTask q i)
  | op => done (s.cmdFail 1 q op i)

/-- The head of queue `q` is applied; then its credit returns and it counts as applied (R258). -/
def State.serveQueue (s : State) (ab : Task → State → State) (q : Nat) : Bool × State :=
  match s.queue q with
  | [] => (false, s)
  | e :: l =>
    match s.applyEntry ab q e with
    | (none, s) => (false, s)
    | (some s, _) =>
      let s := s.setQueue q l
      let s := s.setReg (sqBase q + 0x28) (wd ((s.reg (sqBase q + 0x28)).toNat + 1))
      let s := s.incWrap (sqBase q + 0x30) 1
      (true, { s with ttb := { s.ttb with lastQueue := q } })


/-- The first of a list of sources that can be served is. -/
def serveFirst (serve : Nat → State → Bool × State) : List Nat → State → State
  | [], s => s
  | x :: l, s => let r := serve x s; if r.1 then r.2 else serveFirst serve l r.2

/-- Up to `n` of a list of sources are served; the answer gives what is left of `n`. -/
def serveUpTo (serve : Nat → State → Bool × State) : List Nat → Nat → State → Nat × State
  | [], n, s => (n, s)
  | _, 0, s => (0, s)
  | x :: l, n + 1, s =>
    let r := serve x s
    if r.1 then serveUpTo serve l n r.2 else serveUpTo serve l (n + 1) r.2

/-- Completions wait in HOLD: each is offered, in ascending task index, as far as this cycle of the matching store goes (R247, R248). -/
def State.matchHolds (s : State) : State :=
  let holds := (Tab.keys s.ttb.tasks).filter fun i => (s.task i).st = 4
  let r := serveUpTo (fun i s => s.offerCompletion i) holds (8 - s.ttb.matchUsed) s
  r.2.matchDone (8 - s.ttb.matchUsed - r.1) 0

/-- TASK_COMPLETE (R254, R272): in the cycle after the executor's end the outcome is recorded, the charge is settled with meter reading `m`,
`TASK_FAIL` occurs on FAILED and `TASK_OUT[OUT]` pulses if OUT_EN; the completion is offered to the matching store, which stands still with the
fast clocks, and the task waits in HOLD for it. -/
def execTaskComplete (i m : Nat) (s : State) : Out :=
  let t := s.task i
  .next (match t.ended with
    | none => s
    | some (o, noop) =>
      if t.st = 3 then
        let s := s.passTo (t.endAt + 1)
        let s := match s.bur.runs.find? fun w => !w.direct ∧ w.slot = i with
          | some w => s.settle w (t.endM.getD m)
          | none => s
        let s := s.setTask i { s.task i with st := 4, outcome := o, noop := noop, ended := none, endM := none }
        let s := if o = 4 then s.occur (evNo 42 6) else s
        let s := if bit (t.word 0) 18 then s.occur (evNo 42 (16 + fld (t.word 0) 15 12)) else s
        if s.ctl.clocks then (s.matchOpen 0).matchHolds else s
      else s)

/-- `k` indices in round robin, starting one after `last`. -/
def roundRobin (k last : Nat) : List Nat := (List.range k).map fun j => (last + 1 + j) % k

/-- The queue whose head the matching store takes next: the first in round robin with an entry that does not have to wait (R258). -/
def State.queueTurn (s : State) (ab : Task → State → State) : Option Nat :=
  (roundRobin 8 s.ttb.lastQueue).find? fun q => (s.serveQueue ab q).1

/-- TASK_SUBMIT (R258): the SUBMIT entry at the head of queue `q` is taken, if it is that queue's turn: one entry a cycle from all the queues
together. -/
def execTaskSubmit (q : Nat) (s : State) : Out :=
  .next (match s.queue q with
    | e :: _ =>
      if fld (e.getD 0 0) 31 28 = 1 ∧ s.ctl.clocks ∧ s.queueTurn (fun _ s => s) = some q then
        ((s.matchOpen 6).serveQueue (fun _ s => s) q).2.matchDone 1 7
      else s
    | [] => s)

/-- One cycle of the matching store (R247), or what is left of one: completions in ascending task index, then operand ports from one after the
port served first last time, up to 8 in all with what the cycle has taken, and one queue entry. Delay-list firings arrive by
`DELAY_ENTRY_FIRE`. -/
def State.matchCycle (s : State) (ab : Task → State → State) : State :=
  let s := s.matchOpen (if s.ttb.matchAt = s.cycle ∧ s.ttb.matchNext < 7 then s.ttb.matchNext else 0)
  let s := if s.ttb.matchNext = 0 then s.matchHolds else s
  let left := 8 - s.ttb.matchUsed
  let ports := if s.ttb.matchNext ≤ 5 then
      (roundRobin 128 s.ttb.lastPort).filter fun p => s.reg (ttbBase + 0x200 + 4 * p) ≠ 0 else []
  let first := if left = 0 then none else ports.find? fun p => (s.servePort p).1
  let r := serveUpTo (fun p s => s.servePort p) ports left s
  let s := r.2.matchDone (left - r.1) 6
  let s := match first with
    | some p => { s with ttb := { s.ttb with lastPort := p } }
    | none => s
  let s := if 0 < r.1 ∧ s.ttb.matchNext = 6 then serveFirst (fun q s => s.serveQueue ab q) (roundRobin 8 s.ttb.lastQueue) s else s
  s.matchDone 0 7

/-! ### Delay lists (R259 to R261) -/

/-- The fast clocks run and no Recess exit is in progress: until exit completes, entries whose time passes are LATE (R44, R260). -/
def State.awake (s : State) : Bool := s.ctl.clocks && s.ctl.recess != .locking && s.ctl.recess != .fine

/-- The entries of delay list `b`, in firing order. -/
def State.dlist (s : State) (b : Nat) : List DlEntry := Tab.get (fun _ => []) s.ttb.lists b

/-- `s` with them replaced; `DL_STAT`'s count, `DL_NEXT` and BUSY follow. -/
def State.setDlist (s : State) (b : Nat) (l : List DlEntry) : State :=
  let s := { s with ttb := { s.ttb with lists := Tab.set (fun _ => []) s.ttb.lists b l } }
  let s := s.setF (dlBase b + 0x5C) 10 0 l.length
  let s := s.setTime4 (dlBase b + 0x70) (match l with | [] => 0 | e :: _ => e.time)
  s.setB (dlBase b + 0xC) 0 (!l.isEmpty)

/-- Units of 2^-16 ns in a Timetable tick: 10 ns, or 100 ns with the fast clocks stopped. -/
def State.tickUnits (s : State) : Nat := if s.ctl.clocks then 655360 else 6553600

/-- The late record of list `b` (R259, R44): tag, whether it ran, programmed and actual time. -/
def State.lateNote (s : State) (b : Nat) (e : DlEntry) (actual : Nat) : State :=
  let s := s.setReg (dlBase b + 0x80) (wd (2 ^ 31 + (bit e.action 29).toNat * 2 ^ 30 + e.tag))
  (s.setTime4 (dlBase b + 0x90) e.time).setTime4 (dlBase b + 0xA0) actual

/-- A late entry of list `b` is counted, and `LATE` occurs: with the fast clocks stopped, when they return (R260). -/
def State.lateCount (s : State) (b : Nat) : State :=
  let s := s.incSat (dlBase b + 0x64) 1
  if s.ctl.clocks then s.occur (evNo 42 2) else { s with ttb := { s.ttb with lateDue := true } }

/-- A late entry with its record. -/
def State.lateRecord (s : State) (b : Nat) (e : DlEntry) (actual : Nat) : State := (s.lateNote b e actual).lateCount b

/-- The result of an INSERT in `DL_STAT.LAST`. -/
def State.dlLast (s : State) (b last : Nat) : State := s.setF (dlBase b + 0x5C) 31 28 last

/-- An entry placed after every entry with a time not later than its own (R259). -/
def dlPlace (e : DlEntry) : List DlEntry → List DlEntry
  | [] => [e]
  | f :: l => if f.time ≤ e.time then f :: dlPlace e l else e :: f :: l

/-- INSERT of the staged entry (R259): FULL, BAD, LATE (discarded, or fired at the next tick, whose time its late record takes), or INSERTED. -/
def State.dlInsert (s : State) (b : Nat) : State :=
  let a := dlBase b
  let act := s.reg (a + 0x50)
  let e : DlEntry := { time := s.time4 (a + 0x40), action := act, tag := s.getF (a + 0x54) 15 0, late := false }
  let l := s.dlist b
  if 1024 ≤ l.length then ((s.dlLast b 4).incSat (a + 0x68) 1).occur (evNo 42 3)
  else if !(s.tbSrc b).counting ∨ fld act 31 30 = 0 ∨ fld act 31 30 = 3 then s.dlLast b 5
  else if e.time ≤ s.tbNow b + s.tickUnits then
    if bit act 29 then ((s.setDlist b (dlPlace { e with late := true, slept := true } l)).dlLast b 3).lateCount b
    else (s.dlLast b 2).lateRecord b e (s.tbNow b)
  else (s.setDlist b (dlPlace e l)).dlLast b 1

/-- Removed entries that were due and had not fired no longer are. -/
def State.clampDue (s : State) (b : Nat) : State :=
  let d := Tab.get (fun _ => 0) s.ttb.due b
  { s with ttb := { s.ttb with due := Tab.set (fun _ => 0) s.ttb.due b (min d (s.dlist b).length) } }

/-- A delay-list command write of page `TTB[2 + b]`; the pages lie in the always-on domain. -/
def State.dlCmd (s : State) (b : Nat) (v : Word) (k : State → State) : State :=
  if b < 4 then s.hostWrite 0 (dlBase b + 0x58) v k else s

/-- DL_INSERT (R259): the staged entry of list `b` is placed, or refused. -/
def execDlInsert (b : Nat) (s : State) : Out := .next (s.dlCmd b 1 fun s => s.dlInsert b)

/-- DL_CANCEL (R261): every unfired entry with the tag in `DL_TAG` goes; `DL_CANCELLED` gives their number. -/
def execDlCancel (b : Nat) (s : State) : Out :=
  .next (s.dlCmd b 2 fun s =>
    let tag := s.getF (dlBase b + 0x54) 15 0
    let l := s.dlist b
    let keep := l.filter fun e => e.tag ≠ tag
    ((s.setDlist b keep).setReg (dlBase b + 0x60) (wd (l.length - keep.length))).clampDue b)

/-- DL_CANCEL_ALL (R261): the list empties. -/
def execDlCancelAll (b : Nat) (s : State) : Out :=
  .next (s.dlCmd b 4 fun s =>
    let l := s.dlist b
    ((s.setDlist b []).setReg (dlBase b + 0x60) (wd l.length)).clampDue b)

/-- How many entries at the head of list `b` are due at its time base's present time, or run late (R260). -/
def State.dueCount (s : State) (b : Nat) : Nat :=
  ((s.dlist b).takeWhile fun e => e.late || decide (e.time ≤ s.tbNow b)).length

/-- With the fast clocks stopped, or in a Recess exit, the due entries without LATE_OK are discarded, and those with it wait for the fast clocks
(R44, R260); each is counted. -/
def State.lateStopped (s : State) (b : Nat) : State :=
  let l := s.dlist b
  let n := s.dueCount b
  let new := (l.take n).filter fun e => !e.late
  let keep := ((l.take n).filter fun e => e.late || bit e.action 29).map fun e => { e with late := true, slept := e.slept || !e.late }
  let s := s.setDlist b (keep ++ l.drop n)
  (new.foldl (fun s e => if bit e.action 29 then s.lateCount b else s.lateRecord b e (s.tbNow b)) s).clampDue b

/-- The late entries that run do so at this tick, and their late records carry its time (R259, R260). -/
def State.lateRun (s : State) (b : Nat) : State :=
  let l := s.dlist b
  if l.any (·.slept) then
    let s := (l.filter (·.slept)).foldl (fun s e => s.lateNote b e (s.tbNow b)) s
    s.setDlist b (l.map fun e => { e with slept := false })
  else s

/-- What a Timetable tick does to list `b` (R260): due entries become ready to fire. -/
def State.dlTick (s : State) (b : Nat) : State :=
  if !(s.tbSrc b).counting then s
  else if s.awake then
    let s := s.lateRun b
    { s with ttb := { s.ttb with due := Tab.set (fun _ => 0) s.ttb.due b (s.dueCount b) } }
  else s.lateStopped b

/-- TIMETABLE_TICK (R260): every 10 ns, or every 100 ns with the fast clocks stopped, the entries of the four lists that are due become ready to
fire. -/
def execTimetableTick (s : State) : Out :=
  .next ([0, 1, 2, 3].foldl State.dlTick (s.toGrid 4 s.tickCycles))

/-- The fast clocks return: the `LATE` of entries that fell due while they stood still occurs (R260). -/
def State.lateBack (s : State) : State :=
  if s.ttb.lateDue then State.occur { s with ttb := { s.ttb with lateDue := false } } (evNo 42 2) else s

/-- DELAY_ENTRY_FIRE (R260, R248): the head of list `b`, if it is due, fires, one entry of a list a cycle: an ADD arrival, in its place in R247's
order, or `DL_FIRE[b]`. An ADD that would saturate stays at the head; one whose input is NONE counts as fired and fails with cause INPUT. -/
def execDelayEntryFire (b : Nat) (s : State) : Out :=
  let d := Tab.get (fun _ => 0) s.ttb.due b
  .next (if d = 0 ∨ 4 ≤ b ∨ !s.awake then s else
    let s := s.passTo (Tab.get (fun _ => 0) s.ttb.fired b)
    match s.dlist b with
    | [] => s
    | e :: l =>
      let gone (s : State) : State :=
        let s := (s.setDlist b l).incWrap (dlBase b + 0x6C) 1
        { s with ttb := { s.ttb with
          due := Tab.set (fun _ => 0) s.ttb.due b (d - 1), fired := Tab.set (fun _ => 0) s.ttb.fired b (s.cycle + 1) } }
      if fld e.action 31 30 = 2 then (gone s).occur (evNo 42 (8 + b))
      else
        let i := fld e.action 11 0
        let n := fld e.action 13 12
        if (s.task i).kind n = 0 then (gone s).cmdFail 4 (11 + b) 4 i
        else
          let s := s.matchOpen (1 + b)
          let r := s.arrive [(i, n, 1)]
          if r.1 then (gone r.2).matchDone 1 (2 + b) else r.2)

/-! ### Losses (R262) -/

/-- A run of slot `i` that has no slot any more is settled when it ends, as a direct start's is. -/
def State.orphanRun (s : State) (i : Nat) : State :=
  match s.bur.runs.find? fun w => !w.direct ∧ w.slot = i with
  | none => s
  | some w =>
    if (s.task i).ended.isSome then
      let r := s.meter none
      r.2.settle w r.1
    else { s with bur := { s.bur with runs := s.bur.runs.map fun x => if x = w then { w with direct := true, slot := 0 } else x } }

/-- The slots and ports are lost, with the records of the operand counts and pending pulses discarded (R262, R427). -/
def State.slotsClear (s : State) (cause : Nat) : State :=
  let s := ((Tab.keys s.ttb.tasks).filter fun i => (s.task i).st = 3).foldl State.orphanRun s
  let n := (s.ttb.tasks.map fun e => e.2.cnt.sum).sum
  let s := s.resync cause 2 42 0 n
  let s := (List.range 128).foldl (fun s p =>
    let a := ttbBase + 0x200 + 4 * p
    (s.resync cause 4 42 p (s.reg a).toNat).setReg a 0) s
  { s with ttb := { s.ttb with tasks := [] } }

/-- The queued entries are lost, with their records, and all credits are restored (R262, R427). -/
def State.queuesClear (s : State) (cause : Nat) : State :=
  (List.range 8).foldl (fun s q =>
    ((s.resync cause 3 42 q (s.queue q).length).setQueue q []).setReg (sqBase q + 0x28) 256) s

/-- The soft reset of `TTB[0]` (R262): every task in RUN is aborted, and the slots and ports are lost. -/
def State.slotsReset (s : State) (ab : Task → State → State) : State :=
  (((Tab.keys s.ttb.tasks).filter fun i => (s.task i).st = 3).foldl (fun s i => s.abortTask ab i) s).slotsClear 1

/-- The soft reset of `TTB[2 + b]` (R262): its list empties, with the record of its entries. -/
def State.dlistReset (s : State) (b : Nat) : State :=
  ((s.resync 1 17 42 b (s.dlist b).length).setDlist b []).clampDue b

/-- `PG_STAT.BUSY` of `TTB[0]`: a task is in RUN. -/
def State.ttbBusy (s : State) : Bool := s.ttb.tasks.any fun e => e.2.st = 3

/-- The registers of the Timetable that show its slots and lists. -/
def State.ttbView (s : State) (a : Nat) : Option Word :=
  let t := s.task (s.getF (ttbBase + 0x40) 11 0)
  let o := a - ttbBase
  if a < ttbBase ∨ ttbBase + 0x1000 ≤ a then none
  else if o = 0xC then some (setBit (s.reg a) 0 s.ttbBusy)
  else if 0x44 ≤ o ∧ o ≤ 0x60 then some (t.word ((o - 0x44) / 4))
  else if o = 0x64 then some t.stat
  else if o = 0x68 then some (wd (t.counter 1 * 65536 + t.counter 0))
  else if o = 0x6C then some (wd (t.counter 3 * 65536 + t.counter 2))
  else if o = 0x80 then some (wd ((Tab.keys s.ttb.tasks).filter fun i => (s.task i).st = 2).length)
  else none

end Sys2Proof.Machine
end

