-- ==== Sys2Proof/Machine/Flow.lean ====
section
/-! DEFINITION. The flow services (14_flow_services.md): report cards, flow steps, insertions, the datalog and handler signalling. -/

namespace Sys2Proof.Machine

/-- `s` with the flow services' state replaced. -/
def State.setFlow (s : State) (f : Flow) : State := { s with flw := f }

/-- The page and the card of a site. -/
def flwSite (st : Nat) : Nat := 0x0B01000 + st / 32 * 0x1000
def card (st : Nat) : Nat := flwSite st + 0x400 + 64 * (st % 32)

/-- STATE of a site's card: 0 EMPTY, 1 OPEN, 2 BINNED. -/
def State.cardState (s : State) (st : Nat) : Nat := s.getF (card st) 31 30

/-! ### Datalog (R295, R296) -/

/-- The live condition of `DLOG_FULL`: under FULL = WAIT the writer stalls on a full ring (R295). -/
def State.dlogFull (s : State) : State :=
  s.setLive (evNo 44 3) (!(s.getB (flwBase + 0x74) 1) && !s.flw.queue.isEmpty && s.ringFull .dlog)

/-- A record is lost: counted, pending, and an event at the first loss after a written record or a pointer reset (R169, R295). -/
def State.dlogLost (s : State) (seqno : Nat) : State :=
  let f := s.flw
  let f' := { f with lost := f.lost + 1, lostSeq := if f.lost = 0 then seqno else f.lostSeq, quiet := false }
  let s := (s.setFlow f').inc64 (flwBase + 0x78) 1
  if f.quiet then s.occur (evNo 44 2) else s

/-- A record of `kind` for site `st` with words 2 to 11: it takes the next SEQNO, the insertion and the TB0 time, and enters the
queue of 512, or is lost (R295, R296). -/
def State.dlogPut (s : State) (kind st ins : Nat) (body : List Word) : State :=
  if !(s.getB (flwBase + 0x74) 0) then s
  else
    let f := s.flw
    let fl := s.stampFlags
    let n := f.seqno % 65536
    let w0 := wd (kind * 2 ^ 28 + st * 2 ^ 22 + fl.1.toNat * 2 ^ 21 + fl.2.toNat * 2 ^ 20 + n)
    let r := [w0, wd ins] ++ (List.range 10).map (fun i => body.getD i 0) ++ timeWords (s.tbNow 0)
    let s := s.setFlow { f with seqno := f.seqno + 1 }
    if 512 ≤ f.queue.length then s.dlogLost n
    else (s.setFlow { s.flw with queue := f.queue ++ [r] }).dlogFull

/-- One record goes into the ring, at most one per two fabric cycles (R295); `none` while the writer waits at the FLW port. -/
def State.dlogOne (s : State) (r : List Word) : Option State :=
  ((s.passTo s.flw.nextAt).ringPush .dlog (wordBytes r)).map fun s => s.setFlow { s.flw with nextAt := s.cycle + 2 }

/-- The LOST record for the pending losses, stamped now with the flags of its time (R169, R20, R296; log 14). -/
def State.dlogLostRec (s : State) : List Word :=
  let f := s.flw
  let fl := s.stampFlags
  [wd (5 * 2 ^ 28 + fl.1.toNat * 2 ^ 21 + fl.2.toNat * 2 ^ 20 + f.lostSeq), 0, wd f.lost, wd (f.lost / 2 ^ 32), wd f.lostSeq,
   0, 0, 0, 0, 0, 0, 0] ++ timeWords (s.tbNow 0)

/-- DLOG_RECORD_WRITTEN (R295): the oldest record goes into the ring. With losses pending a LOST record goes first, and both need
room (log 14); a full ring stalls the writer under WAIT and loses the record under DROP. -/
def execDlogRecordWritten (s : State) : Out :=
  .next (match s.flw.queue with
    | [] => s
    | r :: l =>
      let f := s.flw
      if s.ringRoom .dlog < (if f.lost = 0 then 1 else 2) then
        if s.getB (flwBase + 0x74) 1 then
          (s.setFlow { f with queue := l }).dlogLost (fld (r.getD 0 0) 15 0)
        else s.dlogFull
      else
        match ((if f.lost = 0 then some s else (s.passTo f.nextAt).dlogOne (s.passTo f.nextAt).dlogLostRec).bind fun s => s.dlogOne r) with
        | none => s
        | some s => (s.setFlow { s.flw with queue := l, lost := 0, quiet := true }).dlogFull)

/-! ### Report cards (R293) -/

/-- The entry that a burst of sequencer `q` with a result gives site `st` (R18, R293). -/
def State.cardEntry (s : State) (q result st : Nat) : State :=
  let a := card st
  let b := siteBlock st
  let fails := s.reg64 (b + 8)
  let sig := Tab.get (fun _ => (0, 0)) (s.seqOf q).sigs st
  let incomplete := decide (3 ≤ result)
  let s := (s.incWrap (a + 8) 1).setReg64 (a + 0x18) fails
  let s := s.setReg64 (a + 0x10) (s.reg64 (a + 0x10) + fails)
  let s := (s.setReg (a + 0x24) (wd sig.2)).incWrap (a + 0x20) sig.2
  let s := s.setF a 20 17 result
  let s := if incomplete then s.setB a 10 true else s
  let s := if s.cardState st = 2 then s.incWrap (a + 0x28) 1 else s
  if s.getB (flwBase + 0x74) 4 then
    s.dlogPut 2 st (s.reg (a + 4)).toNat
      [wd (result * 2 ^ 28 + q * 2 ^ 24 + incomplete.toNat * 2 ^ 23 + s.getF (b + 4) 20 0),
       s.reg (cmpBase + 0x340 + 4 * q), wd fails, wd (fails / 2 ^ 32), s.reg (b + 0x10), s.reg (b + 0x14),
       s.reg (b + 0x18), s.reg (b + 0x1C), wd sig.1, wd sig.2]
  else s

/-- The entries of a burst for its enabled sites (R293). -/
def State.cardEntries (s : State) (q result : Nat) : State :=
  ((List.range 64).filter fun st => (s.seqOf q).enabled st && decide (s.siteSeq st = some q)).foldl
    (fun s st => s.cardEntry q result st) s

/-! ### Steps (R279 to R287) -/

def FlowStep.w (x : FlowStep) (n : Nat) : Word := x.words.getD n 0
def FlowStep.kind (x : FlowStep) : Nat := fld (x.w 0) 31 28
def FlowStep.source (x : FlowStep) : Nat := fld (x.w 0) 27 24
def FlowStep.mask (x : FlowStep) : Nat := (x.w 2).toNat + 2 ^ 32 * (x.w 3).toNat
def FlowStep.limitIdx (x : FlowStep) (st : Nat) : Nat := fld (x.w 0) 15 0 + if bit (x.w 0) 23 then st else 0

/-- The sites a step acts on: OPEN skips OPEN sites, LIMIT and BIN skip sites that are not OPEN, a TDC limit those without an
engine (R285). -/
def State.stepSites (s : State) (x : FlowStep) : List Nat :=
  (bitsOf 64 x.mask).filter fun st =>
    if x.kind = 1 then s.cardState st ≠ 1
    else s.cardState st = 1 && !(x.kind = 2 && x.skip.contains st)

/-- `n` words at field address `a`. -/
def State.words (s : State) (a n : Nat) : List Word := (List.range n).map fun i => wd (s.readLE (a + 4 * i) 4)

/-- The results of a limit on one site. -/
inductive LimitRes where
  | pass | low | high | invalid
  deriving DecidableEq, Repr

def LimitRes.code : LimitRes → Nat
  | .pass => 0 | .low => 1 | .high => 2 | .invalid => 3

/-- Is `v` below `m` × 10^e, exactly (R283)? -/
def belowLimit (v m : Int) (e : Int) : Bool := if 0 ≤ e then v < m * 10 ^ e.toNat else v * 10 ^ (-e).toNat < m

/-- Is `v` equal to `m` × 10^e? -/
def atLimit (v m : Int) (e : Int) : Bool := if 0 ≤ e then v = m * 10 ^ e.toNat else v * 10 ^ (-e).toNat = m

/-- The comparison of R283 of a value with a limit entry. -/
def limitResult (l : List Word) (v : Int) (valid : Bool) : LimitRes :=
  let w (n : Nat) : Word := l.getD n 0
  let lo := sext 64 ((w 0).toNat + 2 ^ 32 * (w 1).toNat)
  let hi := sext 64 ((w 2).toNat + 2 ^ 32 * (w 3).toNat)
  let e := sext 8 (fld (w 4) 15 8)
  if !valid then .invalid
  else if bit (w 4) 31 && (belowLimit v lo e || (atLimit v lo e && !bit (w 4) 29)) then .low
  else if bit (w 4) 30 && (!(belowLimit v hi e || atLimit v hi e) || (atLimit v hi e && !bit (w 4) 28)) then .high
  else .pass

/-- The value of a step's source for site `st`, whether it is valid, and its record flags (R282, R287). -/
def State.limitValue (s : State) (x : FlowStep) (st : Nat) : Int × Bool × Nat :=
  let a := card st
  let entry := s.reg (a + 8) ≠ 0
  match x.source with
  | 0 => (sext 64 (s.reg64 (a + 0x18)), entry && decide (s.getF a 20 17 < 3), 0)
  | 1 => (sext 64 (s.reg64 (a + 0x10)), entry && !s.getB a 10, 0)
  | 2 => ((s.reg (a + 0x24)).toNat, entry && decide (s.getF a 20 17 < 3), 0)
  | _ => let v := Tab.get (fun _ => (0, false, 0)) x.vals st; (sext 64 v.1, v.2.1, v.2.2)

/-- Each site of a LIMIT step with its value, validity, flags, limit entry and result. -/
def State.limitResults (s : State) (x : FlowStep) : List (Nat × Int × Nat × List Word × LimitRes) :=
  (s.stepSites x).map fun st =>
    let l := Tab.get (fun _ => []) x.limits (x.limitIdx st)
    let v := s.limitValue x st
    (st, v.1, v.2.2, l, limitResult l v.1 v.2.1)

/-- The soft bin a limit result charges, 0 on PASS (R281, R289). -/
def limitBin (l : List Word) (r : LimitRes) : Nat :=
  match r with
  | .pass => 0
  | .invalid => fld (l.getD 6 0) 25 16
  | _ => fld (l.getD 6 0) 9 0

/-- The soft bin that a BIN step gives site `st`: the pending one, else PASS_BIN (R290). -/
def State.binOf (s : State) (x : FlowStep) (st : Nat) : Nat :=
  if s.getB (card st) 16 then s.getF (card st) 9 0 else fld (x.w 1) 9 0

/-- The soft bins that a step would assign now (R284). -/
def State.binsUsed (s : State) (x : FlowStep) : List Nat :=
  if x.kind = 3 then (s.stepSites x).map fun st => s.binOf x st
  else if x.kind = 2 then
    ((s.limitResults x).filter fun r => r.2.2.2.2 ≠ .pass && !s.getB (card r.1) 16).map fun r => limitBin r.2.2.2.1 r.2.2.2.2
  else []

/-- The entry of a soft bin, `none` if it cannot be read (R282, R284). -/
def State.binEntry (s : State) (b : Nat) : Option Word :=
  let a := s.reg64 (flwBase + 0x58) + 8 * b
  if s.readOk a 4 then some (wd (s.readLE a 4)) else none

/-- The value that a TDC or MEM step reads for site `st` (R282), with its validity and flags; `none` if the read fails. -/
def State.readValue (s : State) (x : FlowStep) (st : Nat) : Option (Nat × Bool × Nat) :=
  let arg := (x.w 4).toNat + 2 ^ 32 * (x.w 5).toNat
  if x.source = 4 then
    if s.readOk (arg + 8 * st) 8 then some (s.readLE (arg + 8 * st) 8, true, 0) else none
  else
    let e := s.readLE (arg + st) 1 % 64
    let last := s.reg (flwBase + 0x200 + 4 * e)
    let a := s.ringSlot .res (fld last 25 0)
    if !(bit last 31) ∨ Tab.get (fun _ => 0) s.flw.lastRec e ≤ Tab.get (fun _ => 0) s.flw.openAt st then
      some (0, false, 0)
    else if s.readOk a 16 then
      let w3 := wd (s.readLE (a + 12) 4)
      some (s.readLE a 8, bit w3 0, fld w3 7 0)
    else none

/-- The field addresses and lengths that a step of `node` reads, in groups, as far as each group can be read (R279): the node; the engine table;
the limit entries; the values of a TDC or MEM step; the soft bins. -/
def State.stepReads (s : State) (node : Nat) : List (Nat × Nat) :=
  let a := s.reg64 (flwBase + 0x40) + 32 * node
  let x : FlowStep := { node := node, words := s.words a 8 }
  let arg := (x.w 4).toNat + 2 ^ 32 * (x.w 5).toNat
  let lim := x.kind = 2
  let tdc := lim && x.source = 3
  let sites := s.stepSites x
  let limits := (sites.map x.limitIdx).eraseDups.map fun i => s.reg64 (flwBase + 0x50) + 32 * i
  let last (st : Nat) : Nat := s.ringSlot .res (s.getF (flwBase + 0x200 + 4 * (s.readLE (arg + st) 1 % 64)) 25 0)
  let bins := if lim then limits.flatMap fun l => [fld ((s.words l 8).getD 6 0) 9 0, fld ((s.words l 8).getD 6 0) 25 16]
    else fld (x.w 1) 9 0 :: sites.map (s.binOf x)
  let groups : List (List (Nat × Nat)) :=
    [[(a, 32)], if tdc then (bitsOf 64 x.mask).map fun st => (arg + st, 1) else [], if lim then limits.map fun l => (l, 32) else [],
     if tdc then sites.map fun st => (last st, 16) else if lim && x.source = 4 then sites.map fun st => (arg + 8 * st, 8) else [],
     if 2 ≤ x.kind && x.kind ≤ 3 then bins.eraseDups.map fun b => (s.reg64 (flwBase + 0x58) + 8 * b, 4) else []]
  let ok (g : List (Nat × Nat)) : Bool := g.all fun r => s.readOk r.1 r.2
  if s.getF (flwBase + 0x48) 14 0 ≤ node then []
  else (groups.take ((groups.takeWhile ok).length + 1)).flatten

/-- The cause for which the soft bins that a step would assign now end it BAD_NODE: one cannot be read, or has VALID = 0; 0 for none (R284). -/
def State.binCause (s : State) (x : FlowStep) : Nat :=
  let used := s.binsUsed x
  let entry (b : Nat) : Option Word := (x.bins.find? fun p => p.1 = b).bind (·.2)
  if used.any fun b => (entry b).isNone then 6 else if used.any fun b => !(bit ((entry b).getD 0) 31) then 5 else 0

/-- The limit's results follow from the cards, so that they are known in the commit cycle alone (R287). -/
def FlowStep.late (x : FlowStep) : Bool := x.kind = 2 && decide (x.source < 3)

/-- What a step reads when it starts, or the cause for which it ends BAD_NODE (R279, R284). -/
def State.readStep (s : State) (node : Nat) : Except Nat FlowStep :=
  let a := s.reg64 (flwBase + 0x40) + 32 * node
  if s.getF (flwBase + 0x48) 14 0 ≤ node then .error 1
  else if !(s.readOk a 32) then .error 6
  else
    let x : FlowStep := { node := node, words := s.words a 8 }
    if x.kind = 0 ∨ 3 < x.kind ∨ (x.kind = 2 ∧ 4 < x.source) then .error 2
    else if x.kind = 1 then .ok x
    else
      let arg := (x.w 4).toNat + 2 ^ 32 * (x.w 5).toNat
      let tdc := x.kind = 2 && x.source = 3
      let engines := bitsOf 64 x.mask
      if tdc && !(engines.all fun st => s.readOk (arg + st) 1) then .error 6
      else
        let x : FlowStep := if tdc then { x with skip := engines.filter fun st => nbit (s.readLE (arg + st) 1) 7 } else x
        let sites := s.stepSites x
        let idx := if x.kind = 2 then (sites.map x.limitIdx).eraseDups else []
        if idx.any fun i => s.getF (flwBase + 0x4C) 16 0 ≤ i then .error 3
        else
          let la (i : Nat) : Nat := s.reg64 (flwBase + 0x50) + 32 * i
          if idx.any fun i => !(s.readOk (la i) 32) then .error 6
          else
            let limits : Tab (List Word) := idx.map fun i => (i, s.words (la i) 8)
            if limits.any fun p =>
                let e := sext 8 (fld (p.2.getD 4 0) 15 8)
                decide (e < -18) || decide (18 < e) then .error 4
            else
              let vals := if x.kind = 2 ∧ 3 ≤ x.source then sites.map fun st => (st, s.readValue x st) else []
              if vals.any fun p => p.2.isNone then .error 6
              else
                let x : FlowStep := { x with limits := limits, vals := vals.map fun p => (p.1, p.2.getD (0, false, 0)) }
                let bins := if x.kind = 3 then (fld (x.w 1) 9 0) :: s.binsUsed x
                  else limits.flatMap fun p => [fld (p.2.getD 6 0) 9 0, fld (p.2.getD 6 0) 25 16]
                let x : FlowStep := { x with bins := bins.eraseDups.map fun b => (b, s.binEntry b) }
                if !x.late ∧ s.binCause x ≠ 0 then .error (s.binCause x) else .ok x

/-- A step ends (R286): RESULT and IDLE, `STEP_END`, and its charge settled or its task completed. -/
def State.stepEnd (s : State) (result outcome : Nat) (m : Option Nat) : State :=
  let s := s.setFlow { s.flw with step := none }
  let s := (s.setReg (flwBase + 0x8C) (wd result)).setF (flwBase + 0xC) 7 4 0
  ((s.setB (flwBase + 0xC) 0 (!s.flw.queue.isEmpty)).occur (evNo 44 0)).endRun 6 0 outcome (result = 3) m

/-- A step ends BAD_NODE (R284). -/
def State.badNode (s : State) (cause node : Nat) (m : Option Nat) : State :=
  let s := if s.reg (flwBase + 0x90) = 0 then s.setReg (flwBase + 0x90) (wd (cause * 2 ^ 28 + node)) else s
  (s.occur (evNo 44 6)).stepEnd 4 4 m

/-- The executor begins the step of `node`, after admission or at a dispatch (R284, R286). -/
def State.flowBegin (s : State) (node : Nat) : State :=
  let reads := s.stepReads node
  match s.readStep node with
  | .error c => (reads.foldl (fun s r => s.looseRun false r.1 r.2) s).badNode c node none
  | .ok x =>
    let s := s.setFlow { s.flw with step := some { x with reads := reads.flatMap fun r => accesses r.1 r.2 } }
    (((s.setReg (flwBase + 0x8C) 0x10).setF (flwBase + 0xC) 7 4 1)).setB (flwBase + 0xC) 0 true

/-- The executor takes no start: a step runs, its post waits, or a direct start waits for the Bursar (R284, R292). -/
def State.flowBusy (s : State) : Bool :=
  s.flw.step.isSome || s.flw.post.isSome || s.bur.waits.any fun w => w.cls = 6

/-- A direct start waits for the Bursar with its declared energy (R19, R267). -/
def State.waitStart (s : State) (cls unit energy : Nat) : State :=
  { s with bur := { s.bur with waits := s.bur.waits ++ [⟨cls, unit, true, 0, energy, s.cycle⟩] } }

/-- A direct start that still waits is withdrawn without a charge (R271). -/
def State.withdraw (s : State) (cls unit : Nat) : State :=
  { s with bur := { s.bur with waits := s.bur.waits.filter fun w => !(w.cls = cls && w.unit = unit) } }

/-- A direct start of the unit waits for the Bursar. -/
def State.waiting (s : State) (cls unit : Nat) : Bool := s.bur.waits.any fun w => w.cls = cls && w.unit = unit

/-- FLOW_STEP_START (R286): a write of `STEP_CTRL` with START set and ABORT clear; it waits for the Bursar. -/
def execFlowStepStart (s : State) : Out :=
  .next (s.hostWrite 0 (flwBase + 0x88) 1 fun s =>
    if s.flowBusy then s
    else if !(s.startAllowed .flowNode flwBase) then s.denyStart (flwBase + 0x88)
    else s.waitStart 6 0 (s.reg (flwBase + 0x84)).toNat)

/-- An ABORT of the flow executor (R286, R271). -/
def State.flowAbort (s : State) : State :=
  if s.flw.step.isSome then s.stepEnd 2 3 none
  else if s.waiting 6 0 then ((s.withdraw 6 0).setF (flwBase + 0x8C) 3 0 2).occur (evNo 44 0)
  else if s.getF (flwBase + 0x8C) 3 0 = 1 then s.setF (flwBase + 0x8C) 3 0 3
  else s

/-- FLOW_STEP_ABORT (R286): a write of `STEP_CTRL` with ABORT set. -/
def execFlowStepAbort (s : State) : Out := .next (s.hostWrite 0 (flwBase + 0x88) 2 State.flowAbort)

/-! ### Commits (R286, R288 to R294) -/

/-- Under FULL = WAIT a commit needs room in the queue for all `n` records (R286). -/
def State.dlogRoom (s : State) (n : Nat) : Bool :=
  !(s.getB (flwBase + 0x74) 0) || s.getB (flwBase + 0x74) 1 || decide (s.flw.queue.length + n ≤ 512)

/-- The bit of site `st` in its sequencer's `SITE_EN` becomes `b`. -/
def State.putEnable (s : State) (st : Nat) (b : Bool) : State :=
  match s.siteSeq st with
  | none => s
  | some q => s.setB (seqBase q 0 + 0x48 + 4 * (st / 32)) (st % 32) b

/-- A step's commit changes the `SITE_EN` bit of site `st` (R288, R289, R290). -/
def State.siteEnable (s : State) (st : Nat) (b : Bool) : State :=
  (s.putEnable st b).setFlow { s.flw with ens := (if s.flw.enAt = s.cycle then s.flw.ens else []) ++ [(st, b)], enAt := s.cycle }

/-- After a software write of `SITE_EN`: a step's commit in the same cycle comes later (R291). -/
def State.enableAgain (s : State) : State :=
  if s.flw.enAt = s.cycle then s.flw.ens.foldl (fun s e => s.putEnable e.1 e.2) s else s

/-- A post is issued, unless its OP is none: it goes to the matching store in the next cycle (R292). -/
def State.issuePost (s : State) (w : Word) : State :=
  if fld w 31 28 = 0 then s else s.setFlow { s.flw with post := some w, postAt := s.cycle + 1 }

/-- The mask of insertion slot `i`. -/
def insMask (i : Nat) : Nat := flwBase + 0xC0 + 8 * i

/-- Slot `i` is freed. -/
def State.freeSlot (s : State) (i : Nat) : State :=
  (s.setReg (flwBase + 0xA0 + 4 * i) 0).setReg64 (insMask i) 0

/-- The insertion in slot `i` closes (R294): its CLOSE record, `INSERT_DONE`, and the handler sequence or `HND_DONE` at once. -/
def State.closeSlot (s : State) (i : Nat) : State :=
  let mask := s.reg64 (insMask i)
  let sites := bitsOf 64 mask
  let pass := (sites.filter fun st => s.getB (card st) 26).length
  let s := s.dlogPut 6 0 (s.getF (flwBase + 0xA0 + 4 * i) 30 0)
    [wd mask, wd (mask / 2 ^ 32), wd pass, wd (sites.length - pass)]
  let s := s.occur (evNo 44 5)
  if s.getB (flwBase + 0x98) 31 ∧ !sites.isEmpty then
    let words := sites.map (Tab.get (fun _ => 0) s.flw.hnd)
    s.setFlow { s.flw with handler := s.flw.handler ++ [(i, words, s.cycle + 1)] }
  else (s.occur (evNo 44 7)).freeSlot i

/-- Slots that are busy, not yet in the handler sequence, and have no OPEN site left once `sites` are binned (R294). -/
def State.closing (s : State) (sites : List Nat) : List Nat :=
  (List.range 4).filter fun i =>
    s.getB (flwBase + 0xA0 + 4 * i) 31 && !(s.flw.handler.any fun h => h.1 = i) &&
    (bitsOf 64 (s.reg64 (insMask i))).all fun st => decide (s.cardState st ≠ 1) || sites.contains st

/-- The step in progress has its tables, and time has passed for their reads through the FLW port (R237); `none` while they wait at the port. -/
def State.stepRead (s : State) : Option State :=
  match s.flw.step with
  | none => some s
  | some x => (s.portEach 3 false x.reads).map fun s => s.setFlow { s.flw with step := some { x with reads := [] } }

/-- FLOW_OPEN_COMMIT (R288). -/
def execFlowOpenCommit (s : State) : Out :=
  let s := s.stepRead.getD s
  .next (match s.flw.step with
    | none => s
    | some x =>
      if x.kind ≠ 1 ∨ !x.reads.isEmpty then s
      else match (List.range 4).find? fun i => !(s.getB (flwBase + 0xA0 + 4 * i) 31) with
        | none => (((s.occur (evNo 44 4)).issuePost (x.w 7))).stepEnd 1 1 none
        | some i =>
          let sites := s.stepSites x
          let clash := decide (sites.length < (bitsOf 64 x.mask).length)
          if !(s.dlogRoom (if sites.isEmpty then 2 else 1)) then s
          else
            let ins := (s.reg (flwBase + 0x94)).toNat + 1
            let mask := ofBits sites
            let s := (s.setReg (flwBase + 0x94) (wd ins)).setReg (flwBase + 0xA0 + 4 * i) (wd (2 ^ 31 + ins % 2 ^ 31))
            let s := s.setReg64 (insMask i) mask
            let s := sites.foldl (fun s st =>
              let s := (List.range 16).foldl (fun s w => s.setReg (card st + 4 * w) 0) s
              let s := ((s.setReg (card st) (wd (2 ^ 30))).setReg (card st + 4) (wd ins)).siteEnable st true
              let s := (s.setB (flwSite st + 0x40) (st % 32) true).setB (flwSite st + 0x44) (st % 32) false
              s.setFlow { s.flw with openAt := Tab.set (fun _ => 0) s.flw.openAt st s.flw.recs }) s
            let s := s.dlogPut 1 0 ins [wd mask, wd (mask / 2 ^ 32), wd x.node, wd i]
            let s := if clash then s.occur (evNo 44 4) else s
            let s := s.issuePost (if clash then x.w 7 else x.w 6)
            let s := if sites.isEmpty then s.closeSlot i else s
            s.stepEnd 1 1 none)

/-- The level of LIMIT records of a step: 0 none, 1 fails, 2 all (R280, R295). -/
def State.dlogLevel (s : State) (x : FlowStep) : Nat :=
  let n := fld (x.w 0) 21 20
  if n = 0 then min 2 (s.getF (flwBase + 0x74) 3 2) else n - 1

/-- FLOW_LIMIT_COMMIT (R287, R289): a bin that the cards of this cycle call for may still end the step BAD_NODE. -/
def execFlowLimitCommit (s : State) : Out :=
  let s := s.stepRead.getD s
  .next (match s.flw.step with
    | none => s
    | some x =>
      if x.kind ≠ 2 ∨ !x.reads.isEmpty then s
      else
        let rs := s.limitResults x
        let lvl := s.dlogLevel x
        let written := rs.filter fun r => lvl = 2 || (lvl = 1 && r.2.2.2.2 ≠ .pass)
        if !(s.dlogRoom written.length) then s
        else if s.binCause x ≠ 0 then s.badNode (s.binCause x) x.node none
        else
          let s := rs.foldl (fun s r =>
            let st := r.1
            let a := card st
            let l := r.2.2.2.1
            let res := r.2.2.2.2
            let b := limitBin l res
            let s := s.incWrap (a + 0x2C) 1
            let s := if res = .pass then s else
              let s := s.incWrap (a + 0xC) 1
              let s := if res = .invalid then s.setB a 28 true else s.setB a 29 true
              let s := if s.getB a 16 then s else (s.setF a 9 0 b).setB a 16 true
              if bit (x.w 0) 22 then (s.siteEnable st false).setB a 27 true else s
            if lvl = 2 ∨ (lvl = 1 ∧ res ≠ .pass) then
              let v := unsext 64 r.2.1
              s.dlogPut 3 st (s.reg (a + 4)).toNat
                [wd (res.code * 2 ^ 28 + x.source * 2 ^ 24 + fld (l.getD 4 0) 15 8 * 2 ^ 16 + x.node),
                 wd (x.limitIdx st), l.getD 5 0, wd v, wd (v / 2 ^ 32), l.getD 0 0, l.getD 1 0, l.getD 2 0, l.getD 3 0,
                 wd (r.2.2.1 * 2 ^ 24 + b)]
            else s) s
          (s.issuePost (if rs.all fun r => r.2.2.2.2 = .pass then x.w 6 else x.w 7)).stepEnd 1 1 none)

/-- FLOW_BIN_COMMIT (R290, R294). -/
def execFlowBinCommit (s : State) : Out :=
  let s := s.stepRead.getD s
  .next (match s.flw.step with
    | none => s
    | some x =>
      if x.kind ≠ 3 ∨ !x.reads.isEmpty then s
      else
        let sites := s.stepSites x
        if !(s.dlogRoom (sites.length + (s.closing sites).length)) then s
        else
          let s := sites.foldl (fun s st =>
            let a := card st
            let b := s.binOf x st
            let e := ((x.bins.find? fun p => p.1 = b).bind (·.2)).getD 0
            let hard := fld e 20 16
            let c := setFld (setFld (setFld (setFld (setFld (s.reg a) 31 30 2) 26 26 (bit e 30).toNat) 25 21 hard) 9 0 b) 16 16 0
            let s := (s.setReg a c).setTime4 (a + 0x30) (s.tbNow 0)
            let s := s.incWrap (flwBase + 0x100 + 4 * hard) 1
            let s := s.siteEnable st false
            let s := (s.setB (flwSite st + 0x40) (st % 32) false).setB (flwSite st + 0x44) (st % 32) true
            let s := s.setFlow { s.flw with hnd := Tab.set (fun _ => 0) s.flw.hnd st (fld e 15 0) }
            let s := s.dlogPut 4 st (s.reg (a + 4)).toNat
              [wd ((bit e 30).toNat * 2 ^ 31 + hard * 2 ^ 21 + b), wd (fld e 15 0), wd x.node, s.reg (a + 0xC), s.reg (a + 8)]
            s.occur (evNo (45 + st / 32) (st % 32))) s
          let s := (s.closing []).foldl (fun s i => s.closeSlot i) s
          (s.issuePost (x.w 6)).stepEnd 1 1 none)

/-- The post that waits for the matching store. -/
def State.setPost (s : State) (p : Option Word) : State := s.setFlow { s.flw with post := p }

/-- A post that has left its site is the command that the matching store takes; an ADD that would saturate an input waits on. -/
def State.postIn (s : State) (w : Word) : State :=
  let i := fld w 11 0
  match fld w 31 28 with
  | 2 => s.armTask 10 2 i (s.task i)
  | 4 =>
    let r := s.addTask 10 i (fld w 27 26) 1 true
    match r.1 with
    | some t => t
    | none => r.2.setPost (some w)
  | op => s.cmdFail 1 10 op i

/-- FLOW_POST (R292, R247): in the cycle after commit the post enters the matching store as the one command that it takes in a cycle. -/
def execFlowPost (s : State) : Out :=
  .next (match s.flw.post with
    | none => s
    | some w => ((((s.passTo s.flw.postAt).matchOpen 6).matchDone 1 7).setPost none).postIn w)

/-- HANDLER_SITE_STEP (R297): the next site of the handler sequence in progress signals its handler word, or, GAP µs after the last
one, the sequence ends and its slot is freed. -/
def execHandlerSiteStep (s : State) : Out :=
  .next (match s.flw.handler with
    | [] => s
    | (i, words, at0) :: l =>
      let s := s.passTo at0
      match words with
      | [] =>
        let s := (s.occur (evNo 44 7)).freeSlot i
        let l := match l with
          | (j, js, _) :: r => (j, js, s.cycle) :: r
          | [] => []
        s.setFlow { s.flw with handler := l }
      | w :: rest =>
        let s := (bitsOf 16 w).foldl (fun s k => s.occur (evNo 44 (16 + k))) s
        s.setFlow { s.flw with handler := (i, rest, s.cycle + 800 * s.getF (flwBase + 0x98) 15 0) :: l })

/-! ### Clears (R298) -/

/-- The cards of site page `h` are cleared, with their RESYNC record. -/
def State.cardsClear (s : State) (h cause : Nat) : State :=
  let p := 0x0B01000 + 0x1000 * h
  let n := s.sum64 (p + 0x410) 32 64
  ((s.clearWords p 0x40 0x48).clearWords p 0x400 0xC00).resync cause 10 (45 + h) 0 n

/-- The insertion slots, the datalog queue and its pointers are cleared, with the RESYNC record of the queued records. -/
def State.flowClear (s : State) (cause : Nat) : State :=
  let n := s.flw.queue.length
  let s := (List.range 4).foldl (fun s i => s.freeSlot i) s
  let s := s.setFlow { s.flw with queue := [], seqno := 0, lost := 0, quiet := true, handler := [], post := none }
  let s := ((s.setReg RecRing.dlog.regs.wr 0).setReg RecRing.dlog.regs.rd 0).ringThresh .dlog
  s.dlogFull.resync cause 11 44 0 n

end Sys2Proof.Machine
end

