-- ==== Sys2Proof/Machine/Sequencer.lean ====
section
/-! DEFINITION. The pattern sequencer (06_segments_sequencer.md) and the judging of granules (07_decanters_streaming.md, R151 to R155):
starts, jumps, commit points, output, underruns and the ends of bursts. -/

namespace Sys2Proof.Machine

/-! ### State and results -/

/-- Sequencer `q` enters a state of the burst table: `PG_STAT` and `BURST_STAT.STATE` follow (R125). -/
def State.seqState (s : State) (q st : Nat) : State :=
  let a := seqBase q 0
  let s := s.setSeq q { s.seqOf q with st := st }
  ((s.setF (a + 0xC) 7 4 st).setB (a + 0xC) 0 (st ≠ 0)).setF (a + 0x60) 11 8 st

/-- A jump request is discarded with an outcome (R120, R122). -/
def State.jumpDrop (s : State) (q : Nat) : State :=
  (s.incSat (seqBase q 0 + 0x74) 1).occur (evNo (5 + q) 4)

/-- The request in the slot is discarded with an outcome (R122). `JMP_STAT` shows that of the latest request: the outcome of one discarded since
stays, and only PENDING goes. -/
def State.slotDrop (s : State) (q outcome : Nat) : State :=
  let x := s.seqOf q
  let a := seqBase q 0 + 0x6C
  let latest := s.getF a 2 0 = 1 ∨ s.getF a 2 0 = 2
  match x.slot with
  | none => s
  | some _ =>
    let s := s.setSeq q { x with slot := none }
    (if latest then s.setF a 3 0 outcome else s.setB a 3 false).jumpDrop q

/-- A descriptor error: `ERR_INFO` keeps the first, `DESC_ERR` occurs (R124). -/
def State.descErr (s : State) (q cause i : Nat) : State :=
  let a := seqBase q 0 + 0x9C
  let s := if s.reg a = 0 then s.setReg a (wd (cause * 2 ^ 24 + i)) else s
  s.occur (evNo (5 + q) 7)

/-- The Timetable outcome of a burst result (R254). -/
def burstOutcome (result : Nat) : Nat := if result ≤ 3 then result else 4

/-- The burst has left PARK, ADMIT or ARMED: RESULT, the sites' entries, `BURST_END`, the charge (R130). -/
def State.burstEnd (s : State) (q result : Nat) (m : Option Nat) : State :=
  let s := (s.setF (seqBase q 0 + 0x60) 3 0 result).cardEntries q result
  let noop := s.getB (seqBase q 0 + 0x60) 4
  let s := (s.seqState q 0).retainAll q
  (s.occur (evNo (5 + q) 1)).endRun 1 q (burstOutcome result) noop m

/-- A burst leaves ADMIT or ARMED without output (R125, R130, R167): its BURST_END record has no FAIL record and no vector. -/
def State.endNoOutput (s : State) (q result : Nat) : State :=
  let s := s.withdraw 1 q
  let s := if s.getB (cmpBase + 0x40) 0 then
      { s with cmp := { s.cmp with ends := s.cmp.ends ++ [burstEndRec q result (s.burstNum q) 0 0] } } else s
  s.burstEnd q result (some 0)

/-- The underrun record of sequencer `q` (07_decanters_streaming.md, "Underrun record"), and `UNDERRUN` (R146, R152). -/
def State.underrunRec (s : State) (q cause desk seg voff at0 : Nat) : State :=
  let a := seqBase q 3 + 0x100
  let x := s.seqOf q
  let c := s.ctxOf q
  let fl := s.stampFlags
  let ws := [wd (2 ^ 31 + cause * 2 ^ 28 + q * 2 ^ 24 + desk * 2 ^ 19 + fl.1.toNat * 2 ^ 18 + fl.2.toNat * 2 ^ 17 + c.stack.length),
    wd seg, wd voff, wd (voff / 2 ^ 32), wd x.iter] ++ c.cnt.map wd ++ [wd x.idle, wd c.armed, 0] ++ timeWords (s.tbAt 0 at0)
  ((ws.zipIdx).foldl (fun s p => s.setReg (a + 4 * p.2) p.1) s).occur (evNo (5 + q) 5)

/-! ### Starts (R125, R144 to R146) -/

/-- What admission takes and clears (R114, R118, R125, R128, R157, R166, R172, R178, R187); its descriptor reads are done in the admission cycle
(log 87). `ROWS` and `STAT` of a sequencer whose burst does not capture keep the values of the latest one that did (log 83). -/
def State.seqAdmit (s : State) (q start : Nat) (bell : Bool) : State :=
  let a := seqBase q 0
  let base := s.reg64 (a + 0x40)
  let len := s.getF (a + 0x50) 20 0
  let jmp := (List.range 16).map fun e => s.eff (seqBase q 2 + 0x80 + 4 * e) |> fun w => fld w 19 0
  let desks := s.sourceDesks q
  let stage := s.reg (decBase + 0x100 + 4 * q)
  let old := s.seqOf q
  let x : Seq := {
    st := 1, base := base, len := len, siteEn := s.reg64 (a + 0x48), start := start, bell := bell, bellSel := s.getF (rngBase + 0x200 + 4 * q) 3 0, jmp := jmp
    pin := s.getF (decBase + 0xC0 + 4 * q) 15 0, specG := s.getF (decBase + 0x40) 14 0, desks := desks
    inst := old.inst + 1, run := old.run + 1
    siteCfg := ((List.range 64).filter fun st => s.siteSeq st = some q).map fun st =>
      (st, s.reg (cmpSite st + 0x80 + 4 * (st % 32)))
    idleVec := s.regs.filter fun e => (desks.any fun d => decide (sliceBase d + 0x400 ≤ e.1) && decide (e.1 < sliceBase d + 0x800))
    ecapSel := (List.range 16).map fun i => s.reg (cmpBase + 0x90 + 4 * i)
    cap := { on := s.getB (capSeq q + 8) 31, base := s.reg64 (capSeq q), cfg := s.reg (capSeq q + 8),
             first := (s.reg (capSeq q + 0xC)).toNat, count := (s.reg (capSeq q + 0x10)).toNat,
             desks := (s.seqDesks q).filter fun d => s.getB (cmpBase + 0x300) d }
    stageBase := fld stage 15 0 * 2 ^ 20, stageSize := fld stage 31 16 * 2 ^ 20
    stageLead := s.getF (decBase + 0x140 + 4 * q) 15 0
    descs := (start :: jmp).eraseDups.foldl (fun (m : Tab (List Word)) i =>
      if i < len then Tab.set (fun _ => []) m i (s.readDesc base i) else m) [] }
  let s := ((start :: jmp).eraseDups.filter (· < len)).foldl (fun s i => s.looseRun false (base + 64 * i) 64) s
  let s := s.setSeq q x
  let s := (s.seqState q 1).showFill q
  let s := (s.setCtx q ⟨[0, 0, 0, 0], 0, []⟩).setReg64 (a + 0xB0) 0
  let s := ((s.setReg (a + 0x94) 0).setB (a + 0x60) 4 false).incWrap (cmpBase + 0x340 + 4 * q) 1
  let s := if x.cap.on then (s.setReg (capSeq q + 0x14) 0).setReg (capSeq q + 0x18) 0 else s
  (s.siteReset q).sigAdmit q

/-- The admission set joins the sequencer, with its descriptors (R144). -/
def State.seqWalk (s : State) (q : Nat) : State :=
  let x := s.seqOf q
  let roots := x.start :: x.pinned
  let set := s.walk q x.base x.len (walkFuel x.len) (roots.map fun i => (i, [])) [] []
  let descs := set.foldl (fun (m : Tab (List Word)) i => Tab.set (fun _ => []) m i (s.readDesc x.base i)) x.descs
  let s := (set.filter fun i => Tab.get (fun _ => []) x.descs i = []).foldl (fun s i => s.looseRun false (x.base + 64 * i) 64) s
  s.setSeq q { x with adm := set, descs := descs }

/-- A start of sequencer `q` accepted into ADMIT, or failing at once (R125, R146). A direct start seeks the Bursar's admission once its
first descriptor has passed. -/
def State.seqStart (s : State) (q start : Nat) (bell direct : Bool) : State :=
  let s := s.seqAdmit q start bell
  let x := s.seqOf q
  if x.len ≤ start then (s.descErr q 10 start).endNoOutput q 5
  else
    let c := s.descCause q x.len (Tab.get (fun _ => []) x.descs start)
    if c ≠ 0 then (s.descErr q c start).endNoOutput q 5
    else
      let s := s.seqWalk q
      if s.noFit q then ((s.underrunRec q 4 0 start 0 (s.cycle * 20480)).endNoOutput q 4)
      else
        let s := s.absorbAll q
        if direct then s.waitStart 1 q (s.reg (seqBase q 0 + 0x5C)).toNat else s

/-! ### Jump requests (R119 to R122) -/

/-- The CP of the instance in output, as output stands (R109, R153). -/
def State.cpOf (s : State) (q : Nat) : Nat :=
  let x := s.seqOf q
  match x.cp with
  | some t => t
  | none =>
    let d := Tab.get (fun _ => []) x.descs x.idx
    x.t + (Desc.len d - 6 - x.g) * 32 * s.tsPeriod q (Desc.ts d)

/-- A request registered now is on time for the instance in output: its cycle ends at or before the CP (R110). -/
def State.onTime (s : State) (q : Nat) : Bool :=
  (s.seqOf q).succ.isNone && decide ((s.cycle + 1) * 20480 ≤ s.cpOf q)

/-- `JMP_STAT` shows a request of entry `entry` from `src`, and its outcome (R120). -/
def State.jumpStat (s : State) (q src entry outcome : Nat) : State :=
  s.setReg (seqBase q 0 + 0x6C) (wd (src * 256 + entry * 16 + (s.seqOf q).slot.isSome.toNat * 8 + outcome))

/-- A request registered in RUN that finds the slot empty (R120): on time, deferred, or too late under DROP. -/
def State.jumpTake (s : State) (q entry src : Nat) : State :=
  let a := seqBase q 0
  let x := s.seqOf q
  let x := if src = 0 then { x with jumpReg := some s.cycle } else { x with jumpCor := some (s.cycle, entry) }
  if s.onTime q then ((s.setSeq q { x with slot := some ⟨entry, x.inst⟩ }).jumpStat q src entry 1).repath q
  else if s.getB (a + 0x64) 0 then ((s.setSeq q x).jumpStat q src entry 3).jumpDrop q
  else ((((s.setSeq q { x with slot := some ⟨entry, x.inst + 1⟩ }).jumpStat q src entry 2).incSat (a + 0x70) 1).occur
    (evNo (5 + q) 3)).repath q

/-- A register's request takes the place of the Corridor's of entry `e`, registered in the same cycle, which is discarded BUSY (R120). -/
def State.jumpSwap (s : State) (q entry e : Nat) : State :=
  let x := s.seqOf q
  let x := { x with jumpReg := some s.cycle, jumpCor := none, slot := x.slot.map fun j => { j with entry := entry } }
  (((s.setSeq q x).jumpStat q 1 e 4).jumpDrop q).repath q

/-- A jump request (R120, R122), from a register (0) or the Corridor (1). -/
def State.jumpRequest (s : State) (q entry src : Nat) : State :=
  let x := s.seqOf q
  let drop (outcome : Nat) : State := (s.jumpStat q src entry outcome).jumpDrop q
  let rival : Option Nat := (x.jumpCor.filter fun c => src = 0 && c.1 = s.cycle).map (·.2)
  let ended : Bool := match x.succ with
    | some (.stop _) => true
    | _ => x.park.isSome
  if x.st < 3 then drop 5
  else if x.st = 4 ∨ ended then drop 7
  else match rival with
    | some e => s.jumpSwap q entry e
    | none =>
      if x.slot.isSome ∨ (src = 1 ∧ x.jumpReg = some s.cycle) then drop 4
      else s.jumpTake q entry src

/-- JMP_REQ_WRITE (R119, R120). -/
def execJmpReqWrite (q : Nat) (v : Word) (s : State) : Out :=
  .next (if q < 16 then s.hostWrite 0 (seqBase q 0 + 0x68) v fun s => s.jumpRequest q (fld v 3 0) 0 else s)

/-- A pulse on the JUMP input of sequencer `q` (R119). -/
def State.jumpPulse (s : State) (q : Nat) : State := s.jumpRequest q (s.getF (seqBase q 0 + 0x64) 7 4) 1

/-- A pulse on the WAIT input (R118). -/
def State.waitPulse (s : State) (q : Nat) : State :=
  let x := s.seqOf q
  if x.wait.isSome then s.incSat (seqBase q 0 + 0x98) 1
  else (s.setSeq q { x with wait := some s.cycle }).setReg (seqBase q 0 + 0x94) 1

/-! ### Output (R92 to R101, R151) -/

/-- The symbol of channel `n` in vector `v` of a block (R134); followers take their source channel's. -/
def symbolOf (wide : Bool) (data : List Byte) (n v : Nat) : Nat :=
  let w := if wide then 4 else 2
  let b := w * (8 * v + n % 8)
  (data.getD (b / 8) 0).toNat / 2 ^ (b % 8) % 2 ^ w

/-- What output has made of a granule so far. -/
structure OutAcc where
  edges : List (Nat × ChanEdges)
  jobs : List VecJob := []
  drops : List EdgeDrop := []
  deriving DecidableEq, Repr

/-- The channels that the burst drives: active, on its desks, of enabled sites (R67, R126). -/
def State.burstChannels (s : State) (q : Nat) : List Nat :=
  (s.seqChannels q).filter fun n => (s.seqOf q).enabled (s.chnSite n)

/-- One vector on every channel: `sym` gives the symbols, `real` makes it judged (R93 to R101, R153, R159). -/
def State.outVector (s : State) (q : Nat) (d : Desc) (sym : Nat → Nat) (real : Bool) (t0 voff bvec : Nat)
    (acc : OutAcc) : OutAcc :=
  let x := s.seqOf q
  let ts := Desc.ts d
  let p := s.tsPeriod q ts
  let isM := Desc.endAct d == 4
  let one (r : List (Nat × ChanEdges) × List ChanJob × List EdgeDrop) (e : Nat × ChanEdges) :=
    let w := waveIndex (Desc.wide d) (s.tsWt q ts) (sym e.1)
    let v := s.vectorOf (edgeClass real) e.1 w p t0 e.2
    let mask := isM && bit (s.eff (seqBase q 2 + 0x100 + 32 * Desc.msel d + 4 * (e.1 / 32))) (e.1 % 32)
    (r.1 ++ [(e.1, v.st)], r.2.1 ++ [⟨e.1, w, v.judges, mask⟩],
     r.2.2 ++ v.drops.map fun k => ⟨q, t0, e.1 * 2 ^ 24 + ts * 2 ^ 16 + w * 2 ^ 10 + k.1 * 2 ^ 7 + k.2.2⟩)
  let r := acc.edges.foldl one ([], [], [])
  let job : VecJob := ⟨x.run, x.idx, x.iter, voff, bvec, t0, p, r.2.1, isM, Desc.sigEn d && !Desc.repeats d, Desc.expSig d,
    voff + 1 = 32 * Desc.len d⟩
  { edges := r.1, jobs := if real then acc.jobs ++ [job] else acc.jobs, drops := acc.drops ++ r.2.2 }

/-- The first `k` vectors of a granule. -/
def State.outGranule (s : State) (q : Nat) (d : Desc) (sym : Nat → Nat → Nat) (real : Bool) (t0 voff bvec k : Nat)
    (edges : List (Nat × ChanEdges)) : OutAcc :=
  (List.range k).foldl (fun acc v =>
    s.outVector q d (sym v) real (t0 + v * s.tsPeriod q (Desc.ts d)) (voff + v) (bvec + v) acc) { edges := edges }

/-- The edge engines take what a granule left them; each of its dropped edges counts at the start of its vector (R101). -/
def State.settleEdges (s : State) (r : OutAcc) : State :=
  let s := r.edges.foldl (fun s e => s.setEdges e.1 e.2) s
  s.setDrops (s.sq.drops ++ r.drops)

/-- The block that serves granule `g` of segment `i` on source desk `d`: a locked one, or the head of the path. -/
def Slice.blockFor (b : Slice) (i g : Nat) : Option Block :=
  match b.locked.find? fun k => k.seg = i && k.g = g with
  | some k => some k
  | none =>
    match b.ahead with
    | k :: _ => if k.seg = i ∧ k.g = g then some k else none
    | [] => none

/-- The next positions of the path, at most `n`, as (segment, granule, served by a locked block). -/
def pathPositions (x : Seq) : Nat → List PathInst → List (Nat × Nat × Bool)
  | _, [] => []
  | n, p :: l =>
    let len := Desc.len p.desc
    let here := (List.range (min n (len - p.lo))).map fun k =>
      (p.idx, p.lo + k, decide (p.lo + k < x.unlocked p.idx p.desc))
    here ++ (if n ≤ here.length then [] else pathPositions x (n - here.length) l)

/-- Every source buffer holds 8 granules of the path from the missing one on, or all up to the path's end (R153), which is a HALT or an end
decided at a CP. -/
def State.enough (s : State) (q : Nat) : Bool :=
  let x := s.seqOf q
  let path := s.pathOf q
  let all := pathPositions x 8 path
  let ps := all.filter fun p => !p.2.2
  (decide (8 ≤ all.length) || path.any (·.ends)) && x.desks.all fun d =>
    let l := ((s.slice d).ahead.take ps.length)
    decide (l.length = ps.length) && l.all fun k => !k.bad

/-- The symbol of channel `n` under idle vector `i` (R137): its source channel's nibble, the low two bits with 2-bit symbols. -/
def State.idleSymbol (s : State) (q : Nat) (d : Desc) (n : Nat) : Nat :=
  let x := s.seqOf q
  let w := Tab.get resetValue x.idleVec (sliceBase (s.sourceDesk (n / 8)) + 0x400 + 4 * Desc.idle d)
  let v := fld w (4 * (n % 8) + 3) (4 * (n % 8))
  if Desc.wide d then v else v % 4

/-- How many vectors of a granule from `t` are output before an abort's boundary (R128). -/
def vectorsBefore (abort : Option Nat) (t p : Nat) : Nat :=
  match abort with
  | none => 32
  | some a => min 32 ((a - t + p - 1) / p)

/-- One idle granule (R153), up to an abort's boundary (R128): drive edges only, nothing judged; everything after it moves by 32 periods. -/
def State.idleGranule (s : State) (q : Nat) (d : Desc) : State :=
  let x := s.seqOf q
  let p := s.tsPeriod q (Desc.ts d)
  let k := vectorsBefore x.abort x.t p
  let snap := (s.burstChannels q).map fun n => (n, s.edgesOf n)
  let r := s.outGranule q d (fun _ n => s.idleSymbol q d n) false x.t 0 0 k
    snap
  let s := s.settleEdges r
  let s := s.setSeq q { s.seqOf q with
    idle := x.idle + 1, t := x.t + 32 * p, stretching := true, snap := snap
    park := if k < 32 then some (x.t + k * p, 3) else x.park }
  if x.stretching then s else s.occur (evNo (5 + q) 6)

/-- HALT (R152, R154): output ends at the start of the missing granule, with the record and RESULT UNDERRUN. -/
def State.underrun (s : State) (q cause desk : Nat) : State :=
  let x := s.seqOf q
  let s := s.underrunRec q cause desk x.idx (32 * x.g) x.t
  (s.setSeq q { s.seqOf q with park := some (x.t, 4) }).slotDrop q 7

/-- Granule `g` of the instance in output is output whole, or up to an abort's boundary (R128, R151). -/
def State.outputGranule (s : State) (q : Nat) (d : Desc) : State :=
  let x := s.seqOf q
  let p := s.tsPeriod q (Desc.ts d)
  let k := vectorsBefore x.abort x.t p
  let edges := (s.burstChannels q).map fun n => (n, s.edgesOf n)
  let data (n : Nat) : List Byte := match (s.slice (s.sourceDesk (n / 8))).blockFor x.idx x.g with
    | some b => b.data
    | none => []
  let bvec := s.reg64 (seqBase q 0 + 0xB0)
  let r := s.outGranule q d (fun v n => symbolOf (Desc.wide d) (data n) n v) true x.t (32 * x.g) bvec k edges
  let s := s.settleEdges r
  let s := s.setReg64 (seqBase q 0 + 0xB0) (bvec + k)
  let s := x.desks.foldl (fun s e =>
    let b := s.slice e
    if b.locked.any fun m => m.seg = x.idx && m.g = x.g then s
    else s.setSlice e { b with ahead := b.ahead.drop 1 }) s
  let first := decide (x.g = 0)
  let s := if first && !x.begun then s.occur (evNo (5 + q) 0) else s
  s.setSeq q { s.seqOf q with
    g := x.g + 1, t := x.t + 32 * p, outv := x.outv + k, stretching := false, begun := true, snap := edges
    jobs := x.jobs ++ r.jobs, opening := first || x.opening, s0 := if first then x.t else x.s0
    cp := if x.g + 6 = Desc.len d then some x.t else x.cp
    park := if k < 32 then some (x.t + k * p, 3) else x.park }

/-- The successor decided at the CP becomes the instance in output (R94, R111). -/
def Seq.enter (x : Seq) (j : Nat) (rep : Bool) : Seq :=
  { x with
    idx := j, iter := if rep then x.iter + 1 else 0, inst := x.inst + 1, run := if rep then x.run else x.run + 1
    g := 0, outv := 0, cp := none, succ := none
    mFail := if rep then x.mFail else [], mSites := if rep then x.mSites else [], mMet := if rep then x.mMet else none }

/-- The source desks that lack the next granule, and those that hold it with an uncorrectable error (R151). -/
def State.lacking (s : State) (q : Nat) : List Nat × List Nat :=
  let x := s.seqOf q
  (x.desks.filter fun d => ((s.slice d).blockFor x.idx x.g).isNone,
   x.desks.filter fun d => match (s.slice d).blockFor x.idx x.g with | some b => b.bad | none => false)

/-- STRETCH is eligible for a granule of segment `d` that is merely missing (R153), but not after an end by R129 (R155). -/
def State.stretchOk (s : State) (q : Nat) (d : Desc) : Bool :=
  s.getB (seqBase q 0 + 0x78) 0 && Desc.stretch d && !Desc.repeats d && decide (s.prune.stage < 2) &&
    !(s.seqOf q).shed

/-- The cycle in which an abort was registered that ends output from ET instant `a` on (R128). -/
def abortCycle (a : Nat) : Nat := (a - 163840) / 20480 - 1

/-- HALT; an abort registered in the underrun cycle or later reports ABORT_NOOP (R155). -/
def State.missing (s : State) (q cause desk : Nat) : State :=
  let s := if (s.seqOf q).abort.isSome then s.setB (seqBase q 0 + 0x60) 4 true else s
  s.underrun q cause desk

/-- The next granule of the instance in output is judged (R151 to R155). A granule that one source desk lacks and another holds with an error is
SHORT (log 83). -/
def State.judgeNext (s : State) (q : Nat) : State :=
  let x := s.seqOf q
  let endAt (r : Nat) : State := s.setSeq q { x with park := some (x.t, r) }
  let aborted := x.abort.any fun a => decide (abortCycle a < x.t / 20480)
  match s.validDesc q x.idx with
  | none => if aborted then endAt 3 else s.missing q 2 0
  | some d =>
    let l := s.lacking q
    let short := !l.1.isEmpty
    let ecc := !l.2.isEmpty
    let halt (cause desk : Nat) : State := if aborted then endAt 3 else s.missing q cause desk
    let idle : State :=
      if (s.reg (seqBase q 0 + 0x7C)).toNat < x.idle + 1 then halt 3 0 else s.idleGranule q d
    if x.abort.any fun a => decide (a ≤ x.t) then endAt 3
    else if short then (if s.stretchOk q d && !aborted then idle else halt 1 (l.1.headD 0))
    else if ecc then halt 5 (l.2.headD 0)
    else if x.stretching && s.stretchOk q d && !s.enough q then idle
    else (s.outputGranule q d).absorbAll q

/-- GRANULE_JUDGE (R151): the next granule is judged in the cycle of its first vector; at the end of an instance its successor's first
granule is, or the burst's park point is reached. -/
def execGranuleJudge (q : Nat) (s : State) : Out :=
  let x := s.seqOf q
  let d := Tab.get (fun _ => []) x.descs x.idx
  .next (if x.st ≠ 3 ∨ x.park.isSome ∨ x.opening then s
    else if x.begun ∧ x.g = Desc.len d then
      let ends (r : Nat) : State :=
        (s.passTo (x.t / 20480)).setSeq q { x with park := some (x.t, if x.abort.isSome then 3 else if x.shed then 6 else r) }
      match x.succ with
      | none => s
      | some (.stop r) => ends r
      | some (.seg j rep) => if x.shed then ends 6 else ((s.passTo (x.t / 20480)).setSeq q (x.enter j rep)).judgeNext q
    else if x.succ.isNone ∧ x.cp.isSome then s
    else (s.passTo (x.t / 20480)).judgeNext q)

/-! ### The commit point (R109 to R118, R124) -/

/-- A decided successor: if its descriptor is here and invalid, the instance in output becomes the last (R124). -/
def State.decideSucc (s : State) (q : Nat) (o : EndOut) : State :=
  let x := s.seqOf q
  let stop (s : State) (r : Nat) : State := s.setSeq q { s.seqOf q with succ := some (.stop r) }
  let go (j : Nat) (rep : Bool) : State :=
    match Tab.get (fun _ => []) x.descs j with
    | [] => s.setSeq q { x with succ := some (.seg j rep) }
    | d =>
      let c := s.descCause q x.len d
      if c = 0 then s.setSeq q { x with succ := some (.seg j rep) } else stop (s.descErr q c j) 5
  match o with
  | .go j => go j false
  | .rep => go x.idx true
  | .halt => stop s 1
  | .err c => stop (s.descErr q c x.idx) 5

/-- The decision of a MATCH or WAIT segment at CP `cp` (R117, R118). -/
def State.decideRepeat (s : State) (q cp : Nat) (d : Desc) : EndOut × State :=
  let x := s.seqOf q
  let a := seqBase q 0
  let last := Desc.timeout d ≠ 0 ∧ x.iter + 1 = Desc.timeout d
  if Desc.endAct d = 4 then
    match x.mMet.filter fun m => decide (m.2 ≤ cp) with
    | some m => (nextOf x.len x.idx, s.setReg (a + 0x90) (wd m.1))
    | none =>
      if last then (.go (Desc.target d), (s.setReg (a + 0x90) 0xFFFFFFFF).occur (evNo (5 + q) 8)) else (.rep, s)
  else
    match x.wait.filter fun c => decide ((c + 1) * 20480 ≤ cp) with
    | some _ => (nextOf x.len x.idx, (s.setSeq q { x with wait := none }).setReg (a + 0x94) 0)
    | none => if last then (.go (Desc.target d), s.occur (evNo (5 + q) 9)) else (.rep, s)

/-- The decision at the CP (R111): stop, else jump, else end action. -/
def State.commitPoint (s : State) (q cp : Nat) (d : Desc) : State :=
  let x := s.seqOf q
  let c := s.ctxOf q
  let plan := (endStep x.len x.idx d c).1
  let leave (s : State) : State :=
    match plan, (s.seqOf q).succ with
    | .go j, some (.seg k _) => if j = k then s else s.stageLeave q
    | .halt, some (.seg _ _) | .err _, some (.seg _ _) => s.stageLeave q
    | _, _ => s
  let mine := x.slot.filter fun j => j.inst = x.inst
  if x.stop.any fun k => decide ((k + 1) * 20480 ≤ cp) then
    let s := s.setSeq q { x with succ := some (.stop 2) }
    (if mine.isSome then s.slotDrop q 6 else s).repath q
  else match mine with
    | some j =>
      let t := x.jmp.getD j.entry 0
      let s := (s.setSeq q { x with slot := none }).setB (seqBase q 0 + 0x6C) 3 false
      let s := if x.len ≤ t then
          let s := s.descErr q 6 t
          s.setSeq q { s.seqOf q with succ := some (.stop 5) }
        else s.decideSucc q (.go t)
      (leave s).repath q
    | none =>
      if Desc.repeats d then
        let r := s.decideRepeat q cp d
        (r.2.decideSucc q r.1).repath q
      else
        let r := endStep x.len x.idx d c
        (leave ((s.setCtx q r.2).decideSucc q r.1)).repath q

/-- The decision of a CP that lies in this cycle or before is taken, if it ends the burst. -/
def State.commitDue (s : State) (q : Nat) : State :=
  let x := s.seqOf q
  match x.cp, s.validDesc q x.idx with
  | some t, some d =>
    if x.st = 3 ∧ x.succ.isNone ∧ x.park.isNone ∧ t / 20480 ≤ s.cycle then
      let s' := s.commitPoint q t d
      match (s'.seqOf q).succ with
      | some (.stop _) => s'
      | _ => s
    else s
  | _, _ => s

/-! ### Ends of bursts (R127 to R130) -/

/-- An abort in RUN (R128): output ends at the first vector boundary at least 10 ns after the registration cycle; vectors of the
granule in output beyond it are taken back. -/
def State.abortRun (s : State) (q : Nat) : State :=
  let x := s.seqOf q
  let a := (s.cycle + 1) * 20480 + 163840
  let d := Tab.get (fun _ => []) x.descs x.idx
  let p := s.tsPeriod q (Desc.ts d)
  let x := { x with abort := some a }
  let t0 := x.t - 32 * p
  let k := vectorsBefore (some a) t0 p
  if (x.begun ∨ x.stretching) ∧ a < x.t ∧ k < 32 then
    let data (n : Nat) : Nat → Nat := fun v =>
      if x.stretching then waveIndex (Desc.wide d) (s.tsWt q (Desc.ts d)) (s.idleSymbol q d n)
      else match x.jobs.find? fun j => j.t0 = t0 + v * p with
        | some j => match j.chans.find? fun c => c.ch = n with | some c => c.wave | none => 0
        | none => 0
    let r := (List.range k).foldl (fun (es : List (Nat × ChanEdges)) v =>
      es.map fun e => (e.1, (s.vectorOf (edgeClass (!x.stretching)) e.1 (data e.1 v) p (t0 + v * p) e.2).st)) x.snap
    let back := if x.stretching then 0 else 32 - k
    let s := r.foldl (fun s e => s.setEdges e.1 e.2) s
    let s := s.setDrops (s.sq.drops.filter fun e => !(e.seq = q && decide (t0 + k * p ≤ e.at0)))
    let s := s.setReg64 (seqBase q 0 + 0xB0) (s.reg64 (seqBase q 0 + 0xB0) - back)
    s.setSeq q { x with jobs := x.jobs.filter fun j => decide (j.t0 < t0 + k * p), outv := x.outv - back,
                        park := some (t0 + k * p, 3) }
  else s.setSeq q x

/-- An ABORT of sequencer `q` (R128, R155): registered before the commit cycle it ends the burst; later it reports ABORT_NOOP, in the commit
cycle itself too, whose decision it then finds taken. -/
def State.seqAbort (s : State) (q : Nat) : State :=
  let s := s.commitDue q
  let x := s.seqOf q
  let noop (s : State) : State := s.setB (seqBase q 0 + 0x60) 4 true
  match x.st with
  | 0 => if s.getF (seqBase q 0 + 0x60) 3 0 = 0 then s else noop s
  | 1 | 2 => s.endNoOutput q 3
  | 3 =>
    match x.succ, x.park, x.abort with
    | some (.stop _), _, none => noop s
    | _, some _, none => noop s
    | _, _, some _ => s
    | _, _, _ => s.abortRun q
  | _ => noop s

/-- Pruning stage 2 or a hard thermal threshold ends the burst (R129). It is no decision at a CP: until one ends the burst, an abort (R128), a
jump (R120) and the successor are taken as before. -/
def State.seqShed (s : State) (q : Nat) : State :=
  let x := s.seqOf q
  match x.st with
  | 1 | 2 => s.endNoOutput q 6
  | 3 => if x.park.isSome then s else s.setSeq q { x with shed := true }
  | _ => s

/-- A STOP (R127). -/
def State.seqStop (s : State) (q : Nat) : State :=
  let x := s.seqOf q
  match x.st with
  | 1 | 2 => s.endNoOutput q 3
  | 3 => if x.stop.isSome then s else s.setSeq q { x with stop := some s.cycle }
  | _ => s

/-- A write of `BURST_CTRL` (R125, R127, R128): ABORT acts alone; STOP acts on a running burst; START on an idle sequencer. -/
def State.burstCtrl (s : State) (q : Nat) (v : Word) : State :=
  let a := seqBase q 0
  let s := s.writeMasked (a + 0x54) v
  let busy := s.burstRuns q
  if bit v 2 then s.seqAbort q
  else if busy then (if bit v 1 then s.seqStop q else s)
  else if !(bit v 0) ∨ 2 ≤ fld v 5 4 then s
  else if !(s.startAllowed .burst (a + 0x54)) then s.denyStart (a + 0x54)
  else s.seqStart q (s.getF (a + 0x58) 19 0) (fld v 5 4 = 1) true

/-- BURST_CTRL_START (R125): a write with START set and ABORT clear. -/
def execBurstCtrlStart (q : Nat) (v : Word) (s : State) : Out :=
  .next (if q < 16 ∧ bit v 0 ∧ !(bit v 2) then
    s.hostWrite 0 (seqBase q 0 + 0x54) v fun s => s.burstCtrl q v else s)

/-- BURST_CTRL_STOP (R127): a write with STOP set, START and ABORT clear. -/
def execBurstCtrlStop (q : Nat) (v : Word) (s : State) : Out :=
  .next (if q < 16 ∧ bit v 1 ∧ !(bit v 0) ∧ !(bit v 2) then
    s.hostWrite 0 (seqBase q 0 + 0x54) v fun s => s.burstCtrl q v else s)

/-- BURST_CTRL_ABORT (R128): a write with ABORT set. -/
def execBurstCtrlAbort (q : Nat) (v : Word) (s : State) : Out :=
  .next (if q < 16 ∧ bit v 2 then s.hostWrite 0 (seqBase q 0 + 0x54) v fun s => s.burstCtrl q v else s)

/-- The Bursar has admitted sequencer `q`'s burst. -/
def State.admitted (s : State) (cls unit : Nat) : Bool := s.bur.runs.any fun w => w.cls = cls && w.unit = unit

/-- BURST_ADMISSION_COMPLETE (R145, R125): with everything resident the burst becomes ARMED; with START_MODE IMMEDIATE S is the first
beat boundary at least 40 ns after the end of this cycle. -/
def execBurstAdmissionComplete (q : Nat) (s : State) : Out :=
  let x := s.seqOf q
  .next (if x.st = 1 ∧ s.admitted 1 q ∧ s.resident q (fun _ => true) ∧ s.leadMet q then
    let s := s.setSeq q { x with sAt := if x.bell then x.sAt else some ((s.cycle + 1) * 20480 + 655360) }
    s.seqState q 2
  else s)

/-- BURST_S_REACHED (R125, R153): at S the sequencer enters RUN. With its first granule at hand `BURST_START` occurs; else it waits for
the first real vector. -/
def execBurstSReached (q : Nat) (s : State) : Out :=
  let x := s.seqOf q
  .next (match x.sAt with
    | none => s
    | some t =>
      if x.st ≠ 2 then s
      else
        let s := s.passTo (t / 20480)
        let s := (s.burstChannels q).foldl (fun s n => s.setEdges n (s.burstEdges n)) s
        let s := s.setSeq q { s.seqOf q with idx := x.start, t := t }
        let s := s.seqState q 3
        let l := s.lacking q
        if l.1.isEmpty ∧ l.2.isEmpty then
          (s.setSeq q { s.seqOf q with begun := true }).occur (evNo (5 + q) 0)
        else s)

/-- The MATCH lag (R116). -/
def matchLag (len p : Nat) : Nat :=
  let n := 32 * len
  let a := (n - 192) * p
  if 1966080 ≤ a then 1 else 1 + (1966080 - a + n * p - 1) / (n * p)

/-- SEGMENT_START (R123): the instance whose first granule is being output started at S. -/
def execSegmentStart (q : Nat) (s : State) : Out :=
  let x := s.seqOf q
  let a := seqBase q 0
  .next (match x.st = 3 ∧ x.opening, s.validDesc q x.idx with
    | _, none => s
    | _, some d =>
      if ¬ (x.st = 3 ∧ x.opening) then s
      else
        let s := s.setSeq q { x with opening := false }
        let s := (s.setReg (a + 0x80) (wd (2 ^ 31 + x.idx))).setReg (a + 0x84) (wd x.iter)
        let s := (bitsOf 8 (Desc.trig d)).foldl (fun s k => s.trigPulse k x.s0) s
        let s := if Desc.endAct d = 4 then
            s.setReg (a + 0x8C) (wd (matchLag (Desc.len d) (s.tsPeriod q (Desc.ts d)))) else s
        let s := if !Desc.streamed d && !(x.adm.contains x.idx) then
            (s.incSat (decBase + 0x50) 1).occur (evNo 25 0) else s
        if Desc.segEn d then s.occur (evNo (5 + q) 2) else s)

/-! ### Commit point -/

/-- COMMIT_POINT (R111): the decision for the instance in output, at its CP. -/
def execCommitPoint (q : Nat) (s : State) : Out :=
  let x := s.seqOf q
  .next (match x.cp, s.validDesc q x.idx with
    | some t, some d =>
      if x.st = 3 ∧ x.succ.isNone ∧ x.park.isNone ∧ x.opening = false then
        (s.passTo (t / 20480)).commitPoint q t d
      else s
    | _, _ => s)

/-- DESCRIPTOR_ARRIVAL (R124, R139, R237): descriptor `i` arrives through the DEC port and is checked. If it is the decided successor and invalid, the instance in
output becomes the last. -/
def execDescriptorArrival (q i : Nat) (s : State) : Out :=
  let x := s.seqOf q
  .next (if x.st = 0 ∨ x.st = 4 ∨ x.len ≤ i then s
    else
      match s.portRun 0 false (x.base + 64 * i) 64 with
      | none => s
      | some s =>
        let d := s.readDesc x.base i
        let s := s.setSeq q { s.seqOf q with descs := Tab.set (fun _ => []) x.descs i d }
        let c := s.descCause q x.len d
        match x.succ with
        | some (.seg j _) =>
          if j = i ∧ c ≠ 0 ∧ x.st = 3 then
            let s := s.descErr q c i
            s.setSeq q { s.seqOf q with succ := some (.stop 5) }
          else s.absorbAll q
        | _ => s.absorbAll q)

/-! ### Park (R78, R130, R176, R184, R185) -/

/-- PARK_POINT (R78): output has ended: the channels take their park states, an instance cut short is partial, and a jump still in the
slot is discarded. Whether the burst gets a BURST_END record is fixed by `LOG_CFG.EN` now (log 83). -/
def execParkPoint (q : Nat) (s : State) : Out :=
  let x := s.seqOf q
  .next (match x.park with
    | none => s
    | some (p, r) =>
      if x.st ≠ 3 then s
      else
        let s := s.passTo (p / 20480)
        let d := Tab.get (fun _ => []) x.descs x.idx
        let cut := decide (0 < x.outv) && decide (x.outv < 32 * Desc.len d)
        let s := (s.burstChannels q).foldl (fun s n => s.parkChannel n p) s
        let s := s.slotDrop q 7
        let s := if cut && Desc.sigEn d && !Desc.repeats d then (s.passTo (p / 20480 + 1)).sigPartial q else s
        let s := s.setB (seqBase q 0 + 0x80) 31 false
        let x := s.seqOf q
        let s := if s.getB (cmpBase + 0x40) 0 then
            s.setSeq q { x with endRec := some (r, s.reg64 (seqBase q 0 + 0xB0)) } else s
        (s.captureFlush q).seqState q 4)

/-- Everything of R176 and R185 has been formed, written or counted. -/
def State.burstCommitted (s : State) (q : Nat) : Bool :=
  let x := s.seqOf q
  x.jobs.isEmpty && x.endRec.isNone && !s.logHolds q && !(s.cmp.capq.any fun e => e.2.any fun k => k.seq = q) &&
    !((List.range 16).any fun i =>
      let sel := x.ecapSel.getD i 0
      bit sel 31 && decide (s.dskSeq (fld sel 7 0 / 8) = q) && !(Tab.get (fun _ => {}) s.cmp.slots i).queue.isEmpty)

/-- PARK_COMPLETE (R130): 2 beats after the park point, with every result committed, the burst leaves PARK; `m` is the meter's reading of
a direct start. -/
def execParkComplete (q m : Nat) (s : State) : Out :=
  let x := s.seqOf q
  .next (match x.park with
    | none => s
    | some (p, r) =>
      if x.st = 4 ∧ s.burstCommitted q then
        (s.passTo ((p + 10240) / 20480)).burstEnd q r (some m)
      else s)

end Sys2Proof.Machine
end

