-- ==== Sys2Proof/Machine/Check.lean ====
section
/-! DEFINITION. The check units (09_signatures_check.md, R190 to R196). -/

namespace Sys2Proof.Machine

/-- The low `w` bits of `n` in reverse order. -/
def reflect (w n : Nat) : Nat := (List.range w).foldl (fun m k => if nbit n k then m + 2 ^ (w - 1 - k) else m) 0

/-- One bit folded into a CRC of width `w` (R190). -/
def crcBit (w poly crc : Nat) (b : Bool) : Nat :=
  let x := crc * 2 % 2 ^ w
  if nbit crc (w - 1) != b then x ^^^ (poly % 2 ^ w) else x

/-- One byte folded (R190). -/
def crcByte (w poly : Nat) (refin : Bool) (crc d : Nat) : Nat :=
  let d := if refin then reflect 8 d else d
  ((List.range 8).map fun k => nbit d (7 - k)).foldl (crcBit w poly) crc

/-- Bytes folded in order. -/
def crcBytes (w poly : Nat) (refin : Bool) (crc : Nat) (l : List Byte) : Nat :=
  l.foldl (fun c b => crcByte w poly refin c b.toNat) crc

/-- The run of check unit `n`. -/
def State.chkRun (s : State) (n : Nat) : ChkRun := Tab.get (fun _ => {}) s.chk n

/-- `s` with it replaced, `STAT.BUSY` and `PG_STAT.BUSY` following. -/
def State.setChkRun (s : State) (n : Nat) (r : ChkRun) : State :=
  let s := { s with chk := Tab.set (fun _ => {}) s.chk n r }
  (s.setB (chkBase n + 0x8C) 4 r.active).setB (chkBase n + 0xC) 0 r.active

/-- WIDTH of unit `n`. -/
def State.chkWidth (s : State) (n : Nat) : Nat := s.getF (chkBase n + 0x40) 6 0

/-- `RUN` after bytes are folded. -/
def State.chkFold (s : State) (n : Nat) (l : List Byte) : State :=
  let a := chkBase n
  let w := s.chkWidth n
  s.setReg64 (a + 0x68) (crcBytes w (s.reg64 (a + 0x48)) (s.getB (a + 0x40) 8) (s.reg64 (a + 0x68) % 2 ^ w) l)

/-- A discarded feed, command or write during a run (R192). -/
def State.chkRefuse (s : State) (n : Nat) : State := (s.incSat (chkBase n + 0x9C) 1).occur (evNo (48 + n) 3)

/-- The result of unit `n` (R190). -/
def State.chkResult (s : State) (n : Nat) : Nat :=
  let a := chkBase n
  let w := s.chkWidth n
  let r := s.reg64 (a + 0x68) % 2 ^ w
  (if s.getB (a + 0x40) 9 then reflect w r else r) ^^^ (s.reg64 (a + 0x58) % 2 ^ w)

/-- CHECK (R193): RESULT, COMPARED, MATCH and its event. -/
def State.chkCompare (s : State) (n : Nat) : State :=
  let a := chkBase n
  let r := s.chkResult n
  let ok := decide (r = s.reg64 (a + 0x60) % 2 ^ s.chkWidth n)
  let s := (s.setReg64 (a + 0x70) r).setB (a + 0x8C) 6 true
  (s.setB (a + 0x8C) 5 ok).occur (evNo (48 + n) (if ok then 2 else 1))

/-- A feed of `k` bytes (R191). -/
def State.chkFeed (s : State) (n k : Nat) (v : Word) : State :=
  if (s.chkRun n).active then s.chkRefuse n else s.chkFold n (bytesLE k v.toNat)

/-- A write of a feed register of unit `n` at offset `o`. -/
def chkFeedOp (n o k : Nat) (v : Word) (s : State) : State :=
  if n < 8 then s.hostWrite 0 (chkBase n + o) v fun s => s.chkFeed n k v else s

/-- CHK_FEED_B (R191). -/
def execChkFeedB (n : Nat) (v : Word) (s : State) : Out := .next (chkFeedOp n 0x90 1 v s)

/-- CHK_FEED_H (R191). -/
def execChkFeedH (n : Nat) (v : Word) (s : State) : Out := .next (chkFeedOp n 0x94 2 v s)

/-- CHK_FEED_W (R191). -/
def execChkFeedW (n : Nat) (v : Word) (s : State) : Out := .next (chkFeedOp n 0x98 4 v s)

/-- A run begins, after admission or at a dispatch (R191). -/
def State.chkBegin (s : State) (n : Nat) : State :=
  (s.setB (chkBase n + 0x8C) 7 false).setChkRun n { active := true, began := s.cycle }

/-- A run ends with RESULT `r` and a Timetable outcome; `RUN_END` occurs (R194). -/
def State.chkEnd (s : State) (n r outcome : Nat) (noop : Bool) (m : Option Nat) : State :=
  let s := (s.setChkRun n {}).setF (chkBase n + 0x8C) 3 0 r
  (s.occur (evNo (48 + n) 0)).endRun 3 n outcome noop m

/-- ABORT (R194, R271): before the commit cycle the run ends ABORTED with `RUN` as at its start; later it is ABORT_NOOP. -/
def State.chkAbort (s : State) (n : Nat) : State :=
  if (s.chkRun n).active then s.chkEnd n 2 3 false none
  else if s.waiting 3 n then (s.withdraw 3 n).chkEnd n 2 3 false none
  else if s.getF (chkBase n + 0x8C) 3 0 = 1 then s.setF (chkBase n + 0x8C) 3 0 3
  else s

/-- A run's last byte is folded: with CMP_EN the result is compared, and the run ends DONE (R193, R194). -/
def State.chkFinish (s : State) (n : Nat) (m : Option Nat) : State :=
  (if s.getB (chkBase n + 0x40) 10 then s.chkCompare n else s).chkEnd n 1 1 false m

/-- START (R191, R192, R194): ignored while a run is active or waits; with LEN 0 the run ends DONE in the next cycle; otherwise it waits for the
Bursar. -/
def State.chkStart (s : State) (n : Nat) : State :=
  let a := chkBase n
  if (s.chkRun n).active || s.waiting 3 n then s
  else if !(s.startAllowed .chk a) then s.denyStart (a + 0x84)
  else if s.reg (a + 0x80) = 0 then ((s.chkBegin n).pass 1).chkFinish n none
  else s.waitStart 3 n (s.reg (a + 0x88)).toNat

/-- A write of `RUN_CTRL` (R195). -/
def State.chkCtrl (s : State) (n : Nat) (v : Word) : State :=
  let a := chkBase n
  if bit v 1 then s.chkAbort n
  else if (s.chkRun n).active then (if bit v 2 ∨ bit v 3 then s.chkRefuse n else s)
  else
    let s := if bit v 2 then s.setReg64 (a + 0x68) (s.reg64 (a + 0x50) % 2 ^ s.chkWidth n) else s
    let s := if bit v 3 then s.chkCompare n else s
    if bit v 0 then s.chkStart n else s

/-- A write of `v` to `RUN_CTRL` of unit `n`, if `p` holds. -/
def chkCtrlOp (n : Nat) (v : Word) (p : Bool) (s : State) : State :=
  if n < 8 ∧ p then s.hostWrite 0 (chkBase n + 0x84) v fun s => s.chkCtrl n v else s

/-- CHK_LOAD_INIT (R195): a write with LOAD_INIT set and ABORT clear. -/
def execChkLoadInit (n : Nat) (v : Word) (s : State) : Out := .next (chkCtrlOp n v (bit v 2 && !bit v 1) s)

/-- CHK_CHECK (R193): a write with CHECK set, LOAD_INIT and ABORT clear. -/
def execChkCheck (n : Nat) (v : Word) (s : State) : Out :=
  .next (chkCtrlOp n v (bit v 3 && !bit v 2 && !bit v 1) s)

/-- CHK_START (R191): a write with START alone set. -/
def execChkStart (n : Nat) (v : Word) (s : State) : Out :=
  .next (chkCtrlOp n v (bit v 0 && !bit v 3 && !bit v 2 && !bit v 1) s)

/-- CHK_ABORT (R194): a write with ABORT set. -/
def execChkAbort (n : Nat) (v : Word) (s : State) : Out := .next (chkCtrlOp n v (bit v 1) s)

/-- CHK_RUN_COMMIT (R191, R194): the last byte is folded, read through the FLW port at 8 bytes per cycle at most. `m` is the meter's reading of a
direct start. -/
def execChkRunCommit (n m : Nat) (s : State) : Out :=
  let r := s.chkRun n
  let a := chkBase n
  let src := s.reg64 (a + 0x78)
  let len := (s.reg (a + 0x80)).toNat
  .next (if !r.active then s
    else
      match (s.passTo (r.began + max 1 ((len + 7) / 8))).portRun 3 false src len with
      | none => s
      | some s =>
        let s := if (List.range len).all fun i => s.mapped (src + i) then s else s.setB (a + 0x8C) 7 true
        (s.chkFold n (s.readBytes src len)).chkFinish n (some m))

/-- The low-half address of a 64-bit register that CHK_REG_WRITE writes, or the address itself. -/
def chk64 (o : Nat) : Bool := (0x48 ≤ o && o < 0x70) || (0x78 ≤ o && o < 0x80)

/-- A write of a configuration register of unit `n` (R192): WIDTH outside 8 to 64 leaves `CFG` unchanged; `RUN` keeps its low WIDTH
bits. -/
def State.chkRegWrite (s : State) (req n o : Nat) (v : Word) : State :=
  let a := chkBase n
  if (s.chkRun n).active then s.chkRefuse n
  else if o = 0x40 then
    let w := fld v 6 0
    if w < 8 ∨ 64 < w then s
    else
      let s := s.writeMasked (a + o) v
      s.setReg64 (a + 0x68) (s.reg64 (a + 0x68) % 2 ^ w)
  else if o = 0x80 then s.writeMasked (a + o) v
  else if o % 8 = 0 then s.setStaged req (a + o) (some v)
  else
    let r := s.take64 req (a + o - 4) v
    let x := if o = 0x6C then r.1 % 2 ^ r.2.chkWidth n else r.1
    r.2.commit64 (a + o - 4) x

/-- CHK_REG_WRITE (R192). -/
def execChkRegWrite (req addr : Nat) (v : Word) (s : State) : Out :=
  .next (match pageOf addr with
    | some (g, n, o) =>
      if g.kind = .chk ∧ (o = 0x40 ∨ o = 0x80 ∨ chk64 o) then
        s.hostWrite req addr v fun s => s.chkRegWrite req n o v
      else s
    | none => s)

end Sys2Proof.Machine
end

