-- ==== Sys2Proof/Machine/Time.lean ====
section
/-! DEFINITION. The time bases as they move (18_ring_time.md, R364 to R371): steps, the servo, holdover, and the steering of TB2 and TB3
by PHASE records. -/

namespace Sys2Proof.Machine

/-- Units of 2^-16 ns in a second and in a microsecond. -/
def unitsPerSec : Nat := 65536000000000
def unitsPerUs : Nat := 65536000

/-- What time base `b` shows now as a signed number. -/
def State.tbValue (s : State) (b : Nat) : Int := (s.tbSrc b).now s.cycle

/-- Time base `b` counts from `v` on. -/
def State.tbStart (s : State) (b : Nat) (v : Int) : State :=
  s.setTb b { s.tb b with counting := true, base := v, at0 := s.cycle }

/-- Time base `b` moves by `e` and goes on at rate correction `rho`; `RATE` shows it. -/
def State.tbMove (s : State) (b : Nat) (e rho : Int) : State :=
  let t := s.tb b
  (s.setTb b { t with base := t.now s.cycle + e, at0 := s.cycle, rho := rho }).setReg (tbBase b + 0x28) (wd (unsext 32 rho))

/-- A step of time base `b`: STEP[b], and the place of the latest step (R364, R371, R372). A step of TB0 is one of each base that follows
it. -/
def State.tbStepped (s : State) (b : Nat) : State :=
  let one (s : State) (b : Nat) : State := (s.setTb b { s.tb b with stepAt := s.cycle }).occur (evNo 60 (4 + b))
  let s := one s b
  if b = 0 then ([2, 3].filter fun c => (s.tb c).follow.isSome).foldl one s else s

/-- `ERR` of time base `b`: signed, saturating. -/
def State.tbErr (s : State) (b : Nat) (e : Int) : State :=
  s.setReg (tbBase b + 0x2C) (wd (unsext 32 (max (-2147483648) (min 2147483647 e))))

/-- The servo of R364 on time base `b` with error `e` and an interval in units of 2^-16 ns: a step above 1 µs or where one is forced, else
phase by e / 4 and rate by e / (64 × interval). -/
def State.servo (s : State) (b : Nat) (e : Int) (force : Bool) (interval : Nat) : State :=
  let s := s.tbErr b e
  let t := s.tb b
  if force || decide ((unitsPerUs : Int) < e) || decide (e < -(unitsPerUs : Int)) then (s.tbMove b e t.rho).tbStepped b
  else s.tbMove b (e / 4) (t.rho + e * 2 ^ 40 / (64 * (interval : Int)))

/-- The live events of holdover: `TIME_HOLDOVER` and `HOLDOVER[1]` to `HOLDOVER[3]` (R381). -/
def State.holdLive (s : State) : State :=
  (List.range 4).foldl (fun s b => s.setLive (evNo 60 b) (s.tbSrc b).holdover) s

/-- Time base `b` enters holdover (R365, R369, R370). -/
def State.holdEnter (s : State) (b : Nat) : State :=
  let t := s.tb b
  if t.counting ∧ !t.holdover then (s.setTb b { t with holdover := true, holdFrom := s.cycle }).holdLive else s

/-- Time base `b` leaves holdover; `HOLD_TIME` holds its length in ms (R366). -/
def State.holdExit (s : State) (b : Nat) : State :=
  let t := s.tb b
  if t.holdover then
    ((s.setTb b { t with holdover := false }).setReg (tbBase b + 0x30)
      (wd (min 0xFFFFFFFF ((s.cycle - t.holdFrom) / 800000)))).holdLive
  else s

/-- TB0 enters holdover for one of the causes of R365; a roll call must complete after it (R366). -/
def State.tb0Change (s : State) : State :=
  State.holdEnter { s with ring := { s.ring with since := false } } 0

/-- `s` with the timekeeper's records replaced. -/
def State.setTk (s : State) (k : TimeKeep) : State := { s with tk := k }

/-- Time base `b` follows PHASE records of engine `e` (R370). -/
def State.tbOnPhase (s : State) (b e : Nat) : Bool :=
  s.getF (tbBase b + 0x20) 1 0 = 3 && s.getF (tbBase b + 0x20) 15 10 = e

/-- A gate of a PHASE run that gives time base `b` no usable record: the fourth in succession is holdover (R370). -/
def State.phaseLost (s : State) (b : Nat) : State :=
  let n := Tab.get (fun _ => 0) s.tk.phaseMiss b + 1
  let s := s.setTk { s.tk with phaseMiss := Tab.set (fun _ => 0) s.tk.phaseMiss b n,
                               phaseVal := Tab.set (fun _ => none) s.tk.phaseVal b none }
  if 4 ≤ n then s.holdEnter b else s

/-- A usable PHASE record steers time base `b` (R370; the arithmetic is DEDUCED, log 23): the mean edge of the gate that ends at beat
`stop` lies VALUE after a whole multiple of PERIOD (`period`, in units) from beat `t0`. The rate follows from the change of VALUE over the gate
of `gate` beats, and the phase puts the edge on the nearest whole multiple of PERIOD, or on the value last committed to `SET`. -/
def State.phaseUse (s : State) (b t0 stop gate : Nat) (value : Int) (period : Nat) : State :=
  let span : Int := ((stop - t0) * 20480 : Nat)
  let edge : Int := (t0 * 20480 : Nat) + (span - value) / period * period + value
  let t := s.tb b
  let g : Int := (gate * 20480 : Nat)
  let rho : Int :=
    match Tab.get (fun _ => none) s.tk.phaseVal b with
    | none => t.rho
    | some v0 =>
      let d := (value - v0 + period / 2) % period - period / 2
      Int.neg (d * 2 ^ 40 / (g + d))
  let d : Int := edge - (t.at0 * unitsPerCycle : Nat)
  let shown := t.base + d + d * t.rho / 2 ^ 40
  let want : Int :=
    match Tab.get (fun _ => none) s.tk.phaseSet b with
    | some v => v
    | none => if t.counting then (shown + period / 2) / period * period else s.time4 (tbBase b + 0x10)
  let committed := (Tab.get (fun _ => none) s.tk.phaseSet b).isSome
  let back : Int := (s.cycle * unitsPerCycle : Nat) - edge
  let s := s.setTk { s.tk with phaseMiss := Tab.set (fun _ => 0) s.tk.phaseMiss b 0,
                               phaseVal := Tab.set (fun _ => none) s.tk.phaseVal b (some value),
                               phaseSet := Tab.set (fun _ => none) s.tk.phaseSet b none }
  let s := (s.tbStart b (want + back + back * rho / 2 ^ 40)).tbMove b 0 rho
  let s := (if committed then s.tbStepped b else s)
  s.holdExit b

/-- The end of a gate of a PHASE run of engine `e`: `value` is none for a record with VALID = 0 or COARSE = 1. -/
def State.phaseGate (s : State) (e t0 stop gate : Nat) (value : Option Int) (period : Nat) : State :=
  [2, 3].foldl (fun s b =>
    if s.tbOnPhase b e then
      match value with
      | none => s.phaseLost b
      | some v => if period = 0 then s.phaseLost b else s.phaseUse b t0 stop gate v period
    else s) s

end Sys2Proof.Machine
end

