-- ==== Sys2Proof/Machine/Tdc.lean ====
section
/-! DEFINITION. Time-interval and frequency measurement (10_time_measurement.md): the TDC engines, the oscillator and reference, and
the frequency counters. -/

namespace Sys2Proof.Machine

/-- Engine `e`. -/
def State.tdc (s : State) (e : Nat) : Tdc := Tab.get (fun _ => {}) s.tim.engines e

/-- `s` with engine `e` replaced; its page's BUSY reads 1 while an engine of it is in ADMIT, RUN or STOPPING. -/
def State.setTdc (s : State) (e : Nat) (x : Tdc) : State :=
  let s := { s with tim := { s.tim with engines := Tab.set (fun _ => {}) s.tim.engines e x } }
  let busy := (List.range 32).any fun k =>
    let st := (s.tdc (e / 32 * 32 + k)).st
    decide (1 ≤ st) && decide (st ≤ 3)
  (s.setF (tdcBase e + 0x28) 11 8 x.st).setB (0x0701000 + e / 32 * 0x1000 + 0xC) 0 busy

/-- MODE of an engine's run. -/
def Tdc.mode (x : Tdc) : Nat := fld x.cfg 27 24

/-- Global bin index of an edge (R199). -/
def TdcEdge.bin (a : TdcEdge) : Nat := a.et / 20

/-- Beat count of an edge. -/
def TdcEdge.beat (a : TdcEdge) : Nat := a.et / 5120

/-! ### Calibrated times (R199, R200) -/

/-- The sampler input of a source code (16_calibration.md): `none` has nominal values. -/
def samplerOf (code : Nat) : Option Nat :=
  if 0x10 ≤ code ∧ code < 0x20 then some (code - 0x10)
  else if code = 0x21 then some 17
  else if code = 0x22 then some 18
  else if code = 0x23 then some 19
  else if 0x28 ≤ code ∧ code < 0x30 then some (20 + code - 0x28)
  else if 0x100 ≤ code ∧ code < 0x200 then some (32 + code - 0x100)
  else if 0x200 ≤ code ∧ code < 0x300 then some (288 + code - 0x200)
  else none

/-- The centre of bin `b` of a source and its input's offset, in subnanosecond units, from the tables of a vintage slot; nominal without
them (R199, R200). -/
def State.binTime (s : State) (slot : Option Nat) (code b : Nat) : Int :=
  match slot, samplerOf code with
  | some i, some j =>
    let t := s.vinSlot i + 0x20000 + 1024 * j
    (s.readLE (t + 16 + 2 * b) 2 : Nat) + sext 32 (s.readLE t 4)
  | _, _ => (80 * b + 40 : Nat)

/-- Calibrated time of an edge in subnanosecond units: its beat, the centre of its bin and its input's offset (R200). -/
def State.calTime (s : State) (slot : Option Nat) (code : Nat) (a : TdcEdge) : Int :=
  (a.beat * 20480 : Nat) + s.binTime slot code (a.et % 5120 / 20)

/-- The interval from edge `a` on source `src` to edge `b` on source `dst` in subnanosecond units (R200): D is taken modulo 2^48 as a signed
number. -/
def State.interval (s : State) (slot : Option Nat) (src : Nat) (a : TdcEdge) (dst : Nat) (b : TdcEdge) : Int :=
  let d : Int := sext 48 (unsext 48 ((b.beat : Int) - a.beat))
  d * 20480 + s.binTime slot dst (b.et % 5120 / 20) - s.binTime slot src (a.et % 5120 / 20)

/-! ### Records (R203, R209) -/

/-- A record of engine `e`; `input` is 0 A, 1 B, 2 both or derived. A gated mode derives its record from input A alone (R201). -/
def State.tdcRecord (s : State) (e input value aux : Nat) (coarse hold warm coincident ovf valid : Bool) : State :=
  let x := s.tdc e
  let takesA := decide (input ≠ 1)
  let takesB := decide (input = 1) || (decide (input = 2) && decide (x.mode < 4))
  let dead := (takesA && x.deadA) || (takesB && x.deadB)
  let w3 := e * 2 ^ 26 + input * 2 ^ 24 + x.mode * 2 ^ 20 + x.seq % 256 * 2 ^ 12 + (s.getB (timBase + 0x40) 2).toNat * 256 +
    hold.toNat * 128 + coarse.toNat * 64 + x.early.toNat * 32 + coincident.toNat * 16 + dead.toNat * 8 + ovf.toNat * 4 +
    warm.toNat * 2 + valid.toNat
  s.setTdc e { x with
    out := x.out ++ [[wd value, wd (value / 2 ^ 32), wd aux, wd w3]], seq := x.seq + 1, formed := x.formed + 1, early := false
    deadA := x.deadA && !takesA, deadB := x.deadB && !takesB }

/-- The run of engine `e` ends (R212): RESULT, IDLE, `RUN_END`, and its charge or task. What the next record is to say of lost and early
edges, and the count's wraps seen, outlast the run (R201, R209). -/
def State.tdcEnd (s : State) (e result outcome : Nat) (m : Option Nat) : State :=
  let x := s.tdc e
  let keep : Tdc := {
    out := x.out, seq := x.seq, cfg := x.cfg, st := if s.tim.calHeld.contains e then 4 else 0
    deadA := x.deadA, deadB := x.deadB, early := x.early, epoch := x.epoch }
  let s := (s.setTdc e keep).setF (tdcBase e + 0x28) 3 0 result
  (s.occur (evNo (30 + e / 32) (e % 32))).endRun 2 e outcome (result = 4) m

/-- The COUNT-th record is formed. -/
def Tdc.counted (x : Tdc) : Bool := decide (x.count ≠ 0) && decide (x.count ≤ x.formed)

/-- No more records are to be formed: COUNT are, or the run is stopping and its measurement has ended. -/
def Tdc.full (x : Tdc) : Bool := x.counted || x.stopAt.any fun n => decide (n ≤ x.formed)

/-- The record of a pair of INTERVAL mode (R207): the `k`-th edges `a` of input A and `b` of input B. -/
def State.tdcPair (s : State) (e k : Nat) (a b : TdcEdge) : State :=
  let x := s.tdc e
  let near := decide ((a.bin : Int) - b.bin ≤ 1) && decide (-1 ≤ (a.bin : Int) - b.bin)
  let last := if a.et ≤ b.et then b else a
  s.tdcRecord e 2 (unsext 64 (s.interval x.slot x.srcA a x.srcB b)) (k % 2 ^ 32) (a.coarse || b.coarse) last.hold last.warm near
    false true

/-- An edge without a partner waits for it; a 17th discards the oldest (R207). -/
def waitPush (l : List (Nat × TdcEdge)) (k : Nat) (a : TdcEdge) : List (Nat × TdcEdge) × Bool :=
  if 16 ≤ l.length then (l.drop 1 ++ [(k, a)], true) else (l ++ [(k, a)], false)

/-- The edge numbered `k` among those that wait. -/
def waiter (l : List (Nat × TdcEdge)) (k : Nat) : Option (Nat × TdcEdge) := l.find? fun w => w.1 = k

/-- The φ of an edge in PHASE mode, moved by whole periods to within half a period of the first (R208). -/
def phaseOf (phi0 : Option Int) (t t0 : Int) (period : Nat) : Int :=
  let p : Int := (4 * period : Nat)
  let f := (t - t0) % p
  match phi0 with
  | none => f
  | some z => z + ((f - z + p / 2) % p - p / 2)

/-- The ET instant of the current gate's nominal end (R208). -/
def Tdc.nominalEnd (x : Tdc) : Nat := x.opened + x.gate * 5120

/-- The gate's edges so far with edge `a`. -/
def Tdc.gateEdge (x : Tdc) (a : TdcEdge) : Tdc := { x with gCoarse := x.gCoarse || a.coarse, gHold := a.hold, gWarm := a.warm }

/-- One edge leaves the FIFO and takes part in the measurement (R205 to R208); `none` if it must wait there. -/
def State.tdcTake (s : State) (e : Nat) (a : TdcEdge) : Option State :=
  let x := s.tdc e
  let extra (s : State) : State := s.incSat (tdcBase e + 0x3C) 1
  match x.mode with
  | 1 =>
    let n := a.beat
    let ovf := decide (n / 2 ^ 48 ≠ x.epoch)
    let s := s.setTdc e { x with epoch := n / 2 ^ 48 }
    some (s.tdcRecord e a.isB.toNat (n % 2 ^ 48 * 256 + a.et % 5120 / 20) 0 a.coarse a.hold a.warm false ovf true)
  | 2 =>
    if a.isB then
      match x.armed with
      | none => some ((s.setTdc e { x with early := true }).incSat (tdcBase e + 0x38) 1)
      | some f =>
        if a.bin < f.bin then some ((s.setTdc e { x with early := true }).incSat (tdcBase e + 0x38) 1)
        else
          let dt := s.interval x.slot x.srcA f x.srcB a
          let s := s.setTdc e { x with armed := none }
          some (s.tdcRecord e 2 (unsext 64 dt) (f.beat % 2 ^ 32) (f.coarse || a.coarse) a.hold a.warm
            (decide (a.bin ≤ f.bin + 1)) false true)
    else
      match x.armed with
      | some _ => some (extra s)
      | none => some (s.setTdc e { x with armed := some a })
  | 3 =>
    if a.isB then
      let x' := { x with kB := x.kB + 1 }
      match waiter x.waitA x.kB with
      | some w => some ((s.setTdc e { x' with waitA := x.waitA.erase w }).tdcPair e x.kB w.2 a)
      | none =>
        let r := waitPush x.waitB x.kB a
        let s := s.setTdc e { x' with waitB := r.1 }
        some (if r.2 then extra s else s)
    else
      let x' := { x with kA := x.kA + 1 }
      match waiter x.waitB x.kA with
      | some w => some ((s.setTdc e { x' with waitB := x.waitB.erase w }).tdcPair e x.kA a w.2)
      | none =>
        let r := waitPush x.waitA x.kA a
        let s := s.setTdc e { x' with waitA := r.1 }
        some (if r.2 then extra s else s)
  | 4 =>
    if x.last.isSome then none
    else
      let x := x.gateEdge a
      let x := if x.first.isNone then { x with first := some a, edges := 0 } else { x with edges := x.edges + 1 }
      some (s.setTdc e (if x.nominalEnd ≤ a.et then { x with last := some a } else x))
  | 5 =>
    if x.nominalEnd ≤ a.et then none
    else some (s.setTdc e { x.gateEdge a with edges := x.edges + 1 })
  | 6 =>
    if x.nominalEnd ≤ a.et then none
    else
      let f := phaseOf x.phi0 (s.calTime x.slot x.srcA a) ((x.t0 * 20480 : Nat) : Int) x.period
      some (s.setTdc e { x.gateEdge a with edges := x.edges + 1, sum := x.sum + f, phi0 := some (x.phi0.getD f) })
  | _ => some s

/-- The engine drains its FIFO while it may (R202, R203): an event in each fabric cycle at most, from the one after its detection on, while
its records are not stalled on a full ring and more are to be formed. With `upTo` what has left by that cycle; without, time goes on with it. -/
def State.tdcDrain (s : State) (e : Nat) (upTo : Option Nat) : Nat → State
  | 0 => s
  | fuel + 1 =>
    let x := s.tdc e
    match x.fifo with
    | [] => s
    | a :: l =>
      let due := max x.takeAt (a.et / 20480 + 1)
      if upTo.any (fun c => decide (c < due)) || (!x.out.isEmpty && s.ringFull .res) || x.full || !(x.st == 2 || x.st == 3) then s
      else
        let s := if upTo.isNone then s.passTo due else s
        match (s.setTdc e { x with fifo := l, takeAt := due + 1 }).tdcTake e a with
        | some t => t.tdcDrain e upTo fuel
        | none => s

/-- The FIFO drains as far as it goes, and time with it. -/
def State.tdcFlush (s : State) (e : Nat) : State := s.tdcDrain e none 33

/-- An engine that was held up goes on from now. -/
def State.tdcResume (s : State) (e : Nat) : State :=
  s.setTdc e { s.tdc e with takeAt := max (s.tdc e).takeAt s.cycle }

/-- The edge selection takes an edge of this direction (R197): 0 rising, 1 falling, 2 both. -/
def edgeTaken (sel : Nat) (rising : Bool) : Bool := sel = 2 || (sel = 0 && rising) || (sel = 1 && !rising)

/-- R80 gives TIM the compare inputs of channel `n`: the modes of bursts, of MEASURE and their like up to pruning stage 2, and DIAGNOSE, of a
channel that is not OFF, stray or powered down. CALIBRATE keeps them for its items. -/
def State.timSees (s : State) (n : Nat) : Bool :=
  let m := s.ctl.mode
  (m == 5 || m == 6 || (decide (8 ≤ m) && decide (m ≤ 12))) && decide (s.prune.stage ≤ 2) && s.chnActive n

/-- A source gives edges (R197, R198): not code 0; a channel's receiver while it is enabled and R80 gives it to TIM. -/
def State.sourceLive (s : State) (code : Nat) : Bool :=
  if 0x100 ≤ code ∧ code < 0x200 then bit (s.eff (chnBase (code - 0x100) + 0x48)) 2 && s.timSees (code - 0x100)
  else if 0x200 ≤ code ∧ code < 0x300 then bit (s.eff (chnBase (code - 0x200) + 0x48)) 3 && s.timSees (code - 0x200)
  else decide (code ≠ 0)

/-- The received bit of a channel source is inverted (R73, R198). -/
def State.sourceInv (s : State) (code : Nat) : Bool :=
  if 0x100 ≤ code ∧ code < 0x200 then bit (s.eff (chnBase (code - 0x100) + 0x48)) 5
  else if 0x200 ≤ code ∧ code < 0x300 then bit (s.eff (chnBase (code - 0x200) + 0x48)) 6
  else false

/-- An edge is in order of raw time in the FIFO, A before B at equal raw time (R205). -/
def fifoPush (l : List TdcEdge) (a : TdcEdge) : List TdcEdge :=
  match l.getLast? with
  | some b => if b.bin = a.bin ∧ b.isB ∧ !a.isB then l.dropLast ++ [a, b] else l ++ [a]
  | none => [a]

/-- An edge reaches input A or B of engine `e` at ET instant `et` (R201, R202, R204): lost to dead time, dropped at a full FIFO, or in the
FIFO. Inputs that the mode does not use see none (R205). -/
def State.tdcDetect (s : State) (e : Nat) (isB : Bool) (et : Nat) : State :=
  let x := s.tdc e
  let last := if isB then x.lastB else x.lastA
  if last.any fun l => decide ((et - l) * 10 < 65536) then
    (s.setTdc e (if isB then { x with deadB := true } else { x with deadA := true })).incSat (tdcBase e + 0x30) 1
  else
    let s := s.setTdc e (if isB then { x with lastB := some et } else { x with lastA := some et })
    let s := s.tdcDrain e (some (et / 20480)) 33
    let x := s.tdc e
    if 32 ≤ x.fifo.length then
      ((s.incSat (tdcBase e + 0x34) 1).incSat (timBase + 0x68) 1).occur (evNo 29 5)
    else
      let a : TdcEdge := ⟨et, isB, s.coarseAt (et / 20480), (s.tb 0).holdover, s.getB (timBase + 0x40) 0⟩
      s.setTdc e { x with fifo := fifoPush x.fifo a }

/-- Input A or B of engine `e` detects an edge of source `src` (R197, R205, R211): in RUN or STOPPING, from the beat of its opening on, by its
edge selection, within its burst gate, in a mode that uses the input. -/
def State.tdcHears (s : State) (e : Nat) (isB : Bool) (src et : Nat) (rising : Bool) : Bool :=
  let x := s.tdc e
  let sel := if isB then fld x.cfg 23 22 else fld x.cfg 21 20
  let bg := !(bit x.cfg 16) || (let q := s.seqOf (fld x.cfg 15 12); q.st == 3 && q.begun)
  (x.st == 2 || x.st == 3) && decide ((if isB then x.srcB else x.srcA) = src) && edgeTaken sel rising && bg &&
    !(isB && decide (4 ≤ x.mode)) && decide (x.t0 ≤ et / 5120)

/-- Frequency counter `i` counts (R216): enabled, in a mode from READY to SHED up to pruning stage 2, with the fast clocks running. -/
def State.fcRuns (s : State) : Bool :=
  decide (5 ≤ s.ctl.mode) && decide (s.ctl.mode ≤ 12) && decide (s.prune.stage ≤ 2) && s.ctl.clocks

/-- The cycle in which the gate of counter `i` ends. -/
def State.fcDue (s : State) (i : Nat) : Nat := Tab.get (fun _ => 0) s.tim.fcFrom i + 800 * s.getF (timBase + 0x6C) 15 0

/-- A rising edge of source `src` counts in every enabled counter that selects it, in the gate it falls in (R216). -/
def State.fcEdge (s : State) (src et : Nat) : State :=
  (List.range 8).foldl (fun s i =>
    let f := s.reg (timBase + 0x70 + 4 * i)
    if bit f 31 ∧ fld f 11 0 = src then
      if et / 20480 < s.fcDue i then
        { s with tim := { s.tim with fcLive := Tab.set (fun _ => 0) s.tim.fcLive i (Tab.get (fun _ => 0) s.tim.fcLive i + 1) } }
      else { s with tim := { s.tim with fcNext := Tab.set (fun _ => 0) s.tim.fcNext i (Tab.get (fun _ => 0) s.tim.fcNext i + 1) } }
    else s) s

/-- TDC_INPUT_EDGE (R197, R198, R201 to R204, R211, R216): an edge of source `src` at ET instant `et`; every input and every frequency counter
that selects the source sees it. `rising` is of the bit as received, before the inversion of R73. -/
def execTdcInputEdge (src et : Nat) (rising : Bool) (s : State) : Out :=
  .next (if !(s.sourceLive src) then s
    else
      let s := s.passTo (et / 20480)
      let up := rising != s.sourceInv src
      let s := (List.range 64).foldl (fun s e =>
        let s := if s.tdcHears e false src et up then s.tdcDetect e false et else s
        if s.tdcHears e true src et up then s.tdcDetect e true et else s) s
      if up && s.fcRuns then s.fcEdge src et else s)

/-! ### Runs (R210 to R212) -/

/-- The run of engine `e` enters RUN, unless a calibration item holds the engine (R210) or the reference switches (R214); its first gate
opens at the beat boundary of that, the next fabric cycle's first. -/
def State.tdcBegin (s : State) (e : Nat) : State :=
  let x := s.tdc e
  if x.st ≠ 1 ∨ s.tim.calHeld.contains e ∨ s.getB (timBase + 0x40) 3 then s
  else
    let b := 4 * (s.cycle + 1)
    s.setTdc e { x with st := 2, opened := 5120 * b, t0 := b }

/-- A START of engine `e` (R210): refused BAD_CFG without other effect, else ADMIT with the configuration as read now. -/
def State.tdcStart (s : State) (e : Nat) : State :=
  let a := tdcBase e
  let cfg := s.reg a
  let mode := fld cfg 27 24
  let gated := 4 ≤ mode
  if mode = 0 ∨ 6 < mode ∨ (gated ∧ (s.reg (a + 0xC)).toNat < 16) ∨ (gated ∧ bit cfg 16) then
    ((s.setF (a + 0x28) 3 0 5).occur (evNo (30 + e / 32) (e % 32))).endRun 2 e 4 false (some 0)
  else
    let slot := if s.getB (vin1Base + 0xE4) 31 then some (s.getF (vin1Base + 0xE0) 3 0) else none
    let x := s.tdc e
    (s.setTdc e {
      st := 1, deadA := x.deadA, deadB := x.deadB, early := x.early, epoch := x.epoch, cfg := cfg, srcA := s.getF (a + 4) 11 0, srcB := s.getF (a + 8) 11 0, gate := (s.reg (a + 0xC)).toNat
      tmo := (s.reg (a + 0x10)).toNat, count := (s.reg (a + 0x14)).toNat, period := s.reg64 (a + 0x18), slot := slot
      out := x.out }).setReg (a + 0x2C) 0

/-- A measurement is in progress (R212). -/
def Tdc.inProgress (x : Tdc) : Bool :=
  match x.mode with
  | 1 => false
  | 2 => x.armed.isSome
  | 3 => !x.waitA.isEmpty || !x.waitB.isEmpty
  | _ => true

/-- A STOP in RUN (R212): the measurement in progress, or a record formed and not yet written, is let finish; in TIMESTAMP the run ends at
once. -/
def State.tdcStop (s : State) (e : Nat) : State :=
  let x := s.tdc e
  if x.st ≠ 2 then s
  else if x.mode = 1 ∧ !x.counted then s.tdcEnd e 2 2 none
  else if x.counted then s.setTdc e { x with st := 3, stopAt := some x.formed }
  else if x.inProgress then s.setTdc e { x with st := 3, stopAt := some (x.formed + 1) }
  else if x.out.isEmpty then s.tdcEnd e 2 2 none
  else s.setTdc e { x with st := 3, stopAt := some x.formed }

/-- An ABORT (R212): what is in progress is discarded, records not yet written with it. -/
def State.tdcAbort (s : State) (e : Nat) : State :=
  let x := s.tdc e
  if x.st = 1 ∨ x.st = 2 ∨ x.st = 3 then
    ((s.setTdc e { x with out := [] }).withdraw 2 e).tdcEnd e 3 3 none
  else if s.getF (tdcBase e + 0x28) 3 0 = 1 then s.setF (tdcBase e + 0x28) 3 0 4
  else s

/-- A write of `CTRL` of engine `e`: ABORT before STOP before START (R212). -/
def State.tdcCtrl (s : State) (e : Nat) (v : Word) : State :=
  let x := s.tdc e
  if bit v 2 then s.tdcAbort e
  else if bit v 1 ∧ x.st = 2 then s.tdcStop e
  else if bit v 0 ∧ (x.st = 0 ∨ x.st = 4) then
    if !(s.startAllowed .tim (tdcBase e)) then s.denyStart (tdcBase e + 0x20)
    else
      let s := s.tdcStart e
      if (s.tdc e).st = 1 then s.waitStart 2 e (s.reg (tdcBase e + 0x24)).toNat else s
  else s

/-- TDC_START (R210): a write with START set, STOP and ABORT clear. -/
def execTdcStart (e : Nat) (v : Word) (s : State) : Out :=
  .next (if e < 64 ∧ bit v 0 ∧ !(bit v 1) ∧ !(bit v 2) then
    s.hostWrite 0 (tdcBase e + 0x20) v fun s => s.tdcCtrl e v else s)

/-- TDC_STOP (R212): a write with STOP set and ABORT clear. -/
def execTdcStop (e : Nat) (v : Word) (s : State) : Out :=
  .next (if e < 64 ∧ bit v 1 ∧ !(bit v 2) then s.hostWrite 0 (tdcBase e + 0x20) v fun s => s.tdcCtrl e v else s)

/-- TDC_ABORT (R212): a write with ABORT set. -/
def execTdcAbort (e : Nat) (v : Word) (s : State) : Out :=
  .next (if e < 64 ∧ bit v 2 then s.hostWrite 0 (tdcBase e + 0x20) v fun s => s.tdcCtrl e v else s)

/-- The engine whose record the writer takes next, in round robin among those that have one (R203). -/
def State.tdcTurn (s : State) : Option Nat :=
  (List.range 64).findSome? fun i =>
    let e := (s.tim.turn + i) % 64
    if (s.tdc e).out.isEmpty then none else some e

/-- The writer writes 2 records in a fabric cycle at most (R203). -/
def State.tdcSlot (s : State) : State :=
  let s := if s.tim.wroteAt = s.cycle ∧ 2 ≤ s.tim.wrote then s.pass 1 else s
  let n := if s.tim.wroteAt = s.cycle then s.tim.wrote else 0
  { s with tim := { s.tim with wroteAt := s.cycle, wrote := n + 1 } }

/-- The edges that a run which ends DONE leaves without a use: in the FIFO, or waiting for a partner. They are counted as extra (R204;
log 89). -/
def Tdc.left (x : Tdc) : Nat := x.fifo.length + x.waitA.length + x.waitB.length

/-- What the writing of a record does to its run (R212): the COUNT-th ends it DONE, the last one of a STOP ends it STOPPED. -/
def State.tdcCommit (s : State) (e m : Nat) : State :=
  let x := s.tdc e
  if !(x.st == 2 || x.st == 3) || !x.full || !x.out.isEmpty then (s.tdcResume e).tdcDrain e (some s.cycle) 33
  else if x.counted then (s.incSat (tdcBase e + 0x3C) x.left).tdcEnd e 1 1 (some m)
  else s.tdcEnd e 2 2 (some m)

/-- TDC_RECORD_WRITTEN (R203, R209, R212): the oldest record of engine `e` is written in its turn; the COUNT-th ends the run DONE, the one
of a measurement that a STOP let finish ends it STOPPED. `m` is the meter's reading of a direct start. A full ring stalls the writer. -/
def execTdcRecordWritten (e m : Nat) (s : State) : Out :=
  .next (if 64 ≤ e then s else
    let s := if (s.tdc e).out.isEmpty then s.tdcFlush e else s
    match (s.tdc e).out with
    | [] => s
    | r :: l =>
      if s.ringFull .res ∨ s.tdcTurn ≠ some e then s
      else
        let idx := (s.reg (timBase + 0x5C)).toNat
        match s.tdcSlot.ringPush .res (wordBytes r) with
        | none => s
        | some s =>
          let s := s.setTdc e { s.tdc e with out := l }
          let s : State := { s with tim := { s.tim with turn := (e + 1) % 64 } }
          let s := (s.incSat (tdcBase e + 0x2C) 1).setReg (flwBase + 0x200 + 4 * e) (wd (2 ^ 31 + idx))
          let n := s.flw.recs + 1
          let s := s.setFlow { s.flw with recs := n, lastRec := Tab.set (fun _ => 0) s.flw.lastRec e n }
          s.tdcCommit e m)

/-- The next gate opens at ET instant `b` with `first` as its first edge. -/
def Tdc.nextGate (x : Tdc) (b : Nat) (first : Option TdcEdge) : Tdc :=
  { x with opened := b, first := first, last := none, edges := 0, sum := 0, phi0 := none
           gCoarse := first.any (·.coarse), gHold := first.any (·.hold), gWarm := first.any (·.warm) }

/-- The mean of a gate's phases, rounded to the nearest unit and wrapped into [−2 PERIOD, 2 PERIOD) (R208). -/
def phaseMean (sum : Int) (n period : Nat) : Int :=
  let p : Int := (4 * period : Nat)
  let mean := (2 * sum + n) / (2 * n)
  (mean + p / 2) % p - p / 2

/-- TDC_GATE_END (R208): the gate of engine `e` ends and its record is formed. FREQUENCY ends at the awaited edge, the others at the
nominal end. -/
def execTdcGateEnd (e : Nat) (s : State) : Out :=
  .next (if 64 ≤ e then s else
    let s := s.tdcFlush e
    let x := s.tdc e
    if !(x.st == 2 || x.st == 3) ∨ x.full then s
    else match x.mode with
      | 4 =>
        match x.first, x.last with
        | some f, some l =>
          let span := s.interval x.slot x.srcA f x.srcA l
          let s := s.tdcRecord e 2 (unsext 64 span) x.edges (x.gCoarse || f.coarse) l.hold l.warm false false true
          (s.setTdc e ((s.tdc e).nextGate l.et (some l))).tdcResume e
        | _, _ => s
      | 5 =>
        let s := s.passTo (x.nominalEnd / 20480)
        let s := s.tdcRecord e 2 (x.edges % 2 ^ 64) 0 x.gCoarse x.gHold x.gWarm false (decide (2 ^ 64 ≤ x.edges)) true
        (s.setTdc e ((s.tdc e).nextGate x.nominalEnd none)).tdcResume e
      | 6 =>
        let s := s.passTo (x.nominalEnd / 20480)
        let s :=
          if x.edges = 0 then
            let r := s.freshNat 64
            r.2.tdcRecord e 2 r.1 0 x.gCoarse x.gHold x.gWarm false false false
          else s.tdcRecord e 2 (unsext 64 (phaseMean x.sum x.edges x.period)) x.edges x.gCoarse x.gHold x.gWarm false false true
        let used := if x.edges = 0 ∨ x.gCoarse then none else some (phaseMean x.sum x.edges x.period)
        let s := s.phaseGate e x.t0 (x.nominalEnd / 5120) x.gate used (4 * x.period)
        (s.setTdc e ((s.tdc e).nextGate x.nominalEnd none)).tdcResume e
      | _ => s)

/-- The ET instant at which the edge that FREQUENCY awaits is late (R208): `TMO` beats, or `GATE` beats, after the opening or the nominal
end. It is a beat boundary, the first at or after the point, and the next gate opens there. -/
def Tdc.lateAt (x : Tdc) : Nat :=
  let wait := if x.tmo = 0 then x.gate else x.tmo
  let point := (if x.first.isSome then x.nominalEnd else x.opened) + wait * 5120
  (point + 5119) / 5120 * 5120

/-- TDC_TIMEOUT (R206, R208): no stop within TMO beats of the start, or no awaited edge within TMO (or GATE) beats: a record with
VALID = 0 and OVF = 1, whose VALUE is open (log 4). -/
def execTdcTimeout (e : Nat) (s : State) : Out :=
  .next (if 64 ≤ e then s else
    let s := s.tdcFlush e
    let x := s.tdc e
    if !(x.st == 2 || x.st == 3) ∨ x.full then s
    else match x.mode, x.armed with
      | 2, some f =>
        if x.tmo = 0 then s
        else
          let s := s.passTo ((f.beat + x.tmo) / 4)
          let r := s.freshNat 64
          let s := r.2.setTdc e { x with armed := none }
          s.tdcRecord e 2 r.1 (f.beat % 2 ^ 32) f.coarse f.hold f.warm false true false
      | 4, _ =>
        if x.last.isSome then s
        else
          let s := s.passTo (x.lateAt / 20480)
          let r := s.freshNat 64
          let n := r.2.freshNat 32
          let s := n.2.tdcRecord e 2 r.1 n.1 x.gCoarse x.gHold x.gWarm false true false
          s.setTdc e ((s.tdc e).nextGate x.lateAt none)
      | _, _ => s)

/-- COARSE_COUNT_WRAP (R199): the 48-bit beat count wraps. -/
def execCoarseCountWrap (s : State) : Out :=
  .next ((s.passTo ((4 * s.cycle / 2 ^ 48 + 1) * 2 ^ 46)).occur (evNo 29 3))

/-! ### Oscillator and reference (R213 to R215) -/

/-- OCXO_WARM_REACHED (R213). -/
def execOcxoWarmReached (s : State) : Out := .next ((s.setB (timBase + 0x40) 0 true).setLive (evNo 29 0) true)

/-- OCXO_REGULATION_LOST (R213). -/
def execOcxoRegulationLost (s : State) : Out := .next ((s.setB (timBase + 0x40) 0 false).setLive (evNo 29 0) false)

/-- REF_SEL_WRITE (R214): a SEL that differs from the reference in use requests a switch. -/
def execRefSelWrite (v : Word) (s : State) : Out :=
  .next (s.hostWrite 0 (timBase + 0x44) v fun s =>
    let s := s.writeMasked (timBase + 0x44) v
    let used := s.getB (timBase + 0x40) 2
    { s with tim := { s.tim with switchReq := if bit v 0 = used then none else some (bit v 0) } })

/-- REF_SWITCH_APPLY (R214): with no burst and no engine in RUN or STOPPING, and REF_IN present for a switch to it, the switch is
applied: 40 µs of SWITCHING; TB0 enters holdover (R365). -/
def execRefSwitchApply (s : State) : Out :=
  .next (match s.tim.switchReq with
    | none => s
    | some toRef =>
      if (List.range 16).any s.burstRuns ∨ (List.range 64).any (fun e => (s.tdc e).st == 2 || (s.tdc e).st == 3) ∨
          (toRef ∧ !(s.getB (timBase + 0x40) 1)) ∨ s.tim.switchDue.isSome then s
      else
        let s := (s.setB (timBase + 0x40) 2 toRef).setB (timBase + 0x40) 3 true
        { s with tim := { s.tim with switchReq := none, switchDue := some (s.cycle + 32000) },
                 ctl := { s.ctl with fineSwitch := (s.cycle + 20000, s.cycle + 32000) } }.tb0Change)

/-- REF_SWITCH_DONE (R214): 40 µs later the switch ends, and a run that has its admission and waited for that begins. -/
def execRefSwitchDone (s : State) : Out :=
  .next (match s.tim.switchDue with
    | none => s
    | some c =>
      let s := (s.passTo c).setB (timBase + 0x40) 3 false
      let s := { s with tim := { s.tim with switchDue := none } }
      let held := (Tab.keys s.tim.engines).filter fun e => !(s.waiting 2 e)
      (held.foldl (fun s e => s.tdcBegin e) s).occur (evNo 29 2))

/-- REF_IN_DETECTED (R215): after 10 µs of edges in band. -/
def execRefInDetected (s : State) : Out := .next (s.setB (timBase + 0x40) 1 true)

/-- REF_IN_LOSS (R215): in use, the oscillator takes over at once, `REF_LOST` occurs, and 15 µs of fine re-lock follow. -/
def execRefInLoss (s : State) : Out :=
  .next (
    let used := s.getB (timBase + 0x40) 2
    let s := s.setB (timBase + 0x40) 1 false
    if used then
      let s := s.setB (timBase + 0x40) 2 false
      ({ s with ctl := { s.ctl with fineLoss := (s.cycle, s.cycle + 12000) } }.tb0Change).occur (evNo 29 1)
    else s)

/-! ### Frequency counters (R216) -/

/-- FC_GATE_END (R216): the gate of counter `i` ends: the rising edges that fell in it are its count, and the next gate follows. -/
def execFcGateEnd (i : Nat) (s : State) : Out :=
  .next (if i < 8 ∧ s.getB (timBase + 0x70 + 4 * i) 31 ∧ s.fcRuns then
    let due := s.fcDue i
    let count := Tab.get (fun _ => 0) s.tim.fcLive i
    let s := s.passTo due
    let s : State := { s with tim := { s.tim with
      fcFrom := Tab.set (fun _ => 0) s.tim.fcFrom i due
      fcLive := Tab.set (fun _ => 0) s.tim.fcLive i (Tab.get (fun _ => 0) s.tim.fcNext i)
      fcNext := Tab.set (fun _ => 0) s.tim.fcNext i 0 } }
    (s.setReg (timBase + 0x90 + 4 * i) (wd (min count 0xFFFFFFFF))).occur (evNo 29 6)
  else s)

/-- Every enabled counter starts a new gate now. -/
def State.fcRestart (s : State) : State :=
  { s with tim := { s.tim with
      fcFrom := (List.range 8).foldl (fun m i => Tab.set (fun _ => 0) m i s.cycle) s.tim.fcFrom, fcLive := [], fcNext := [] } }

/-- Counting is allowed again since `old`: every enabled counter starts a new gate (R216). -/
def State.fcResume (s old : State) : State := if s.fcRuns && !old.fcRuns then s.fcRestart else s

/-- A source code that is not reserved (R197). -/
def sourceOk (c : Nat) : Bool :=
  c = 0 || (0x10 ≤ c && c ≤ 0x23) || (0x28 ≤ c && c ≤ 0x2F) || (0x100 ≤ c && c ≤ 0x2FF)

/-- FC_CONFIG_WRITE (R216): a write of `FC_GATE` or `FC_SEL`: a gate of 0 or a reserved source leaves the register unchanged; new
gates start. -/
def execFcConfigWrite (req addr : Nat) (v : Word) (s : State) : Out :=
  .next (if timBase + 0x6C ≤ addr ∧ addr < timBase + 0x90 then
    s.hostWrite req addr v fun s =>
      let bad := if addr = timBase + 0x6C then fld v 15 0 = 0 else !(sourceOk (fld v 11 0))
      (if bad then s else s.writeMasked addr v).fcRestart
  else s)

end Sys2Proof.Machine
end

