-- ==== Sys2Proof/Machine/Cellar.lean ====
section
/-! DEFINITION. The memory controllers (11_cellar_controllers.md): training, the address maps, admission and issue of requests, the
port regulators, refresh, self-refresh, check codes and scrubbing. -/

namespace Sys2Proof.Machine

/-! ### Address map (R225) -/

/-- The mask of a commit is accepted: it has its own base bit and no other selector's. -/
def maskOk (near : Bool) (k m : Nat) : Bool :=
  (List.range (mapBase near).length).all fun j => nbit (m * 64) ((mapBase near).getD j 0) = decide (j = k)

/-- MAP_MASK_COMMIT (R225): the write of the high half commits the mask, staged until the store is quiet. -/
def execMapMaskCommit (req : Nat) (near : Bool) (k : Nat) (v : Word) (s : State) : Out :=
  let a := celBase (storeCtl near) + 0x140 + 8 * k
  .next (if k < (mapBase near).length then
    s.hostWrite req (a + 4) v fun s =>
      let r := s.take64 req a v
      let m := r.1 % 2 ^ 40
      if maskOk near k m then
        (((r.2.stageWord true a (wd m)).stageWord true (a + 4) (wd (m / 2 ^ 32))).setB
          (celBase (storeCtl near) + 0x100) 4 true)
      else r.2
  else s)

/-- Where, under the maps in force in `t`, a field address shows what `a` showed under those of `s`: the data stays in its place
in the memory, which only the present selectors name otherwise. -/
def movedAddr (s t : State) (near : Bool) (a : Nat) : Nat :=
  let o := a - storeBase near
  let flips := (List.range (mapBase near).length).filter fun k =>
    s.mapPresent near k && (parity (o &&& (s.mapMask near k * 64)) != parity (o &&& (t.mapMask near k * 64)))
  storeBase near + (o ^^^ ofBits (flips.map fun k => (mapBase near).getD k 0))

/-- The address belongs to a store (R226). -/
def inStore (near : Bool) (a : Nat) : Bool := isNear a = near

/-- The controller belongs to a store. -/
def ctlNear (c : Nat) : Bool := decide (8 ≤ c)

/-! ### Requests (R226 to R229) -/

/-- `PG_STAT.STATE` of a controller: 0 UNTRAINED, 1 TRAINING, 2 ACTIVE, 3 SELF_REFRESH, 4 EXCLUDED. -/
def State.celState (s : State) (c : Nat) : Nat := s.getF (celBase c + 0xC) 7 4

def State.setCelState (s : State) (c v : Nat) : State := s.setF (celBase c + 0xC) 7 4 v

/-- `s` with the requests queued replaced; `BUSY` reads 1 while a controller has some. -/
def State.setMemQueue (s : State) (l : List MemReq) : State :=
  (List.range 10).foldl (fun s c => s.setB (celBase c + 0xC) 0 (l.any fun r => r.ctl = c))
    { s with cel := { s.cel with queue := l } }

/-- A 64-byte access as the map decodes it (R223, R226). -/
def State.decodeReq (s : State) (a : Nat) : MemReq :=
  let near := isNear a
  let o := a - storeBase near
  let c := s.ctlOf a
  let cols := s.getF (celBase c + 0x40) 3 0
  let ranks := if near then 0 else s.getF (celBase c + 0x40) 7 4
  let rest := s.mapRest near o
  let bank := if near then s.mapField true o 6 5 else s.mapField false o 4 5
  ⟨c, if near then s.pseudo a % 32 else s.mapField false o 0 1, rest / 2 ^ cols % 2 ^ ranks, bank, rest / 2 ^ (cols + ranks),
    0, a, false, 0, [], 0, false, 0⟩

/-- Key of a controller's unit (subchannel or pseudo-channel), of its rank, and of a bank. -/
def MemReq.unitKey (r : MemReq) : Nat := 64 * r.ctl + r.unit
def MemReq.rankKey (r : MemReq) : Nat := 256 * r.unitKey + r.rank
def MemReq.bankKey (r : MemReq) : Nat := 64 * r.rankKey + r.bank

/-- A request of a real-time port: DEC or CAP (R237). -/
def MemReq.realTime (r : MemReq) : Bool := decide (r.port ≤ 1)

/-- The queue of a request has room: 64 reads and 64 writes per unit; a write to an access that is queued merges (R227, R229). -/
def State.queueRoom (s : State) (r : MemReq) : Bool :=
  decide ((s.cel.queue.filter fun x => !x.flight && x.unitKey = r.unitKey && x.write = r.write).length < 64) ||
  (r.write && s.cel.queue.any fun x => x.write && x.addr = r.addr)

/-- A request may be admitted (R227, R234, R236): the fast clocks run, its controller is active, tokens suffice and its queue has room. -/
def State.eligible (s : State) (r : MemReq) : Bool :=
  let near := ctlNear r.ctl
  s.ctl.clocks && s.celState r.ctl = 2 && (!(s.regulated near r.port) || decide (4096 ≤ s.bucket near r.port)) && s.queueRoom r

/-- Drain mode starts when a unit's write queue reaches HIGH entries (R228). -/
def State.drainStart (s : State) (r : MemReq) : State :=
  let n := (s.cel.queue.filter fun x => x.write && x.unitKey = r.unitKey).length
  if s.getF (celBase r.ctl + 0x64) 5 0 ≤ n then
    { s with cel := { s.cel with drain := Tab.set (fun _ => false) s.cel.drain r.unitKey true } }
  else s

/-- The bytes of the 64 from offset `off` that a write of `n` bytes covers. -/
def coverOf (off n : Nat) : Nat := (2 ^ n - 1) * 2 ^ off

/-- All 64 bytes of an access. -/
def coverAll : Nat := 2 ^ 64 - 1

/-- What a request's bytes do to memory; those of HOST leave no overlapped block retained (R138). -/
def State.storeReq (s : State) (r : MemReq) : State :=
  if r.port = 2 then s.hostMemWrite (r.addr + r.off) r.data else s.writeBytes (r.addr + r.off) r.data

/-- The access at `a` has a good check code again. -/
def State.unspoil (s : State) (a : Nat) : State :=
  { s with cel := { s.cel with poison := s.cel.poison.filter fun p => p ≠ a / 64 } }

/-- A queued write (R229): one to an access that is queued merges with it, and whole together they have a good check code. -/
def State.queueWrite (s : State) (r : MemReq) : State :=
  match s.cel.queue.find? fun x => x.write && x.addr = r.addr with
  | none => (s.setMemQueue (s.cel.queue ++ [r])).drainStart r
  | some x =>
    let y := { x with cover := x.cover ||| r.cover }
    let s := if y.cover = coverAll then s.unspoil r.addr else s
    s.setMemQueue (s.cel.queue.map fun z => if z = x then y else z)

/-- Admission (R227, R229, R234): 64 bytes of tokens, the port's byte count, and the queue; what a write stores is seen by every later
read, so it is stored now; one to a fenced pseudo-channel is discarded and counts (R222). -/
def State.admitReq (s : State) (r : MemReq) : State :=
  let s := s.portTake (ctlNear r.ctl) r.port
  let s : State := { s with cel := { s.cel with
    ports := s.cel.ports.erase r
    lastRt := if r.realTime then Tab.set (fun _ => 1) s.cel.lastRt r.ctl r.port else s.cel.lastRt
    lastPort := if r.realTime then s.cel.lastPort else Tab.set (fun _ => 5) s.cel.lastPort r.ctl r.port } }
  let q : MemReq := { r with data := [], since := s.cycle, cover := coverOf r.off r.data.length }
  if r.write then
    let s := if s.fencedAt r.addr then (s.incSat (celBase r.ctl + 0x54) 1).occur (evNo (32 + r.ctl) 2) else s
    (s.storeReq r).queueWrite q
  else s.setMemQueue (s.cel.queue ++ [q])

/-- The order of ports at a controller: DEC and CAP alternate, then the others in round robin (R227). -/
def State.portOrder (s : State) (c : Nat) : List Nat :=
  let rt := Tab.get (fun _ => 1) s.cel.lastRt c
  let o := Tab.get (fun _ => 5) s.cel.lastPort c
  [1 - rt, rt] ++ (List.range 4).map fun i => 2 + (o - 2 + 1 + i) % 4

/-- The request that a controller admits next: of the first port in order whose oldest request is eligible. -/
def State.nextAdmit (s : State) (c : Nat) : Option MemReq :=
  (s.portOrder c).findSome? fun p =>
    match s.cel.ports.find? fun r => r.ctl = c && r.port = p with
    | some r => if s.eligible r then some r else none
    | none => none

/-- Every controller admits what it can. -/
def State.admitAll : Nat → State → State
  | 0, s => s
  | n + 1, s =>
    match (List.range 10).findSome? s.nextAdmit with
    | none => s
    | some r => State.admitAll n (s.admitReq r)

/-- The waiting requests are looked at once each. -/
def State.takeIn (s : State) : State := State.admitAll s.cel.ports.length s

/-- REG_CFG_WRITE (R234, R235): EN with BURST 0 leaves the register unchanged; any other write fills the bucket. -/
def execRegCfgWrite (near : Bool) (p : Nat) (v : Word) (s : State) : Out :=
  .next (if p < 6 then
    s.hostWrite 0 (regCfg near p) v fun s =>
      if bit v 31 ∧ fld v 27 16 = 0 then s
      else ((s.writeMasked (regCfg near p) v).setBucket near p none).budget.takeIn
  else s)

/-- MAP_APPLY (R225): with nothing queued or in flight in the store the staged masks take effect; the data is not moved, so that it
is seen at other addresses; `MAP_APPLIED` occurs. The requests that wait at their ports go where the new map names. -/
def execMapApply (near : Bool) (s : State) : Out :=
  let p := celBase (storeCtl near)
  .next (if s.getB (p + 0x100) 4 ∧ !(s.cel.queue.any fun r => ctlNear r.ctl = near) then
    let t := (s.stagedIn p).foldl (fun s a => s.dropForce a) s
    let m := s.mem.foldl (fun l c =>
      Tab.set memDefault l (if inStore near c.1 then movedAddr s t near c.1 else c.1) c.2) []
    let poison := s.cel.poison.map fun x => if inStore near (64 * x) then movedAddr s t near (64 * x) / 64 else x
    let t : State := { t with mem := m, cel := { t.cel with poison := poison } }
    let t : State := { t with cel := { t.cel with ports := t.cel.ports.map fun r => { t.decodeReq r.addr with
      port := r.port, write := r.write, off := r.off, data := r.data, since := r.since } } }
    ((t.setB (p + 0x100) 4 false).occur (evNo (32 + storeCtl near) 6)).takeIn
  else s)

/-- PORT_REQUEST (R226, R227): a read of a 64-byte access, or a write of `data` from offset `off` in it. An unmapped one reads all-ones
or is discarded and raises `UNMAPPED` (R15); the others wait at their port until admitted. CAP and GAL only write (R237). -/
def execPortRequest (port addr : Nat) (write : Bool) (off : Nat) (data : List Byte) (s : State) : Out :=
  let a := addr / 64 * 64
  .next (if 5 < port ∨ 64 < off + data.length ∨ (!write ∧ (port = 1 ∨ port = 4)) then s
  else if !(s.mapped a) then
    let s := if write then s else { s with cel := { s.cel with data := List.replicate 64 0xFF, marked := false } }
    s.portMark write false a
  else
    let r := { s.decodeReq a with port := port, write := write, off := off, data := data, since := s.cycle }
    ({ s with cel := { s.cel with ports := s.cel.ports ++ [r] } }).takeIn)

/-- The place of a request among those of its unit (R228): a smaller number goes first. Real-time reads before others, one that has
waited 1 µs before the rest of its class, then one that hits an open row. -/
def State.issueRank (s : State) (r : MemReq) : Nat :=
  (if r.realTime || r.write then 0 else 4) +
  (if s.cycle < r.since + 800 then (if Tab.get (fun _ => none) s.cel.rows r.bankKey = some r.row then 1 else 2) else 0)

/-- The first request of least rank in a list, which is in order of age. -/
def State.issuePick (s : State) : List MemReq → Option MemReq
  | [] => none
  | r :: l =>
    match s.issuePick l with
    | none => some r
    | some x => if s.issueRank x < s.issueRank r then some x else some r

/-- A request waits for the forced REFab of its rank (R231). -/
def State.inRefresh (s : State) (r : MemReq) : Bool := decide (Tab.get (fun _ => 0) s.cel.refUntil r.rankKey ≠ 0)

/-- The real-time hold of a request's rank goes on for 64 cycles after it completes (R230). -/
def State.holdOn (s : State) (r : MemReq) : State :=
  if r.realTime then { s with cel := { s.cel with hold := Tab.set (fun _ => 0) s.cel.hold r.rankKey (s.cycle + 64) } } else s

/-- MEMORY_ISSUE (R228): unit `u` of controller `c` issues a request: a read before writes except in drain mode, a write when no read is
there; drain mode ends at LOW entries. A write is then done, a read in flight. A write in part is completed by a read with check result
`ecc` (R229). -/
def execMemoryIssue (c u ecc : Nat) (s : State) : Out :=
  .next (if s.celState c ≠ 2 ∨ !s.ctl.clocks then s else
    let s := s.takeIn
    let here := s.cel.queue.filter fun r => r.ctl = c && r.unit = u && !r.flight && !(s.inRefresh r)
    let rd := s.issuePick (here.filter fun r => !r.write)
    let wr := s.issuePick (here.filter fun r => r.write)
    let drain := Tab.get (fun _ => false) s.cel.drain (64 * c + u)
    match if drain then wr.or rd else rd.or wr with
    | none => s
    | some r =>
      let s : State := { s with cel := { s.cel with rows := Tab.set (fun _ => none) s.cel.rows r.bankKey (some r.row) } }
      if r.write then
        let s := if r.cover = coverAll || s.fencedAt r.addr then s else (s.checked c r.addr ecc).2
        let s := s.setMemQueue (s.cel.queue.erase r)
        let n : Nat := (s.cel.queue.filter fun x => x.write && x.unitKey = r.unitKey).length
        let s : State := if n ≤ s.getF (celBase c + 0x64) 21 16 then
            { s with cel := { s.cel with drain := Tab.set (fun _ => false) s.cel.drain r.unitKey false } } else s
        (s.holdOn r).takeIn
      else (s.setMemQueue (s.cel.queue.map fun x => if x = r then { x with flight := true } else x)).takeIn)

/-! ### Reads and scrubbing (R229, R238, R239) -/

/-- MEMORY_READ_COMPLETE (R229, R238): the oldest read in flight of unit `u` of controller `c` returns, with check result `ecc`. -/
def execMemoryReadComplete (c u ecc : Nat) (s : State) : Out :=
  .next (match s.cel.queue.find? fun r => r.ctl = c && r.unit = u && r.flight with
    | none => s
    | some r =>
      let k := s.checked c r.addr ecc
      let s := k.2
      let s : State := { s with cel := { s.cel with data := s.readBytes r.addr 64, marked := k.1 } }
      (s.setMemQueue (s.cel.queue.erase r)).holdOn r)

/-- Fabric cycles of a scrub pass: `HOURS` hours (R239). -/
def State.scrubPeriod (s : State) (c : Nat) : Nat := s.getF (celBase c + 0x68) 7 0 * 3600 * 800000000

/-- The pass of controller `c` as it stands now: once `HOURS` hours are over, a new one begins. -/
def State.scrubPass (s : State) (c : Nat) : Nat × List Nat :=
  let p := Tab.get (fun _ => (0, [])) s.cel.scrub c
  if s.cycle < p.1 + s.scrubPeriod c then p else (s.cycle, [])

/-- SCRUB_ACCESS (R239): with EN = 1 an active controller reads an access of its memory that its pass of `HOURS` hours has not read yet,
and corrects what it finds. It takes no port and no tokens. -/
def execScrubAccess (c a ecc : Nat) (s : State) : Out :=
  let x := a / 64 * 64
  .next (if c < 10 ∧ s.getB (celBase c + 0x68) 31 ∧ s.celState c = 2 ∧ s.ctl.clocks ∧ s.mapped x ∧ s.ctlOf x = c then
    let p := s.scrubPass c
    if p.2.contains x then s
    else
      let s : State := { s with cel := { s.cel with scrub := Tab.set (fun _ => (0, [])) s.cel.scrub c (p.1, x :: p.2) } }
      (s.checked c x ecc).2
  else s)

/-! ### Refresh (R230 to R233) -/

/-- Ranks of a controller by unit: two subchannels of 2^RANK_BITS ranks, or 32 pseudo-channels. -/
def State.rankKeys (s : State) (c u : Nat) : List Nat :=
  (List.range (if ctlNear c then 1 else 2 ^ s.getF (celBase c + 0x40) 7 4)).map fun r => 256 * (64 * c + u) + r

/-- The owed count of a rank. -/
def State.owedOf (s : State) (k : Nat) : Int := Tab.get (fun _ => 0) s.cel.owed k

/-- The largest owed count of a list of ranks, as 8 bits signed. -/
def State.owedMax (s : State) (l : List Nat) : Nat :=
  unsext 8 (match l.map s.owedOf with | [] => 0 | x :: r => r.foldl max x)

/-- `s` with the owed count of a rank replaced; `REF_STAT` shows the largest. -/
def State.setOwed (s : State) (c k : Nat) (v : Int) : State :=
  let s : State := { s with cel := { s.cel with owed := Tab.set (fun _ => 0) s.cel.owed k v } }
  let a := celBase c + 0x48
  if ctlNear c then s.setF a 7 0 (s.owedMax ((List.range 32).flatMap fun u => s.rankKeys c u))
  else (s.setF a 7 0 (s.owedMax (s.rankKeys c 0))).setF a 15 8 (s.owedMax (s.rankKeys c 1))

/-- A real-time burst holds the rank: a DEC or CAP request to it is queued or in flight, or the last completed within 64 cycles. -/
def State.held (s : State) (k : Nat) : Bool :=
  (s.cel.queue.any fun r => r.realTime && r.rankKey = k) || Tab.get (fun _ => 0) s.cel.hold k ≠ 0

/-- The rows of a rank close. -/
def State.closeRank (s : State) (k : Nat) : State :=
  { s with cel := { s.cel with rows := s.cel.rows.filter fun e => e.1 / 64 ≠ k } }

/-- tREFI of controller `c` in fabric cycles: 1.95 µs or 3.9 µs, half while `DOUBLE` (R219, R232). -/
def State.trefi (s : State) (c : Nat) : Nat :=
  (if ctlNear c then 3120 else 1560) / (if s.getB (celBase c + 0x48) 16 then 2 else 1)

/-- tRFC of controller `c` in fabric cycles (R231): 350 ns in HBM3E; tRFC2 as the SPD of the channel's DIMMs gives it. -/
def State.trfcOf (s : State) (c : Nat) : Nat := if ctlNear c then 280 else Tab.get (fun _ => 0) s.cel.trfc c

/-- TREFI_TICK (R230, R231): the owed count of rank `r` of unit `u` rises by 1, to 8 at most; reaching 8 under a real-time hold closes the
rank's rows and issues REFab at once, for which the rank's requests wait tRFC. -/
def execTrefiTick (c u r : Nat) (s : State) : Out :=
  let k := 256 * (64 * c + u) + r
  .next (if c < 10 ∧ s.celState c = 2 ∧ k ∈ s.rankKeys c u then
    let last := Tab.get (fun _ => 0) s.cel.tickAt k
    let s := s.passTo (if last = 0 then 0 else last + s.trefi c)
    let s : State := { s with cel := { s.cel with tickAt := Tab.set (fun _ => 0) s.cel.tickAt k s.cycle } }
    let n := min 8 (s.owedOf k + 1)
    let forced := decide (n = 8) && decide (s.owedOf k < 8) && s.held k
    let s := s.setOwed c k n
    if forced then
      let s : State := { s with cel := { s.cel with
        refUntil := Tab.set (fun _ => 0) s.cel.refUntil k (s.cycle + s.trfcOf c) } }
      ((s.closeRank k).incSat (celBase c + 0x4C) 1).occur (evNo (32 + c) 3)
    else s
  else s)

/-- Bank indexes that a same-bank or per-bank command names, and the index of a bank (log 88): the four banks of every DDR5 bank group, and the
32 banks of an HBM3E pseudo-channel. -/
def bankCount (c : Nat) : Nat := if ctlNear c then 32 else 4
def bankIndex (c bank : Nat) : Nat := if ctlNear c then bank else bank / 8

/-- A queued real-time request of the rank targets bank index `b`. -/
def State.targeted (s : State) (c k b : Nat) : Bool :=
  s.cel.queue.any fun x => x.realTime && x.rankKey = k && bankIndex c x.bank = b

/-- The rows of bank index `b` of a rank close. -/
def State.closeBank (s : State) (c k b : Nat) : State :=
  { s with cel := { s.cel with rows := s.cel.rows.filter fun e => !(decide (e.1 / 64 = k) && decide (bankIndex c (e.1 % 64) = b)) } }

/-- A command to bank index `b` completes: with it the last of the rank's indexes, so does a refresh. -/
def State.sweepBank (s : State) (c k b : Nat) : State :=
  let l := b :: (Tab.get (fun _ => []) s.cel.swept k).filter (· ≠ b)
  let done := (List.range (bankCount c)).all l.contains
  let s : State := { s.closeBank c k b with cel := { (s.closeBank c k b).cel with
    swept := Tab.set (fun _ => []) s.cel.swept k (if done then [] else l) } }
  if done then s.setOwed c k (s.owedOf k - 1) else s

/-- A refresh may be issued (R230): one is owed, or it is pulled in while the rank is idle and no real-time burst holds it. -/
def State.refreshable (s : State) (k : Nat) : Bool :=
  decide (0 < s.owedOf k) || (decide (-8 < s.owedOf k) && !(s.held k) && !(s.cel.queue.any fun x => x.rankKey = k))

/-- REFRESH_COMPLETE (R230, R231): a REFab of the rank completes, or for `bank` a same-bank or per-bank command to that bank index. A refresh,
which is one REFab or one command to every bank index, lowers the owed count by 1. Under a real-time hold there is no REFab but a forced one,
and no command to a bank index that a queued real-time request targets. -/
def execRefreshComplete (c u r : Nat) (bank : Option Nat) (s : State) : Out :=
  let k := 256 * (64 * c + u) + r
  let forced := Tab.get (fun _ => 0) s.cel.refUntil k
  .next (if c < 10 ∧ s.celState c = 2 ∧ k ∈ s.rankKeys c u then
    match bank with
    | none =>
      if forced ≠ 0 then
        let s := s.passTo forced
        let s : State := { s with cel := { s.cel with refUntil := Tab.set (fun _ => 0) s.cel.refUntil k 0 } }
        s.setOwed c k (s.owedOf k - 1)
      else if s.refreshable k && !(s.held k) then (s.closeRank k).setOwed c k (s.owedOf k - 1)
      else s
    | some b =>
      if forced = 0 ∧ b < bankCount c ∧ s.refreshable k ∧ !(s.held k && s.targeted c k b) then s.sweepBank c k b
      else s
  else s)

/-- REALTIME_HOLD_END (R230): 64 cycles after its last real-time request completed, a rank with none queued is no longer held. -/
def execRealtimeHoldEnd (c u r : Nat) (s : State) : Out :=
  let k := 256 * (64 * c + u) + r
  let due := Tab.get (fun _ => 0) s.cel.hold k
  .next (if due ≠ 0 ∧ !(s.cel.queue.any fun r => r.realTime && r.rankKey = k) then
    let s := s.passTo due
    { s with cel := { s.cel with hold := Tab.set (fun _ => 0) s.cel.hold k 0 } }
  else s)

/-- DRAM_TEMP_POLL (R232): the hottest sensors of DIMM 0 or the stack and of DIMM 1 are read, 32 ms after the last reading; above 85 °C
tREFI halves, at 83 °C or below it returns. -/
def execDramTempPoll (c : Nat) (t0 t1 : Int) (s : State) : Out :=
  .next (if c < 10 ∧ (s.celState c = 2 ∨ s.celState c = 3) then
    let last := Tab.get (fun _ => 0) s.cel.pollAt c
    let s := s.passTo (if last = 0 then 0 else last + 25600000)
    let s : State := { s with cel := { s.cel with pollAt := Tab.set (fun _ => 0) s.cel.pollAt c s.cycle } }
    let t1 := if ctlNear c then 0 else unsext 8 t1
    let s := s.setReg (celBase c + 0x60) (wd (2 ^ 31 + t1 * 256 + unsext 8 t0))
    let hottest := if ctlNear c then sext 8 (unsext 8 t0) else max (sext 8 (unsext 8 t0)) (sext 8 t1)
    let dbl := if 85 < hottest then true else if hottest ≤ 83 then false else s.getB (celBase c + 0x48) 16
    (s.setB (celBase c + 0x48) 16 dbl).setLive (evNo (32 + c) 4) dbl
  else s)

/-- Self-refresh is called for: the part enters or is in RECESS (R40), or pruning stage 3 or deeper (R233). -/
def State.selfRefreshDue (s : State) : Bool :=
  s.ctl.recess = .entering || s.ctl.recess = .resting || decide (3 ≤ s.prune.stage)

/-- Every rank of a controller. -/
def State.allRanks (s : State) (c : Nat) : List Nat :=
  (List.range (if ctlNear c then 32 else 2)).flatMap fun u => s.rankKeys c u

/-- Controller `c` enters self-refresh (R233): its rows are closed. -/
def State.selfRefreshIn (s : State) (c : Nat) : State := ((s.allRanks c).foldl (fun s k => s.closeRank k) s).setCelState c 3

/-- The active controllers complete their queued reads, drain their write queues, refresh until no refresh is owed, and enter
self-refresh, before the fast clocks stop (R233). -/
def State.selfRefreshAll (s : State) : State :=
  (List.range 10).foldl (fun s c =>
    if s.celState c = 2 then
      let s := s.setMemQueue (s.cel.queue.filter fun r => r.ctl ≠ c)
      ((s.allRanks c).foldl (fun s k => s.setOwed c k (min 0 (s.owedOf k))) s).selfRefreshIn c
    else s) s

/-- SELF_REFRESH_ENTRY (R233): with no request queued and every owed count 0 or below, the rows are closed and controller `c` enters
self-refresh. -/
def execSelfRefreshEntry (c : Nat) (s : State) : Out :=
  .next (if c < 10 ∧ s.celState c = 2 ∧ s.selfRefreshDue ∧ !(s.cel.queue.any fun r => r.ctl = c) ∧
      (s.allRanks c).all fun k => decide (s.owedOf k ≤ 0) then s.selfRefreshIn c
  else s)

/-- Controller `c` leaves self-refresh (R233): its owed counts restart at 0, and waiting requests are admitted. -/
def State.selfRefreshOut (s : State) (c : Nat) : State :=
  let s := (s.allRanks c).foldl (fun s k => s.setOwed c k 0) (s.setCelState c 2)
  State.takeIn { s with cel := { s.cel with
    swept := s.cel.swept.filter fun e => e.1 / 16384 ≠ c, refUntil := s.cel.refUntil.filter fun e => e.1 / 16384 ≠ c } }

/-- SELF_REFRESH_EXIT (R233): once the PLLs are locked controller `c` leaves self-refresh. -/
def execSelfRefreshExit (c : Nat) (s : State) : Out :=
  .next (if c < 10 ∧ s.celState c = 3 ∧ !s.selfRefreshDue ∧ s.ctl.clocks then s.selfRefreshOut c else s)

/-- Every controller still in self-refresh has left it by the end of the fine re-lock (R233). -/
def State.selfRefreshEnd (s : State) : State :=
  (List.range 10).foldl (fun s c => if s.celState c = 3 then s.selfRefreshOut c else s) s

/-! ### Training (R220 to R222, R240) -/

/-- Channels MCa to MCa + n − 1 all passed and are alike (R221). -/
def State.groupOk (s : State) (a n : Nat) : Bool :=
  (List.range n).all fun i =>
    let r := s.getF (celBase (a + i) + 0x44) 3 0
    (r = 1 || r = 2) && s.reg (celBase (a + i) + 0x40) = s.reg (celBase a + 0x40)

/-- The group of R221: the largest, then the lowest-numbered. -/
def State.trainGroup (s : State) : Option (Nat × Nat) :=
  [(3, 8), (2, 4), (1, 2), (0, 1)].findSome? fun l =>
    ((List.range (8 / l.2)).find? fun i => s.groupOk (i * l.2) l.2).map fun i => (i * l.2, l.1)

/-- The default masks that the FMI writes during training (R224). -/
def State.mapDefaults (s : State) : State :=
  [false, true].foldl (fun s near => (List.range (mapBase near).length).foldl (fun s k =>
    let a := celBase (storeCtl near) + 0x140 + 8 * k
    ((s.dropForce a).dropForce (a + 4)).setReg64 a ((resetValue a).toNat + 2 ^ 32 * (resetValue (a + 4)).toNat)) s) s

/-- The end of training (R221): the default masks, the group, its capacity and `MAP_STAT`; channels outside it are excluded. -/
def State.trainEnd (s : State) : State :=
  let s := s.mapDefaults.setReg (celBase 8 + 0x100) (wd (48 * 65536 + 6))
  let s : State := match s.trainGroup with
    | none =>
      let s : State := { s with cel := { s.cel with capacity := 0, first := 0, log2n := 0 } }
      (List.range 8).foldl (fun s c => s.setCelState c 4) (s.setReg (celBase 0 + 0x100) 32)
    | some (a, l) =>
      let gib := 2 ^ l * s.getF (celBase a + 0x40) 25 16
      let rates := (List.range (2 ^ l)).map fun i => Tab.get (fun _ => 0) s.cel.rates (a + i)
      let s : State := { s with cel := { s.cel with
        capacity := gib * 2 ^ 30, first := a, log2n := l, rate := rates.foldl min (rates.headD 0) } }
      (List.range 8).foldl (fun (s : State) c =>
        if a ≤ c ∧ c < a + 2 ^ l then s.setCelState c 2
        else
          let s := s.setCelState c 4
          let r := s.getF (celBase c + 0x44) 3 0
          if r = 1 ∨ r = 2 then s.setF (celBase c + 0x44) 3 0 9 else s) (s.setReg (celBase 0 + 0x100) (wd (gib * 65536 + l)))
  s.budget

/-- The data rate in MT/s that a channel permits (R219, R220): by its population, and by what the SPD of its DIMMs permits. -/
def channelRate (dimms spd : Nat) : Nat :=
  let cap := if 2 ≤ dimms then 5600 else 6400
  if cap ≤ spd then cap else if 5600 ≤ spd then 5600 else if 5200 ≤ spd then 5200 else 4800

/-- MEM_TRAINING_DONE (R219 to R222, R240): training of controller `c` ends with its geometry, result, time and repairs. Of a channel: its
DIMMs are of the kind of R219, the data rate in MT/s and tRFC2 in fabric cycles that their SPD permits; another kind fails FAIL_KIND. Of a
stack: the pseudo-channels that stay failed. The last one ends training. -/
def execMemTrainingDone (c : Nat) (geom : Word) (registered : Bool) (result ms repaired spd trfc : Nat) (fenced : List Nat) (s : State) :
    Out :=
  .next (if c < 10 ∧ s.celState c = 1 then
    let result := if !(ctlNear c) && !registered then 10 else result % 16
    let s := s.setReg (celBase c + 0x40) (geom &&& 0x0FFF1FFF)
    let s := s.setReg (celBase c + 0x44) (wd (ms % 65536 * 65536 + repaired % 256 * 256 + result))
    let s : State := { s with cel := { s.cel with
      fenced := s.cel.fenced ++ (if ctlNear c then (fenced.filter fun p => p / 32 = c - 8 && p < 64) else [])
      rates := Tab.set (fun _ => 0) s.cel.rates c (channelRate (fld geom 27 26) spd)
      trfc := Tab.set (fun _ => 0) s.cel.trfc c trfc } }
    let s := s.setCelState c 2
    let s := if 3 ≤ result ∨ (ctlNear c ∧ !fenced.isEmpty) then s.occur (evNo (32 + c) 5) else s
    if (List.range 10).all fun c => s.celState c ≠ 1 then s.trainEnd else s
  else s)

/-- The soft reset of a controller page (R236, and the page's text): the counters and `ERR_ADDR` return to 0, and the buckets of a store
page fill. -/
def State.celReset (s : State) (c : Nat) : State :=
  let a := celBase c
  let s := (((s.setReg (a + 0x4C) 0).setReg (a + 0x50) 0).setReg (a + 0x54) 0).setReg64 (a + 0x58) 0
  if c = 0 ∨ c = 8 then (List.range 6).foldl (fun s p => s.setBucket (ctlNear c) p none) s else s

/-- `REG_LEVEL` of the store pages, from the buckets. -/
def State.celView (s : State) (a : Nat) : Option Word :=
  let one (near : Bool) : Option Word :=
    let b := celBase (storeCtl near) + 0x220
    if b ≤ a ∧ a < b + 24 then some (wd (s.bucket near ((a - b) / 4) / 64)) else none
  (one false).or (one true)

end Sys2Proof.Machine
end

