-- ==== Sys2Proof/Machine/Calibration.lean ====
section
/-! DEFINITION. Calibration and vintages (16_calibration.md): items, temperature re-runs, the vintage format and its slots. -/

namespace Sys2Proof.Machine

/-! ### Items (R314, R316) -/

/-- The sections an item makes, `none` for a reserved code (R314). -/
def itemSections (code : Nat) : Option (List Nat) :=
  match code with
  | 0x01 => some [0] | 0x02 => some [1] | 0x03 => some [0, 1]
  | 0x10 => some [2] | 0x11 => some [3] | 0x12 => some [4] | 0x13 => some [2, 3, 4]
  | _ => none

/-- The item is external. -/
def itemExternal (code : Nat) : Bool := decide (0x10 ≤ code)

/-- The item counts edges through TDC engines: all but FINE_SEL (log 20). -/
def itemEngines (code : Nat) : Bool := code ≠ 2

/-- `s` with the calibration executor's state replaced. -/
def State.setCal (s : State) (c : Calib) : State := { s with cal := c }

/-- `ITEM_STAT.STATE`, `PG_STAT.STATE` and `BUSY` follow the item's state: 0 IDLE, 1 ADMIT, 2 RUN. -/
def State.calState (s : State) (st : Nat) : State :=
  ((s.setF (vinBase + 0x50) 11 8 st).setF (vinBase + 0xC) 7 4 st).setB (vinBase + 0xC) 0 (st ≠ 0)

/-- ID of the vintage in slot `i`, 0 if it is empty; and its flags. -/
def slotId (i : Nat) : Nat := vin1Base + 0x40 + 8 * i
def slotFlags (i : Nat) : Nat := vin1Base + 0x44 + 8 * i

/-- The newest vintage's slot. -/
def State.newest (s : State) : Option Nat :=
  if s.getB (vin1Base + 0xE4) 31 then some (s.getF (vin1Base + 0xE4) 3 0) else none

/-- The vintage of slot `i` is in use: by a desk, or by an engine in a run (R322). -/
def State.slotInUse (s : State) (i : Nat) : Bool :=
  ((List.range 32).any fun d => s.deskSlot d = some i) ||
  ((List.range 64).any fun e => decide (1 ≤ (s.tdc e).st) && decide ((s.tdc e).st ≤ 3) && (s.tdc e).slot = some i)

/-- The slot a new item reserves (R321): the lowest empty one, else the one with the lowest ID that is not kept, not in use and not the
parent. -/
def State.slotFor (s : State) : Option Nat :=
  match (List.range 16).find? fun i => s.reg (slotId i) = 0 with
  | some i => some i
  | none =>
    ((List.range 16).filter fun i => !(s.getB (slotFlags i) 31) && !(s.slotInUse i) && s.newest ≠ some i).foldl
      (fun b i => match b with
        | none => some i
        | some j => if (s.reg (slotId i)).toNat < (s.reg (slotId j)).toNat then some i else some j) none

/-- The item in progress takes every idle engine for its counts (R317, log 20). -/
def State.calTake (s : State) (besides : Nat) : State :=
  match s.cal.item with
  | some it =>
    if it.running && itemEngines it.code then
      let new := (List.range 64).filter fun e => (s.tdc e).st = 0 && e ≠ besides
      new.foldl (fun s e => s.setTdc e { s.tdc e with st := 4 })
        { s with tim := { s.tim with calHeld := s.tim.calHeld ++ new } }
    else s
  | none => s

/-- Engine `e` is returned: an engine in CAL is IDLE again, and a run that waits on it with the Bursar's admission given begins
(R210, R317). -/
def State.calReturn (s : State) (e : Nat) : State :=
  let s := { s with tim := { s.tim with calHeld := s.tim.calHeld.filter (· ≠ e) } }
  if (s.tdc e).st = 4 then s.setTdc e { s.tdc e with st := 0 }
  else if (s.tdc e).st = 1 ∧ !(s.waiting 2 e) then s.tdcBegin e
  else s

/-- The item ends with a RESULT (1 DONE, 2 ABORTED, 4 BAD_ITEM, 5 NO_SLOT): `ITEM_END`, its engines returned, and its charge or task
(R316, R318, R254). -/
def State.calEnd (s : State) (result outcome : Nat) (m : Option Nat) : State :=
  let s := s.setCal { s.cal with item := none }
  let s := (s.calState 0).setF (vinBase + 0x50) 3 0 result
  let s := s.tim.calHeld.foldl (fun s e => s.calReturn e) s
  (s.occur (evNo 56 0)).endRun 5 0 outcome false m

/-- Acceptance of item `code` (R316): the reserved slot is emptied, and the fixture table of an external item is read as it is (R315). The
item then waits for admission or runs. -/
def State.calAccept (s : State) (code trigger slot : Nat) : State :=
  let s := if itemExternal code then s.portDone 5 false (s.reg64 (vinBase + 0x68)) 4352 else s
  let temp := sext 16 (s.getF (vinBase + 0x5C) 15 0)
  let it : CalItem := {
    code := code, slot := slot, trigger := trigger, parent := s.newest, mask := s.reg (vinBase + 0x44)
    fixture := if itemExternal code then s.words (s.reg64 (vinBase + 0x68)) 1088 else []
    running := false, tmin := temp, tmax := temp }
  let s := s.setReg (slotId slot) 0
  let s := (s.setCal { s.cal with item := some it }).setReg (vinBase + 0x50)
    (wd (slot * 65536 + (if trigger = 1 then 16 else 0)))
  s.calState 1

/-- The item accepted runs, once admitted: external items take their masked channels out of park, and engines are taken. -/
def State.calBegin (s : State) : State :=
  match s.cal.item with
  | none => s
  | some it => ((s.setCal { s.cal with item := some { it with running := true } }).calState 2).calTake 64

/-- A start is turned away at once: the code is reserved, or an external item has no desk (R316). -/
def State.badItem (s : State) (code : Nat) : Bool :=
  (itemSections code).isNone || (itemExternal code && s.reg (vinBase + 0x44) = 0)

/-- A start of item `code`, with the Bursar's admission given if `admitted`: BAD_ITEM, NO_SLOT, or acceptance (R316). -/
def State.calStart (s : State) (code trigger : Nat) (admitted : Bool) : State :=
  let zero (s : State) : State := s.setReg (vinBase + 0x50) (if trigger = 1 then 16 else 0)
  if s.badItem code then (zero s).calEnd 4 4 (some 0)
  else match s.slotFor with
    | none => (zero s).calEnd 5 4 (some 0)
    | some i =>
      let s := s.calAccept code trigger i
      if admitted then s.calBegin else s

/-- The class of an item for R26. -/
def itemClass (code : Nat) : OpClass := if itemExternal code then .calExternal else .calInternal

/-- ITEM_START (R316): a write of `ITEM_CTRL` with START set and ABORT clear. An accepted item waits for the Bursar with `ITEM_ENERGY`. -/
def execItemStart (s : State) : Out :=
  .next (s.hostWrite 0 (vinBase + 0x48) 1 fun s =>
    if s.getB (vinBase + 0xC) 0 then s
    else
      let code := s.getF (vinBase + 0x40) 7 0
      if !(s.startAllowed (itemClass code) vinBase) then s.denyStart (vinBase + 0x48)
      else
        let s := s.calStart code 0 false
        if s.cal.item.isSome then s.waitStart 5 0 (s.reg (vinBase + 0x4C)).toNat else s)

/-- An abort of the calibration executor (R318): before the commit cycle the item ends ABORTED and its slot is empty; after it,
ABORT_NOOP. -/
def State.calAbort (s : State) : State :=
  match s.cal.item with
  | some _ => (s.withdraw 5 0).calEnd 2 3 none
  | none => if s.getF (vinBase + 0x50) 3 0 = 1 then s.setF (vinBase + 0x50) 3 0 3 else s

/-- ITEM_ABORT (R318): a write of `ITEM_CTRL` with ABORT set. -/
def execItemAbort (s : State) : Out := .next (s.hostWrite 0 (vinBase + 0x48) 2 State.calAbort)

/-- CAL_ENGINE_RELEASE (R317): the item returns engine `e`, within 6 ms of taking it; it takes other engines that are idle. -/
def execCalEngineRelease (e : Nat) (s : State) : Out :=
  .next (if s.tim.calHeld.contains e then (s.calReturn e).calTake e else s)

/-! ### Vintage format (R321, R323) -/

/-- The section that a slot offset belongs to, with its desk; sampler entries and histograms have none (32). Header and reserved bytes belong to no
section (16_calibration.md, the vintage format). -/
def sectionAt (o : Nat) : Option (Nat × Nat) :=
  let other (q : Nat) : Nat := [3, 4, 2, 2].getD (q % 4) 2
  if (0x20000 ≤ o ∧ o < 0xA8000) ∨ (0x120000 ≤ o ∧ o < 0x1A8000) then some (0, 32)
  else if 0x1000 ≤ o ∧ o < 0x11000 then
    let q := (o - 0x1000) / 64
    let x := o % 64
    if 52 ≤ x then none else if 8 ≤ x ∧ x < 12 then some (other q, q / 32) else some (1, q / 32)
  else if 0x100000 ≤ o ∧ o < 0x120000 then
    let q := (o - 0x100000) / 128
    if 112 ≤ o % 128 then none else some (1, q / 32)
  else if 0x1B0000 ≤ o ∧ o < 0x1B4000 then
    let q := (o - 0x1B0000) / 16
    some (other q, q / 32)
  else none

/-- What an absent section reads at a slot offset (R321): SEL selects elements 0 to 39, centres are 80b + 40, the rest is 0. -/
def defaultByte (sec off : Nat) : Byte :=
  if sec = 1 ∧ 0x1000 ≤ off ∧ off < 0x11000 ∧ off % 64 < 5 then 0xFF
  else if sec = 0 ∧ 0x20000 ≤ off ∧ off < 0xA8000 then
    let o := off % 1024
    if 16 ≤ o ∧ o < 528 then BitVec.ofNat 8 ((80 * ((o - 16) / 2) + 40) / 256 ^ ((o - 16) % 2)) else 0
  else 0

/-- The section makes the desk's range: it is one of the item's, and an external item's only within `DESK_MASK`. -/
def CalItem.makes (it : CalItem) (sec desk : Nat) : Bool :=
  ((itemSections it.code).getD []).contains sec && (!(itemExternal it.code) || desk = 32 || bit it.mask desk)

/-- The bytes of a new vintage at slot offsets `lo` to `lo + n - 1`: from the parent where the item does not make the section and the parent has it
(`present`), else with the values of an absent section (R319, R321); bytes of no section keep what they are. -/
def State.vintageBytes (s : State) (it : CalItem) (present lo n : Nat) : List Byte :=
  let old := s.readBytes (s.vinSlot it.slot + lo) n
  let par := match it.parent with
    | some p => s.readBytes (s.vinSlot p + lo) n
    | none => old
  ((List.range' lo n).zip (old.zip par)).map fun e =>
    match sectionAt e.1 with
    | none => e.2.1
    | some (sec, desk) =>
      if it.parent.isSome && nbit present sec && !(it.makes sec desk) then e.2.2 else defaultByte sec e.1

/-- The parts of a slot that hold sections: offset and bytes. -/
def slotParts : List (Nat × Nat) := [(0x1B0000, 0x4000), (0x120000, 0x88000), (0x100000, 0x20000), (0x20000, 0x88000), (0x1000, 0x10000)]

/-- A measured table is taken where the item makes it: bytes at a slot offset, all of them of its sections. -/
def CalItem.measures (it : CalItem) (m : Nat × List Byte) : Bool :=
  (List.range m.2.length).all fun i => match sectionAt (m.1 + i) with
    | none => false
    | some (sec, desk) => it.makes sec desk

/-- CRC-32 with the reset parameters of `CHK` (R190). -/
def crc32 (l : List Byte) : Nat := reflect 32 (crcBytes 32 0x04C11DB7 true 0xFFFFFFFF l) ^^^ 0xFFFFFFFF

/-- The centre of bin `b` of an input with hit counts `h`, from the cumulative widths of 5,120 ET × h_b / H each (R199); nominal without a hit
(R319). The unit above a centre that is not whole is a free choice. -/
def binCentre (h : List Nat) (b : Nat) : Nat :=
  if h.sum = 0 then 80 * b + 40
  else
    let num := 20480 * (2 * (h.take b).sum + h.getD b 0)
    let den := 2 * h.sum
    num / den + if num % den ≠ 0 ∧ Config.centreUp num den then 1 else 0

/-- The centres of sampler input `j` follow from its histogram in the slot at `a` (R199). -/
def State.writeCentres (s : State) (a j : Nat) : State :=
  let h := (List.range 256).map fun b => s.readLE (a + 0x120000 + 1024 * j + 4 * b) 4
  s.writeBytes (a + 0x20000 + 1024 * j + 16) ((List.range 256).flatMap fun b => bytesLE 2 (binCentre h b))

/-- The OFFSET field for a mean of `m` subnanosecond units: 4 to the ET. -/
def offsetField (m : Int) : Nat :=
  if m % 4 = 0 ∧ -2097152 ≤ m ∧ m < 2097152 then unsext 20 (m / 4) else (Config.offsetOf m).toNat

/-- The external offset of pair `q` from the mean `trip` of what was measured (R314): the arrival of the reference against TM_IN[0] less F_REF, or
the round trip less F_LOOP and the offset of the compare input it came back on (CMPL if `low`), which this slot holds. -/
def State.writeOffset (s : State) (it : CalItem) (q : Nat) (trip : Int) (low : Bool) : State :=
  let a := s.vinSlot it.slot
  let sec := [3, 4, 2, 2].getD (q % 4) 2
  if q < 1024 ∧ it.makes sec (q / 32) then
    let n := q / 4
    let loop := decide (q % 4 < 2)
    let fix := sext 32 (it.fixture.getD (4 * n + loop.toNat) 0).toNat
    let cmp := if loop then 4 * sext 20 (s.readLE (a + 0x1000 + 64 * (4 * n + if low then 3 else 2) + 8) 4) else 0
    let m := trip - fix - cmp
    (s.writeLE (a + 0x1000 + 64 * q + 8) 4 (offsetField m)).writeLE (a + 0x1B0000 + 16 * q) 4 (unsext 32 m)
  else s

/-- The vintage is written in its slot (R321, the vintage format): ranges of every section, the measured tables `meas`, the centres that follow
from its histograms (R199), the offsets that follow from the measured `trips`, compare inputs first (R314), and the header. The item's accesses
go through the CAL port (R237). -/
def State.writeVintage (s : State) (it : CalItem) (id : Nat) (meas : List (Nat × List Byte)) (trips : List (Nat × Int × Bool)) : State :=
  let a := s.vinSlot it.slot
  let s := match it.parent with
    | some p => slotParts.foldl (fun (s : State) (r : Nat × Nat) => s.portDone 5 false (s.vinSlot p + r.1) r.2) s
    | none => s
  let s := slotParts.foldl (fun (s : State) (r : Nat × Nat) => s.portDone 5 true (a + r.1) r.2) (s.portDone 5 true a 64)
  let h (n : Nat) : Nat := match it.parent with
    | some p => s.readLE (s.vinSlot p + 4 * n) 4
    | none => 0
  let made := (itemSections it.code).getD []
  let present := h 0 % 32
  let copied := bitsOf 5 present |>.filter fun k => !made.contains k
  let s := slotParts.foldl (fun s r => s.writeBytes (a + r.1) (s.vintageBytes it present r.1 r.2)) s
  let s := (meas.filter it.measures).foldl (fun s m => s.writeBytes (a + m.1) m.2) s
  let s := if made.contains 0 then (List.range 544).foldl (fun s j => s.writeCentres a j) s else s
  let s := (trips.filter fun t => 2 ≤ t.1 % 4).foldl (fun s t => s.writeOffset it t.1 t.2.1 t.2.2) s
  let s := (trips.filter fun t => t.1 % 4 < 2).foldl (fun s t => s.writeOffset it t.1 t.2.1 t.2.2) s
  let temp := s.getF (vinBase + 0x5C) 15 0
  let check := crc32 (s.readBytes (a + 0x1000) 0xA7000)
  let ext := h 5 ||| (if itemExternal it.code then it.mask.toNat else 0)
  s.writeWords a ([wd (2 ^ 28 + it.slot * 2 ^ 24 + ofBits copied * 65536 + (present ||| ofBits made)), wd id,
    wd (h 1), wd ((it.tmax - it.tmin).toNat % 65536 * 65536 + temp), wd it.trigger, wd ext, wd check, 0] ++
    timeWords (s.tbNow 0))

/-- Slot `i` holds vintage `id` of temperature `temp`, and it is the newest (R318, R322). -/
def State.installNewest (s : State) (i id temp : Nat) : State :=
  let s := (s.setReg (slotId i) (wd id)).setF (slotFlags i) 15 0 temp
  (s.setReg (vin1Base + 0xE4) (wd (2 ^ 31 + i))).setReg (vin1Base + 0xE0) (wd i)

/-- ITEM_COMMIT (R318, R319): the vintage with the measured tables `meas` and trips `trips` is complete and becomes the newest; `VINTAGE_NEW` and
`ITEM_END` occur. -/
def execItemCommit (meas : List (Nat × List Byte)) (trips : List (Nat × Int × Bool)) (m : Nat) (s : State) : Out :=
  .next (match s.cal.item with
    | none => s
    | some it =>
      if !it.running then s else
        let id := s.cal.nextId
        let s := s.writeVintage it id meas trips
        let s := s.setCal { s.cal with nextId := id + 1, judged := false }
        let s := (s.installNewest it.slot id (s.getF (vinBase + 0x5C) 15 0)).occur (evNo 56 1)
        s.calEnd 1 1 (some m))

/-- DESK_ADOPT_VINTAGE (R322): in a cycle in which its sequencer runs no burst, desk `d` takes the newest vintage; the last desk to do so
raises `ADOPTED`. -/
def execDeskAdoptVintage (d : Nat) (s : State) : Out :=
  .next (if 32 ≤ d ∨ s.newest = none ∨ s.deskSlot d = s.newest ∨ s.burstRuns (s.dskSeq d) then s
  else
    let s := s.setCal { s.cal with deskSlot := Tab.set (fun _ => none) s.cal.deskSlot d s.newest }
    if (List.range 32).all fun d => s.deskSlot d = s.newest then s.occur (evNo 56 2) else s)

/-- SLOT_FLAGS_WRITE (R321): KEEP and SAVE of slot `i`. -/
def execSlotFlagsWrite (i : Nat) (v : Word) (s : State) : Out :=
  .next (if i < 16 then s.hostWrite 0 (slotFlags i) v fun s => s.writeMasked (slotFlags i) v else s)

/-- A copy of slot `i`'s vintage is in flash. -/
def State.slotSaved (s : State) (i : Nat) : Bool :=
  s.reg (slotId i) ≠ 0 && s.cal.saved.any fun v => v.1 = (s.reg (slotId i)).toNat

/-- Flash address of copy `j` of the vintage region (R409). -/
def flashCopy (j : Nat) : Nat := 0x2100000 + 0xC0000 * j

/-- VINTAGE_FLASH_SAVE (R323): the compact part of slot `i`, whose SAVE is 1, is copied to the region of 4 vintages, over the oldest copy
if none is free. -/
def execVintageFlashSave (i : Nat) (s : State) : Out :=
  .next (if i < 16 ∧ s.getB (slotFlags i) 30 ∧ s.reg (slotId i) ≠ 0 ∧ !(s.slotSaved i) then
    let j := ((List.range 4).find? fun j => !(s.cal.saved.any fun v => v.2 = j)).getD ((s.cal.saved.headD (0, 0)).2)
    let old := s.cal.saved.filter fun v => v.2 ≠ j
    (s.setCal { s.cal with saved := old ++ [((s.reg (slotId i)).toNat, j)] }).flashPut (flashCopy j)
      (s.readBytes (s.vinSlot i) 0xA8000)
  else s)

/-- Step 8 of start-up (R323): the newest saved vintage whose CHECK holds is loaded into slot 0; if none holds, the FMI has run INTERNAL
with no parent, whose measured tables are `meas`. Every desk adopts the vintage (R322). -/
def State.calBoot (s : State) (meas : List (Nat × List Byte)) : State :=
  let good := (s.cal.saved.filter fun v =>
    crc32 (s.flashBytes (flashCopy v.2 + 0x1000) 0xA7000) = ofBytesLE (s.flashBytes (flashCopy v.2 + 24) 4)).foldl
      (fun (b : Option (Nat × Nat)) v => if (b.getD (0, 0)).1 < v.1 then some v else b) none
  let s : State := match good with
    | some v =>
      let a := flashCopy v.2
      let s := (s.writeBytes (s.vinSlot 0) (s.flashBytes a 0xA8000)).writeBytes (s.vinSlot 0 + 0x100000)
        (List.replicate 0x100000 0)
      s.installNewest 0 v.1 (ofBytesLE (s.flashBytes (a + 12) 2))
    | none =>
      let temp := sext 16 (s.getF (vinBase + 0x5C) 15 0)
      let id := s.cal.nextId
      let it : CalItem := { code := 3, slot := 0, trigger := 2, parent := none, mask := 0, tmin := temp, tmax := temp }
      let s := (s.writeVintage it id meas []).setCal { s.cal with nextId := id + 1 }
      (((s.installNewest 0 id (s.getF (vinBase + 0x5C) 15 0)).setReg (vinBase + 0x50) 1).occur (evNo 56 1)).occur (evNo 56 0)
  (s.setCal { s.cal with deskSlot := (List.range 32).map fun d => (d, some 0) }).occur (evNo 56 2)

/-! ### Temperature re-runs (R320) -/

/-- `TEMP_NOW` differs from the temperature of the newest vintage by CAL_DT or more, with `AUTO_EN`. -/
def State.tempOff (s : State) : Bool :=
  match s.newest with
  | none => false
  | some i =>
    let now := sext 16 (s.getF (vinBase + 0x5C) 15 0)
    let d := now - sext 16 (s.getF (slotFlags i) 15 0)
    s.getB (vinBase + 0x54) 31 && s.getB (vinBase + 0x5C) 31 && decide ((s.getF (vinBase + 0x54) 15 0 : Int) ≤ d.natAbs)

/-- A new `TEMP_NOW` (R320, R321): the range of the item in progress takes it, and the difference is judged; on first reaching CAL_DT,
`TEMP_TRIG` occurs and a re-run is requested, which waits as a direct start (unit 1 of the class marks it), unless one is pending. -/
def State.calTemp (s : State) (v : Word) : State :=
  let s := s.setReg (vinBase + 0x5C) v
  let t := sext 16 (fld v 15 0)
  let s := match s.cal.item with
    | some it => s.setCal { s.cal with item := some { it with tmin := min it.tmin t, tmax := max it.tmax t } }
    | none => s
  if s.tempOff then
    if s.cal.judged then s
    else
      let s := (s.setCal { s.cal with judged := true }).occur (evNo 56 3)
      if s.cal.autoPend then s
      else (s.setCal { s.cal with autoPend := true }).waitStart 5 1 (s.reg (vinBase + 0x58)).toNat
  else s.setCal { s.cal with judged := false }

/-- The modes in which a temperature re-run may begin: those of internal items, and EXECUTE and AUTONOMOUS (R26, R320); and none pends that
forbids it (R31). -/
def State.autoModes (s : State) : Bool :=
  let ok (m : Nat) : Bool := modePermits .calInternal m s.prune.stage || m = 8 || m = 10
  ok s.ctl.mode && s.ctl.recess != .entering && (s.ctl.pend.all fun r => ok r.target)

/-- `IN_USE` and `SAVED` of the slots, and `DESK_ACT`. -/
def State.calView (s : State) (a : Nat) : Option Word :=
  let o := a - vin1Base
  if a < vin1Base ∨ vin1Base + 0x1000 ≤ a then none
  else if 0x40 ≤ o ∧ o < 0xC0 ∧ o % 8 = 4 then
    let i := (o - 0x40) / 8
    some (setBit (setBit (s.reg a) 29 (s.slotInUse i)) 28 (s.slotSaved i))
  else if 0xC0 ≤ o ∧ o < 0xD0 then
    some (wd (((List.range 8).map fun k => ((s.deskSlot (2 * (o - 0xC0) + k)).getD 0) * 16 ^ k).sum))
  else none

end Sys2Proof.Machine
end

