-- ==== Sys2Proof/Machine/Host.lean ====
section
/-! DEFINITION. The host link (20_host_satchel.md): the PCI Express function, MSI-X, the BAR2 window, the DMA channels and the flash. -/

namespace Sys2Proof.Machine

/-- `s` with the host link's state replaced. -/
def State.setHost (s : State) (h : HostLink) : State := { s with host := h }

/-! ### BAR2 (R396, R397) -/

/-- The accesses that a BAR2 write of the enabled bytes of `data` from `a` makes. -/
def bar2Accesses (a : Nat) (data : List (Option Byte)) : List (Nat × Bool) :=
  (accesses a data.length).map fun x =>
    (x.1, x.2 && ((data.drop (x.1 - a)).take 64).all Option.isSome)

/-- A BAR2 access at field address `a` through the HOST port: bytes written where enabled, or `len` bytes read; uncorrectable data poisons
the completion. -/
def State.bar2Do (s : State) (a : Nat) (write : Bool) (data : List (Option Byte)) (len : Nat) : State :=
  match s.portEach 2 write (if write then bar2Accesses a data else accesses a len) with
  | none => s
  | some s =>
    if write then
      if data.all Option.isSome then s.hostMemWrite a (data.filterMap id)
      else (data.zip (List.range data.length)).foldl (fun s p =>
        match p.1 with
        | some b => s.hostMemWrite (a + p.2) [b]
        | none => s) s
    else
      let bad := (List.range len).any fun i => s.mapped (a + i) && !(s.readOk (a + i) 1)
      s.setHost { s.host with bar2 := s.readBytes a len, poisoned := bad }

/-- A BAR2 access at window offset `off` (R29, R43, R396, R397, R419). -/
def State.bar2 (s : State) (off : Nat) (write : Bool) (data : List (Option Byte)) (len : Nat) : State :=
  let ones (s : State) : State :=
    if write then s else s.setHost { s.host with bar2 := List.replicate len 0xFF, poisoned := false }
  if s.host.d3hot then s
  else if !s.fieldVisible then ones s
  else if 3 ≤ s.prune.stage then ones (s.deny 4 0 0 true write)
  else if s.ctl.mode = 4 then
    if s.getB (glbBase + 0x64) 20 then
      State.wake { s with ctl := { s.ctl with held := s.ctl.held ++ [HeldAccess.mk 0 off write 0 true data len] } } false
    else
      let s := s.deny 7 0 0 true write
      if write then s else s.setHost { s.host with bar2 := List.replicate len 0, poisoned := false }
  else s.bar2Do (s.reg64 (hlkBase + 0x48) + off) write data len

/-- BAR2_ACCESS (R396, R397): a read of `len` bytes, or a write of the enabled bytes of `data`, at window offset `off`. -/
def execBar2Access (off : Nat) (write : Bool) (data : List (Option Byte)) (len : Nat) (s : State) : Out :=
  .next (if off + (if write then data.length else len) ≤ 2 ^ 36 ∧ (if write then data.length else len) ≤ 4096 then
    s.bar2 off write data len
  else s)

/-! ### DMA channels (R398 to R402) -/

/-- The registers of channel `c`. -/
def dmaBase (c : Nat) : Nat := hlkBase + 0x100 + 0x40 * c

/-- Channel `c`. -/
def State.dma (s : State) (c : Nat) : DmaChan := Tab.get (fun _ => {}) s.host.dma c

/-- `PG_STAT.BUSY` of `HLK`: a chain or a flash operation runs. -/
def State.hlkBusy (s : State) : State :=
  s.setB (hlkBase + 0xC) 0 ((List.range 8).any (fun c => (s.dma c).st ≠ 0) || s.host.op.isSome)

/-- `s` with channel `c` replaced; its BUSY follows. -/
def State.setDma (s : State) (c : Nat) (x : DmaChan) : State :=
  ((s.setHost { s.host with dma := Tab.set (fun _ => {}) s.host.dma c x }).setB (dmaBase c + 0x10) 4 (x.st ≠ 0)).hlkBusy

/-- Fields of a descriptor (R398). -/
def DmaChan.w (x : DmaChan) (n : Nat) : Word := x.words.getD n 0
def DmaChan.hostAddr (x : DmaChan) : Nat := (x.w 0).toNat + 2 ^ 32 * (x.w 1).toNat
def DmaChan.fieldAddr (x : DmaChan) : Nat := (x.w 2).toNat + 2 ^ 32 * fld (x.w 3) 15 0
def DmaChan.len (x : DmaChan) : Nat := (x.w 4).toNat
def DmaChan.next (x : DmaChan) : Nat := (x.w 6).toNat + 2 ^ 32 * (x.w 7).toNat
def DmaChan.toHost (x : DmaChan) : Bool := bit (x.w 5) 0

/-- The Timetable outcome of a chain's RESULT (R254, R401). -/
def dmaOutcome (result : Nat) : Nat :=
  match result with
  | 1 => 1 | 3 => 1 | 2 => 3 | _ => 4

/-- A chain ends with a RESULT (R401): `DMA_END[c]`; a direct start's charge is settled; a task's end goes to the field side in a FLOW
message (R402). -/
def State.dmaEnd (s : State) (c result : Nat) : State :=
  let x := s.dma c
  let s := ((s.setDma c {}).setF (dmaBase c + 0x10) 3 0 result).occur (evNo 2 c)
  if x.task then
    { s with sat := { s.sat with flowDown := s.sat.flowDown ++ [.dmaEnd c (dmaOutcome result) (decide (result = 3))] } }
  else s.endRun 4 c (dmaOutcome result) false none

/-- The registers of a new chain from descriptor `addr`; `st` as in `DmaChan`. -/
def State.dmaSet (s : State) (c addr st : Nat) (task : Bool) : State :=
  let a := dmaBase c
  ((((s.setDma c { st := st, task := task }).setF (a + 0x10) 3 0 0).setReg (a + 0x14) 0).setReg64 (a + 0x18) 0).setReg64
    (a + 0x20) addr

/-- A dispatch to channel `c` is on its way to the host end. -/
def State.dmaSent (s : State) (c : Nat) : Bool :=
  s.sat.flowUp.any fun m => match m with
    | .dmaStart u _ => u == c
    | _ => false

/-- A Timetable task's run holds channel `c`, which is busy from its dispatch cycle on (R252). -/
def State.dmaTaken (s : State) (c : Nat) : Bool :=
  s.dmaSent c || s.bur.runs.any fun w => decide (w.cls = 4) && decide (w.unit = c) && !w.direct && (s.task w.slot).ended.isNone

/-- DMA_CTRL_START (R401): a write of `CTRL` with START set and ABORT clear; ignored while BUSY. It waits for the Bursar with `ENERGY`. -/
def execDmaCtrlStart (c : Nat) (s : State) : Out :=
  .next (if c < 8 then
    s.hostWrite 0 (dmaBase c + 8) 1 fun s =>
      if (s.dma c).st ≠ 0 ∨ s.dmaTaken c then s
      else if !(s.startAllowed .dma (dmaBase c)) then s.denyStart (dmaBase c + 8)
      else (s.dmaSet c (s.reg64 (dmaBase c)) 1 false).waitStart 4 c (s.reg (dmaBase c + 0xC)).toNat
  else s)

/-- An admitted chain reads its first descriptor. -/
def State.dmaBegin (s : State) (c : Nat) : State :=
  if (s.dma c).st = 1 then s.setDma c { s.dma c with st := 2 } else s

/-- `n` bytes of free value (log 4). -/
def State.freshBytes (s : State) (n : Nat) : List Byte × State :=
  ((List.range n).map fun i => (Config.freeValue (s.fresh + i)).setWidth 8, { s with fresh := s.fresh + n })

/-- The field bytes of the descriptor that an ABORT cuts short are open (R401). -/
def State.dmaSpoil (s : State) (c : Nat) : State :=
  let x := s.dma c
  if x.st = 3 ∧ !x.toHost then
    let r := s.freshBytes x.len
    r.2.hostMemWrite x.fieldAddr r.1
  else s

/-- ABORT of channel `c` (R401, R271). -/
def State.dmaAbort (s : State) (c : Nat) : State :=
  if (s.dma c).st ≠ 0 then ((s.dmaSpoil c).withdraw 4 c).dmaEnd c 2
  else if s.getF (dmaBase c + 0x10) 3 0 = 1 then s.setF (dmaBase c + 0x10) 3 0 3
  else s

/-- The ABORT of a task of class DMA (R255): a dispatch that has not left yet is withdrawn, and its run ends ABORTED. -/
def State.dmaTaskAbort (s : State) (c : Nat) : State :=
  if s.dmaSent c then
    State.endRun { s with sat := { s.sat with flowUp := s.sat.flowUp.filter fun m => match m with
      | .dmaStart u _ => u != c
      | _ => true } } 4 c 3 false none
  else s.dmaAbort c

/-- DMA_CTRL_ABORT (R401): a write of `CTRL` with ABORT set. -/
def execDmaCtrlAbort (c : Nat) (s : State) : Out :=
  .next (if c < 8 then s.hostWrite 0 (dmaBase c + 8) 2 fun s => s.dmaAbort c else s)

/-- HOST_READ_COMPLETION (R400): host bytes of a DIR = 0 descriptor arrive at the endpoint. -/
def execHostReadCompletion (c : Nat) (bytes : List Byte) (s : State) : Out :=
  let x := s.dma c
  .next (if c < 8 ∧ x.st = 3 ∧ !x.toHost ∧ x.moved + x.inbound.length + bytes.length ≤ x.len then
    s.setDma c { x with inbound := x.inbound ++ bytes, askedAt := s.cycle }
  else s)

/-- Channel `c` has bytes to move across the barrier. -/
def DmaChan.movable (x : DmaChan) : Bool := x.st == 3 && (if x.toHost then decide (x.moved < x.len) else !x.inbound.isEmpty)

/-- Channel `c` has the turn for `n` bytes (R400): active channels share the barrier round robin in units of 4 KiB, and one that has nothing to move gives
its turn up. -/
def State.dmaTurn (s : State) (c n : Nat) : Bool :=
  let u := s.host.unitLeft
  let last := s.host.unitOf
  if u ≠ 0 ∧ (s.dma last).movable then c = last && decide (n ≤ u)
  else ((List.range 8).map fun i => (last + 1 + i) % 8).find? (fun i => (s.dma i).movable) = some c

/-- Channel `c` has moved `n` bytes of its unit. -/
def State.dmaShare (s : State) (c n : Nat) : State :=
  let u := if s.host.unitLeft ≠ 0 ∧ s.host.unitOf = c then s.host.unitLeft else 4096
  s.setHost { s.host with unitOf := c, unitLeft := u - n }

/-- DMA_HOST_COMPLETION_ERROR (R402): a completion with an error status ends a DIR = 0 descriptor's chain HOST_ERR, and field data marked
uncorrectable a DIR = 1 descriptor's chain FIELD_ERR. -/
def execDmaHostCompletionError (c : Nat) (s : State) : Out :=
  .next (if c < 8 ∧ (s.dma c).st = 3 then s.dmaEnd c (if (s.dma c).toHost then 6 else 5) else s)

/-- Completion timeout in fabric cycles: range B, by default 50 ms (R394). -/
def completionTimeout : Nat := 40000000

/-- PCIE_COMPLETION_TIMEOUT (R402): host bytes of a DIR = 0 descriptor do not come, and the chain ends HOST_ERR. -/
def execPcieCompletionTimeout (c : Nat) (s : State) : Out :=
  let x := s.dma c
  .next (if c < 8 ∧ x.st = 3 ∧ !x.toHost ∧ x.moved + x.inbound.length < x.len then
    (s.passTo (x.askedAt + completionTimeout)).dmaEnd c 5
  else s)

/-- Every DMA chain is aborted, and every dispatch to a channel that has not reached the host end is withdrawn (R31, R417). -/
def State.dmaAbortForbidden (s : State) : State :=
  (List.range 8).foldl (fun s c => if (s.dma c).st ≠ 0 ∨ s.dmaSent c then s.dmaTaskAbort c else s) s

/-! ### The PCI Express function (R394, R395, R411) -/

/-- Every DMA chain is aborted. -/
def State.dmaAbortAll (s : State) : State :=
  (List.range 8).foldl (fun s c => if (s.dma c).st ≠ 0 then s.dmaAbort c else s) s

/-- `HLK` and the MSI-X table return to their reset values (R395); the link's state and a flash operation's BUSY stay what they are. -/
def State.hlkReset (s : State) : State :=
  let s := s.dmaAbortAll
  let keep (a : Nat) : Bool := a = hlkBase + 0x40 || a = hlkBase + 0xC
  let regs := s.regs.filter fun e => !(decide (hlkBase ≤ e.1) && decide (e.1 < hlkBase + 0x1000)) || keep e.1
  let s : State := { s with regs := regs, msix := { s.msix with fnMask := false, unmasked := [], pba := [] } }
  ((s.dropStaging hlkBase).setB (hlkBase + 0x60) 4 s.host.op.isSome).hlkBusy

/-- PCIE_FLR (R395). -/
def execPcieFlr (s : State) : Out := .next s.hlkReset

/-- PCIE_D3HOT_ENTRY (R395). -/
def execPcieD3hotEntry (s : State) : Out := .next (s.hlkReset.setHost { s.hlkReset.host with d3hot := true })

/-- PCIE_D0_ENTRY (R395). -/
def execPcieD0Entry (s : State) : Out := .next (s.setHost { s.host with d3hot := false })

/-- PCIE_LINK_CHANGE (R411): the data link's state, L1, width and speed; a change of DL_UP, WIDTH or SPEED is an event. -/
def execPcieLinkChange (up l1 : Bool) (width speed : Nat) (s : State) : Out :=
  let a := hlkBase + 0x40
  let v := wd (up.toNat * 65536 + l1.toNat * 32768 + width % 64 * 16 + speed % 16)
  let old := s.reg a
  let t := (s.setReg a v).setF (hlkBase + 0xC) 7 4 up.toNat
  .next (if setBit old 15 false = setBit v 15 false then t else t.occur (evNo 2 18))

/-- The pending bit of vector `v` is taken: one message is sent, if it is set and neither mask holds (R62). -/
def State.msixFlush (s : State) (v : Nat) : State :=
  if !s.msix.fnMask && Tab.get (fun _ => false) s.msix.unmasked v && Tab.get (fun _ => false) s.msix.pba v then
    State.msixSend { s with msix := { s.msix with pba := Tab.set (fun _ => false) s.msix.pba v false } } v
  else s

/-- MSIX_UNMASK (R62): a vector, or the function, is unmasked; each vector whose pending bit is still set sends one message. -/
def execMsixUnmask (vector : Option Nat) (s : State) : Out :=
  .next (match vector with
    | some v =>
      if 256 ≤ v then s
      else State.msixFlush { s with msix := { s.msix with unmasked := Tab.set (fun _ => false) s.msix.unmasked v true } } v
    | none =>
      (Tab.keys s.msix.pba).foldl (fun s v => s.msixFlush v) { s with msix := { s.msix with fnMask := false } })

/-! ### Flash (R409, R410) -/

/-- `BOOT_STAT.BANK_USED`. -/
def State.bankUsed (s : State) : Nat := s.getF (glbBase + 0x54) 1 0

/-- Where R409 refuses a PROGRAM or ERASE. -/
def State.flashProtected (s : State) (a : Nat) : Bool :=
  if a < 0x100000 then true
  else if a < 0x1100000 then s.bankUsed = 0
  else if a < 0x2100000 then s.bankUsed = 1
  else true

/-- A flash operation ends with a result; `FLASH_DONE` occurs. -/
def State.flashEnd (s : State) (result : Nat) : State :=
  ((s.setHost { s.host with op := none }).setReg (hlkBase + 0x60) (wd result)).hlkBusy.occur (evNo 2 17)

/-- A GO with OP and LEN (R410): ignored while BUSY; refused BAD_CFG, PROTECTED or FORBIDDEN; else the operation runs. -/
def State.flashGo (s : State) (op len : Nat) : State :=
  let a := hlkBase + 0x5C
  let s := s.setReg a (wd (len % 512 * 256 + op % 4))
  let addr := s.getF (hlkBase + 0x58) 25 0
  if s.host.op.isSome then s
  else if 3 ≤ op ∨ (op ≠ 2 ∧ (len = 0 ∨ 256 < len)) ∨ (op = 1 ∧ 256 < addr % 256 + len) then s.flashEnd 2
  else if op ≠ 0 ∧ s.flashProtected addr then s.flashEnd 3
  else if !(s.getB (hlkBase + 8) 0) ∨ (op ≠ 0 ∧ !(s.startAllowed .flash a)) then (s.denyStart a).flashEnd 4
  else
    let data := (List.range len).map fun i => BitVec.ofNat 8 ((s.reg (fshBase + 0x800 + i / 4 * 4)).toNat / 2 ^ (8 * (i % 4)))
    (((s.setHost { s.host with op := some ⟨op, addr, len, data⟩ }).setReg (hlkBase + 0x60) 16)).hlkBusy

/-- A write of `FL_CMD` with GO. -/
def State.flashCmd (s : State) (op len : Nat) : State :=
  s.hostWrite 0 (hlkBase + 0x5C) (wd (2 ^ 31 + len % 512 * 256 + op)) fun s => s.flashGo op (len % 512)

/-- FLASH_READ (R410). -/
def execFlashRead (len : Nat) (s : State) : Out := .next (s.flashCmd 0 len)

/-- FLASH_PROGRAM (R410). -/
def execFlashProgram (len : Nat) (s : State) : Out := .next (s.flashCmd 1 len)

/-- FLASH_ERASE (R410). -/
def execFlashErase (len : Nat) (s : State) : Out := .next (s.flashCmd 2 len)

/-- Byte `i` of `FL_BUF` is `b`. -/
def State.setFlBuf (s : State) (i : Nat) (b : Byte) : State :=
  s.setF (fshBase + 0x800 + i / 4 * 4) (8 * (i % 4) + 7) (8 * (i % 4)) b.toNat

/-- `s` with the 64 KiB sector of flash from `a` erased. -/
def State.flashErase (s : State) (a : Nat) : State :=
  s.setHost { s.host with flash := s.host.flash.filter fun e => !(decide (a ≤ e.1) && decide (e.1 < a + 65536)) }

/-- FLASH_OP_END (R410): a READ fills `FL_BUF`, a PROGRAM stores its bytes, an ERASE leaves its sector erased. A PROGRAM whose read-back
differs (`good` false) ends VERIFY_FAIL, and what those bytes hold is open. -/
def execFlashOpEnd (good : Bool) (s : State) : Out :=
  .next (match s.host.op with
    | none => s
    | some o =>
      match o.op with
      | 0 => (((s.flashBytes o.addr o.len).zip (List.range o.len)).foldl (fun s p => s.setFlBuf p.2 p.1) s).flashEnd 1
      | 1 =>
        if good then (s.flashPut o.addr o.data).flashEnd 1
        else
          let r := s.freshBytes o.len
          (r.2.flashPut o.addr r.1).flashEnd 5
      | _ => (s.flashErase (o.addr / 65536 * 65536)).flashEnd 1)

end Sys2Proof.Machine
end

