-- ==== Sys2Proof/Machine/Bursar.lean ====
section
/-! DEFINITION. The Bursar (13_bursar.md): accrual, heat, admission, and with it the dispatch and the abort of Timetable tasks
(R251 to R255). -/

namespace Sys2Proof.Machine

/-- `s` with the Bursar's account replaced. -/
def State.setBur (s : State) (b : Bursar) : State := { s with bur := b }

/-- `POOL_MAX`. -/
def State.poolMax (s : State) : Nat := (s.reg (burBase + 0x50)).toNat

/-- `BYPASS_MAX`. -/
def State.bypassMax (s : State) : Nat := s.getF (burBase + 0x48) 3 0

/-! ### Accrual (R264, R265) -/

/-- The four values of an interval (R264, R22), and `STARVED` (R265). -/
def State.burValues (s : State) : State :=
  let b := s.bur
  let m := min (s.getF (burBase + 0x40) 7 0) b.thermW
  let eff := if 1 ≤ s.prune.stage then m / 2 else m
  let fixed := if s.getB (timBase + 0x40) 0 then 55 else 61
  let s := s.setBur { b with effW := eff, fixedW := fixed, availW := eff - fixed }
  s.setLive (evNo 43 1) (decide (eff - fixed = 0))

/-- BURSAR_INTERVAL (R264): the interval that ends adds its AVAIL_W to a pool below `POOL_MAX`; the next one's values are found. With the
fast clocks stopped a boundary passes without effect (R455). -/
def execBursarInterval (s : State) : Out :=
  let s := s.toGrid 1 800
  .next (if s.ctl.clocks then
    let b := s.bur
    let add := if b.pool < s.poolMax then b.availW else 0
    (s.setBur { b with pool := b.pool + add, accrued := b.accrued + add }).burValues
  else s)

/-- The account is filled anew from `POOL_MAX`, the fill counting as accrual; runs that go on are settled as though E were 0 (R266, R277). -/
def State.burFill (s : State) : State :=
  s.setBur { s.bur with pool := s.poolMax, held := 0, accrued := s.poolMax, declared := 0, measured := 0
                        runs := s.bur.runs.map fun w => { w with energy := 0 } }

/-- Pool and `HELD` are discarded with their records, and the pool is filled (R277). -/
def State.burReset (s : State) (cause : Nat) : State :=
  (((s.resync cause 5 43 0 s.bur.pool).resync cause 6 43 0 s.bur.held)).burFill

/-! ### Heat (R275, R276) -/

/-- The register of sensor `n`. -/
def sensorAddr (n : Nat) : Nat := bur1Base + 0x100 + 4 * n

/-- A sensor that is enabled, has a reading and is not stale. -/
def State.sensorCounts (s : State) (n : Nat) : Bool :=
  s.getB (bur1Base + 0x50 + 4 * (n / 32)) (n % 32) && s.getB (sensorAddr n) 31 && !s.getB (sensorAddr n) 30

/-- Reading of sensor `n`, in 0.125 °C. -/
def State.sensorVal (s : State) (n : Nat) : Int := sext 12 (s.getF (sensorAddr n) 11 0)

/-- The sensor with the highest reading that counts: the lowest-numbered of equals. -/
def State.hottest (s : State) : Option Nat :=
  ((List.range 64).filter s.sensorCounts).foldl (fun (b : Option Nat) n =>
    match b with
    | none => some n
    | some m => if s.sensorVal m < s.sensorVal n then some n else some m) none

/-- `SOFT` and `HARD`, signed. -/
def State.softW (s : State) : Int := sext 12 (s.getF (bur1Base + 0x40) 11 0)
def State.hardW (s : State) : Int := sext 12 (s.getF (bur1Base + 0x44) 11 0)

/-- T_max exceeds `SOFT`; without a sensor that counts it does not. -/
def State.softAct (s : State) : Bool :=
  match s.hottest with
  | none => false
  | some n => decide (s.softW < s.sensorVal n)

/-- The hard state (R276): it begins at `HARD` and ends 2 °C below, over every sensor that counts. -/
def State.hardNow (s : State) : Bool :=
  match s.hottest with
  | none => false
  | some n => decide (s.hardW ≤ s.sensorVal n) || (s.bur.hard && decide (s.hardW - 16 < s.sensorVal n))

/-- The readings in force have changed: `T_MAX`, `SOFT_ACT` and the hard state follow; on entry of the hard state running bursts end
(R129). -/
def State.heat (s : State) : State :=
  let s := match s.hottest with
    | none => s.setReg (bur1Base + 0x4C) 0
    | some n => s.setReg (bur1Base + 0x4C) (wd (n * 4096 + s.getF (sensorAddr n) 11 0))
  let s := s.setLive (evNo 43 2) s.softAct
  let was := s.bur.hard
  let now := s.hardNow
  let s := s.setBur { s.bur with hard := now }
  let s := if now && !was then
      (List.range 16).foldl (fun s q => s.seqShed q) (s.incSat (bur1Base + 0x58) 1)
    else s
  s.setLive (evNo 43 3) now

/-- Readings taken: sensor and value. -/
def State.takeReadings (s : State) (l : List (Nat × Nat)) : State :=
  l.foldl (fun s p => if p.1 < 64 then s.setReg (sensorAddr p.1) (wd (2 ^ 31 + p.2 % 4096)) else s) s

/-- While no lane of the Satchel is ACTIVE the readings of the host-die sensors are stale (13_bursar.md). -/
def State.hostStale (s : State) (stale : Bool) : State :=
  ((List.range 4).foldl (fun s i => if s.getB (sensorAddr (56 + i)) 31 then s.setB (sensorAddr (56 + i)) 30 stale else s) s).heat

/-- The 12-bit readings as a mean (R320): the sensors 0 to 47 that are enabled and hold a reading. What a mean that is no whole number
rounds to is open (log 4). -/
def State.tempNow (s : State) : Word × State :=
  let l := (List.range 48).filter fun n => s.getB (bur1Base + 0x50 + 4 * (n / 32)) (n % 32) && s.getB (sensorAddr n) 31
  if l.isEmpty then (setBit (s.reg (vinBase + 0x5C)) 31 false, s)
  else
    let sum := (l.map s.sensorVal).foldl (· + ·) 0
    let r := if sum % (l.length : Int) = 0 then (0, s) else s.freshNat 1
    (wd (2 ^ 31 + unsext 16 (sum / (l.length : Int) + (r.1 : Int))), r.2)

/-- SENSOR_SAMPLE (R455, R276, R320): every 100 µs the field-side sensors' readings, `TEMP_NOW`, and the telemetry of `PWR` take effect. -/
def execSensorSample (readings : List (Nat × Nat)) (coreMv core10mA fieldP : Nat) (s : State) : Out :=
  let s := s.toGrid 3 80000
  .next (if s.ctl.clocks then
    let s := (s.takeReadings (readings.filter fun p => p.1 < 56 ∨ 60 ≤ p.1)).heat
    let r := s.tempNow
    let s := r.2.calTemp r.1
    ((s.setReg (pwrBase + 0x5C) (wd (coreMv % 65536))).setReg (pwrBase + 0x60) (wd (core10mA % 65536))).setReg
      (pwrBase + 0x64) (wd (fieldP % 65536))
  else s)

/-- THERMAL_TARGET_STEP (R275): every 1 ms THERM_W moves towards the target of T_max by RAMP at most. -/
def execThermalTargetStep (s : State) : Out :=
  let s := s.toGrid 2 800000
  .next (if s.ctl.clocks then
    let above : Int := match s.hottest with
      | none => 0
      | some n => s.sensorVal n - s.softW
    let target := if above ≤ 0 then 240 else 240 - s.getF (bur1Base + 0x48) 7 0 * ((above.toNat + 7) / 8)
    let ramp := s.getF (bur1Base + 0x48) 15 8
    let t := s.bur.thermW
    s.setBur { s.bur with thermW := if t < target then min target (t + ramp) else max target (t - ramp) }
  else s)

/-! ### Candidates (R251, R267, R268) -/

/-- Reading of an executor class's OpClass for R26. -/
def State.execClass (t : Task) : OpClass :=
  match t.exec with
  | 1 => .burst
  | 2 => .tim
  | 3 => .chk
  | 4 => .dma
  | 5 => itemClass (t.arg % 2 ^ 32)
  | _ => .flowNode

/-- The unit of a task would accept a direct start at once (R251); a DMA channel that an earlier task's run holds would not. -/
def State.unitFree (s : State) (t : Task) : Bool :=
  let u := t.unit
  match t.exec with
  | 1 => (s.seqOf u).st = 0
  | 2 => (s.tdc u).st = 0 || (s.tdc u).st = 4
  | 3 => !(s.chkRun u).active && !s.waiting 3 u
  | 4 => (s.dma u).st = 0 && !s.dmaTaken u && s.sat.fieldUp && s.sat.hostUp && !s.host.d3hot
  | 5 => s.cal.item.isNone
  | _ => !s.flowBusy

/-- The page whose EN a unit's start needs (R53). -/
def unitPage (cls u : Nat) : Nat :=
  match cls with
  | 1 => seqBase u 0
  | 2 => tdcBase u
  | 3 => chkBase u
  | 4 => hlkBase
  | 5 => vinBase
  | _ => flwBase

/-- A NOP task with ENERGY 0, which does not pass through the Bursar (R252). -/
def Task.free (t : Task) : Bool := t.exec = 0 && t.energy = 0

/-- The mode permits the task's class and its unit is free (R28, R251); while `TTB[0]`'s EN is 0 and in the 10 µs of entry into RECESS nothing is
dispatched (R53, R40), and during the fine re-lock nothing that draws on the budget (R42). -/
def State.taskCandidate (s : State) (i : Nat) : Bool :=
  let t := s.task i
  t.st = 2 && decide (t.since ≤ s.cycle) && s.ctl.clocks && s.ctl.recess != .entering && s.getB (ttbBase + 8) 0 &&
  (t.free || !s.ctl.fineRelock) &&
  (if t.exec = 0 then decide (5 ≤ s.ctl.mode) && decide (s.ctl.mode ≤ 12)
   else s.startAllowed (State.execClass t) (unitPage t.exec t.unit) && s.unitFree t)

/-- A candidate (R267): its effective priority, the cycle from which it waits, its order among equals, and the run it asks for. -/
structure Cand where
  prio : Nat
  since : Nat
  tie : Nat
  wait : Wait
  deriving DecidableEq, Repr

/-- `a` comes before `b` (R251). -/
def Cand.before (a b : Cand) : Bool :=
  decide (b.prio < a.prio) || (a.prio = b.prio &&
    (decide (a.since < b.since) || (a.since = b.since && decide (a.tie ≤ b.tie))))

/-- A candidate put in its place. -/
def Cand.place (a : Cand) : List Cand → List Cand
  | [] => [a]
  | b :: l => if a.before b then a :: b :: l else b :: Cand.place a l

/-- The task in slot `i` as a candidate. -/
def State.taskCand (s : State) (i : Nat) : Cand :=
  let t := s.task i
  ⟨t.effPrio, t.since, 4096 + i, ⟨t.exec, t.unit, false, i, t.energy, t.since⟩⟩

/-- The ready tasks that are candidates, in order. -/
def State.taskCands (s : State) : List Cand :=
  ((Tab.keys s.ttb.tasks).filter s.taskCandidate).foldl (fun l i => (s.taskCand i).place l) []

/-- A temperature re-run that waits (R320): unit 1 of class CAL. -/
def Wait.auto (w : Wait) : Bool := w.cls = 5 && w.unit = 1

/-- A waiting direct start may be considered: no fine re-lock (R42); a re-run waits while an item runs and while the mode forbids it. -/
def State.waitReady (s : State) (w : Wait) : Bool :=
  !s.ctl.fineRelock && (!w.auto || (s.cal.item.isNone && s.autoModes && s.getB (vinBase + 8) 0))

/-- Direct starts as candidates, in order of registration, before tasks of the same cycle (log 22), and the first 16 tasks. -/
def State.cands (s : State) : List Cand :=
  let direct := (s.bur.waits.zip (List.range s.bur.waits.length)).filter fun p => s.waitReady p.1
  (direct.map fun p => (⟨7, p.1.since, p.2, p.1⟩ : Cand)).foldl (fun l c => c.place l)
    ((s.taskCands.filter fun c => !(s.task c.wait.slot).free).take 16)

/-- A candidate is eligible (R268): not a burst at pruning stage 1 or higher or in the hard state. -/
def State.candEligible (s : State) (c : Cand) : Bool :=
  !(c.wait.cls = 1 && (decide (1 ≤ s.prune.stage) || s.bur.hard))

/-- A candidate fits (R265, R268). -/
def State.candFits (s : State) (c : Cand) : Bool :=
  decide ((min c.wait.energy s.poolMax : Nat) ≤ s.bur.pool) && (c.wait.energy = 0 || s.bur.availW ≠ 0)

/-- What `ADMIT_STAT` shows of a candidate. -/
def Cand.key (c : Cand) : Nat × Nat × Bool × Nat :=
  (c.wait.cls, if c.wait.direct then c.wait.unit % (if c.wait.cls = 5 then 1 else 64) else c.wait.slot, c.wait.direct, c.wait.since)

/-! ### Dispatch (R252, R253) -/

/-- The unit of a dispatched task takes the start. A sequencer ignores one whose START_MODE is reserved (R125), so the task ends FAILED and has drawn
nothing (DESIGN CHOICE, log 90). -/
def State.startUnit (s : State) (t : Task) : State :=
  let u := t.unit
  match t.exec with
  | 1 =>
    if 2 ≤ t.arg / 2 ^ 32 % 4 then s.endRun 1 u 4 false (some 0)
    else s.seqStart u (t.arg % 2 ^ 21) (decide (t.arg / 2 ^ 32 % 4 = 1)) false
  | 2 => (s.tdcStart u).tdcBegin u
  | 3 => s.chkBegin u
  | 4 => { s with sat := { s.sat with flowUp := s.sat.flowUp ++ [.dmaStart u t.arg] } }
  | 5 => s.calStart (t.arg % 2 ^ 32) 0 true
  | 6 => s.flowBegin t.arg
  | _ => s

/-- The dispatch cycle of slot `i` (R252): counters fall by their thresholds, RUNS_LEFT by 1 unless RUNS is 0, and the task enters RUN. A NOP
completes DONE in the next cycle and draws 0 µJ. `since` now holds the dispatch cycle. -/
def State.dispatch (s : State) (i : Nat) : State :=
  let t := s.task i
  let cnt := (List.range 4).map fun n => if t.kind n = 0 then t.counter n else t.counter n - t.thresh n
  let t := { t with
    st := 3, cnt := cnt, runsLeft := if t.runs = 0 then t.runsLeft else t.runsLeft - 1, since := s.cycle, aged := 0, noop := false
    ended := if t.exec = 0 then some (1, false) else none, endAt := s.cycle + 1, endM := if t.exec = 0 then some 0 else none }
  ((s.setTask i t).inc64 (ttbBase + 0x88) 1).startUnit t

/-! ### Admission (R269 to R271) -/

/-- A direct start leaves its wait and begins. A re-run whose condition no longer holds is not reached here. -/
def State.beginDirect (s : State) (w : Wait) : State :=
  match w.cls with
  | 1 => s
  | 2 => s.tdcBegin w.unit
  | 3 => s.chkBegin w.unit
  | 4 => s.dmaBegin w.unit
  | 5 => if w.unit = 1 then s.calStart 3 1 true else s.calBegin
  | _ => s.flowBegin (s.getF (flwBase + 0x80) 13 0)

/-- Admission charges E in full (R270); the run of a re-run is unit 0 of its class. -/
def State.admitWait (s : State) (w : Wait) : State :=
  let b := s.bur
  let run : Wait := if w.auto then { w with unit := 0 } else w
  let s := s.setBur { b with
    pool := b.pool - w.energy, held := b.held + w.energy, declared := b.declared + w.energy, nextAt := s.cycle + 1
    waits := if w.direct then b.waits.erase w else b.waits, runs := b.runs ++ [run] }
  let s := s.incWrap (burBase + 0x80) 1
  if w.direct then (if w.auto then s.setCal { s.cal with autoPend := false } else s).beginDirect w
  else s.dispatch w.slot

/-- Re-runs whose wait has ended and whose condition no longer holds are dropped (R320). -/
def State.dropAuto (s : State) : State :=
  if s.cal.autoPend && !s.tempOff && s.bur.waits.any (fun w => w.auto && s.waitReady w) then
    (s.setBur { s.bur with waits := s.bur.waits.filter fun w => !w.auto }).setCal { s.cal with autoPend := false }
  else s

/-- What the Bursar chooses (R269): the head if it fits, else, with bypasses left, the first later one that does; and the bypass count. -/
def State.choose (s : State) (l : List Cand) : Option Cand × Nat :=
  match l with
  | [] => (none, 0)
  | h :: r =>
    let bypass := if s.bur.head = some h.key then s.bur.bypass else 0
    if s.candFits h then (some h, bypass)
    else if bypass < s.bypassMax then
      match r.find? s.candFits with
      | some c => (some c, bypass + 1)
      | none => (none, bypass)
    else (none, bypass)

/-- With no candidate in this cycle, a task that is READY from the next is looked at in it (R245). -/
def State.nextReady (s : State) : State :=
  if s.taskCands.isEmpty ∧ s.bur.waits.isEmpty ∧ s.ttb.tasks.any (fun e => decide (e.2.st = 2) && decide (e.2.since = s.cycle + 1)) then s.pass 1
  else s

/-- One cycle of admission (R269), with the head and the bypass count as `ADMIT_STAT` shows them; `HOLD` is live. The answer says whether
one was admitted. -/
def State.bursarCycle (s : State) : Bool × State :=
  let s := (s.passTo s.bur.nextAt).nextReady.dropAuto
  let l := s.cands.filter s.candEligible
  let r := s.choose l
  let s := s.setBur { s.bur with head := l.head?.map Cand.key, bypass := r.2 }
  let s := s.setLive (evNo 43 4) (decide (r.2 = s.bypassMax))
  match r.1 with
  | some c => (true, s.admitWait c.wait)
  | none => (false, s)

/-- BURSAR_ADMIT (R269, R270). -/
def execBursarAdmit (s : State) : Out := .next (if s.ctl.clocks then s.bursarCycle.2 else s)

/-- TASK_DISPATCH (R252): the candidate that the Bursar admits in this cycle, or, when it admits none, the first NOP candidate with
ENERGY 0. -/
def execTaskDispatch (s : State) : Out :=
  .next (if !s.ctl.clocks then s else
    let r := s.bursarCycle
    if r.1 then r.2
    else match r.2.taskCands.find? fun c => (r.2.task c.wait.slot).free with
      | some c => State.dispatch (r.2.setBur { r.2.bur with nextAt := r.2.cycle + 1 }) c.wait.slot
      | none => r.2)

/-! ### Aborting a task (R255) -/

/-- The abort of the executor of a task in RUN. -/
def State.abortUnit (t : Task) (s : State) : State :=
  let u := t.unit
  match t.exec with
  | 1 => s.seqAbort u
  | 2 => s.tdcAbort u
  | 3 => s.chkAbort u
  | 4 => s.dmaTaskAbort u
  | 5 => s.calAbort
  | 6 => s.flowAbort
  | _ => s

/-- TASK_ABORT (R255): a `TASK_CMD` ABORT of the slot in `TASK_SEL`. -/
def execTaskAbort (s : State) : Out := .next (s.taskCmd (wd (5 * 2 ^ 28)) fun i s =>
  s.abortTask State.abortUnit i)

/-- ARRIVAL_APPLY (R247): a cycle of the matching store. -/
def execArrivalApply (s : State) : Out :=
  .next (if s.ctl.clocks then s.matchCycle State.abortUnit else s)

/-! ### What the Bursar's registers show -/

/-- `EFF_STAT`, `ADMIT_STAT`, the account and `PG_STAT`. -/
def State.burView (s : State) (a : Nat) : Option Word :=
  let b := s.bur
  let half (v : Nat) (o : Nat) : Option Word := some (wd (v / 2 ^ (8 * (o % 8))))
  let o := a - burBase
  if a < burBase ∨ burBase + 0x1000 ≤ a then none
  else if o = 0xC then
    some (setFld (setBit (s.reg a) 0 (b.held ≠ 0)) 7 4
      (if s.getB (burBase + 0x10) 1 then 3 else if b.hard then 2 else if s.getB (burBase + 0x10) 2 then 1 else 0))
  else if o = 0x44 then some (wd (b.effW * 2 ^ 24 + b.thermW * 65536 + b.fixedW * 256 + b.availW))
  else if o = 0x4C then
    some (match b.head with
      | none => setBit (wd (b.bypass * 2 ^ 24)) 31 (b.bypass = s.bypassMax)
      | some (cls, id, d, _) =>
        wd ((decide (b.bypass = s.bypassMax)).toNat * 2 ^ 31 + d.toNat * 2 ^ 30 + 2 ^ 29 + b.bypass * 2 ^ 24 + cls * 4096 + id))
  else if o = 0x58 ∨ o = 0x5C then half (unsext 64 b.pool) (o - 0x58)
  else if o = 0x60 ∨ o = 0x64 then half (unsext 64 b.held) (o - 0x60)
  else if o = 0x68 ∨ o = 0x6C then half (unsext 64 b.accrued) (o - 0x68)
  else if o = 0x70 ∨ o = 0x74 then half b.declared (o - 0x70)
  else if o = 0x78 ∨ o = 0x7C then half b.measured (o - 0x78)
  else none

end Sys2Proof.Machine
end

