-- ==== Sys2Proof/Machine/Corridor.lean ====
section
/-! DEFINITION. The Corridor (15_corridor.md): routing of pulses, the consumers, the storm guard, the selectors and the GPE balls. -/

namespace Sys2Proof.Machine

/-- `s` with the Corridor's pulses and balls replaced. -/
def State.setCor (s : State) (c : Corridor) : State := { s with cor := c }

/-- The consumer inputs that are not reserved (R301). -/
def consumerReal (i : Nat) : Bool := decide (i < 185) || (decide (192 ≤ i) && decide (i < 216))

/-- Hop 2 of a consumer in fabric cycles (R301). -/
def hopTwo (i : Nat) : Nat := if (176 ≤ i ∧ i ≤ 184) ∨ (192 ≤ i ∧ i < 208) then 2 else 1

/-- The source that an input would take a pulse from: its selected one, or, gated, its former one (R302, R306). -/
def State.inputSource (s : State) (i : Nat) : Nat :=
  let w := s.reg (selAddr i)
  if bit w 31 then fld w 27 16 else fld w 11 0

/-- The inputs that a pulse of `g` goes to. -/
def State.inputsOf (s : State) (g : Nat) : List Nat :=
  (List.range 216).filter fun i => consumerReal i && s.inputSource i = g

/-- The pulse to be routed next: the earliest at the Corridor, the oldest of equals. -/
def nextPulse : List Pulse → Option Pulse
  | [] => none
  | p :: l =>
    match nextPulse l with
    | none => some p
    | some x => if x.due < p.due then some x else some p

/-- The pulse `p` is routed by the selectors in force (R302). With the fabric clock stopped only the wake input takes it (R311). -/
def State.routePulse (s : State) (p : Pulse) : State :=
  if s.ctl.clocks then
    let ins := (s.inputsOf p.g).filter fun i => !(p.woke && i = 184)
    s.setCor { s.cor with pulses := s.cor.pulses.erase p, routed := s.cor.routed ++ ins.map fun i => (i, p.g, s.cycle + hopTwo i) }
  else
    let ins := if s.inputSource 184 = p.g then [(184, p.g, s.cycle + hopTwo 184)] else []
    s.setCor { s.cor with pulses := s.cor.pulses.map (fun x => if x = p then { x with woke := true } else x)
                          routed := s.cor.routed ++ ins }

/-- The pulses that have reached the Corridor are routed: a selector written in this cycle is in force from the next (R302). -/
def State.routeDue (s : State) : State :=
  (List.range s.cor.pulses.length).foldl (fun s _ =>
    match nextPulse s.cor.pulses with
    | some p => if s.ctl.clocks ∧ p.due ≤ s.cycle then s.routePulse p else s
    | none => s) s

/-- CORRIDOR_PULSE_ARRIVE (R302, R303): the next pulse reaches the Corridor and is routed by the selectors in force. With the fabric clock
stopped only the wake input takes pulses (R311). -/
def execCorridorPulseArrive (s : State) : Out :=
  .next (match nextPulse (s.cor.pulses.filter fun p => s.ctl.clocks || !p.woke) with
    | none => s
    | some p => (s.passTo p.due).routePulse p)

/-! ### Storm guard (R306) -/

/-- Pulses registered at input `i` in the current window. -/
def State.windowCount (s : State) (i : Nat) : Nat := Tab.get (fun _ => 0) s.cor.window i

/-- A refused pulse is counted (R305). -/
def State.refusePulse (s : State) : State := s.inc64 (corBase + 0x70) 1

/-- The guard gates input `i`, whose source is `g` (R306). -/
def State.gateInput (s : State) (i g : Nat) : State :=
  let s := s.setReg (selAddr i) (wd (2 ^ 31 + g * 65536))
  let s := s.incSat (corBase + 0x48) 1
  let s := if s.reg (corBase + 0x44) = 0 then s.setReg (corBase + 0x44) (wd (2 ^ 31 + g * 65536 + i)) else s
  s.refusePulse.occur (evNo 47 16)

/-! ### GPE_OUT (R309) -/

/-- Mode of ball `k`. -/
def State.gpeMode (s : State) (k : Nat) : Nat := s.getF (corBase + 0x54) (2 * k + 1) (2 * k)

/-- Ball `k` is driven to a level. -/
def State.gpeDrive (s : State) (k : Nat) (b : Bool) : State := s.setB (corBase + 0x60) k b

/-- The level of ball GPE_OUT[k] (R309); `none` is high impedance: pruning stage 4, HELD and OFF. -/
def State.gpeBall (s : State) (k : Nat) : Option Bool :=
  if s.ctl.mode ≤ 1 ∨ 4 ≤ s.prune.stage then none else some (s.getB (corBase + 0x60) k)

/-- The end of ball `k`'s pulse; 0 for none. -/
def State.gpeUntil (s : State) (k c : Nat) : State := s.setCor { s.cor with gpeDue := Tab.set (fun _ => 0) s.cor.gpeDue k c }

/-- A pulse registered at GPE_OUT[k]. -/
def State.gpePulse (s : State) (k : Nat) : State :=
  match s.gpeMode k with
  | 1 => (s.gpeDrive k true).gpeUntil k (s.cycle + 1 + s.getF (corBase + 0x5C) 7 0)
  | 2 => s.gpeDrive k (!(s.getB (corBase + 0x60) k))
  | _ => s

/-- GPE_OUT_PULSE_END (R309): a PULSE ball goes low WIDTH cycles after its last pulse; it keeps its level while the fabric clock stands still. -/
def execGpeOutPulseEnd (k : Nat) (s : State) : Out :=
  let due := Tab.get (fun _ => 0) s.cor.gpeDue k
  .next (if due = 0 ∨ !s.ctl.clocks then s else ((s.passTo due).gpeDrive k false).gpeUntil k 0)

/-- The modes of the balls become those of `v`: a ball whose mode changes takes its new mode's level. -/
def State.gpeModes (s : State) (v : Word) : State :=
  let changed := (List.range 16).filter fun k => s.gpeMode k ≠ fld v (2 * k + 1) (2 * k)
  changed.foldl (fun s k =>
    match fld v (2 * k + 1) (2 * k) with
    | 0 => (s.gpeDrive k (s.getB (corBase + 0x58) k)).gpeUntil k 0
    | 1 => (s.gpeDrive k false).gpeUntil k 0
    | _ => s.gpeUntil k 0) (s.setReg (corBase + 0x54) v)

/-- GPE_OUT_MODE_WRITE (R309): a field of 3 leaves the register unchanged. -/
def execGpeOutModeWrite (v : Word) (s : State) : Out :=
  .next (s.hostWrite 0 (corBase + 0x54) v fun s =>
    if (List.range 16).any fun k => fld v (2 * k + 1) (2 * k) = 3 then s else s.gpeModes v)

/-- A new `GPE_OUT_SW`: balls in SOFTWARE follow it. -/
def State.gpeSoftware (s : State) : State :=
  ((List.range 16).filter fun k => s.gpeMode k = 0).foldl (fun s k => s.gpeDrive k (s.getB (corBase + 0x58) k)) s

/-! ### Consumers (R301, R305) -/

/-- A pulse at an export consumer (R373): pending, or refused at 65,535. -/
def State.exportPulse (s : State) (c : Nat) : Bool × State :=
  let a := rngBase + 0x140 + 4 * c
  if s.getF a 15 0 = 65535 then (false, s) else (true, s.incSat a 1)

/-- A pulse on the wake input (R41, R310). -/
def State.wakePulse (s : State) : State :=
  if s.ctl.mode = 4 && s.getB (glbBase + 0x64) 21 then s.wake false else s

/-- What a pulse registered at input `i` does (R301); the answer says whether the consumer took it. -/
def State.consume (s : State) (i : Nat) : Bool × State :=
  if i < 128 then s.portPulse i
  else if i < 144 then (true, s.waitPulse (i - 128))
  else if i < 160 then (true, s.jumpPulse (i - 144))
  else if i < 176 then (true, s.gpePulse (i - 160))
  else if i < 184 then (true, s.trigPulse (i - 176) ((s.cycle + 1) * 20480))
  else if i = 184 then (true, s.wakePulse)
  else if i < 208 then s.exportPulse (i - 192)
  else (true, s.trigger (i - 208))

/-- CONSUMER_PULSE (R305, R306): the oldest pulse on its way to input `i` is registered there: refused while the input is gated, refused
and gating it when it is one more than `STORM_LIMIT` of its window, else offered to the consumer. In the cycle in which a write of its selector
takes effect the gating wins (R307). With the fabric clock stopped only the
wake input registers pulses. -/
def execConsumerPulse (i : Nat) (s : State) : Out :=
  .next (match s.cor.routed.find? fun p => p.1 = i with
    | none => s
    | some p =>
      if !s.ctl.clocks ∧ i ≠ 184 then s
      else
        let s := s.passTo p.2.2
        let s := s.setCor { s.cor with routed := s.cor.routed.erase p }
        let limit := s.getF (corBase + 0x40) 15 0
        let n := s.windowCount i
        let w := Tab.get (fun _ => (0, 0)) s.cor.selAt i
        let old := if w.1 = p.2.2 then w.2 else n
        let s := s.setCor { s.cor with window := Tab.set (fun _ => 0) s.cor.window i (n + 1) }
        if s.getB (selAddr i) 31 ∧ s.getF (selAddr i) 27 16 = p.2.1 then s.refusePulse
        else if limit ≠ 0 ∧ (limit ≤ n ∨ limit ≤ old) then s.gateInput i p.2.1
        else
          let r := s.consume i
          if r.1 then r.2.inc64 (corBase + 0x68) 1 else r.2.refusePulse)

/-- STORM_WINDOW_BOUNDARY (R306): every input's count restarts. With the fast clocks stopped the boundary passes without effect. -/
def execStormWindowBoundary (s : State) : Out :=
  let s := s.toGrid 0 800
  .next (if s.ctl.clocks then s.setCor { s.cor with window := [], selAt := [] } else s)

/-- SELECTOR_WRITE (R302, R307): `SEL[i]` takes its source, ungated, and its window count restarts; a reserved consumer's ignores it. Pulses that
have reached the Corridor go by the old one. -/
def execSelectorWrite (i : Nat) (v : Word) (s : State) : Out :=
  .next (if i < 512 then
    s.hostWrite 0 (selAddr i) v fun s =>
      if consumerReal i then
        let s := s.routeDue
        let was := if s.getB (selAddr i) 31 then 0 else s.windowCount i
        (s.setReg (selAddr i) (wd (fld v 11 0))).setCor { s.cor with
          window := Tab.set (fun _ => 0) s.cor.window i 0, selAt := Tab.set (fun _ => (0, 0)) s.cor.selAt i (s.cycle + 1, was) }
      else s
  else s)

/-! ### GPE_IN (R308, R311) -/

/-- An edge of ball `k` is one that `GPE_IN_EDGE` asks for. -/
def State.gpeMatch (s : State) (k : Nat) (rising : Bool) : Bool :=
  match s.getF (corBase + 0x50) (2 * k + 1) (2 * k) with
  | 0 => rising
  | 1 => !rising
  | 2 => true
  | _ => false

/-- GPE_IN_EDGE (R308): the synchronised level changes, and an edge that matches is an occurrence. -/
def execGpeInEdge (k : Nat) (rising : Bool) (s : State) : Out :=
  .next (if k < 16 ∧ s.ctl.mode ≠ 4 ∧ s.ctl.clocks ∧ s.prune.stage < 4 then
    let s := s.setB (corBase + 0x4C) k rising
    if s.gpeMatch k rising then s.occur (evNo 47 k) else s
  else s)

/-- GPE_IN_RECESS_EDGE (R311): in RECESS an edge of the wake input's source starts exit and becomes an occurrence when exit completes; any
other that matches is counted in `RECESS_EDGES`. -/
def execGpeInRecessEdge (k : Nat) (rising : Bool) (s : State) : Out :=
  .next (if k < 16 ∧ s.ctl.mode = 4 then
    let s := s.setB (corBase + 0x4C) k rising
    if !s.gpeMatch k rising then s
    else if s.inputSource 184 = evNo 47 k ∧ s.getB (glbBase + 0x64) 21 ∧ s.ctl.recess = .resting ∧ !s.ctl.wakeHeld then
      (s.setCor { s.cor with gpeWake := s.cor.gpeWake ++ [k] }).wake false
    else s.incSat (corBase + 0x64) 1
  else s)

/-! ### Resets (R312) -/

/-- The soft reset of `COR[1]`: every selector reads 0. -/
def State.selReset (s : State) : State :=
  (List.range 216).foldl (fun s i => if consumerReal i then s.setReg (selAddr i) 0 else s) s

/-- The soft reset of `COR[0]`, besides its RW fields: the window counts, and the balls of their modes after reset. -/
def State.corReset (s : State) : State :=
  let s := s.setCor { s.cor with window := [] }
  ((s.setReg (corBase + 0x58) 0).gpeModes 0).gpeSoftware

/-- Pulses not yet registered: each one at the input it is routed to, or would be. -/
def State.pulsesInFlight (s : State) : Nat :=
  s.cor.routed.length + (s.cor.pulses.map fun p => (s.inputsOf p.g).length).sum

/-- The Corridor stops (R312): pulses in flight are refused and counted, and selectors and totals are lost; the balls go to high
impedance. At pruning stage 4 (`records`) the losses are recorded. -/
def State.corStop (s : State) (records : Bool) : State :=
  let n := s.pulsesInFlight
  let s := s.inc64 (corBase + 0x70) n
  let s := if records then
      (((s.resync 2 7 47 0 (s.reg64 (corBase + 0x68))).resync 2 7 47 1 (s.reg64 (corBase + 0x70))).resync 2 7 47 2 n)
    else s
  let s := ((s.setReg64 (corBase + 0x68) 0).setReg64 (corBase + 0x70) 0).setReg64 (corBase + 0x78) 0
  let s := s.setCor { s.cor with pulses := [], routed := [], window := [], selAt := [], gpeDue := [], gpeWake := [] }
  (s.setReg (corBase + 0x60) 0).selReset

end Sys2Proof.Machine
end

