-- ==== Sys2Proof/Machine/Wire.lean ====
section
/-! DEFINITION. What crosses a link, as it is on the lanes: ordered sets (17_lanes.md, R325), frames with their striping and CRC-32 (R327, R335), the
ring's frame headers, payloads and TIME sets (18_ring_time.md, R349, R355, R360), Satchel message headers (20_host_satchel.md, R404) and AUDIT sets
(21_pruning_conservation.md, R423). A symbol is the 8-bit code before encoding. -/

namespace Sys2Proof.Machine

/-- The symbol of a number below 256. -/
def symbol (n : Nat) : Byte := BitVec.ofNat 8 n

/-- Symbol `i` of a set, and two symbols with the low one first. -/
def symbolAt (l : List Byte) (i : Nat) : Nat := (l.getD i 0).toNat
def symbolsAt (l : List Byte) (i : Nat) : Nat := ofBytesLE ((l.drop i).take 2)

/-- D21.5, which fills sets. -/
def fill (n : Nat) : List Byte := List.replicate n (symbol 0xB5)

/-! ### Ordered sets (R325) -/

/-- IDLE. -/
def idleSet : List Byte := symbol 0xBC :: fill 3

/-- ACK of frame `seq`, with NAK or not. -/
def ackSet (seq : Nat) (nak : Bool) : List Byte := symbol 0x9C :: bytesLE 2 seq ++ [symbol nak.toNat]

/-- An ACK set as its sequence and NAK. -/
def readAck (l : List Byte) : Option (Nat × Bool) :=
  if l.length = 4 ∧ symbolAt l 0 = 0x9C then some (symbolsAt l 1, nbit (symbolAt l 3) 0) else none

/-- STRIPE with a new width, receive map and last good sequence. -/
def stripeSet (width map good : Nat) : List Byte := symbol 0x1C :: symbol width :: bytesLE 2 map ++ bytesLE 2 good ++ fill 2

/-- A STRIPE set as width, map and last good sequence. -/
def readStripe (l : List Byte) : Option (Nat × Nat × Nat) :=
  if l.length = 8 ∧ symbolAt l 0 = 0x1C then some (symbolAt l 1, symbolsAt l 2, symbolsAt l 4) else none

/-- The fields of a TS set that a transmitter acts on: the request, its preset and its number. -/
def readTs (l : List Byte) : Option (Nat × Nat × Nat) :=
  if l.length = 16 ∧ symbolAt l 0 = 0xBC ∧ symbolAt l 1 = 0x4A then some (symbolAt l 4, symbolAt l 5, symbolAt l 6) else none

/-- A TS set of lane `n` in STATE `st`, with a request, the number echoed, and the coefficients in use. -/
def tsSet (n st req preset number echo : Nat) (cm1 cp1 : Int) : List Byte :=
  [symbol 0xBC, symbol 0x4A, symbol n, symbol st, symbol req, symbol preset, symbol number, symbol echo, symbol (unsext 8 cm1), symbol (unsext 8 cp1),
   symbol (63 - cm1.natAbs - cp1.natAbs)] ++ fill 5

/-- What CAPS says of the far end: lane, locked lanes, widths, features, interface major and minor, link type. -/
structure CapsSet where
  lane : Nat
  locked : Nat
  widths : Nat
  features : Nat
  major : Nat
  minor : Nat
  kind : Nat
  deriving DecidableEq, Repr

/-- A CAPS set. -/
def CapsSet.symbols (c : CapsSet) : List Byte :=
  [symbol 0xF7, symbol c.lane, symbol c.locked, symbol c.widths, symbol c.features, symbol c.major, symbol c.minor, symbol c.kind] ++ fill 8

/-- A CAPS set read. -/
def readCaps (l : List Byte) : Option CapsSet :=
  if l.length = 16 ∧ symbolAt l 0 = 0xF7 then
    some ⟨symbolAt l 1, symbolAt l 2, symbolAt l 3, symbolAt l 4, symbolAt l 5, symbolAt l 6, symbolAt l 7⟩
  else none

/-- What an AUDIT set carries (R423). -/
structure AuditSet where
  cls : Nat
  fresh : Bool
  last : Bool
  free : Nat
  good : Nat
  deriving DecidableEq, Repr

/-- SUM of an AUDIT set: symbols 1 to 14, modulo 256. -/
def auditSum (l : List Byte) : Nat := (((l.drop 1).take 14).map BitVec.toNat).sum % 256

/-- An AUDIT set (R423). -/
def AuditSet.symbols (a : AuditSet) : List Byte :=
  let l := [symbol 0xDC, symbol (a.cls % 16 * 16 + a.fresh.toNat * 2 + a.last.toNat)] ++ bytesLE 2 a.free ++ bytesLE 2 a.good ++ fill 8 ++ [0]
  l ++ [symbol (auditSum l)]

/-- An AUDIT set read; none with a wrong SUM (R424). -/
def readAudit (l : List Byte) : Option AuditSet :=
  if l.length = 16 ∧ symbolAt l 0 = 0xDC ∧ symbolAt l 15 = auditSum l then
    let b := symbolAt l 1
    some ⟨b / 16, nbit b 1, nbit b 0, symbolsAt l 2, symbolsAt l 4⟩
  else none

/-- What a BELL set carries (R382). -/
structure BellSet where
  bell : Nat
  gen : Nat
  origin : Nat
  cancel : Bool
  deriving DecidableEq, Repr

/-- A BELL set (R325, R382). -/
def BellSet.symbols (x : BellSet) : List Byte :=
  [symbol 0x5C, symbol (x.gen % 16 * 16 + x.bell % 16), symbol x.origin, symbol x.cancel.toNat]

/-- A BELL set read. -/
def readBell (l : List Byte) : Option BellSet :=
  if l.length = 4 ∧ symbolAt l 0 = 0x5C then
    some ⟨symbolAt l 1 % 16, symbolAt l 1 / 16, symbolAt l 2, nbit (symbolAt l 3) 0⟩
  else none

/-! ### TIME sets (R360) -/

/-- A TIME set of type `typ` with payload bits `v`. -/
def timeSet (typ v : Nat) : List Byte := symbol 0x7C :: symbol typ :: bytesLE 14 v

/-- The payload bits of a TIME set of type `typ`. -/
def readTime (typ : Nat) (l : List Byte) : Option Nat :=
  if l.length = 16 ∧ symbolAt l 0 = 0x7C ∧ symbolAt l 1 = typ then some (ofBytesLE (l.drop 2)) else none

/-- What a SYNC carries: a time in units of 2^-16 ns whose seconds have 48 bits, hops, flags and SEQ. -/
structure SyncSet where
  time : Nat
  hops : Nat
  hold : Bool
  wrapped : Bool
  seq : Nat
  stepped : Bool
  deriving DecidableEq, Repr

/-- A SYNC set. -/
def SyncSet.symbols (x : SyncSet) : List Byte :=
  timeSet 1 (x.time % 65536 + x.time / 65536 % 1000000000 * 2 ^ 16 + x.time / unitsPerSec % 2 ^ 48 * 2 ^ 46 + x.hops % 64 * 2 ^ 94
    + x.hold.toNat * 2 ^ 100 + x.wrapped.toNat * 2 ^ 101 + x.seq % 256 * 2 ^ 102 + x.stepped.toNat * 2 ^ 110)

/-- A SYNC set read. -/
def readSync (l : List Byte) : Option SyncSet :=
  (readTime 1 l).map fun v =>
    ⟨v % 65536 + v / 2 ^ 16 % 2 ^ 30 * 65536 + v / 2 ^ 46 % 2 ^ 48 * unitsPerSec, v / 2 ^ 94 % 64, nbit v 100, nbit v 101, v / 2 ^ 102 % 256, nbit v 110⟩

/-- A DREQ set and a DRESP set. -/
def dreqSet (seq : Nat) : List Byte := timeSet 2 (seq % 256)
def drespSet (turn seq : Nat) : List Byte := timeSet 3 (turn % 2 ^ 64 + seq % 256 * 2 ^ 64)

/-- SEQ of a DREQ, and TURN and SEQ of a DRESP. -/
def readDreq (l : List Byte) : Option Nat := (readTime 2 l).map (· % 256)
def readDresp (l : List Byte) : Option (Nat × Nat) := (readTime 3 l).map fun v => (v % 2 ^ 64, v / 2 ^ 64 % 256)

/-! ### Frames (R327, R335) -/

/-- A frame: header and address words, payload, CRC-32. -/
def frameBytes (ws : List Word) (data : List Byte) : List Byte :=
  let b := (ws.flatMap fun w => bytesLE 4 w.toNat) ++ data
  b ++ bytesLE 4 (crc32 b)

/-- The frame without its CRC-32, if that is good. -/
def frameBody (b : List Byte) : Option (List Byte) :=
  let body := b.take (b.length - 4)
  if 4 ≤ b.length ∧ b.drop (b.length - 4) = bytesLE 4 (crc32 body) then some body else none

/-- The columns of a frame at width `w`, and the pad bytes of the last one. -/
def columns (w n : Nat) : Nat := (n + w - 1) / w
def padBytes (w n : Nat) : Nat := columns w n * w - n

/-- Frame byte i goes to logical lane i mod W, in column ⌊i / W⌋; the last column is filled with 0 (R327). -/
def stripe (w : Nat) (b : List Byte) : List (List Byte) :=
  (List.range w).map fun i => (List.range (columns w b.length)).map fun c => b.getD (w * c + i) 0

/-- The bytes of a frame from its logical lanes, without the pad bytes of EOF. -/
def unstripe (lanes : List (List Byte)) (pad : Nat) : List Byte :=
  let cols := (lanes.headD []).length
  ((List.range cols).flatMap fun c => lanes.map fun l => l.getD c 0).take (cols * lanes.length - pad)

/-- SOF of a class and sequence, EOF with its pad bytes, and EDB. -/
def sofSet (cls seq : Nat) : List Byte := symbol 0xFB :: symbol cls :: bytesLE 2 seq
def eofSet (pad : Nat) : List Byte := symbol 0xFD :: symbol pad :: fill 2
def edbSet : List Byte := symbol 0xFE :: fill 3

/-- A frame as it arrives: sequence and body of one that starts with SOF, ends with EOF and has a good CRC-32; `none` for one to be discarded. -/
def readFrame (sof : List Byte) (lanes : List (List Byte)) (eof : List Byte) : Option (Nat × List Byte) :=
  if sof.length = 4 ∧ symbolAt sof 0 = 0xFB ∧ eof.length = 4 ∧ symbolAt eof 0 = 0xFD then
    (frameBody (unstripe lanes (symbolAt eof 1))).map fun b => (symbolsAt sof 2, b)
  else none

/-- Header word `i` of a frame's body. -/
def bodyWord (b : List Byte) (i : Nat) : Word := wd (ofBytesLE ((b.drop (4 * i)).take 4))

/-! ### Ring frames (R349, R355) -/

/-- A ring frame header. -/
structure RingHead where
  dest : Nat
  src : Nat
  hops : Nat
  cls : Nat
  typ : Nat
  crEvent : Nat := 0
  crMgmt : Nat := 0
  crData : Nat := 0
  id : Nat := 0
  tsReq : Bool := false
  wrapped : Bool := false
  len : Nat := 0
  deriving DecidableEq, Repr

/-- The three words of a ring frame header. -/
def RingHead.words (h : RingHead) : List Word :=
  [wd (h.dest % 256 * 2 ^ 24 + h.src % 256 * 2 ^ 16 + h.hops % 256 * 2 ^ 8 + h.cls % 16 * 16 + h.typ % 16),
   wd (h.crEvent % 256 * 2 ^ 24 + h.crMgmt % 256 * 2 ^ 16 + h.crData % 256 * 2 ^ 8),
   wd (h.id % 256 * 2 ^ 24 + h.tsReq.toNat * 2 ^ 23 + h.wrapped.toNat * 2 ^ 22 + h.len % 512)]

/-- A ring frame header read from its three words. -/
def ringHead (w0 w1 w2 : Word) : RingHead :=
  { dest := fld w0 31 24, src := fld w0 23 16, hops := fld w0 15 8, cls := fld w0 7 4, typ := fld w0 3 0
    crEvent := fld w1 31 24, crMgmt := fld w1 23 16, crData := fld w1 15 8
    id := fld w2 31 24, tsReq := bit w2 23, wrapped := bit w2 22, len := fld w2 8 0 }

/-- The header of a ring frame's body. -/
def bodyRing (b : List Byte) : RingHead := ringHead (bodyWord b 0) (bodyWord b 1) (bodyWord b 2)

/-- ROSTER payload (R355). -/
def Roster.payload (r : Roster) : List Byte :=
  bytesLE 8 r.uid ++ [symbol r.num, symbol (r.master.toNat + r.recess.toNat * 2 + r.left.toNat * 4)] ++ bytesLE 2 r.bypA ++ bytesLE 2 r.bypB ++ [0, 0] ++
    bytesLE 8 r.eastUid ++ bytesLE 4 r.eastDelay ++ bytesLE 8 r.westUid ++ bytesLE 4 r.westDelay

/-- A number in `n` bytes at offset `i` of a payload. -/
def payloadAt (l : List Byte) (i n : Nat) : Nat := ofBytesLE ((l.drop i).take n)

/-- A ROSTER payload read. -/
def readRoster (l : List Byte) : Option Roster :=
  if l.length = 40 then
    let f := symbolAt l 9
    some { uid := payloadAt l 0 8, num := symbolAt l 8, master := nbit f 0, recess := nbit f 1, left := nbit f 2
           bypA := payloadAt l 10 2, bypB := payloadAt l 12 2, eastUid := payloadAt l 16 8, eastDelay := payloadAt l 24 4
           westUid := payloadAt l 28 8, westDelay := payloadAt l 36 4 }
  else none

/-- One frame of FORMED (R355): roll-call number, N, flags, the frame's index and its pairs. -/
structure Formed where
  roll : Nat
  n : Nat
  wrapped : Bool
  split : Bool
  idx : Nat
  pairs : List (Nat × Nat)
  deriving DecidableEq, Repr

/-- FORMED payload. -/
def Formed.payload (f : Formed) : List Byte :=
  bytesLE 4 f.roll ++ [symbol f.n, symbol (f.wrapped.toNat + f.split.toNat * 2), symbol f.idx, symbol f.pairs.length] ++
    f.pairs.flatMap fun p => symbol p.1 :: bytesLE 8 p.2

/-- A FORMED payload read. -/
def readFormed (l : List Byte) : Option Formed :=
  let k := symbolAt l 7
  if 8 ≤ l.length ∧ l.length = 8 + 9 * k ∧ k ≤ 27 ∧ symbolAt l 6 ≤ 2 then
    some { roll := payloadAt l 0 4, n := symbolAt l 4, wrapped := nbit (symbolAt l 5) 0, split := nbit (symbolAt l 5) 1, idx := symbolAt l 6
           pairs := (List.range k).map fun i => (symbolAt l (8 + 9 * i), payloadAt l (9 + 9 * i) 8) }
  else none

/-! ### Satchel messages (R403, R404) -/

/-- A Satchel message header: class, TYPE, TAG, LEN and the credits it returns by class. -/
structure SatHead where
  cls : Nat
  typ : Nat := 0
  tag : Nat := 0
  len : Nat := 0
  crRead : Nat := 0
  crWrite : Nat := 0
  crDma : Nat := 0
  crEvent : Nat := 0
  crTime : Nat := 0
  crFlow : Nat := 0
  deriving DecidableEq, Repr

/-- The two words of a Satchel message header. -/
def SatHead.words (h : SatHead) : List Word :=
  [wd (h.cls % 16 * 2 ^ 28 + h.typ % 16 * 2 ^ 24 + h.tag % 256 * 2 ^ 16 + h.len % 512),
   wd (h.crRead % 16 * 2 ^ 28 + h.crWrite % 16 * 2 ^ 24 + h.crDma % 256 * 2 ^ 16 + h.crEvent % 16 * 2 ^ 12 + h.crTime % 16 * 2 ^ 8 + h.crFlow % 16 * 16)]

/-- A Satchel message header read from its two words. -/
def satHead (w0 w1 : Word) : SatHead :=
  { cls := fld w0 31 28, typ := fld w0 27 24, tag := fld w0 23 16, len := fld w0 8 0
    crRead := fld w1 31 28, crWrite := fld w1 27 24, crDma := fld w1 23 16, crEvent := fld w1 15 12, crTime := fld w1 11 8, crFlow := fld w1 7 4 }

/-- A Satchel message: its header, the BAR0 offset or field address of REGRD, REGWR and DMA_DATA, the channel of DMA_DATA, and its payload. -/
structure SatMsg where
  head : SatHead
  addr : Nat := 0
  chan : Nat := 0
  data : List Byte := []
  deriving DecidableEq, Repr

/-- The words of a message: header, then the address words its class has (R404). -/
def SatMsg.words (m : SatMsg) : List Word :=
  m.head.words ++ (if 1 ≤ m.head.cls ∧ m.head.cls ≤ 3 then [wd m.addr, wd (m.addr / 2 ^ 32)] else []) ++
    (if m.head.cls = 3 then [wd (m.chan % 8)] else [])

/-- A message from a frame's body. -/
def readSat (b : List Byte) : SatMsg :=
  let h := satHead (bodyWord b 0) (bodyWord b 1)
  let addr := decide (1 ≤ h.cls) && decide (h.cls ≤ 3)
  { head := h
    addr := if addr then (bodyWord b 2).toNat + (bodyWord b 3).toNat * 2 ^ 32 else 0
    chan := if h.cls = 3 then fld (bodyWord b 4) 2 0 else 0
    data := b.drop (4 * (2 + (if addr then 2 else 0) + (if h.cls = 3 then 1 else 0))) }

end Sys2Proof.Machine
end

