-- ==== Sys2Proof/Machine/Links.lean ====
section
/-! DEFINITION. Lanes and links as the other families see them (17_lanes.md, 18_ring_time.md): which lanes a link has and may use, its
maps and widths (R332), frames with their credits and replay (R335, R352), and the frames that wait at the ring ports (R353, R374). -/

namespace Sys2Proof.Machine

/-- `s` with the lanes and links replaced. -/
def State.setLanes (s : State) (x : Lanes) : State := { s with lan := x }

/-- Lane `n`. -/
def State.lane (s : State) (n : Nat) : Lane := Tab.get (fun _ => {}) s.lan.lanes n

/-- `s` with lane `n` replaced. -/
def State.setLane (s : State) (n : Nat) (x : Lane) : State :=
  s.setLanes { s.lan with lanes := Tab.set (fun _ => {}) s.lan.lanes n x }

/-- Link `l`: 0 the Satchel at the field end, 1 East, 2 West, 3 the Satchel at the host end. -/
def State.link (s : State) (l : Nat) : Link := Tab.get (fun _ => {}) s.lan.links l

/-- `s` with link `l` replaced. -/
def State.setLink (s : State) (l : Nat) (x : Link) : State :=
  s.setLanes { s.lan with links := Tab.set (fun _ => {}) s.lan.links l x }

/-- The link of a lane, the first lane of a link, and how many lanes it has. -/
def linkOf (n : Nat) : Nat := if n < 16 then 0 else if n < 20 then 1 else if n < 24 then 2 else 3
def laneFirst (l : Nat) : Nat := [0, 16, 20, 24].getD l 24
def laneCount (l : Nat) : Nat := if l = 1 ∨ l = 2 then 4 else 16
def lanesOf (l : Nat) : List Nat := (List.range (laneCount l)).map (laneFirst l + ·)

/-- A ring port's link. -/
def ringLink (l : Nat) : Bool := l = 1 || l = 2

/-- The page of lane `n`, for lanes below 24, and the block of link `l`, for links below 3. -/
def lanePage (n : Nat) : Nat := lanBase (2 + n)
def linkBlock (l : Nat) : Nat := [lanBase 0 + 0x40, lanBase 1 + 0x40, lanBase 1 + 0x80].getD l 0

/-- Global number of event `b` of link `l` (R345). -/
def linkEv (l b : Nat) : Nat := if l = 0 then evNo 57 b else if l = 1 then evNo 58 b else evNo 58 (8 + b)

/-- An occurrence of a link's event; the host end has no `LAN` page. -/
def State.linkOccur (s : State) (l b : Nat) : State := if l < 3 then s.occur (linkEv l b) else s

/-- A count in a link's block. -/
def State.linkCount (s : State) (l off k : Nat) : State := if l < 3 then s.incSat (linkBlock l + off) k else s

/-- `LINK_CTRL` of a link; the host end's has the reset value of the field end's. -/
def State.linkCtrl (s : State) (l b : Nat) : Bool := if l < 3 then s.getB (linkBlock l) b else true

/-! ### Maps and widths (R332, R337) -/

/-- The permitted widths, widest first. -/
def permitted (l : Nat) : List Nat := if ringLink l then [4, 2, 1] else [16, 8, 4, 2, 1]

/-- The largest permitted width that does not exceed `k`. -/
def widthFor (l k : Nat) : Nat := ((permitted l).find? (fun w => decide (w ≤ k))).getD 0

/-- The lanes in CAPS or later that the link may take: their CAPS matched, and their skew is within the tolerance (R331, R333). -/
def State.available (s : State) (l : Nat) : List Nat :=
  (lanesOf l).filter fun n =>
    let x := s.lane n
    decide (4 ≤ x.st) && decide (x.st ≤ 6) && x.matched && !x.held

/-- A link is up while each direction has a lane in its map (R337). -/
def Link.up (k : Link) : Bool := !k.rx.isEmpty && decide (k.tx ≠ 0)

/-- Width of the transmit map. -/
def Link.txWidth (k : Link) : Nat := (bitsOf 16 k.tx).length

/-- `FROZEN` of a link follows its lanes (R341). -/
def State.frozenLive (s : State) (l : Nat) : State :=
  if l < 3 then s.setLive (linkEv l 3) ((lanesOf l).any fun n => (s.lane n).st = 6) else s

/-- The receive map becomes the `w` lowest-numbered available lanes: those that join are ACTIVE, those that leave are in CAPS. -/
def State.takeMap (s : State) (l w : Nat) : State :=
  let map := (s.available l).take w
  let s := (lanesOf l).foldl (fun s n =>
    let x := s.lane n
    if map.contains n then (if x.st = 4 then s.setLane n { x with st := 5 } else s)
    else if x.st = 5 ∨ x.st = 6 then s.setLane n { x with st := 4, capsAt := s.cycle }
    else s) s
  (s.setLink l { s.link l with rx := map }).frozenLive l

/-! ### Frames and credits (R335, R352) -/

/-- Port `p` of the ring. -/
def State.port (s : State) (p : Nat) : RingPort := Tab.get (fun _ => {}) s.ring.ports p

/-- `s` with the ring replaced, and with a port of it replaced. -/
def State.setRing (s : State) (r : Ring) : State := { s with ring := r }
def State.setPort (s : State) (p : Nat) (x : RingPort) : State :=
  s.setRing { s.ring with ports := Tab.set (fun _ => {}) s.ring.ports p x }

/-- Port `p` carries frames (R337, R357, R358): its link is up, it is not a SPAN port and the bypass is open. -/
def State.carries (s : State) (p : Nat) : Bool := (s.link (1 + p)).up && !(s.port p).span && !s.ring.closed

/-- Link `l` may start a frame: no re-stripe runs, the audit is done and the replay buffer has room. -/
def State.framesFlow (s : State) (l : Nat) : Bool :=
  let k := s.link l
  k.up && k.re.isNone && decide (k.audit = 2) && decide (k.replay.length < 64)

/-- A ring link may send a frame of class `cls`: it holds a credit for it. -/
def State.canSend (s : State) (l cls : Nat) : Bool :=
  s.framesFlow l && decide (Tab.get (fun _ => 0) (s.link l).credit cls ≠ 0)

/-- The credits of class `cls` that one header of link `l` can return, of `n` that wait (R349, R404). -/
def returnable (l cls n : Nat) : Nat := min n (if ringLink l ∨ cls = 3 then 255 else 15)

/-- A frame of class `cls` leaves on link `l`: it takes a sequence number, its place in the replay buffer, and on the ring a credit. `mk` gives its
bytes from the credits that its header returns. -/
def State.sendFrame (s : State) (l cls : Nat) (mk : (Nat → Nat) → List Byte) : State :=
  let k := s.link l
  let back (c : Nat) : Nat := returnable l c (Tab.get (fun _ => 0) k.owed c)
  s.setLink l { k with
    txSeq := (k.txSeq + 1) % 65536
    replay := k.replay ++ [(k.txSeq, cls, mk back)]
    ackAt := if k.replay.isEmpty then s.cycle else k.ackAt
    fillAt := s.cycle
    credit := if ringLink l then Tab.set (fun _ => 0) k.credit cls (Tab.get (fun _ => 0) k.credit cls - 1) else k.credit
    owed := (List.range 7).foldl (fun o c => Tab.set (fun _ => 0) o c (Tab.get (fun _ => 0) k.owed c - back c)) k.owed }

/-- A receive buffer of class `cls` at link `l` is free again: a credit to return (R352). -/
def State.owe (s : State) (l cls : Nat) : State :=
  let k := s.link l
  s.setLink l { k with owed := Tab.set (fun _ => 0) k.owed cls (Tab.get (fun _ => 0) k.owed cls + 1)
                       owedAt := if k.owed.isEmpty then s.cycle else k.owedAt }

/-- The frame in a receive buffer is a broadcast, so that it is forwarded as well. -/
def RxData.broadcast (f : RxData) : Bool := fld (f.words.getD 0 0) 31 24 = 0xFF

/-- One of the two uses of a broadcast DATA frame from link `l` is over: its forwarded copy left (`d` 1), or its slot of the receive ring is
written (`d` -1). The buffer is free once both are (R352, R376). -/
def State.copyDone (s : State) (l : Nat) (d : Int) : State :=
  let k := s.link l
  let s := s.setLink l { k with copied := k.copied + d }
  if (k.copied + d).natAbs < k.copied.natAbs then s.owe l 4 else s

/-- A frame that came in at port `q` has left on its way. -/
def State.forwarded (s : State) (q : Nat) (f : RFrame) : State :=
  if f.cls = 4 ∧ f.dest = 0xFF then s.copyDone (1 + q) 1 else s.owe (1 + q) f.cls

/-- The bytes of a ring frame that leaves (R349), with the credits its header returns; WRAPPED is set by the node that wraps it. -/
def State.ringBytes (s : State) (f : RFrame) (wrap : Bool) (back : Nat → Nat) : List Byte :=
  let h : RingHead := {
    dest := f.dest, src := f.src.getD (s.ring.num.getD 0xFE), hops := f.hops, cls := f.cls, typ := f.typ
    crEvent := back 2, crMgmt := back 3, crData := back 4, id := f.id, tsReq := f.tsReq, wrapped := f.wrapped || wrap, len := f.data.length }
  frameBytes h.words f.data

/-- The frames at the ring ports go out as credit allows, EVENT before MGMT before DATA (R350); a frame whose port does not carry frames goes
out of the other port, wrapped (R353). -/
def State.ringPump (s : State) : State :=
  let order := (s.ring.wait.filter (·.cls = 2)) ++ (s.ring.wait.filter (·.cls = 3)) ++ (s.ring.wait.filter (·.cls = 4))
  let r := order.foldl (fun (r : State × List RFrame) f =>
    let s := r.1
    let p := if !(s.carries f.port) ∧ s.carries (1 - f.port) then 1 - f.port else f.port
    if s.carries p ∧ s.canSend (1 + p) f.cls then
      let s := s.sendFrame (1 + p) f.cls (s.ringBytes f (decide (p ≠ f.port)))
      ((match f.origin with | none => s | some q => s.forwarded q f), r.2)
    else (s, r.2 ++ [f])) (s, [])
  r.1.setRing { r.1.ring with wait := r.2 }

/-- A frame waits at its port, or goes at once. -/
def State.ringQueue (s : State) (f : RFrame) : State :=
  (s.setRing { s.ring with wait := s.ring.wait ++ [f] }).ringPump

/-- The port with the fewer hops to node `dest`, East on a tie (R353). -/
def State.portTo (s : State) (dest : Nat) : Nat :=
  let nums := s.ring.roster.map Prod.fst
  match s.ring.num with
  | none => 0
  | some me =>
    let n := nums.length
    if n = 0 ∨ !(nums.contains dest) then 0
    else
      let e := (nums.idxOf dest + n - nums.idxOf me) % n
      if e ≤ (n - e) % n then 0 else 1

/-- A frame of this node with `TYPE` and payload: to one node, held while that node reports RECESS unless `always` (R374), or a broadcast on ring A. -/
def State.ringEmit (s : State) (cls typ dest : Nat) (data : List Byte) (always : Bool) : State :=
  let f : RFrame := { port := if dest = 0xFF then 0 else s.portTo dest, cls := cls, typ := typ, dest := dest, data := data }
  if dest ≠ 0xFF ∧ !always ∧ cls ≠ 2 ∧ Tab.get (fun _ => false) s.ring.recess dest then
    s.setRing { s.ring with held := s.ring.held ++ [f] }
  else s.ringQueue f

/-! ### Satchel messages (R403, R404) -/

/-- `CREDIT[c]` of an end of the Satchel. -/
def satCreditReg (host : Bool) (c : Nat) : Nat := (if host then sat0Base else sat1Base) + 0x44 + 4 * c

/-- Credits of class `c` that an end of the Satchel has to send with. -/
def State.satCredit (s : State) (host : Bool) (c : Nat) : Nat := s.getF (satCreditReg host c) 7 0

/-- `n` credits of class `c` are back at an end of the Satchel, up to those it owns. -/
def State.satBack (s : State) (host : Bool) (c n : Nat) : State :=
  s.setF (satCreditReg host c) 7 0 (min (s.getF (satCreditReg host c) 23 16) (s.satCredit host c + n))

/-- The link of an end of the Satchel. -/
def satLink (host : Bool) : Nat := if host then 3 else 0

/-- An end of the Satchel can send `n` messages of class `c`: frames flow, the replay buffer has room, and it holds the credits. -/
def State.satReady (s : State) (host : Bool) (c n : Nat) : Bool :=
  s.sat.hostUp && s.sat.fieldUp && s.framesFlow (satLink host) && decide ((s.link (satLink host)).replay.length + n ≤ 64) &&
    decide (n ≤ s.satCredit host c)

/-- A message leaves an end of the Satchel in a frame, with a credit, and the far end frees its buffer, which it owes back. -/
def State.satSend (s : State) (host : Bool) (m : SatMsg) : State :=
  let c := m.head.cls
  let s := s.sendFrame (satLink host) c fun back =>
    let h := { m.head with
      len := m.data.length, crRead := back 1, crWrite := back 2, crDma := back 3, crEvent := back 4, crTime := back 5, crFlow := back 6 }
    frameBytes ({ m with head := h } : SatMsg).words m.data
  (s.setF (satCreditReg host c) 7 0 (s.satCredit host c - 1)).owe (satLink !host) c

/-! ### Host-end RESYNC records (R427) -/

/-- TB0 as the host side has it (R11, R403): from its latest TIME message on, 0 before the first (log 71). -/
def State.hostNow (s : State) : Nat :=
  match s.sat.hostTime with
  | none => 0
  | some t => t.1 + (s.cycle - s.sat.hostTimeAt) * unitsPerCycle

/-- The host end discards `amount`: its record waits for the link, at most 16. -/
def State.hostResync (s : State) (cause kind page sub : Nat) (amount : Int) : State :=
  if amount = 0 then s
  else if s.prune.hostQueue.length < 16 then
    { s with prune := { s.prune with hostQueue := s.prune.hostQueue ++ [⟨true, false, cause, kind, page, sub, amount, s.hostNow⟩] } }
  else { s with prune := { s.prune with hostOvf := true } }

end Sys2Proof.Machine
end

