-- ==== Sys2Proof/Machine/RollCall.lean ====
section
/-! DEFINITION. The ring as a whole (18_ring_time.md, R347, R348, R354 to R359, R365): roll call, numbering, FORMED, and what a change of a port
does. -/

namespace Sys2Proof.Machine

/-- This node's `UID`. -/
def State.uid (s : State) : Nat := s.reg64 (rngBase + 0x48)

/-- The SYNC interval in fabric cycles, by this node's own SYNC_EXP (R362; log 92). -/
def State.syncCycles (s : State) : Nat := 2 ^ s.getF (rngBase + 0x40) 11 8 * 800

/-- `PG_STAT.BUSY` of `RNG[0]`. -/
def State.rollBusy (s : State) (b : Bool) : State := s.setB (rngBase + 0xC) 0 b

/-- `PORT_DOWN` follows the ports (R380). -/
def State.portLive (s : State) : State := s.setLive (evNo 59 1) (!(s.carries 0) || !(s.carries 1))

/-- `SPLIT` follows the state (R356). -/
def State.ringState (s : State) (st : Nat) : State := (s.setRing { s.ring with st := st }).setLive (evNo 59 2) (st = 3)

/-- The roster this node broadcasts (R355). -/
def State.ownRoster (s : State) : Roster :=
  { uid := s.uid, num := s.ring.num.getD 0xFE, master := s.getB (rngBase + 0x40) 0, recess := decide (s.ctl.mode = 4)
    left := s.ring.closed && s.getB (rngBase + 0x40) 1
    bypA := s.getF (rngBase + 0x50) 15 0, bypB := s.getF (rngBase + 0x50) 31 16
    eastUid := if s.carries 0 then (s.port 0).nbrUid else 0, eastDelay := (s.reg (rngBase + 0x64)).toNat
    westUid := if s.carries 1 then (s.port 1).nbrUid else 0, westDelay := (s.reg (rngBase + 0x74)).toNat }

/-! ### Order and numbers (R348, R357) -/

/-- The UIDs met from `cur` along one ring, until `stop`, a port that is down or a node without a roster. -/
def follow (rs : List Roster) (east : Bool) (stop : Nat) : Nat → Nat → List Nat
  | 0, _ => []
  | f + 1, cur =>
    match rs.find? (·.uid = cur) with
    | none => []
    | some r =>
      let nx := if east then r.eastUid else r.westUid
      if nx = 0 ∨ nx = stop ∨ !(rs.any (·.uid = nx)) then [] else nx :: follow rs east stop f nx

/-- The east neighbour reported by node `uid`. -/
def eastOf (rs : List Roster) (uid : Nat) : Nat := ((rs.find? (·.uid = uid)).map (·.eastUid)).getD 0

/-- The ring as rosters give it from `uid` on: its nodes eastward in ring A order, the nodes across a break in ring B order, and whether it
is whole. -/
def ringOrder (rs : List Roster) (uid : Nat) : List Nat × List Nat × Bool :=
  let a := follow rs true uid 64 uid
  let whole := decide (eastOf rs (a.getLast?.getD uid) = uid)
  (a, if whole then [] else (follow rs false uid 64 uid).filter fun u => !a.contains u, whole)

/-- The nodes present at roll call `k` that the master's register holds are marked so (R348). -/
def markPresent (reg : List (Nat × Nat × Nat)) (k : Nat) (uids : List Nat) : List (Nat × Nat × Nat) :=
  reg.map fun e => if uids.contains e.1 then (e.1, e.2.1, k) else e

/-- One node takes its number from the master's register at roll call `k` (R348): its own, else the lowest free one, else that of the node absent
longest. -/
def numberOne (reg : List (Nat × Nat × Nat)) (k uid : Nat) : List (Nat × Nat × Nat) :=
  if reg.any (·.1 = uid) then reg
  else
    match ((List.range 63).map (· + 1)).find? fun n => !(reg.any (·.2.1 = n)) with
    | some n => reg ++ [(uid, n, k)]
    | none =>
      match reg.foldl (fun (m : Option (Nat × Nat × Nat)) e =>
          match m with
          | none => some e
          | some b => if e.2.2 < b.2.2 then some e else some b) none with
      | none => reg
      | some old => (reg.filter (·.1 ≠ old.1)) ++ [(uid, old.2.1, k)]

/-- The nodes of a known ring order that lie next to `uid` in one direction and are absent now (R357, R359). -/
def absentRun (old : List Nat) (uid : Nat) (present : List Nat) (east : Bool) : List Nat :=
  let i := old.idxOf uid
  let l := (old.drop (i + 1)) ++ old.take i
  (if east then l else l.reverse).takeWhile fun u => !present.contains u

/-- The ring order that a node knows after a FORMED with the nodes `present` (R359): each of them, followed by the absent ones that it
knew between that node and the next (log 94). -/
def mergeOrder (known present : List Nat) : List Nat :=
  present.flatMap fun u => u :: (if known.contains u then absentRun known u present true else [])

/-- The nodes that the link of port `p` spans, between node `uid` and its neighbour (R357, R359; log 94). -/
def State.spanned (s : State) (p : Nat) (present : List Nat) : List Nat :=
  if (s.link (1 + p)).up ∧ s.ring.known.contains s.uid then absentRun s.ring.known s.uid present (p = 0) else []

/-! ### FORMED -/

/-- A change of a hop: TB0 enters holdover, except at the master (R365). -/
def State.hopChange (s : State) : State :=
  if s.ring.master then s.setRing { s.ring with since := false } else s.tb0Change

/-- What a port takes from a new roster: its neighbour's number, the bypassed nodes of its link with ASYM (R361), and its SPAN mark. The
mark's rising edge is `SPAN`. -/
def State.formPort (s : State) (p : Nat) (order : List (Nat × Nat)) (span : Bool) : State :=
  let x := s.port p
  let run := s.spanned p (order.map Prod.snd)
  let vals := run.map fun u => (s.ring.byp.find? (·.1 = u)).map Prod.snd
  let asym : Int := (vals.map fun v =>
    match v with
    | none => (0 : Int)
    | some (a, b) => (if p = 1 then ((a : Int) - b) else ((b : Int) - a)) * 2).sum
  let s := s.setPort p { x with
    nbr := ((order.find? (·.2 = x.nbrUid)).map Prod.fst).getD 0, bypassed := min 3 run.length
    asymUnknown := vals.any Option.isNone, span := span }
  let s := s.setReg (rngBase + 0x68 + 16 * p) (wd (unsext 32 asym))
  if span ∧ !x.span then (s.occur (evNo 59 7)).hopChange else s

/-- A FORMED is applied (R355, R356, R368): numbers, N, the ring's state, and the first time that TB0 counts. `order` gives number and UID in
ring order. The first SYNC accepted after that start steps TB0 (log 92). -/
def State.applyFormed (s : State) (wrapped split : Bool) (order : List (Nat × Nat)) (spanE spanW : Bool) : State :=
  let me := (order.find? (·.2 = s.uid)).map Prod.fst
  let parts := split && decide (s.ring.st ≠ 3)
  let s := (s.formPort 0 order spanE).formPort 1 order spanW
  let s := s.setRing { s.ring with
    num := me, n := order.length, roster := order, known := mergeOrder s.ring.known (order.map Prod.snd), forming := [],
    collect := none, exchanging := false, since := true, changeAt := none
    first := s.ring.first || !(s.tb 0).counting }
  let s := (s.rollBusy false).ringState (if split then 3 else if wrapped then 2 else 1)
  let s := s.setReg (rngBase + 0x44) (wd (me.getD 0 % 64 * 2 ^ 26 + order.length % 128 * 2 ^ 19 + s.ring.master.toNat * 2 ^ 16))
  let s := (s.incWrap (rngBase + 0x58) 1).portLive
  let s := if parts then s.hopChange else s
  let s := if (s.tb 0).counting then s else s.tbStart 0 0
  s.occur (evNo 59 0)

/-- A node that was not the master acts as it: its register holds the numbers of the latest FORMED it applied, but its own and the old master's
(R348). -/
def State.takeMaster (s : State) : State :=
  if s.ring.master then s
  else s.setRing { s.ring with
    master := true
    register := (s.ring.roster.filter fun e => e.1 ≠ 0 && e.2 ≠ s.uid).map fun e => (e.2, e.1, s.ring.rollSeq) }

/-- A node with MASTER = 1 and no port that carries frames forms a ring of one (R347). -/
def State.formOne (s : State) : State := s.takeMaster.applyFormed true false [(0, s.uid)] false false

/-- A TIME set leaves port `p` at ET instant `et`, or 100 ns after the start of the one before it (R350); `mk` gives it for its departure. -/
def State.sendTime (s : State) (p et : Nat) (mk : Nat → List Byte) : Nat × State :=
  let x := s.port p
  let a := max et x.timeFree
  (a, s.setPort p { x with timeOut := mk a, timeFree := a + 80 * 20480 })

/-- A DREQ leaves port `p` (R361). -/
def State.sendDreq (s : State) (p : Nat) : State :=
  let q := ((s.port p).seq + 1) % 256
  let r := s.sendTime p (s.cycle * 20480) fun _ => dreqSet q
  r.2.setPort p { r.2.port p with seq := q, dreq := some (q, r.1), exchAt := s.cycle }

/-- Step 2 of a roll call (R355): HELLO, and the first of 16 exchanges, on each port that carries frames. -/
def State.exchangeStart (s : State) : State :=
  let s := [0, 1].foldl (fun s p =>
    let x := s.port p
    if s.carries p then
      ((s.setPort p { x with sum := 0, cnt := 0 }).sendDreq p).ringQueue { port := p, cls := 3, typ := 1, dest := 0xFE, data := bytesLE 8 s.uid }
    else s.setPort p { x with cnt := 16 }) s
  s.setRing { s.ring with exchanging := true }

/-- A roll call starts at the master, abandoning one in progress (R354); with no port that carries frames it forms a ring of one. -/
def State.rollStart (s : State) : State :=
  if !(s.carries 0) ∧ !(s.carries 1) then s.formOne
  else
    let k := s.ring.rollSeq + 1
    let s := s.takeMaster
    let s := s.setRing { s.ring with collect := some [], rollAt := s.cycle, rollSeq := k, rollSeen := some k, forming := [] }
    let s := s.rollBusy true
    let call (p : Nat) : RFrame := { port := p, cls := 3, typ := 2, dest := 0xFF, data := bytesLE 4 k }
    let s := (s.ringQueue (call 0)).ringQueue (call 1)
    s.exchangeStart

/-- ROLL_REQ to node 0, or at the master the roll call itself, which its first port to carry frames after a field reset starts too (R347, R354). -/
def State.rollRequest (s : State) : State :=
  let first := s.ring.num.isNone && s.ring.clash.isNone
  if s.ring.master ∨ (s.getB (rngBase + 0x40) 0 ∧ (first ∨ (!(s.carries 0) ∧ !(s.carries 1)))) then s.rollStart
  else if s.carries 0 ∨ s.carries 1 then s.ringEmit 3 7 0 [] false
  else s

/-- Port `p` came up, went down or re-striped (R338, R354, R365): the hop's delay is to be measured again, TB0 enters holdover except at the
master, and a roll call is asked for. -/
def State.portChanged (s : State) (p : Nat) : State :=
  let s := s.setPort p { s.port p with changed := true, dreq := none }
  let s := s.setRing { s.ring with changeAt := some (s.ring.changeAt.getD s.cycle) }
  s.hopChange.portLive.rollRequest

/-- A node enters or leaves RECESS, or pruning stage 3, and broadcasts STATE: bit 0 is set in RECESS and at stages 3 and 4 (R374, R417). -/
def State.sendState (s : State) : State :=
  if s.ring.num.isSome then s.ringEmit 3 6 0xFF (bytesLE 4 (decide (s.ctl.mode = 4) || decide (3 ≤ s.prune.stage)).toNat) true else s

end Sys2Proof.Machine
end

