-- ==== Sys2Proof/Machine/Lanes.lean ====
section
/-! DEFINITION. The serial lanes (17_lanes.md): bring-up and training, CAPS, maps, re-stripes with their audit (21_pruning_conservation.md, R423 to
R425), acknowledgement and replay, idle and filler, Recess, and the diagnostics. -/

namespace Sys2Proof.Machine

/-! ### AUDIT (R423, R424) -/

/-- Receive buffers of class `c` at an end of link `l` (R352, R403), and how many hold a frame: a broadcast DATA frame that is neither forwarded
nor in the receive ring is in one. -/
def bufferCount (l c : Nat) : Nat := if ringLink l then [0, 0, 16, 16, 32].getD c 0 else [0, 32, 64, 128, 32, 4, 16].getD c 0
def State.buffersHeld (s : State) (l c : Nat) : Nat :=
  if ringLink l then
    let out := s.ring.wait.filter fun f => decide (f.cls = c) && f.origin = some (l - 1)
    let own := if c = 4 then s.ring.rx.filter fun f => decide (f.port = l - 1) else []
    (out.filter fun f => f.dest ≠ 0xFF).length + (own.filter fun f => !f.broadcast).length +
      max (out.filter fun f => f.dest = 0xFF).length (own.filter (·.broadcast)).length
  else if l = 0 ∧ c = 1 then s.sat.reads.length
  else 0

/-- The AUDIT sets of an end of link `l`, one per class in ascending order (R424). -/
def State.auditSets (s : State) (l : Nat) : List AuditSet :=
  let k := s.link l
  let one (last : Bool) (c : Nat) : AuditSet := ⟨c, k.fresh, last, bufferCount l c - s.buffersHeld l c, (k.rxNext + 65535) % 65536⟩
  if ringLink l then [one false 2, one false 3, one true 4]
  else [one false 1, one false 2, one false 3, one false 4, one false 5, one true 6]

/-- The STRIPE that announces the receive map of an end of link `l` (R332, R336): the map may be empty (log 93). -/
def State.stripeOut (s : State) (l : Nat) : List Byte :=
  let k := s.link l
  stripeSet k.rx.length (ofBits (k.rx.map (· - laneFirst l))) ((k.rxNext + 65535) % 65536)

/-- An end of link `l` sends its exchange, after STRIPE with its new map where that has changed (R336). -/
def State.auditSend (s : State) (l : Nat) (striped : Bool) : State :=
  let k := s.link l
  let first := if striped then [s.stripeOut l] else []
  s.setLink l { k with auditAt := s.cycle, sent := first ++ (s.auditSets l).map AuditSet.symbols }

/-! ### Changes of a map (R332, R336, R337) -/

/-- What follows when a link that was up, or not, now is or is not: `LINK_DOWN`, the audit that precedes any frame, and on the ring
the change of the port (R337, R338). -/
def State.linkJudge (s : State) (l : Nat) (was : Bool) : State :=
  let k := s.link l
  let s :=
    if k.up ∧ !was then (s.setLink l { k with audit := 1, re := none }).auditSend l true
    else if !k.up then s.setLink l { k with audit := 0, re := none }
    else s
  let s := if l < 3 then s.setLive (linkEv l 4) (!k.up) else s
  if ringLink l ∧ k.up ≠ was then s.portChanged (l - 1) else s

/-- A re-stripe starts, or one in progress starts again with both changes (R336). -/
def State.restripe (s : State) (l cause dir lane old : Nat) : State :=
  let k := s.link l
  (s.setLink l { k with re := some (k.re.getD ⟨cause, dir, lane, old⟩), audit := 1 }).auditSend l (dir = 0)

/-- The receive map is formed again with at most `cap` lanes: the link comes up or goes down, or re-stripes if its map changes. A link that is
not up announces its map alone (R332). -/
def State.rxChange (s : State) (l cause lane cap : Nat) : State :=
  let k := s.link l
  let s := s.takeMap l (widthFor l (min cap (s.available l).length))
  let k' := s.link l
  if k'.rx = k.rx then s
  else if !k'.up then
    let s := s.setLink l { k' with sent := [s.stripeOut l] }
    if k.up then s.linkJudge l true else s
  else if !k.up then s.linkJudge l false
  else if k.audit = 1 ∧ k.re.isNone then s.auditSend l true
  else s.restripe l cause 0 lane k.rx.length

/-- The width up to which a map may be formed again: with AUTO_WIDEN = 0 it does not grow while the link is up (R339). -/
def State.widthCap (s : State) (l : Nat) : Nat :=
  let k := s.link l
  if !k.up ∨ s.linkCtrl l 0 then 16 else k.rx.length

/-! ### Training (R328 to R330) -/

/-- The requests of the next trial of lane `n`, the last having shown an eye of width `w` (R329): P0 to P10 in turn, then from the best preset
single steps of a coefficient. A step that narrowed the eye is reversed by its opposite. Which step comes next is open (log 80). -/
def State.laneAsk (s : State) (n w : Nat) : State :=
  let x := s.lane n
  if x.trials < 11 then s.setLane n { x with ask := [(1, x.trials)], askNo := (x.askNo + 1) % 256 }
  else
    let r := s.freshNat 2
    let back := if x.trials = 11 then [(1, x.best)]
      else match x.ask.getLast? with
        | some a => if w < x.bestW then [(a.1 ^^^ 1, 0)] else []
        | none => []
    let l := back ++ [(2 + r.1 % 4, 0)]
    r.2.setLane n { x with ask := l, askNo := (x.askNo + l.length) % 256 }

/-- A training pass starts. -/
def State.trainStart (s : State) (n : Nat) : State :=
  (s.setLane n { s.lane n with
    st := 2, trials := 0, best := 0, bestW := 0, trialAt := s.cycle, matched := false, held := false, slept := false }).laneAsk n 0

/-- A lane becomes DEAD (R330). -/
def State.laneDead (s : State) (n : Nat) : State :=
  (s.setLane n { s.lane n with st := 7, matched := false }).linkOccur (linkOf n) 2

/-- LANE_DETECT (R328): termination and signal have been seen for 1 µs. -/
def execLaneDetect (n : Nat) (s : State) : Out :=
  .next (if n < 40 ∧ (s.lane n).st = 1 then s.trainStart n else s)

/-- C−1 and C+1 of a preset (R329). -/
def presetCoef (p : Nat) : Int × Int :=
  [(0, -16), (0, -10), (0, -13), (0, -6), (0, 0), (-5, 0), (-7, 0), (-6, -13), (-6, -10), (-8, 0), (0, -21)].getD p (0, 0)

/-- The coefficients after a request of TS symbol 4: PRESET, or one step, which a limit leaves undone (R329). -/
def coefAfter (c : Int × Int) (req preset : Nat) : Int × Int :=
  let try1 (d : Int × Int) : Int × Int := if d.1.natAbs ≤ 16 ∧ d.2.natAbs ≤ 24 then d else c
  match req with
  | 1 => if preset ≤ 10 then presetCoef preset else c
  | 2 => try1 (c.1 + 1, c.2)
  | 3 => try1 (c.1 - 1, c.2)
  | 4 => try1 (c.1, c.2 + 1)
  | 5 => try1 (c.1, c.2 - 1)
  | _ => c

/-- TS_RECEIVED (R325, R329): a TS set on lane `n`; the transmitter applies its request and echoes the number. -/
def execTsReceived (n : Nat) (set : List Byte) (s : State) : Out :=
  let x := s.lane n
  .next (match readTs set with
    | none => s
    | some (req, preset, number) =>
      if n < 40 ∧ x.st ≠ 0 ∧ req ≠ 0 then
        let c := coefAfter (x.cm1, x.cp1) req preset
        s.setLane n { x with cm1 := c.1, cp1 := c.2, echo := number }
      else s)

/-- Trials a pass holds: 11 presets and 1,024 fine trials (R329). -/
def maxTrials : Nat := 1035

/-- TRAIN_TRIAL_END (R329, R330): a 48 µs trial ends with an eye of `w`/64 UI and `h` mV. 24/64 UI and 30 mV pass; the last trial that fails
leaves the lane DEAD. -/
def execTrainTrialEnd (n w h : Nat) (s : State) : Out :=
  .next (if n < 40 ∧ (s.lane n).st = 2 then
    let s := s.passTo ((s.lane n).trialAt + 38400)
    let x := s.lane n
    let best := if x.trials < 11 ∧ x.bestW < w then x.trials else x.best
    let x := { x with trials := x.trials + 1, best := best, bestW := max x.bestW w, trialAt := s.cycle }
    if 24 ≤ w ∧ 30 ≤ h then
      s.setLane n { x with st := 3, ask := [], preset := if x.trials ≤ 11 then x.trials - 1 else best, eyeW := w, eyeH := h, shown := x.trials,
                           lockAt := s.cycle }
    else if maxTrials ≤ x.trials then (s.setLane n { x with eyeW := w, eyeH := h, shown := x.trials }).laneDead n
    else (s.setLane n x).laneAsk n w
  else s)

/-- LANE_SYMBOL_LOCK (R328): bit and symbol lock in LOCK. -/
def execLaneSymbolLock (n : Nat) (s : State) : Out :=
  let x := s.lane n
  .next (if n < 40 ∧ x.st = 3 ∧ s.cycle ≤ x.lockAt + (if x.slept then 16000 else 80000) then
    s.setLane n { x with st := 4, capsAt := s.cycle, matched := false, held := false, slept := false, idleRun := 0 }
  else s)

/-- LOCK_TIMEOUT (R328, R330): 100 µs without symbol lock: the trial that led to LOCK has failed. -/
def execLockTimeout (n : Nat) (s : State) : Out :=
  .next (if n < 40 ∧ (s.lane n).st = 3 ∧ !(s.lane n).slept then
    let s := s.passTo ((s.lane n).lockAt + 80000)
    if maxTrials ≤ (s.lane n).trials then s.laneDead n
    else (s.setLane n { s.lane n with st := 2, trialAt := s.cycle }).laneAsk n (s.lane n).eyeW
  else s)

/-- SLEEP_LOCK_TIMEOUT (R342): 20 µs after the fast clocks return. -/
def execSleepLockTimeout (n : Nat) (s : State) : Out :=
  .next (if n < 40 ∧ (s.lane n).st = 3 ∧ (s.lane n).slept then (s.passTo ((s.lane n).lockAt + 16000)).trainStart n else s)

/-! ### CAPS and the map (R331 to R333, R339) -/

/-- What a CAPS set does: the far end's majors, widths and link type are judged, and the lane may join the map; `skew` is what the deskew finds. -/
def State.capsIn (s : State) (n : Nat) (c : CapsSet) (skew : Nat) : State :=
  let l := linkOf n
  let k := s.link l
  let s := s.setLink l { k with capsFar := wd (c.major * 2 ^ 24 + c.minor * 2 ^ 16 + c.widths * 2 ^ 8 + c.kind % 4) }
  let x := s.lane n
  if c.major ≠ fld k.capsOwn 31 24 ∨ c.kind ≠ (fld k.capsOwn 1 0) ^^^ 1 then
    let s := s.setLane n { x with held := true, matched := false }
    if x.held && !x.matched then s else s.linkOccur l 5
  else
    let s := s.setLane n { x with matched := true, held := decide (32 < skew), deskew := if skew ≤ 32 then skew else x.deskew }
    if k.up ∧ k.audit = 2 ∧ k.re.isNone then s else s.rxChange l 4 0 (s.widthCap l)

/-- The CAPS set that lane `n` sends (R325, R331). -/
def State.capsOut (s : State) (n : Nat) : CapsSet :=
  let l := linkOf n
  let own := (s.link l).capsOwn
  { lane := n - laneFirst l, locked := ((lanesOf l).filter fun m => decide (3 ≤ (s.lane m).st) && decide ((s.lane m).st ≤ 6)).length
    widths := fld own 15 8, features := (s.linkCtrl l 1).toNat + 2 * (s.linkCtrl l 0).toNat, major := fld own 31 24, minor := fld own 23 16
    kind := fld own 1 0 }

/-- The frames that link `l` has sent and that are not acknowledged, as they stand on the lanes of its transmit map (R327): SOF, the logical lanes,
EOF. -/
def State.framesOut (s : State) (l : Nat) : List (List Byte × List (List Byte) × List Byte) :=
  let w := (s.link l).txWidth
  (s.link l).replay.map fun f => (sofSet f.2.1 f.1, stripe w f.2.2, eofSet (padBytes w f.2.2.length))

/-- The ordered sets that lane `n` sends, in their order (R325, R328, R329, R331, R336): TS in TRAIN and LOCK, CAPS in CAPS until the link is up without
it, then IDLE, which an ACTIVE lane sends too until a re-stripe has ended. -/
def State.laneSets (s : State) (n : Nat) : List (List Byte) :=
  let x := s.lane n
  let ts (req preset number : Nat) : List Byte := tsSet (n - laneFirst (linkOf n)) x.st req preset number x.echo x.cm1 x.cp1
  if x.st = 2 then (x.ask.zip (List.range x.ask.length)).map fun p => ts p.1.1 p.1.2 ((x.askNo + 257 + p.2 - x.ask.length) % 256)
  else if x.st = 3 then [ts 0 0 x.askNo]
  else if x.st = 4 then (if x.matched ∧ (s.link (linkOf n)).up then [idleSet] else [(s.capsOut n).symbols])
  else if (x.st = 5 ∨ x.st = 6) ∧ (s.link (linkOf n)).re.isSome then [idleSet]
  else []

/-- CAPS_RECEIVED (R325, R331, R333): a CAPS set on lane `n` in CAPS, and the skew its deskew finds. -/
def execCapsReceived (n : Nat) (set : List Byte) (skew : Nat) (s : State) : Out :=
  .next (match readCaps set with
    | none => s
    | some c => if n < 40 ∧ (s.lane n).st = 4 then s.capsIn n c skew else s)

/-- WIDEN_TIMER_EXPIRE (R339): enough lanes have been in CAPS for 1 ms to reach the next permitted width. -/
def execWidenTimerExpire (l : Nat) (s : State) : Out :=
  let k := s.link l
  let wait := ((s.available l).filter fun n => (s.lane n).st = 4).map fun n => (s.lane n).capsAt
  .next (
    match (permitted l).reverse.find? (fun w => decide (k.rx.length < w)) with
    | none => s
    | some w =>
      let need := w - k.rx.length
      if l < 4 ∧ k.up ∧ k.audit = 2 ∧ k.re.isNone ∧ s.linkCtrl l 0 ∧ need ≤ wait.length then
        let at0 := (wait.mergeSort (fun a b => decide (a ≤ b))).getD (need - 1) 0
        (s.passTo (at0 + 800000)).rxChange l 4 0 16
      else s)

/-! ### Losses and re-stripes (R330, R334, R336) -/

/-- LANE_LOCK_LOSS (R334): 4 code violations in 64 symbol times, or loss of signal, of an ACTIVE or FROZEN lane; `violations` are those it has
seen. The fourth drop within 1 s makes it DEAD (R330). -/
def execLaneLockLoss (n violations : Nat) (s : State) : Out :=
  let l := linkOf n
  .next (if n < 40 ∧ ((s.lane n).st = 5 ∨ (s.lane n).st = 6) then
    let cap := s.widthCap l
    let x := s.lane n
    let drops := (x.drops.filter fun c => decide (s.cycle < c + 800000000)) ++ [s.cycle]
    let s := s.setLane n { x with drops := drops, idleRun := 0 }
    let s := (if n < 24 then s.incSat (lanePage n + 0x5C) violations else s)
    let s := (s.linkCount l 0x1C 1).linkOccur l 0
    let s := (if 4 ≤ drops.length then s.laneDead n else s.trainStart n)
    s.rxChange l 1 (n - laneFirst l) cap
  else s)

/-- STRIPE_RECEIVED (R326, R336): the far receiver's new map with its last good sequence. The far end's cause is not in the set: it is open
(log 4). Lanes that a lost lock takes out of the map count in `DROP_COUNT`; an empty map puts the link down (log 93). -/
def execStripeReceived (l : Nat) (set : List Byte) (s : State) : Out :=
  let k := s.link l
  .next (match readStripe set with
    | none => s
    | some (width, map, good) =>
      if l < 4 ∧ map < 2 ^ laneCount l ∧ (bitsOf 16 map).length = width ∧ (width = 0 ∨ (permitted l).contains width) then
        let gone := (bitsOf 16 k.tx).filter fun i => !(nbit map i)
        let kept := (k.replay.dropWhile fun f => decide (f.1 ≠ good)).drop 1
        let k' := { k with tx := map, replay := if k.replay.any (·.1 = good) then kept else k.replay }
        let s := s.setLink l k'
        if !k.up then (if k'.up then s.linkJudge l false else s)
        else if k.tx = map then s
        else
          let r := s.freshNat 3
          let s := r.2.linkCount l 0x1C (if r.1 = 1 then gone.length else 0)
          if k'.up then s.restripe l r.1 1 (gone.headD 0) k.txWidth else s.linkJudge l true
      else s)

/-- The ordinal of the page that stands for link `l` in RESYNC records. -/
def linkOrd (l : Nat) : Nat := [57, 58, 58, 3].getD l 3

/-- What an AUDIT set does: credits become FREE, the replay goes back to the frame after GOOD; FRESH discards the replay, restarts the sequence in
both directions and leaves a PEER_RESET record; LAST ends the exchange. -/
def State.auditIn (s : State) (l : Nat) (a : AuditSet) : State :=
  let k := s.link l
  let lost := k.replay.length
  let kept := (k.replay.dropWhile fun f => decide (f.1 ≠ a.good)).drop 1
  let replay := if a.fresh then [] else if k.replay.any (·.1 = a.good) then kept else k.replay
  let k := { k with replay := replay, txSeq := if a.fresh then 0 else k.txSeq, rxNext := if a.fresh then 0 else k.rxNext, ackAt := s.cycle
                    audit := if a.last then 2 else 1, fresh := if a.last then false else k.fresh
                    credit := if ringLink l then Tab.set (fun _ => 0) k.credit a.cls a.free else k.credit }
  let s := s.setLink l k
  let s := if !(ringLink l) ∧ 1 ≤ a.cls ∧ a.cls ≤ 6 then s.setF (satCreditReg (l = 3) a.cls) 7 0 (min 255 a.free) else s
  let s :=
    if a.fresh then (if l = 3 then s.hostResync 3 14 3 0 lost else s.resync 3 14 (linkOrd l) (if l = 2 then 1 else 0) lost) else s
  if ringLink l ∧ a.last ∧ k.re.isNone then s.ringPump else s

/-- AUDIT_RECEIVED (R423 to R425): a set with a wrong SUM is discarded. -/
def execAuditReceived (l : Nat) (set : List Byte) (s : State) : Out :=
  .next (match readAudit set with
    | none => s
    | some a => if l < 4 ∧ (s.link l).audit = 1 then s.auditIn l a else s)

/-- AUDIT_TIMEOUT (R424): 2 µs without LAST: the end sends its whole exchange again. -/
def execAuditTimeout (l : Nat) (s : State) : Out :=
  .next (if l < 4 ∧ (s.link l).audit = 1 then
    let s := s.passTo ((s.link l).auditAt + 1600)
    s.auditSend l false
  else s)

/-- RESTRIPE_COMPLETE (R333, R336, R338, R412): the receiver has measured the delays `skews` (lane of the link, symbol times) and the audit is
done: frames resume. A lane beyond 32 symbol times is left out, and the re-stripe restarts. -/
def execRestripeComplete (l : Nat) (skews : List (Nat × Nat)) (s : State) : Out :=
  let k := s.link l
  .next (match k.re with
    | none => s
    | some r =>
      if 4 ≤ l ∨ k.audit ≠ 2 then s
      else
        let mine := skews.filter fun p => k.rx.contains (laneFirst l + p.1)
        if mine.any fun p => decide (32 < p.2) then
          let s := mine.foldl (fun s p =>
            if 32 < p.2 then s.setLane (laneFirst l + p.1) { s.lane (laneFirst l + p.1) with held := true } else s) s
          s.rxChange l r.cause r.lane (s.widthCap l)
        else
          let s := mine.foldl (fun s p => s.setLane (laneFirst l + p.1) { s.lane (laneFirst l + p.1) with deskew := p.2 }) s
          let s := s.setLink l { k with re := none, ackAt := s.cycle }
          let new := if r.dir = 0 then k.rx.length else k.txWidth
          let info := wd (2 ^ 31 + r.cause * 2 ^ 28 + r.dir * 2 ^ 27 + r.lane % 16 * 2 ^ 16 + r.old * 2 ^ 5 + new)
          let s := if l < 3 ∧ s.reg (linkBlock l + 0x18) = 0 then s.setReg (linkBlock l + 0x18) info else s
          let s := (s.linkCount l 0x20 1).linkOccur l 1
          let s := if l = 0 then s.occur (evNo 4 2) else if l = 3 then s.occur (evNo 3 2) else s
          if ringLink l then (s.portChanged (l - 1)).ringPump else s)

/-! ### Frames (R335) -/

/-- The credits that a frame's header returns are back at the end of link `l` that receives it (R352, R403, R404). -/
def State.creditsIn (s : State) (l : Nat) (body : List Byte) : State :=
  if ringLink l then
    let h := bodyRing body
    let k := s.link l
    let back (c : Tab Nat) (cls m : Nat) : Tab Nat := Tab.set (fun _ => 0) c cls (Tab.get (fun _ => 0) c cls + m)
    (s.setLink l { k with credit := back (back (back k.credit 2 h.crEvent) 3 h.crMgmt) 4 h.crData }).ringPump
  else
    let h := (readSat body).head
    [(1, h.crRead), (2, h.crWrite), (3, h.crDma), (4, h.crEvent), (5, h.crTime), (6, h.crFlow)].foldl
      (fun s x => s.satBack (l = 3) x.1 x.2) s

/-- LANE_FRAME_RECEIVED (R327, R335, R341, R352): a frame arrives on the map's lanes between `sof` and `eof`. One that is out of sequence, ends in EDB
or fails its CRC-32 is discarded with a NAK; any other is good, and its header returns credits. An ACK goes out at least after every 8 frames
and every 320 symbol times. Frame data ends an idle run. -/
def execLaneFrameReceived (l : Nat) (sof : List Byte) (lanes : List (List Byte)) (eof : List Byte) (s : State) : Out :=
  .next (if l < 4 ∧ (s.link l).up ∧ (s.link l).audit = 2 ∧ (s.link l).re.isNone then
    let s := (s.link l).rx.foldl (fun s n =>
      let x := s.lane n
      s.setLane n { x with idleRun := 0, st := if x.st = 6 then 5 else x.st }) s
    let s := s.frozenLive l
    let k := s.link l
    let last := (k.rxNext + 65535) % 65536
    let nak := s.setLink l { k with ackSent := some (last, true), ackSentAt := s.cycle, got := 0, sent := [ackSet last true] }
    match readFrame sof lanes eof with
    | none => nak
    | some (seq, body) =>
      if seq ≠ k.rxNext then nak
      else
        let k := { k with rxNext := (k.rxNext + 1) % 65536, got := k.got + 1 }
        let k := if 8 ≤ k.got ∨ k.ackSentAt + 160 ≤ s.cycle then
            { k with ackSent := some (seq, false), ackSentAt := s.cycle, got := 0, sent := [ackSet seq false] } else k
        (s.setLink l k).creditsIn l body
  else s)

/-- The transmitter sends again from the frame after the last acknowledged one (R335). -/
def State.replayStart (s : State) (l : Nat) : State :=
  ((s.setLink l { s.link l with ackAt := s.cycle }).linkCount l 0x24 1).linkOccur l 6

/-- ACK_RECEIVED (R335): frames up to its sequence are acknowledged; with NAK the rest is sent again. -/
def execAckReceived (l : Nat) (set : List Byte) (s : State) : Out :=
  .next (match readAck set with
    | none => s
    | some (seq, nak) =>
      if l < 4 ∧ (s.link l).up then
        let k := s.link l
        let kept := if k.replay.any (·.1 = seq) then (k.replay.dropWhile fun f => decide (f.1 ≠ seq)).drop 1 else k.replay
        let s := s.setLink l { k with replay := kept, ackAt := s.cycle }
        let s := (if nak ∧ !kept.isEmpty then s.replayStart l else s)
        if ringLink l then s.ringPump else s
      else s)

/-- REPLAY_TIMEOUT (R335): no ACK for 10 µs while frames are unacknowledged. -/
def execReplayTimeout (l : Nat) (s : State) : Out :=
  .next (if l < 4 ∧ s.framesFlow l ∨ l < 4 ∧ (s.link l).replay.length = 64 ∧ (s.link l).up then
    (if (s.link l).replay.isEmpty then s else (s.passTo ((s.link l).ackAt + 8000)).replayStart l)
  else s)

/-! ### Idle, filler and freezing (R340, R341) -/

/-- One bit of PRBS-15, x^15 + x^14 + 1 (R325). -/
def prbs15 (v : Nat) : Nat := (2 * v + ((nbit v 14).toNat + (nbit v 13).toNat) % 2) % 2 ^ 15

/-- A lane's PRBS after the 15 data symbols of one FILLER; its seed is its physical lane number + 1. -/
def fillerNext (n v : Nat) : Nat := (List.range 120).foldl (fun v _ => prbs15 v) (if v = 0 then n + 1 else v)

/-- FILLER of a lane (R325): its 15 data symbols carry the next 120 bits of the lane's PRBS, the first of a symbol in bit 0 (log 91). -/
def fillerSet (n v : Nat) : List Byte :=
  let bits := ((List.range 120).foldl (fun (r : Nat × List Bool) _ => (prbs15 r.1, r.2 ++ [nbit (prbs15 r.1) 0])) (if v = 0 then n + 1 else v, [])).2
  symbol 0x3C :: (List.range 15).map fun j => symbol (ofBits ((List.range 8).filter fun b => bits.getD (8 * j + b) false))

/-- FILLER_DUE (R340): 1,024 symbol times without frame data or FILLER. -/
def execFillerDue (l : Nat) (s : State) : Out :=
  .next (if l < 4 ∧ (s.link l).up ∧ s.linkCtrl l 1 then
    let s := s.passTo ((s.link l).fillAt + 512)
    let s := (bitsOf 16 (s.link l).tx).foldl (fun s i =>
      let n := laneFirst l + i
      s.setLane n { s.lane n with prbs := fillerNext i (s.lane n).prbs, filler := fillerSet i (s.lane n).prbs }) s
    s.setLink l { s.link l with fillAt := s.cycle }
  else s)

/-- A lane whose idle run has reached 4,096 freezes (R341). -/
def State.laneFreeze (s : State) (n : Nat) : State :=
  let x := s.lane n
  if x.st = 5 ∧ 4096 ≤ x.idleRun then (s.setLane n { x with st := 6 }).frozenLive (linkOf n) else s

/-- IDLE_SET_RECEIVED (R341). -/
def execIdleSetReceived (n : Nat) (s : State) : Out :=
  let x := s.lane n
  .next (if n < 40 ∧ 4 ≤ x.st ∧ x.st ≤ 6 then (s.setLane n { x with idleRun := min 65535 (x.idleRun + 1) }).laneFreeze n else s)

/-- FILLER_RECEIVED (R341). -/
def execFillerReceived (n : Nat) (s : State) : Out :=
  let x := s.lane n
  .next (if n < 40 ∧ 4 ≤ x.st ∧ x.st ≤ 6 then
    (s.setLane n { x with idleRun := 0, st := if x.st = 6 then 5 else x.st }).frozenLive (linkOf n)
  else s)

/-- LANE_FREEZE (R341). -/
def execLaneFreeze (n : Nat) (s : State) : Out := .next (if n < 40 then s.laneFreeze n else s)

/-! ### Bring-up, Recess and bypass -/

/-- The lanes of link `l` start: OFF while disabled, else DETECT. The link state is initialised, with the level its CAPS carry (R328, R331, R424);
`kind` is the link type of R325. -/
def State.linkInit (s : State) (l kind major minor : Nat) : State :=
  let was := (s.link l).up
  let s := (lanesOf l).foldl (fun s n =>
    let off := decide (n < 24) && s.getB (lanePage n + 0x40) 1
    s.setLane n { st := if off then 0 else 1 }) s
  let widths := if ringLink l then 7 else 31
  let s := s.setLink l { capsOwn := wd (major * 2 ^ 24 + minor * 2 ^ 16 + widths * 2 ^ 8 + kind) }
  (s.frozenLive l).linkJudge l was

/-- The Satchel's two ends start (step 4 of start-up); both images of a pair have one major (R35). -/
def State.satchelInit (s : State) : State :=
  let h := s.reg (glbBase + 0x5C)
  (s.linkInit 0 1 (fld h 15 8) (fld h 7 0)).linkInit 3 0 (fld h 15 8) (fld h 7 0)

/-- The ring ports start (step 7). -/
def State.ringLanesInit (s : State) : State :=
  let f := s.reg (glbBase + 0x60)
  (s.linkInit 1 2 (fld f 15 8) (fld f 7 0)).linkInit 2 3 (fld f 15 8) (fld f 7 0)

/-- The lanes of a link are held: every one OFF, no map (R328). -/
def State.linkHold (s : State) (l : Nat) : State :=
  let was := (s.link l).up
  let s := (lanesOf l).foldl (fun s n => s.setLane n {}) s
  (s.setLink l {}).linkJudge l was

/-- RECESS or pruning stage 3 (R342): the Satchel keeps the lowest-numbered lane of each map, by a re-stripe of cause POWER; the others sleep. -/
def State.lanesSleep (s : State) : State :=
  [0, 3].foldl (fun s l =>
    match (s.link l).rx with
    | [] => s
    | keep :: _ =>
      let s := (lanesOf l).foldl (fun s n =>
        let x := s.lane n
        if n = keep ∨ x.st = 0 ∨ x.st = 7 then s else s.setLane n { x with st := 8, matched := false, idleRun := 0 }) s
      s.rxChange l 5 0 1) s

/-- The fast clocks return (R342): each sleeping lane enters LOCK with its last settings. -/
def State.lanesWake (s : State) : State :=
  (lanesOf 0 ++ lanesOf 3).foldl (fun s n =>
    let x := s.lane n
    if x.st = 8 then s.setLane n { x with st := 3, slept := true, lockAt := s.cycle } else s) s

/-- The ring's lanes lose their neighbours as the bypass closes, or find them as it opens (R358). -/
def State.ringLanesDrop (s : State) : State :=
  [1, 2].foldl (fun s l =>
    let was := (s.link l).up
    let s := (lanesOf l).foldl (fun s n =>
      let x := s.lane n
      if x.st = 0 ∨ x.st = 7 then s else s.setLane n { x with st := 1, matched := false, held := false, idleRun := 0 }) s
    ((s.setLink l { s.link l with rx := [], tx := 0, re := none }).frozenLive l).linkJudge l was) s

/-! ### LANE_CTRL (R343) -/

/-- A write that takes lane `n` out of service would leave a direction without a lane. -/
def State.laneNeeded (s : State) (n : Nat) : Bool :=
  let l := linkOf n
  let k := s.link l
  let i := n - laneFirst l
  (k.rx.contains n && ((s.available l).filter (· ≠ n)).isEmpty) || (decide (k.tx = 2 ^ i) && k.up)

/-- The lane leaves its map by a re-stripe. -/
def State.laneOut (s : State) (n st cause : Nat) : State :=
  let l := linkOf n
  let cap := s.widthCap l
  let s := if st = 2 then s.trainStart n else s.setLane n { s.lane n with st := st, matched := false, held := false, idleRun := 0 }
  s.rxChange l cause (n - laneFirst l) cap

/-- A write of `v` to `LANE_CTRL` of lane `n`: DISABLE, else RETRAIN, else DISABLE = 0 (R328, R343; log 91). -/
def State.laneCtrl (s : State) (n : Nat) (v : Word) : State :=
  let a := lanePage n + 0x40
  let st := (s.lane n).st
  if bit v 1 then
    if s.laneNeeded n then s else (if st = 0 then s else s.laneOut n 0 3).setB a 1 true
  else if bit v 0 then
    if s.laneNeeded n then s
    else
      let was := s.getB a 1
      let s := s.setB a 1 false
      if st = 0 then (if was then s.setLane n { st := 1 } else s)
      else if st = 7 then s.setLane n { s.lane n with st := 1 }
      else s.laneOut n 2 2
  else
    let was := s.getB a 1
    let s := s.setB a 1 false
    if was ∧ st = 0 then s.setLane n { st := 1 } else s

/-- LANE_DISABLE_WRITE (R343): a write with DISABLE = 1. -/
def execLaneDisableWrite (req n : Nat) (v : Word) (s : State) : Out :=
  .next (if n < 24 ∧ bit v 1 then s.hostWrite req (lanePage n + 0x40) v fun s => s.laneCtrl n v else s)

/-- LANE_RETRAIN_WRITE (R343): a write with RETRAIN = 1 and DISABLE = 0. -/
def execLaneRetrainWrite (req n : Nat) (v : Word) (s : State) : Out :=
  .next (if n < 24 ∧ bit v 0 ∧ !(bit v 1) then s.hostWrite req (lanePage n + 0x40) v fun s => s.laneCtrl n v else s)

/-! ### Diagnostics (R344) -/

/-- A diagnostic of lane `n` ends with RESULT `r`: `DIAG_DONE`. -/
def State.diagEnd (s : State) (n r : Nat) : State :=
  (((s.setLane n { s.lane n with diag := none }).setReg (lanePage n + 0x68) (wd r)).setB (lanePage n + 0xC) 0 false).linkOccur (linkOf n) 7

/-- ABORT of the diagnostic of lane `n`; after its commit cycle, ABORT_NOOP. `DIAG_DONE` occurs after either outcome. -/
def State.diagAbort (s : State) (n : Nat) : State :=
  if (s.lane n).diag.isSome then s.diagEnd n 2
  else if s.getF (lanePage n + 0x68) 3 0 = 1 then (s.setReg (lanePage n + 0x68) 3).linkOccur (linkOf n) 7
  else s

/-- A write of `v` to `DIAG_CTRL` of lane `n` (R27, R344). -/
def State.diagCtrl (s : State) (n : Nat) (v : Word) : State :=
  let a := lanePage n
  let starts := !(bit v 1) && bit v 0 && (s.lane n).diag.isNone
  if starts && !(s.startAllowed .diag (a + 0x60)) then s.denyStart (a + 0x60)
  else
  let s := s.writeMasked (a + 0x60) v
  if bit v 1 then s.diagAbort n
  else if starts then
    if bit v 4 ∧ (s.link (linkOf n)).rx.contains n then s.diagEnd n 4
    else
      let bits := 2 ^ (24 + s.getF (a + 0x64) 27 24)
      ((s.setLane n { s.lane n with diag := some (bit v 4, bits, s.cycle + (bits + 19) / 20) }).setReg (a + 0x68) 16).setB (a + 0xC) 0 true
  else s

/-- DIAG_START (R344): a write with START set and ABORT clear. -/
def execDiagStart (n : Nat) (v : Word) (s : State) : Out :=
  .next (if n < 24 ∧ bit v 0 ∧ !(bit v 1) then s.hostWrite 0 (lanePage n + 0x60) v fun s => s.diagCtrl n v else s)

/-- DIAG_ABORT (R344): a write with ABORT set. -/
def execDiagAbort (n : Nat) (v : Word) (s : State) : Out :=
  .next (if n < 24 ∧ bit v 1 then s.hostWrite 0 (lanePage n + 0x60) v fun s => s.diagCtrl n v else s)

/-- DIAG_COMPLETE (R344): the last bit is checked, with `errors` errors found. -/
def execDiagComplete (n errors : Nat) (s : State) : Out :=
  .next (match (s.lane n).diag with
    | none => s
    | some (_, bits, due) =>
      if 24 ≤ n then s
      else
        let s := s.passTo due
        ((s.setReg64 (lanePage n + 0x70) bits).setReg64 (lanePage n + 0x78) (min errors bits)).diagEnd n 1)

/-- The soft reset of a lane page, besides its RW fields: its diagnostic is aborted, its count cleared; the lane keeps its state (R344). -/
def State.laneReset (s : State) (n : Nat) : State :=
  let s := s.diagAbort n
  ((s.setReg (lanePage n + 0x5C) 0).setReg64 (lanePage n + 0x70) 0).setReg64 (lanePage n + 0x78) 0

/-- The soft reset of a link's block: its counters and `RESTRIPE_INFO`. -/
def State.linkReset (s : State) (l : Nat) : State :=
  [0x18, 0x1C, 0x20, 0x24].foldl (fun s o => s.setReg (linkBlock l + o) 0) s

/-! ### What the pages read -/

/-- `LANE_STAT` of lane `n`. -/
def State.laneStat (s : State) (n : Nat) : Word :=
  let x := s.lane n
  let k := s.link (linkOf n)
  let inRx := k.rx.contains n
  wd (x.preset * 2 ^ 20 + (if inRx then k.rx.idxOf n else 0) * 2 ^ 12 + (nbit k.tx (n - laneFirst (linkOf n))).toNat * 2 ^ 9
    + inRx.toNat * 2 ^ 8 + x.st)

/-- A receive map as bits. -/
def Link.rxMap (l : Nat) (k : Link) : Nat := ofBits (k.rx.map (· - laneFirst l))

/-- A register of a link's block at offset `o`. -/
def State.linkView (s : State) (l o : Nat) : Option Word :=
  let k := s.link l
  match o with
  | 0x04 => some (wd (k.up.toNat * 2 ^ 31 + k.re.isSome.toNat * 2 ^ 30 + k.txWidth * 2 ^ 5 + k.rx.length))
  | 0x08 => some (wd k.tx)
  | 0x0C => some (wd (Link.rxMap l k))
  | 0x10 => some k.capsOwn
  | 0x14 => some k.capsFar
  | 0x28 => some (wd (ofBits (((lanesOf l).filter fun n => (s.lane n).st = 7).map (· - laneFirst l))))
  | 0x2C => some (wd (ofBits (((lanesOf l).filter fun n => (s.lane n).st = 6).map (· - laneFirst l))))
  | _ => none

/-- A register of lane page `n` at offset `o`. -/
def State.laneView (s : State) (n o : Nat) : Option Word :=
  let x := s.lane n
  match o with
  | 0x0C => some (setFld (s.reg (lanePage n + 0xC)) 7 4 x.st)
  | 0x44 => some (s.laneStat n)
  | 0x48 => some (wd (unsext 6 x.cp1 * 2 ^ 16 + (63 - x.cm1.natAbs - x.cp1.natAbs) * 2 ^ 8 + unsext 6 x.cm1))
  | 0x4C => some (wd (x.eyeH * 2 ^ 16 + x.eyeW))
  | 0x50 => some (wd x.shown)
  | 0x54 => some (wd x.deskew)
  | 0x58 => some (wd x.idleRun)
  | _ => none

end Sys2Proof.Machine
end

