-- ==== Sys2Proof/Machine/Ring.lean ====
section
/-! DEFINITION. The Povatu ring (18_ring_time.md): frames and credits, roll call, bypass, link delays, SYNC, export, wake, DATA and the transmit
timestamps. Port 0 is East, where ring B arrives, and port 1 West, where ring A arrives. -/

namespace Sys2Proof.Machine

/-! ### Frames (R349, R352, R353) -/

/-- A frame discarded at this node (R349, R353). -/
def State.undelivered (s : State) : State := s.incSat (rngBase + 0x5C) 1

/-- A TYPE that R349 defines for the class. -/
def frameTypeOk (cls typ : Nat) : Bool := (cls = 2 && typ = 0) || (cls = 3 && typ ≤ 7) || (cls = 4 && typ = 0)

/-- A frame that this node has sent itself, numbered or not yet (R348, R353). -/
def State.ownFrame (s : State) (h : RingHead) (data : List Byte) : Bool :=
  some h.src = s.ring.num || (h.src = 0xFE && h.cls = 3 &&
    ((h.typ = 3 && (readRoster data).map Roster.uid = some s.uid) || (h.typ = 2 && s.ring.master && ofBytesLE data = s.ring.rollSeq)))

/-- RING_FRAME_FORWARD (R349, R351, R353): a frame with this body arrives at port `p`, not for this node: removed, or forwarded on its ring with one hop
more, or wrapped. -/
def execRingFrameForward (p : Nat) (body : List Byte) (s : State) : Out :=
  let h := bodyRing body
  .next (if p < 2 ∧ s.carries p ∧ 2 ≤ h.cls ∧ h.cls ≤ 4 then
    if !(frameTypeOk h.cls h.typ) then s.undelivered.owe (1 + p) h.cls
    else if h.dest = 0xFE ∨ (h.dest ≠ 0xFF ∧ some h.dest = s.ring.num) then s
    else if s.ownFrame h (body.drop 12) then (if h.dest = 0xFF then s else s.undelivered).owe (1 + p) h.cls
    else if h.dest ≠ 0xFF ∧ 128 ≤ h.hops + 1 then s.undelivered.owe (1 + p) h.cls
    else
      let out := if s.carries (1 - p) then 1 - p else p
      s.ringQueue { port := out, cls := h.cls, dest := h.dest, typ := h.typ, src := some h.src, hops := h.hops + 1, id := h.id, tsReq := h.tsReq
                    wrapped := h.wrapped || decide (out = p), data := body.drop 12, origin := some p }
  else s)

/-- CREDIT_FRAME_RECEIVED (R352). -/
def execCreditFrameReceived (p crEvent crMgmt crData : Nat) (s : State) : Out :=
  .next (if p < 2 ∧ s.carries p ∧ (s.link (1 + p)).audit = 2 then
    let k := s.link (1 + p)
    let back (c : Tab Nat) (cls m : Nat) : Tab Nat := Tab.set (fun _ => 0) c cls (Tab.get (fun _ => 0) c cls + m)
    (s.setLink (1 + p) { k with credit := back (back (back k.credit 2 crEvent) 3 crMgmt) 4 crData }).ringPump
  else s)

/-- CREDIT_RETURN_TIMER (R352, R403): returns have waited 200 ns, and a CREDIT frame, which takes no credit, carries them. On the Satchel (`p` 2 its
field end, 3 its host end) no message for them is named, and they reach the far end at once (log 81). -/
def execCreditReturnTimer (p : Nat) (s : State) : Out :=
  let l := if p < 2 then 1 + p else if p = 2 then 0 else 3
  .next (if p < 4 ∧ !(s.link l).owed.isEmpty ∧ s.framesFlow l ∧ (2 ≤ p ∨ s.carries p) then
    let s := s.passTo ((s.link l).owedAt + 160)
    if 2 ≤ p then
      let k := s.link l
      (Tab.keys k.owed).foldl (fun s c => s.satBack (l = 0) c (Tab.get (fun _ => 0) k.owed c)) (s.setLink l { k with owed := [] })
    else
      let k := s.link l
      let f : RFrame := { port := p, cls := 3, dest := 0xFE }
      s.setLink l { k with txSeq := (k.txSeq + 1) % 65536
                           replay := k.replay ++ [(k.txSeq, 3, s.ringBytes f false (Tab.get (fun _ => 0) k.owed))], owed := [], fillAt := s.cycle
                           ackAt := if k.replay.isEmpty then s.cycle else k.ackAt }
  else s)

/-! ### Export (R373) -/

/-- EXPORT_FRAME_RECEIVED (R373): this node takes an EXPORT frame for channel `c`; a broadcast is also forwarded, which returns its credit. -/
def execExportFrameReceived (p c : Nat) (bcast : Bool) (s : State) : Out :=
  .next (if p < 2 ∧ s.carries p ∧ c < 16 then
    let s := if bcast then s else s.owe (1 + p) 2
    if !(s.getB (rngBase + 0x80) c) then s
    else if s.ctl.mode = 4 then s.incSat (rngBase + 0x84) 1
    else s.occur (evNo 59 (16 + c))
  else s)

/-- EXPORT_SEND (R373): one pending pulse of channel `c` leaves, with a number and EVENT credit. -/
def execExportSend (c : Nat) (s : State) : Out :=
  .next (
    let a := rngBase + 0x140 + 4 * c
    let dest := s.getF (rngBase + 0x100 + 4 * c) 7 0
    let p := if dest = 0xFF then 0 else s.portTo dest
    let p := if s.carries p then p else 1 - p
    if c < 16 ∧ s.getF a 15 0 ≠ 0 ∧ s.ring.num.isSome ∧ s.carries p ∧ s.canSend (1 + p) 2 then
      (s.setReg a (wd (s.getF a 15 0 - 1))).ringEmit 2 0 dest (bytesLE 4 c) true
    else s)

/-! ### Roll call (R354, R355) -/

/-- ROLL_CTRL_START (R53, R354): a write of START at the master; refused while the page's EN is 0. -/
def execRollCtrlStart (req : Nat) (v : Word) (s : State) : Out :=
  .next (s.hostWrite req (rngBase + 0x54) v fun s =>
    if bit v 0 ∧ (s.ring.master ∨ (s.getB (rngBase + 0x40) 0 ∧ s.ring.num.isNone)) then
      if s.getB (rngBase + 8) 0 then s.rollStart else s.denyStart (rngBase + 0x54)
    else s)

/-- ROLL_REQ_RECEIVED (R354). -/
def execRollReqReceived (p : Nat) (s : State) : Out :=
  .next (if p < 2 ∧ s.carries p then
    let s := s.owe (1 + p) 3
    if s.ring.master then s.rollStart else s
  else s)

/-- ROLLCALL_RECEIVED (R355): the first copy of roll call `k` starts HELLO and the exchanges; the broadcast is forwarded as such. -/
def execRollcallReceived (p k : Nat) (s : State) : Out :=
  .next (if p < 2 ∧ s.carries p ∧ s.ring.rollSeen ≠ some k then
    (State.rollBusy (s.setRing { s.ring with rollSeen := some k, rollSeq := max s.ring.rollSeq k, forming := [] }) true).exchangeStart
  else s)

/-- HELLO_RECEIVED (R355): the neighbour's UID. -/
def execHelloReceived (p uid : Nat) (s : State) : Out :=
  .next (if p < 2 ∧ s.carries p then State.setPort (s.owe (1 + p) 3) p { s.port p with nbrUid := uid % 2 ^ 64 } else s)

/-- A roster joins those collected; the node's BYP_DELAY values are kept (R355, R359). -/
def State.rosterIn (s : State) (r : Roster) : State :=
  s.setRing { s.ring with
    byp := (s.ring.byp.filter (·.1 ≠ r.uid)) ++ [(r.uid, r.bypA, r.bypB)]
    collect := s.ring.collect.map fun rs => (rs.filter (·.uid ≠ r.uid)) ++ [r] }

/-- A node with MASTER = 1 sees a master of lower UID: it acts as an ordinary node, and `MASTER_CLASH` occurs once in a roll call (R347). -/
def State.yieldTo (s : State) (r : Roster) : State :=
  if r.master ∧ r.uid < s.uid ∧ s.getB (rngBase + 0x40) 0 ∧ s.ring.clash ≠ s.ring.rollSeen then
    let s := s.setRing { s.ring with master := false, collect := none, clash := s.ring.rollSeen }
    s.occur (evNo 59 3)
  else s

/-- ROSTER_RECEIVED (R355): every node keeps its BYP_DELAY values, and the master collects it. -/
def execRosterReceived (p : Nat) (payload : List Byte) (s : State) : Out :=
  .next (match readRoster payload with
    | none => s
    | some r => if p < 2 ∧ s.carries p ∧ r.uid ≠ s.uid then (s.rosterIn r).yieldTo r else s)

/-- Every neighbour that a roster reports has its own roster in (R355). -/
def rosterComplete (rs : List Roster) : Bool :=
  rs.all fun r => (r.eastUid = 0 || rs.any (·.uid = r.eastUid)) && (r.westUid = 0 || rs.any (·.uid = r.westUid))

/-- ROSTER_COLLECT_END (R347, R348, R355, R357): the rosters are complete, or 1 ms has passed: the master orders and numbers the nodes, broadcasts
FORMED and applies it. -/
def execRosterCollectEnd (s : State) : Out :=
  .next (match s.ring.collect with
    | none => s
    | some rs =>
      let rs := (rs.filter (·.uid ≠ s.uid)) ++ [s.ownRoster]
      let s := if rosterComplete rs then s else s.passTo (s.ring.rollAt + 800000)
      let o := ringOrder rs s.uid
      let present := o.1 ++ o.2.1
      let reg := present.foldl (fun g u => numberOne g s.ring.rollSeq u) (markPresent s.ring.register s.ring.rollSeq present)
      let numOf (u : Nat) : Nat := if u = s.uid then 0 else ((reg.find? (·.1 = u)).map (·.2.1)).getD 0
      let order := s.uid :: o.1 ++ o.2.1.reverse
      let span (p : Nat) : Bool := decide (3 < (s.spanned p order).length)
      let pairs := order.map fun u => (numOf u, u)
      let s := s.setRing { s.ring with register := reg }
      let s := (List.range ((order.length + 26) / 27)).foldl (fun s i =>
        let f : Formed := ⟨s.ring.rollSeq, order.length, !o.2.2, false, i, (pairs.drop (27 * i)).take 27⟩
        s.ringEmit 3 4 0xFF f.payload true) s
      s.applyFormed (!o.2.2) false pairs (span 0) (span 1))

/-- FORMED_RECEIVED (R355): one frame of FORMED; `spanE` and `spanW` are the master's marks of this node's ports, which the payload as given does not
place. It is applied when every frame has come. -/
def execFormedReceived (p : Nat) (payload : List Byte) (spanE spanW : Bool) (s : State) : Out :=
  .next (match readFormed payload with
    | none => s
    | some f =>
      if p < 2 ∧ s.carries p ∧ !s.ring.master then
        let frames := (s.ring.forming.filter (·.1 ≠ f.idx)) ++ [(f.idx, f.pairs)]
        if frames.length < (f.n + 26) / 27 then s.setRing { s.ring with forming := frames }
        else
          let order := (List.range 3).flatMap fun i => ((frames.filter (·.1 = i)).map Prod.snd).flatten
          s.applyFormed f.wrapped f.split order spanE spanW
      else s)

/-- SPLIT_TIMEOUT (R356): no FORMED for 4 SYNC intervals since the ring changed, and no node with MASTER = 1 in reach. -/
def execSplitTimeout (s : State) : Out :=
  .next (match s.ring.changeAt with
    | none => s
    | some c =>
      if s.ring.master ∨ s.getB (rngBase + 0x40) 0 ∨ s.ring.st = 0 then s
      else
        let s := s.passTo (c + 4 * s.syncCycles)
        (State.ringState (s.setRing { s.ring with changeAt := none }) 3).tb0Change)

/-! ### Bypass (R358) -/

/-- A cause holds the bypass closed (R358, R416). -/
def State.bypassHeld (s : State) : Bool :=
  !s.ctl.pgField || !s.ctl.rnField || s.getB (rngBase + 0x40) 1 || !s.ctl.supplies || s.ctl.pruneHold

/-- BYPASS_CLOSE (R358): the neighbours' links go down, and TB0 enters holdover (R365). -/
def execBypassClose (s : State) : Out :=
  .next (if s.bypassHeld ∧ !s.ring.closed then
    ((State.hopChange (s.setRing { s.ring with closed := true })).ringLanesDrop).portLive
  else s)

/-- BYPASS_OPEN (R354, R358): no cause holds and the field side runs. -/
def execBypassOpen (s : State) : Out :=
  .next (if !s.bypassHeld ∧ s.ring.closed ∧ 4 ≤ s.ctl.mode then
    (State.ringLanesDrop (s.setRing { s.ring with closed := false })).portLive.rollRequest
  else s)

/-! ### Link delays (R361) -/

/-- An interval between two ET instants of this part in units of 2^-16 ns, at its TB0 rate. -/
def State.frameInterval (s : State) (a b : Nat) : Int :=
  let d : Int := (b * 4 : Nat) - (a * 4 : Nat)
  d + d * (s.tb 0).rho / 2 ^ 40

/-- DELAY_EXCHANGE_TIMER (R361): 1 ms after the previous exchange of port `p`. -/
def execDelayExchangeTimer (p : Nat) (s : State) : Out :=
  .next (if p < 2 ∧ s.carries p ∧ 16 ≤ (s.port p).cnt then (s.passTo ((s.port p).exchAt + 800000)).sendDreq p else s)

/-- ROLLCALL_EXCHANGE_TIMER (R355): 1 µs after the previous one, the next exchange of a roll call on each port that has some left. -/
def execRollcallExchangeTimer (s : State) : Out :=
  .next (if s.ring.exchanging then
    let ps := [0, 1].filter fun p => s.carries p && decide ((s.port p).cnt < 16)
    match ps with
    | [] => s
    | p :: _ => ps.foldl (fun s p => s.sendDreq p) (s.passTo ((s.port p).exchAt + 800))
  else s)

/-- DREQ_RECEIVED (R360, R361): a DREQ arrives at ET instant `b` and the DRESP leaves at `c`, or when its port may send it, with TURN = c − b. -/
def execDreqReceived (p : Nat) (set : List Byte) (b c : Nat) (s : State) : Out :=
  .next (match readDreq set with
    | none => s
    | some seq =>
      if p < 2 ∧ (s.link (1 + p)).up then
        let turn (c : Nat) : Nat := (s.frameInterval b c).toNat
        let r := s.sendTime p c fun c => drespSet (turn c) seq
        r.2.setPort p { r.2.port p with turn := some (seq, turn r.1) }
      else s)

/-- Roll call's exchanges are over: every node broadcasts ROSTER, and the master has its own (R355). -/
def State.exchangeDone (s : State) : State :=
  if s.ring.exchanging ∧ ([0, 1].all fun p => !(s.carries p) || decide (16 ≤ (s.port p).cnt)) then
    let s := s.setRing { s.ring with exchanging := false }
    (s.ringEmit 3 3 0xFF s.ownRoster.payload true).rosterIn s.ownRoster
  else s

/-- One measurement m = ((d − a) − TURN) / 2 of port `p` (R361). In a roll call the 16th sets DELAY to the mean; any other moves DELAY by a sixteenth of
the difference. Fractions of a unit are cut (log 9). -/
def State.delayMeasured (s : State) (p : Nat) (m : Int) : State :=
  let x := { s.port p with dreq := none }
  let r := rngBase + 0x64 + 16 * p
  if x.cnt < 16 then
    let x := { x with sum := x.sum + m, cnt := x.cnt + 1 }
    if x.cnt = 16 then
      State.exchangeDone ((s.setPort p { x with changed := false }).setReg r (wd (unsext 32 (x.sum / 16))))
    else s.setPort p x
  else
    let old : Int := ((s.reg r).toNat : Nat)
    (s.setPort p x).setReg r (wd (unsext 32 (old + (m - old) / 16)))

/-- DRESP_RECEIVED (R360, R361): the DRESP to this port's DREQ arrives at ET instant `d` with TURN. -/
def execDrespReceived (p : Nat) (set : List Byte) (d : Nat) (s : State) : Out :=
  .next (match (s.port p).dreq, readDresp set with
    | some (q, a), some (turn, seq) =>
      if 2 ≤ p ∨ q ≠ seq then s else s.delayMeasured p ((s.frameInterval a d - (turn : Int)) / 2)
    | _, _ => s)

/-- The delay of the direction that arrives at port `p` (R361). -/
def State.delayIn (s : State) (p : Nat) : Int :=
  let r := rngBase + 0x64 + 16 * p
  ((s.reg r).toNat : Nat) + (s.reg (r + 4)).toInt + (s.reg (r + 8)).toInt

/-! ### SYNC (R362 to R366) -/

/-- SYNC_SEND_TIMER (R360, R362, R364): the master's next SYNC on both ports; STEPPED in the four after a step. -/
def execSyncSendTimer (s : State) : Out :=
  .next (if s.ring.master ∧ (s.tb 0).counting then
    let s := s.passTo (s.ring.syncAt + s.syncCycles)
    let x (a : Nat) : SyncSet := ⟨s.tbAt 0 a, 0, (s.tb 0).holdover, false, s.ring.syncSeq, decide (s.ring.stepLeft ≠ 0)⟩
    let s := [0, 1].foldl (fun s p => (s.sendTime p (s.cycle * 20480) fun a => (x a).symbols).2) s
    s.setRing { s.ring with syncAt := s.cycle, syncSeq := (s.ring.syncSeq + 1) % 256, stepLeft := s.ring.stepLeft - 1 }
  else s)

/-- A SYNC at port `p` with `hops` is of the chosen ring (R363): the other ring has none that is clean and recent with fewer hops, or as many on
ring A. A ring whose SYNC is more than two intervals old has stopped (DESIGN CHOICE, log 24). -/
def State.syncChosen (s : State) (p hops : Nat) : Bool :=
  match (s.port (1 - p)).sync with
  | none => true
  | some o => o.hold || decide (o.at0 + 2 * s.syncCycles < s.cycle) || decide (hops < o.hops) || (decide (hops = o.hops) && p = 1)

/-- The time of a SYNC, with the upper seconds from this node's own TB0 (R360). -/
def State.syncTime (s : State) (x : SyncSet) : Nat := x.time + s.tbNow 0 / (unitsPerSec * 2 ^ 48) * (unitsPerSec * 2 ^ 48)

/-- A SYNC arrives at port `p` at ET instant `r` and leaves the onward port at `x`, or when that may send it: it is forwarded with link delay and
residence added, by a wrap without a hop more (R362, R367), and if accepted it steers TB0 (R363, R364, R366). -/
def State.syncIn (s : State) (p : Nat) (y : SyncSet) (r x : Nat) : State :=
  let now : Int := (s.syncTime y : Int) + s.delayIn p
  let changed := (s.port p).changed
  let wrap := !(s.carries (1 - p))
  let f (x : Nat) : SyncSet := { y with
    time := (now + s.frameInterval r x).toNat, hops := y.hops + (!wrap).toNat, hold := y.hold || changed || (s.tb 0).holdover
    wrapped := y.wrapped || wrap }
  let s := (s.sendTime (if wrap then p else 1 - p) x fun x => (f x).symbols).2
  let s := s.setPort p { s.port p with sync := some ⟨y.hops, y.hold, s.cycle⟩ }
  if y.hold ∨ !(s.syncChosen p y.hops) then s
  else
    let s := s.setRing { s.ring with syncAt := s.cycle }
    let tb := s.tb 0
    let e := now - tb.atEt r
    if !tb.counting ∨ (tb.holdover ∧ (!s.ring.since ∨ changed)) then s
    else
      let force := y.stepped || s.ring.first || tb.holdover
      let s := (s.holdExit 0).servo 0 e force (s.syncCycles * unitsPerCycle)
      s.setRing { s.ring with first := false }

/-- SYNC_RECEIVED (R360, R362 to R367): a SYNC set arrives at port `p` at ET instant `r` and leaves the onward port at `x`. -/
def execSyncReceived (p : Nat) (set : List Byte) (r x : Nat) (s : State) : Out :=
  .next (match readSync set with
    | none => s
    | some y => if p < 2 ∧ (s.link (1 + p)).up ∧ !s.ring.master then s.syncIn p y r x else s)

/-- SYNC_LOSS_TIMEOUT (R354, R365): no SYNC accepted for 4 intervals: TB0 enters holdover, and a node with MASTER = 1 starts a roll call as master,
its register holding the numbers of the latest FORMED but its own and the old master's (R348). -/
def execSyncLossTimeout (s : State) : Out :=
  .next (if s.ring.master then s
  else
    let s := (s.passTo (s.ring.syncAt + 4 * s.syncCycles)).tb0Change
    if s.getB (rngBase + 0x40) 0 then s.rollStart else s)

/-! ### STATE and WAKE (R374) -/

/-- STATE_FRAME_RECEIVED (R374): whether node `src` is in RECESS: this node's frames for it that have not left are held, and those held for one that
is not go out. -/
def execStateFrameReceived (p src : Nat) (recess : Bool) (s : State) : Out :=
  .next (if p < 2 ∧ s.carries p ∧ src < 64 then
    let s := s.setRing { s.ring with recess := Tab.set (fun _ => false) s.ring.recess src recess }
    let stays (f : RFrame) : Bool := f.dest = src && f.cls ≠ 2 && f.typ ≠ 5 && f.origin.isNone
    if recess then
      s.setRing { s.ring with held := s.ring.held ++ s.ring.wait.filter stays, wait := s.ring.wait.filter fun f => !stays f }
    else
      let go := s.ring.held.filter (·.dest = src)
      go.foldl (fun s f => s.ringQueue f) (s.setRing { s.ring with held := s.ring.held.filter (·.dest ≠ src) })
  else s)

/-- WAKE_FRAME_RECEIVED (R41, R374). -/
def execWakeFrameReceived (p : Nat) (s : State) : Out :=
  .next (if p < 2 ∧ s.carries p then
    let s := s.owe (1 + p) 3
    if s.ctl.mode = 4 ∧ s.getB (glbBase + 0x64) 22 then s.wake false else s
  else s)

/-- WAKE_SEND_WRITE (R374). -/
def execWakeSendWrite (req : Nat) (v : Word) (s : State) : Out :=
  .next (s.hostWrite req (rngBase + 0x88) v fun s => if s.ring.num.isSome then s.ringEmit 3 5 (fld v 7 0) [] true else s)

/-! ### DATA (R375, R376) -/

/-- The oldest held DATA frame goes to the next slot of the receive ring, if it has room and the memories answer: `DRX_NEW`, and its credit
returns, that of a broadcast once its forwarded copy has left too. -/
def State.drxDrain (s : State) : State :=
  match s.ring.rx with
  | [] => s
  | f :: l =>
    if s.ringFull .drx ∨ !(s.storeUp (isNear (s.ringSlot .drx (s.reg RecRing.drx.regs.wr).toNat))) then s
    else
      let flags := wd (f.hold.toNat * 2 ^ 31 + f.coarse.toNat * 2 ^ 30)
      let head := ((List.range 3).map fun i => f.words.getD i 0) ++ [flags] ++ timeWords f.time
      match s.ringPush .drx ((head.flatMap fun w => bytesLE 4 w.toNat) ++ f.data.take 256) with
      | none => s
      | some s =>
        let s := s.setRing { s.ring with rx := l }
        let s := if f.broadcast then s.copyDone (1 + f.port) (-1) else s.owe (1 + f.port) 4
        s.occur (evNo 59 6)

/-- DATA_FRAME_RECEIVED (R376): a DATA frame for this node, its SOF arriving at ET instant `et`. -/
def execDataFrameReceived (p : Nat) (words : List Word) (data : List Byte) (et : Nat) (s : State) : Out :=
  .next (if p < 2 ∧ s.carries p ∧ data.length ≤ 256 then
    let fl := s.stampFlags
    State.drxDrain (s.setRing { s.ring with rx := s.ring.rx ++ [⟨p, words, data, fl.1, fl.2, s.tbAt 0 et⟩] })
  else s)

/-- DRX_SLOT_WRITE (R376). -/
def execDrxSlotWrite (s : State) : Out := .next s.drxDrain

/-- The payload of the frame that waits is read through the FLW port, as soon as the port serves it; an unmapped or uncorrectable read ends the
frame BAD (R375). -/
def State.dtxRead (s : State) : State :=
  match s.ring.dtx with
  | none => s
  | some d =>
    if d.data.isSome then s
    else match s.portRun 3 false d.addr d.len with
      | none => s
      | some t =>
        if t.readOk d.addr d.len then t.setRing { t.ring with dtx := some { d with data := some (t.readBytes d.addr d.len) } }
        else (t.setRing { t.ring with dtx := none }).setReg (rngBase + 0xA0) 2

/-- DTX_GO (R375): a write with bit 0 set. -/
def execDtxGo (req : Nat) (v : Word) (s : State) : Out :=
  .next (s.hostWrite req (rngBase + 0x9C) v fun s =>
    if !(bit v 0) ∨ s.ring.dtx.isSome then s
    else
      let c := s.reg (rngBase + 0x98)
      let dest := fld c 31 24
      let len := fld c 8 0
      let known := dest = 0xFF || (s.ring.roster.any (·.1 = dest) && some dest ≠ s.ring.num)
      if 256 < len ∨ !known ∨ s.ring.num.isNone then s.setReg (rngBase + 0xA0) 2
      else
        let d : Dtx := { dest := dest, id := fld c 23 16, tsReq := bit c 15, addr := s.reg64 (rngBase + 0x90), len := len }
        ((s.setRing { s.ring with dtx := some d }).setReg (rngBase + 0xA0) 16).dtxRead)

/-- A transmit timestamp, or its drop at 16 entries (R377). -/
def State.tsqPush (s : State) (id et : Nat) : State :=
  if 16 ≤ s.ring.tsq.length then (s.incSat (rngBase + 0xBC) 1).occur (evNo 59 4)
  else
    let fl := s.stampFlags
    s.setRing { s.ring with tsq := s.ring.tsq ++ [(id, fl.1, fl.2, s.tbAt 0 et)] }

/-- DTX_SOF_SENT (R375, R377): the SOF of the DATA frame leaves at ET instant `et`, with DATA credit and its node not in RECESS. -/
def execDtxSofSent (et : Nat) (s : State) : Out :=
  .next (
    let s := s.dtxRead
    match s.ring.dtx with
    | none => s
    | some d =>
      let p := if d.dest = 0xFF then 0 else s.portTo d.dest
      let p := if s.carries p then p else 1 - p
      if d.data = none ∨ !(s.carries p) ∨ !(s.canSend (1 + p) 4) ∨ Tab.get (fun _ => false) s.ring.recess d.dest then s
      else
        let f : RFrame := { port := p, cls := 4, dest := d.dest, id := d.id, tsReq := d.tsReq, data := d.data.getD [] }
        let wrap := decide (d.dest ≠ 0xFF) && decide (p ≠ s.portTo d.dest) || decide (d.dest = 0xFF) && decide (p = 1)
        let s := State.sendFrame (s.setRing { s.ring with dtx := none }) (1 + p) 4 (s.ringBytes f wrap)
        let s := s.setReg (rngBase + 0xA0) 1
        (if d.tsReq then s.tsqPush d.id et else s).occur (evNo 59 5))

/-- TSQ_POP (R377). -/
def execTsqPop (req : Nat) (v : Word) (s : State) : Out :=
  .next (s.hostWrite req (rngBase + 0xD4) v fun s =>
    if bit v 0 then s.setRing { s.ring with tsq := s.ring.tsq.drop 1 } else s)

/-! ### RING_CFG, soft reset and what the page reads -/

/-- A write of `RING_CFG` (R347): SYNC_EXP outside 3 to 12 leaves it unchanged; a node that gives MASTER up is master no more, and one that takes it
where no port carries frames forms a ring of one. -/
def State.ringCfg (s : State) (v : Word) : State :=
  if fld v 11 8 < 3 ∨ 12 < fld v 11 8 then s
  else
    let s := s.writeMasked (rngBase + 0x40) v
    if !(bit v 0) then s.setRing { s.ring with master := false }
    else if !s.ring.master ∧ 5 ≤ s.ctl.mode ∧ !(s.carries 0) ∧ !(s.carries 1) then s.formOne
    else s

/-- What a soft reset of `RNG[0]` discards (R378), with RESYNC records. -/
def State.ringReset (s : State) : State :=
  let s := s.resync 1 12 59 0 s.ring.tsq.length
  let s := (List.range 16).foldl (fun s c =>
    let a := rngBase + 0x140 + 4 * c
    (s.resync 1 13 59 c (s.getF a 15 0)).setReg a 0) s
  let own := s.ring.held.length + s.ring.dtx.toList.length
  let s := s.resync 1 14 59 0 own
  (s.setRing { s.ring with tsq := [], held := [], dtx := none }).setReg (rngBase + 0xA0) 0

/-- A register of `RNG[0]` that follows the ring's state, at offset `o`. -/
def State.ringView (s : State) (o : Nat) : Option Word :=
  let port (p : Nat) : Word :=
    let x := s.port p
    wd ((s.link (1 + p)).up.toNat * 2 ^ 31 + (s.carries p).toNat * 2 ^ 30 + x.span.toNat * 2 ^ 29 + x.changed.toNat * 2 ^ 28
      + x.asymUnknown.toNat * 2 ^ 27 + x.bypassed * 2 ^ 22 + x.nbr % 64 * 2 ^ 16)
  let head := s.ring.tsq.head?
  match o with
  | 0x0C => some (setFld (s.reg (rngBase + 0xC)) 7 4 (if s.ring.closed ∧ s.getB (rngBase + 0x40) 1 then 4 else s.ring.st))
  | 0x44 => some (setBit (s.reg (rngBase + 0x44)) 16 s.ring.master)
  | 0x60 => some (port 0)
  | 0x70 => some (port 1)
  | 0xB8 => some (wd s.ring.tsq.length)
  | 0xC0 => some ((head.map fun e => wd (2 ^ 31 + e.2.1.toNat * 2 ^ 30 + e.2.2.1.toNat * 2 ^ 29 + e.1)).getD 0)
  | 0xC4 | 0xC8 | 0xCC | 0xD0 => some ((timeWords ((head.map fun e => e.2.2.2).getD 0)).getD ((o - 0xC4) / 4) 0)
  | _ => none

end Sys2Proof.Machine
end

