-- ==== Sys2Proof/Machine/TimeBases.lean ====
section
/-! DEFINITION. The time bases' commands (18_ring_time.md, R368 to R372): SET, CFG, PPS_IN and conversion, and what the `TKP` page reads. -/

namespace Sys2Proof.Machine

/-- `SET` of the master's TB0 commits `t` (R365, R371): TB0 steps by the difference, and the next frames carry the step. -/
def State.tbSetMaster (s : State) (req t : Nat) : State :=
  let s := (s.setTime4 (tbBase 0 + 0x10) t).timeTaken req (tbBase 0 + 0x10)
  let e : Int := t - s.tbValue 0
  let s := s.setRing { s.ring with stepLeft := 4 }
  if e = 0 then s else (s.tbMove 0 e (s.tb 0).rho).tbStepped 0

/-- `SET` of TB2 or TB3 commits `t` (R370, R371): a free-running base steps to it, one on TB0 takes a new offset, and one disciplined by a
pulse has the next pulse mark it. -/
def State.tbSetOwn (s : State) (req b t : Nat) : State :=
  let s := (s.setTime4 (tbBase b + 0x10) t).timeTaken req (tbBase b + 0x10)
  let off : Int := t - s.tbNow 0
  let s := s.setTk { s.tk with offsets := Tab.set (fun _ => 0) s.tk.offsets b off }
  match s.getF (tbBase b + 0x20) 1 0 with
  | 1 =>
    let e : Int := t - s.tbValue b
    if e = 0 then s else (s.tbMove b e 0).tbStepped b
  | 2 =>
    let moved := (s.tb b).follow ≠ some off
    let s := s.setTb b { s.tb b with follow := some off }
    if moved ∧ (s.tb 0).counting then s.tbStepped b else s
  | 3 => s.setTk { s.tk with phaseSet := Tab.set (fun _ => none) s.tk.phaseSet b (some t) }
  | _ => s

/-- `PG_STAT` aside, a commit of `SET` of time base `b` with word 3 = `v` (R369, R370, R371). -/
def State.tbSet (s : State) (req b : Nat) (v : Word) : State :=
  let a := tbBase b + 0x10
  let t := s.commitTimeValue req a v
  if s.commitTimeBad req a then s
  else if b = 0 then if s.ring.master then s.tbSetMaster req t else s.timeTaken req a
  else if b = 1 then
    if t % unitsPerSec = 0 then ((s.setTime4 a t).timeTaken req a).setTk { s.tk with ppsSet := some (t / unitsPerSec) }
    else s.timeTaken req a
  else s.tbSetOwn req b t

/-- TIME_BASE_SET (R371): the write of word 3 of `SET` of time base `b`. -/
def execTimeBaseSet (req b : Nat) (v : Word) (s : State) : Out :=
  .next (if b < 4 then s.hostWrite req (tbBase b + 0x1C) v fun s => s.tbSet req b v else s)

/-- A write of `CFG` of TB2 or TB3 (R370): a new source starts from its own rule; TB2 and TB3 on TB0 take the offset of the last commit. -/
def State.tbCfg (s : State) (b : Nat) (v : Word) : State :=
  let a := tbBase b + 0x20
  let old := s.reg a
  let s := s.writeMasked a v
  let now := s.reg a
  if fld now 1 0 = fld old 1 0 ∧ (fld now 1 0 ≠ 3 ∨ now = old) then s
  else
    let t := s.tb b
    let s := s.setTk { s.tk with phaseSet := Tab.set (fun _ => none) s.tk.phaseSet b none
                                 phaseVal := Tab.set (fun _ => none) s.tk.phaseVal b none
                                 phaseMiss := Tab.set (fun _ => 0) s.tk.phaseMiss b 0 }
    let s := s.setReg (tbBase b + 0x28) 0
    let base : TimeBase := { stepAt := t.stepAt }
    let s :=
      match fld now 1 0 with
      | 1 => s.setTb b { base with counting := true, base := s.time4 (tbBase b + 0x10), at0 := s.cycle }
      | 2 => s.setTb b { base with follow := some (Tab.get (fun _ => 0) s.tk.offsets b) }
      | _ => s.setTb b base
    s.holdLive

/-- PPS_EDGE (R369): a PPS_IN edge, rising or falling, at ET instant `et`. -/
def execPpsEdge (rising : Bool) (et : Nat) (s : State) : Out :=
  .next (if rising = s.getB (tkpBase + 0x60) 0 then s
  else
    match s.tk.ppsSet with
    | some sec =>
      let want : Int := (sec * unitsPerSec : Nat)
      let s := s.setTk { s.tk with ppsSet := none, ppsAt := s.cycle }
      let t := s.tb 1
      if t.counting then ((s.servo 1 (want - t.atEt et) true unitsPerSec)).holdExit 1
      else
        let late : Int := (s.cycle * unitsPerCycle : Nat) - (et * 4 : Nat)
        (s.tbStart 1 (want + late)).tbStepped 1
    | none =>
      let t := s.tb 1
      if !t.counting then s
      else
        let v := t.atEt et
        let u : Int := (unitsPerSec : Nat)
        let e : Int := (v + u / 2) / u * u - v
        if u / 10 < e ∨ e < Int.neg (u / 10) then s
        else ((s.setTk { s.tk with ppsAt := s.cycle }).servo 1 e t.holdover unitsPerSec).holdExit 1)

/-- PPS_LOSS_TIMEOUT (R369): no edge accepted for 1.1 s. -/
def execPpsLossTimeout (s : State) : Out :=
  .next (if (s.tb 1).counting ∧ !(s.tb 1).holdover then
    ((s.passTo (s.tk.ppsAt + 880000000)).occur (evNo 60 8)).holdEnter 1
  else s)

/-- The centre of bin `b` of sampler input `j` within its beat, in the vintage the timekeeper uses, or the nominal one (R200). -/
def State.binCentre (s : State) (bins : Bool) (j b : Nat) : Nat :=
  if bins ∧ j < 544 ∧ s.getB (vin1Base + 0xE4) 31 then
    s.readLE (s.vinSlot (s.getF (vin1Base + 0xE0) 3 0) + 0x20000 + 1024 * j + 16 + 2 * b) 2
  else 80 * b + 40

/-- The conversion of `CONV_BEAT` (R372): the latest beat with that count, on time base `CONV_CFG.TB`. -/
def State.convert (s : State) : State :=
  let v := s.reg64 (tkpBase + 0x40)
  let cfg := s.reg (tkpBase + 0x48)
  let t := s.tbSrc (fld cfg 1 0)
  let full : Int := (4 * s.cycle : Nat)
  let count : Int := (v / 256 % 2 ^ 48 : Nat)
  let beat : Int := full - (full - count) % (2 ^ 48 : Nat)
  let at0 : Int := beat * 20480 + (s.binCentre (bit cfg 31) (fld cfg 25 16) (v % 256) : Nat)
  let d : Int := at0 - (t.at0 * unitsPerCycle : Nat)
  let before := decide (at0 < (t.stepAt * unitsPerCycle : Nat))
  if t.counting then
    (s.setTime4 (tkpBase + 0x50) (t.base + d + d * t.rho / 2 ^ 40).toNat).setReg (tkpBase + 0x4C)
      (wd (2 ^ 31 + (t.holdover || (s.tb 0).holdover).toNat * 2 ^ 30 + s.coarse.toNat * 2 ^ 29 + before.toNat * 2 ^ 28))
  else (s.setTime4 (tkpBase + 0x50) 0).setReg (tkpBase + 0x4C) 0

/-- CONV_BEAT_WRITE (R56, R372): the write of the high half. -/
def execConvBeatWrite (req : Nat) (v : Word) (s : State) : Out :=
  .next (s.hostWrite req (tkpBase + 0x44) v fun s =>
    let r := s.take64 req (tkpBase + 0x40) v
    (r.2.commit64 (tkpBase + 0x40) r.1).convert)

/-- A register of a time base's block at offset `o`. -/
def State.tbView (s : State) (b o : Nat) : Option Word :=
  let t := s.tbSrc b
  if o < 0x10 then some ((timeWords (s.tbNow b)).getD (o / 4) 0)
  else if o = 0x24 then
    some (wd (t.counting.toNat * 2 ^ 31 + t.holdover.toNat * 2 ^ 30 + (t.counting && s.coarse).toNat * 2 ^ 29))
  else none

end Sys2Proof.Machine
end

