-- ==== Sys2Proof/Machine/Bell.lean ====
section
/-! DEFINITION. The Bells (19_alignment.md): arming, ringing, the decision point, joins, BELL_IN and BELL_OUT. -/

namespace Sys2Proof.Machine

/-- Bell `b`. -/
def State.bell (s : State) (b : Nat) : Bell := Tab.get (fun _ => {}) s.bel.bells b

/-- `s` with the Bells replaced, and with Bell `b` replaced. -/
def State.setBells (s : State) (x : Bells) : State := { s with bel := x }
def State.setBell (s : State) (b : Nat) (x : Bell) : State :=
  s.setBells { s.bel with bells := Tab.set (fun _ => {}) s.bel.bells b x }

/-- The block of Bell `b`. -/
def bellBase (b : Nat) : Nat := rngBase + 0x400 + 0x40 * b

/-- `BELL_LAST`. -/
def State.bellLast (s : State) (b result : Nat) : State := s.setReg (rngBase + 0x198) (wd (b * 16 + result))

/-- `GUARD` in units of 2^-16 ns. -/
def State.bellGuard (s : State) : Nat := s.getF (rngBase + 0x180) 15 0 * 65536

/-- A write of `v` to `BELL_ARM` of Bell `b` (R384, R385). -/
def State.bellCmd (s : State) (b : Nat) (v : Word) : State :=
  let x := s.bell b
  let gen := fld v 7 4
  let pin := bit v 8
  let time := s.time4 (bellBase b)
  match fld v 1 0 with
  | 1 =>
    if x.st = 1 ∨ (!pin ∧ !(s.tb 0).counting) then s.bellLast b 3
    else if !pin ∧ time ≤ s.tbNow 0 + s.bellGuard then (s.bellLast b 2).occur (evNo 59 10)
    else
      let latch := if x.latch.map Prod.fst = some gen then x.latch else none
      (s.setBell b { x with st := 1, gen := gen, pin := pin, time := time, armAt := s.cycle, latch := latch }).bellLast b 1
  | 2 => if x.st = 1 then s.setBell b { x with st := 0 } else s
  | _ => s

/-- BELL_ARM (R384): a write with OP = ARM. -/
def execBellArm (req b : Nat) (v : Word) (s : State) : Out :=
  .next (if b < 16 ∧ fld v 1 0 = 1 then s.hostWrite req (bellBase b + 0x10) v fun s => s.bellCmd b v else s)

/-- BELL_DISARM (R384): a write with OP = DISARM. -/
def execBellDisarm (req b : Nat) (v : Word) (s : State) : Out :=
  .next (if b < 16 ∧ fld v 1 0 = 2 then s.hostWrite req (bellBase b + 0x10) v fun s => s.bellCmd b v else s)

/-- What a Bell set does at a node (R385): a ring fills the latch; a cancel clears it, and cancels an arm of its GEN. -/
def State.bellSet (s : State) (b gen origin : Nat) (cancel : Bool) : State :=
  let x := s.bell b
  if cancel then s.setBell b { x with latch := none, st := if x.st = 1 ∧ x.gen = gen then 4 else x.st }
  else s.setBell b { x with latch := some (gen, origin) }

/-- A BELL set leaves port `p`, if it carries frames; it takes no credit (R383). -/
def State.bellOn (s : State) (p : Nat) (x : BellSet) : State :=
  if s.carries p then s.setLink (1 + p) { s.link (1 + p) with sent := [x.symbols] } else s

/-- The originator sends one copy on both ports and applies R385 to itself (R383). -/
def State.bellSend (s : State) (x : BellSet) : State :=
  ((s.bellOn 0 x).bellOn 1 x).bellSet x.bell x.gen x.origin x.cancel

/-- BELL_RING_WRITE (R383): three sets 100 ns apart on both ports, each applied here too; refused without a number or with the bypass closed. -/
def execBellRingWrite (req : Nat) (v : Word) (s : State) : Out :=
  .next (s.hostWrite req (rngBase + 0x1A0) v fun s =>
    let b := fld v 3 0
    match s.ring.num with
    | none => s.bellLast b 5
    | some me =>
      if s.ring.closed then s.bellLast b 5
      else
        let s := (s.bellSend ⟨b, fld v 7 4, me, bit v 8⟩).bellLast b 4
        s.setBells { s.bel with repeats := s.bel.repeats ++ [(b, fld v 7 4, me, bit v 8, 2, s.cycle + 80)] })

/-- BELL_REPEAT_SEND (R383): the next copy of the set that waits longest. -/
def execBellRepeatSend (s : State) : Out :=
  .next (match s.bel.repeats with
    | [] => s
    | (b, gen, me, cancel, left, due) :: l =>
      let s := (s.passTo due).bellSend ⟨b, gen, me, cancel⟩
      let l := if left ≤ 1 then l else l ++ [(b, gen, me, cancel, left - 1, s.cycle + 80)]
      s.setBells { s.bel with repeats := l })

/-- BELL_SET_RECEIVED (R382, R383, R385): a BELL set arrives at port `p`; it is forwarded on its ring, unless this node sent it or the onward port does not
carry frames. -/
def execBellSetReceived (p : Nat) (set : List Byte) (s : State) : Out :=
  .next (match readBell set with
    | none => s
    | some x =>
      if p < 2 ∧ (s.link (1 + p)).up then
        (if some x.origin = s.ring.num then s else s.bellOn (1 - p) x).bellSet x.bell x.gen x.origin x.cancel
      else s)

/-- The ET instant at which TB0 shows `time`, by the correspondence in force: the nearest whole ET, a tie to the
later (R387). -/
def State.bellInstant (s : State) (time : Nat) : Int :=
  let t := s.tb 0
  let num : Int := ((time : Int) - t.base) * 2 ^ 40
  let den : Int := 4 * (2 ^ 40 + t.rho)
  (2 * num + den) / (2 * den) + (t.at0 * 20480 : Nat)

/-- `BELL_TRIM` (R391). -/
def State.bellTrim (s : State) : Int := sext 20 (s.getF (rngBase + 0x184) 19 0)

/-- Bell `b` fires with S at ET instant `at0`: it joins every ARMED sequencer that waits on it (R387). -/
def State.bellFire (s : State) (b at0 : Nat) : State :=
  let js := (List.range 16).filter fun q =>
    let x := s.seqOf q
    decide (x.st = 2) && x.bell && x.sAt.isNone && decide (x.bellSel = b)
  let s := js.foldl (fun s q => s.setSeq q { s.seqOf q with sAt := some at0 }) s
  (s.setBell b { s.bell b with st := 2, hold := (s.tb 0).holdover, joined := js.length, sAt := (s.bell b).sAt ++ [at0] }).incWrap (bellBase b + 0x18) 1

/-- Bell `b` is decided MISSED (R386). -/
def State.bellMiss (s : State) (b : Nat) : State :=
  ((s.setBell b { s.bell b with st := 3 }).incSat (rngBase + 0x194) 1).occur (evNo 59 9)

/-- The first Timetable tick at which time base `b` is at or beyond `d`. -/
def State.tickAfter (s : State) (b : Nat) (d : Int) : Nat :=
  let now := s.tbValue b
  if d ≤ now then s.cycle
  else
    let l := if s.ctl.clocks then 8 else 80
    let t := s.tbSrc b
    let c := s.cycle + (((d - now) * 2 ^ 40) / (81920 * (2 ^ 40 + t.rho))).toNat
    let c := s.boundary l c
    if d ≤ t.now c then c else c + l

/-- BELL_DECISION (R386): at D the armed RING Bell is decided. -/
def execBellDecision (b : Nat) (s : State) : Out :=
  let x := s.bell b
  .next (if 16 ≤ b ∨ x.st ≠ 1 ∨ x.pin ∨ !(s.tb 0).counting then s
  else
    let s := s.passTo (s.tickAfter 0 ((x.time : Int) - s.bellGuard))
    if x.latch.map Prod.fst ≠ some x.gen ∨ (x.time : Int) < s.tbValue 0 ∨ !s.ctl.clocks ∨ s.coarse ∨
        ((s.tb 0).holdover ∧ s.getB (rngBase + 0x180) 16) then s.bellMiss b
    else s.bellFire b (s.bellInstant x.time + s.bellTrim).toNat)

/-- BELL_IN_EDGE (R389): a rising edge at ET instant `et` decides every PIN Bell armed before it, in the next fabric cycle. -/
def execBellInEdge (et : Nat) (s : State) : Out :=
  let bs := (List.range 16).filter fun b =>
    let x := s.bell b
    decide (x.st = 1) && x.pin && decide (x.armAt * 20480 ≤ et)
  .next (if bs.isEmpty then s
  else
    let s := s.passTo (et / 20480 + 1)
    let units : Int := (et / 5120 * 20480 + s.binCentre true 19 (et % 5120 / 20) : Nat)
    let at0 := ((units + 2) / 4 + ((s.reg (rngBase + 0x190)).toNat : Nat) + s.bellTrim).toNat
    bs.foldl (fun s b => if !s.ctl.clocks ∨ s.coarse then s.bellMiss b else s.bellFire b at0) s)

/-- The level of BELL_OUT at ET instant `et`: pulses that overlap merge (R390). -/
def State.bellOut (s : State) (et : Nat) : Bool := s.bel.out.any fun p => decide (p.1 ≤ et) && decide (et < p.2)

/-- BELL_INSTANT_S (R387, R390): in the fabric cycle that contains S, `BELL_FIRED`; BELL_OUT pulses for 8 beats from S + `BELL_OUT_SKEW`. -/
def execBellInstantS (b : Nat) (s : State) : Out :=
  .next (match (s.bell b).sAt with
    | [] => s
    | t :: l =>
      if 16 ≤ b then s
      else
        let s := (s.passTo (t / 20480)).setBell b { s.bell b with sAt := l }
        let s :=
          if s.getB (rngBase + 0x188) b then
            let a := ((t : Int) + sext 20 (s.getF (rngBase + 0x18C) 19 0)).toNat
            s.setBells { s.bel with out := (s.bel.out.filter fun p => decide (20480 * s.cycle < p.2)) ++ [(a, a + 40960)] }
          else s
        s.occur (evNo 59 8))

/-- The soft reset of `RNG[0]` returns every Bell to IDLE and clears the latches; joined bursts keep their S, and copies still to send are dropped. -/
def State.bellReset (s : State) : State :=
  (List.range 16).foldl (fun s b => s.setBell b { s.bell b with st := 0, latch := none }) (s.setBells { s.bel with repeats := [] })

/-- `BELL_STAT` of Bell `b`. -/
def State.bellStat (s : State) (b : Nat) : Word :=
  let x := s.bell b
  let l := x.latch.getD (0, 0)
  wd (x.st * 2 ^ 28 + x.latch.isSome.toNat * 2 ^ 27 + x.hold.toNat * 2 ^ 26 + l.1 * 2 ^ 20 + x.gen * 2 ^ 16 + l.2 * 2 ^ 8 + x.joined)

end Sys2Proof.Machine
end

