-- ==== Sys2Proof/Machine/Modes.lean ====
section
/-! DEFINITION. The modes of the part as they change while it runs (02_modes.md): requests and quiescence (R30 to R33), Recess (R40 to R45), the
loss of the host side (R46), and what the clocks' return brings. -/

namespace Sys2Proof.Machine

/-- `s` with the mode's state replaced. -/
def State.setCtl (s : State) (c : ModeCtl) : State := { s with ctl := c }

/-! ### Running operations (R31) -/

/-- The item in progress is one that mode `m` forbids; the temperature re-run may go on in EXECUTE and AUTONOMOUS (R26, note b). -/
def State.itemForbidden (s : State) (m : Nat) : Bool :=
  match s.cal.item with
  | none => false
  | some it => !(modePermits (itemClass it.code) m s.prune.stage) && !(it.trigger = 1 && (m = 8 || m = 10))

/-- TDC engine `e` is in ADMIT, RUN or STOPPING. -/
def State.tdcRuns (s : State) (e : Nat) : Bool := decide ((s.tdc e).st ≠ 0) && decide ((s.tdc e).st ≠ 4)

/-- Check unit `n` runs or waits for its admission. -/
def State.chkRuns (s : State) (n : Nat) : Bool := (s.chkRun n).active || s.waiting 3 n

/-- An operation runs that mode `m` forbids (R26, R31). PE_CTL transfers need field pages that are reachable (R82), so RECESS forbids them. -/
def State.forbidden (s : State) (m : Nat) : Bool :=
  let no (c : OpClass) : Bool := !(modePermits c m s.prune.stage)
  (no .burst && (List.range 16).any fun q => decide ((s.seqOf q).st ≠ 0)) || (no .flowNode && s.flowBusy) ||
  (no .tim && (List.range 64).any s.tdcRuns) || (no .chk && (List.range 8).any s.chkRuns) ||
  (no .dma && (List.range 8).any fun c => decide ((s.dma c).st ≠ 0) || s.dmaSent c) || s.itemForbidden m ||
  (no .diag && (List.range 24).any fun n => (s.lane n).diag.isSome) ||
  (no .flash && s.host.op.any fun o => decide (o.op ≠ 0)) || (decide (m = 4) && (List.range 8).any fun b => (s.pecOf b).busy)

/-- Every running operation that mode `m` forbids is aborted at its commit cycle (R31). A flash operation has no abort. -/
def State.abortForbidden (s : State) (m : Nat) : State :=
  let no (c : OpClass) : Bool := !(modePermits c m s.prune.stage)
  let s := if no .burst then
      (List.range 16).foldl (fun s q => if (s.seqOf q).st ≠ 0 then s.seqAbort q else s) s else s
  let s := if no .flowNode && s.flowBusy then s.flowAbort else s
  let s := if no .tim then (List.range 64).foldl (fun s e => if s.tdcRuns e then s.tdcAbort e else s) s else s
  let s := if no .chk then (List.range 8).foldl (fun s n => if s.chkRuns n then s.chkAbort n else s) s else s
  let s := if no .dma then s.dmaAbortForbidden else s
  let s := if s.itemForbidden m then s.calAbort else s
  let s := if no .diag then
      (List.range 24).foldl (fun s n => if (s.lane n).diag.isSome then s.diagAbort n else s) s else s
  if m = 4 then (List.range 8).foldl (fun s b => if (s.pecOf b).busy then s.pecAbort b else s) s else s

/-! ### Requests (R30 to R33, R40) -/

/-- `WAKE_AHEAD` in units of 2^-16 ns. -/
def State.wakeAhead (s : State) : Nat := s.getF (glbBase + 0x64) 15 0 * unitsPerUs

/-- The entry of list `b` that falls due next. -/
def State.nextEntry (s : State) (b : Nat) : Option DlEntry := (s.dlist b).find? fun e => !e.slept

/-- An entry on a time base enabled in `WAKE_TB` falls due within `WAKE_AHEAD` of cycle `c` (R40). -/
def State.wakeDue (s : State) (c : Nat) : Bool :=
  (List.range 4).any fun b =>
    s.getB (glbBase + 0x64) (16 + b) && (s.tbSrc b).counting &&
      (s.nextEntry b).any fun e => decide ((e.time : Int) ≤ (s.tbSrc b).now c + s.wakeAhead)

/-- A request is accepted and awaits quiescence (R31). -/
def State.modePend (s : State) (target : Nat) (abort : Bool) : State :=
  let s := s.setCtl { s.ctl with pend := some ⟨target, abort, true⟩ }
  if abort then s.abortForbidden target else s

/-- A request refused with a cause (R27). -/
def State.modeDeny (s : State) (cause : Nat) : State := s.deny cause 0 0 false false

/-- A write of `MODE_REQ` (R30, R32, R40, R41). -/
def State.modeReq (s : State) (target : Nat) (abort : Bool) : State :=
  let m := s.shownMode
  match (if s.ctl.hostMode.isSome then none else s.ctl.pend) with
  | some r =>
    if target = r.target ∧ abort then (s.setCtl { s.ctl with pend := some { r with abort := true } }).abortForbidden target
    else s.modeDeny 2
  | none =>
    if s.ctl.hostMode.isSome ∨ target < 4 ∨ 11 < target then s.modeDeny 3
    else if m = 4 then
      if target ≠ s.ctl.prior then s.modeDeny 3
      else if s.ctl.recess = .resting then s.wake true
      else s
    else if m < 5 ∨ 11 < m ∨ target = m then s.modeDeny 3
    else if target = 4 then
      if m ≠ 5 ∧ m ≠ 10 then s.modeDeny 3
      else if s.wakeDue (s.cycle + 8000) then s.modeDeny 5
      else s.modePend 4 abort
    else if target = 10 ∧ !s.getB (glbBase + 0x68) 0 then s.modeDeny 6
    else s.modePend target abort

/-- MODE_REQ (R30): a write with ABORT clear. -/
def execModeReq (target : Nat) (s : State) : Out :=
  .next (s.hostWrite 0 (glbBase + 0x44) (wd (target % 16)) fun s => s.modeReq (target % 16) false)

/-- MODE_REQ_ABORT (R31, R32): a write with ABORT set. -/
def execModeReqAbort (target : Nat) (s : State) : Out :=
  .next (s.hostWrite 0 (glbBase + 0x44) (wd (256 + target % 16)) fun s => s.modeReq (target % 16) true)

/-- The part reports a transition that the host requested. -/
def State.modeDone (s : State) (byHost : Bool) : State :=
  if byHost && s.ctl.hostMode.isNone then s.occur (evNo 1 0) else s

/-- MODE_QUIESCENCE (R31, R40): no operation that the pending target forbids runs. Entry into RECESS starts, or is cancelled when an entry has come
too near; any other transition takes 4 fabric cycles. -/
def execModeQuiescence (s : State) : Out :=
  .next (match s.ctl.pend with
    | none => s
    | some r =>
      if s.ctl.recess ≠ .none ∨ s.forbidden r.target then s
      else if r.target = 4 then
        if s.wakeDue (s.cycle + 8000) then (s.setCtl { s.ctl with pend := none }).modeDeny 5
        else s.setCtl { s.ctl with recess := .entering, recessAt := s.cycle, wakeHeld := false, exitByReq := false }
      else
        let old := s
        let s := s.pass 4
        ((s.setCtl { s.ctl with mode := r.target, prior := 0, pend := none }).pinsMove old).modeDone r.byHost)

/-! ### Recess (R40 to R45) -/

/-- RECESS_ENTRY_DONE (R40): 10 µs after quiescence. The memories are in self-refresh (R233), the fast clocks have stopped, and the Satchel keeps one lane (R342). A wake of the meantime starts
exit. -/
def execRecessEntryDone (s : State) : Out :=
  .next (if s.ctl.recess = .entering then
    let s := s.passTo (s.ctl.recessAt + 8000)
    let byHost := s.ctl.pend.any (·.byHost)
    let held := s.ctl.wakeHeld
    let old := s.selfRefreshAll
    let s := old.setCtl
      { old.ctl with mode := 4, prior := old.ctl.mode, pend := none, recess := .resting, clocks := false, wakeHeld := false }
    let s := ((s.pinsMove old).lanesSleep.sendState).modeDone byHost
    if held then s.wake s.ctl.exitByReq else s
  else s)

/-- RECESS_WAKE_DUE (R41): the next entry of list `tb`, enabled in `WAKE_TB`, comes within `WAKE_AHEAD` of its time. -/
def execRecessWakeDue (tb : Nat) (s : State) : Out :=
  .next (if tb < 4 ∧ s.ctl.recess = .resting ∧ s.getB (glbBase + 0x64) (16 + tb) ∧ (s.tbSrc tb).counting then
    match s.nextEntry tb with
    | none => s
    | some e => (s.passTo (s.tickAfter tb ((e.time : Int) - s.wakeAhead))).wake false
  else s)

/-- The fast clocks run again (R42, R80, R199, R216, R342): the fine re-lock begins, CLOCK parks restart, frequency counters start new gates,
sleeping lanes lock, and entries that fell due meanwhile are reported. -/
def State.clocksStart (s : State) : State :=
  (((s.setCtl { s.ctl with clocks := true, fineRelock := true }).pinsMove s).fcResume s).lanesWake.lateBack

/-- RECESS_PLL_LOCKED (R41, R420): 25 µs into an exit, or into a restart after pruning stage 3. -/
def execRecessPllLocked (s : State) : Out :=
  .next (if s.ctl.recess = .locking then
    let s := s.passTo (s.ctl.recessAt + 20000)
    (s.setCtl { s.ctl with recess := .fine, recessAt := s.cycle }).clocksStart
  else
    match s.ctl.restart with
    | none => s
    | some c => if s.ctl.clocks then s else (s.passTo (c + 20000)).clocksStart)

/-- The mode after an exit or after SHED: `PRIOR`, but READY for AUTONOMOUS that is no longer enabled after SHED (R41, R418). -/
def State.priorMode (s : State) (shed : Bool) : Nat :=
  if s.ctl.prior = 0 ∨ (shed ∧ s.ctl.prior = 10 ∧ !s.ctl.autoEn) then 5 else s.ctl.prior

/-- The end of the 40 µs (R41, R45, R374): `MODE` becomes `PRIOR`, or SHED at stage 1; `WAKE` is raised; GPE edges that woke the part occur. -/
def State.recessExit (s : State) : State :=
  let s := (s.passTo (s.ctl.recessAt + 12000)).selfRefreshEnd
  let byReq := s.ctl.exitByReq
  let wakes := s.cor.gpeWake
  let c := { s.ctl with recess := .none, fineRelock := false, exitByReq := false, wakeHeld := false }
  let s := (s.setCtl (if 1 ≤ s.prune.stage then { c with mode := 12 } else { c with mode := s.priorMode false, prior := 0 })).fcResume s
  let s := (s.occur (evNo 1 3)).modeDone byReq
  let s := (s.setCor { s.cor with gpeWake := [] }).sendState
  wakes.foldl (fun s k => s.occur (evNo 47 k)) s

/-- HOST_ACCESS_IN_RECESS (R43). -/
def execHostAccessInRecess (req addr : Nat) (write : Bool) (val : Word) (s : State) : Out :=
  .next (if s.gate addr = .recess ∧ !(req = 0 ∧ s.host.d3hot) then s.recessAccess req addr write val else s)

/-! ### The host side as the field side sees it (R46, R403) -/

/-- AUTO_CFG_WRITE (R46): `AUTO_EN` is set, and a FLOW message copies it to the field side. -/
def execAutoCfgWrite (val : Word) (s : State) : Out :=
  .next (s.hostWrite 0 (glbBase + 0x68) val fun s =>
    let s := s.writeMasked (glbBase + 0x68) val
    { s with sat := { s.sat with flowDown := s.sat.flowDown ++ [.autoEn (bit val 0)] } })

/-- The field side requests `target` for itself, unless it is there (R46). -/
def State.fieldRequest (s : State) (target : Nat) : State :=
  if s.ctl.mode = target then s else s.setCtl { s.ctl with pend := some ⟨target, false, false⟩ }

/-- What the field side's mode does as it loses the host side (R46). -/
def State.hostGone (s : State) : State :=
  let target := if s.ctl.autoEn then 10 else 5
  if s.ctl.mode = 4 ∨ s.ctl.mode = 12 then s.setCtl { s.ctl with prior := target }
  else if 5 ≤ s.ctl.mode ∧ s.ctl.mode ≤ 11 then
    match s.ctl.pend with
    | none => s.fieldRequest target
    | some r =>
      if r.target = target then s
      else
        State.fieldRequest (s.setCtl { s.ctl with pend := none, recess := if s.ctl.recess = .entering then .none else s.ctl.recess }) target
  else s

/-- The tasks of class DMA in RUN complete FAILED, settled with M = E (R406). -/
def State.dmaTasksFail (s : State) : State :=
  (s.bur.runs.filter fun w => w.cls = 4 && !w.direct).foldl (fun s w =>
    (s.settle w w.energy).setTask w.slot { s.task w.slot with ended := some (4, false), endAt := s.cycle }) s

/-- FIELD_SATCHEL_LOSS (R46, R406, R412): the field end sees that its link is down. -/
def execFieldSatchelLoss (s : State) : Out :=
  .next (if s.sat.fieldUp ∧ !(s.link 0).up then
    let s : State := { s with sat := { s.sat with
      fieldUp := false, evtTx := [], timeTx := [], downAt := s.cycle, stale := s.sat.stale + s.sat.flowUp.length, flowUp := [] } }
    (((s.incSat (sat1Base + 0x60) 1).occur (evNo 4 1)).dmaTasksFail.hostStale true).hostGone
  else s)

end Sys2Proof.Machine
end

