-- ==== Sys2Proof/Machine/Resets.lean ====
section
/-! DEFINITION. Supplies, holds and resets of the two sides, and start-up (02_modes.md, R34 to R39; R12, R358, R416, R426, R441). -/

namespace Sys2Proof.Machine

/-! ### What a reset leaves -/

/-- The word at `a` keeps its value through the reset of one side (R7: RWS is reset only by part reset). -/
def isRws (a : Nat) : Bool :=
  match regAt a with
  | some (_, _, _, r, _) => r.acc = .rws
  | none => false

/-- The registers of one side, host or field, return to their reset values, RWS words only with `part`. Latches and staged words go. -/
def State.eraseRegs (s : State) (host part : Bool) : State :=
  let mine (a : Nat) : Bool := hostPage a == host
  { s with regs := s.regs.filter fun e => !(mine e.1) || (!part && isRws e.1)
           latches := s.latches.filter fun e => !(mine (e.1 / 4))
           staged := s.staged.filter fun e => !(mine (e.1 / 4)) }

/-- `FIELD_STAT.STATE`; `FIELD_LOST` occurs as it becomes HELD, OFF or UNREACHABLE. -/
def State.fieldState (s : State) (v : Nat) : State :=
  let was := s.ctl.fieldStat
  let s := s.setCtl { s.ctl with fieldStat := v }
  if v ≠ was ∧ (v = 0 ∨ v = 1 ∨ v = 4) then s.occur (evNo 1 4) else s

/-- The field side loses everything that its reset clears: every unit's state, its lanes, its ring position and time bases, its RESYNC queue and its
memory (R378, R427; log 3). The flash's vintages, the oven and the copy of `AUTO_EN` stay with a one-sided reset. -/
def State.fieldErase (s : State) (part : Bool) : State :=
  let warm := s.getB (timBase + 0x40) 0
  let t := s.eraseRegs false part
  let t := if warm then (t.setB (timBase + 0x40) 0 true).setB (timBase + 0x10) 0 true else t
  { t with
    mem := [], tbs := [], gal := { tapAddr := t.gal.tapAddr.filter fun e => decide (e.1 = 0) }, cor := {}
    prune := { t.prune with queue := [], climbing := false, floor := 0 }, bur := {}, ttb := {}, chn := {}, sq := {}, cmp := {}, flw := {}
    tim := { ovenAt := t.tim.ovenAt }, chk := [], cal := { nextId := t.cal.nextId, saved := t.cal.saved }, cel := {}
    lan := { lanes := t.lan.lanes.filter (fun e => decide (24 ≤ e.1)), links := t.lan.links.filter (fun e => decide (e.1 = 3)) }
    ring := {}, tk := {}, bel := {}
    sat := { t.sat with fieldUp := false, evtTx := [], timeTx := [], flowUp := [], stale := 0, fieldFresh := true, downAt := t.cycle }
    ctl := { t.ctl with
      mode := 1, prior := 0, pend := none, recess := .none, exitByReq := false, wakeHeld := false, held := []
      autoEn := t.ctl.autoEn && !part, clocks := false, fineRelock := false, fineLoss := (0, 0), fineSwitch := (0, 0), restart := none, fmi := false } }

/-- `FIELD_STAT.STATE` of a field side that is not up: OFF or HELD (R23), or BOOT. -/
def State.fieldDown (s : State) : State := s.fieldState (if !s.ctl.supplies then 0 else if s.ctl.mode = 2 then 2 else 1)

/-- The field side is held (mode HELD, R23): its state is lost and its bypass closes (R358). A host side that cannot see it is not told. -/
def State.fieldHold (s : State) : State :=
  let s := s.fieldErase false
  if s.ctl.hostMode = some 3 then s else s.fieldDown

/-- The direct starts of DMA chains that the host side forgets are settled. -/
def State.dmaForget (s : State) : State :=
  (List.range 8).foldl (fun s c => if (s.dma c).st ≠ 0 ∧ !(s.dma c).task then (s.withdraw 4 c).endRun 4 c 4 false none else s) s

/-- The host side loses everything that its reset clears; the flash keeps its contents. -/
def State.hostErase (s : State) (part : Bool) : State :=
  let t := s.dmaForget.eraseRegs true part
  { t with
    msix := {}, host := { flash := t.host.flash }, gal := { t.gal with tapAddr := t.gal.tapAddr.filter fun e => decide (e.1 ≠ 0) }
    prune := { t.prune with hostQueue := [], hostOvf := false }
    lan := { lanes := t.lan.lanes.filter (fun e => decide (e.1 < 24)), links := t.lan.links.filter (fun e => decide (e.1 ≠ 3)) }
    sat := { t.sat with hostUp := false, shadow := [], evtRx := [], hostPulses := 0, reads := [], hostTime := none, flowDown := []
                        hostFresh := true, vfPg := false }
    ctl := { t.ctl with hostMode := some 1, held := [], booted := false, fieldStat := 0 } }

/-! ### Boot of the host side (R35, R36) -/

/-- What `BOOT_STAT` records of a bank (R35). -/
def pairResult (p : ImagePair) : Nat :=
  if !p.present then 1
  else if !p.hmiSig then 2
  else if !p.fmiSig then 3
  else if !p.hmiStep then 4
  else if !p.fmiStep then 5
  else if p.hmiMajor ≠ p.fmiMajor then 6
  else if p.hmiMajor < p.minMajor ∨ (p.hmiMajor = p.minMajor ∧ p.hmiMinor < p.minMinor) then 7
  else 0

/-- Every page of a group, by address. -/
def pagesOf (g : PageGroup) : List Nat := (List.range g.count).map fun i => g.base + i * g.stride

/-- Pages whose `PG_STAT` reads 0. -/
def pgStatZero (k : PageKind) : Bool :=
  k = .fsh || k = .ttb1 || k = .flwS || k = .cor0 || k = .cor1 || k = .vin1 || k = .lan0 || k = .lan1 || k = .tkp || k = .gal1

/-- The images set EN in every page of a side as they initialise it, and the pages are READY (R53). -/
def State.enablePages (s : State) (host : Bool) : State :=
  (pageGroups.filter fun g => hostPage g.base == host).foldl (fun s g =>
    (pagesOf g).foldl (fun s p =>
      let s := s.setB (p + 8) 0 true
      if pgStatZero g.kind then s else s.setB (p + 0xC) 1 true) s) s

/-- The part enters DETENTION from a failed boot (R36, R37): the field die is held, and `DETENTION_CAUSE` says why. -/
def State.detain (s : State) (cause : Nat) : State :=
  let s := s.fieldErase false
  let s := s.setCtl { s.ctl with hostMode := some 3, fieldStat := 5 }
  (s.setF (glbBase + 0x54) 15 12 cause).occur (evNo 1 2)

/-- DETENTION from a failed boot holds the field die in reset, until RESET_CTRL or a reset of the host side (R39). -/
def State.detained (s : State) : Bool := s.ctl.hostMode == some 3 && s.ctl.fieldStat == 5

/-- The field side starts, with the HMI running and nothing that holds it (R12, R416; step 3 of start-up). The HMI starts it (`byHost`) out of DETENTION
too; a host side that cannot see it goes on showing UNREACHABLE until a lane is ACTIVE (R38). -/
def State.fieldStart (s : State) (byHost : Bool) : State :=
  if s.ctl.booted ∧ s.ctl.rnField ∧ s.ctl.pgField ∧ s.ctl.supplies ∧ !s.ctl.pruneHold ∧ s.ctl.mode ≤ 3 ∧ !s.ctl.clocks ∧ (byHost ∨ !s.detained) then
    let s := s.setCtl { s.ctl with mode := 2 }
    if s.ctl.hostMode = some 3 ∧ !byHost then s
    else ((s.setCtl { s.ctl with hostMode := none }).setF (glbBase + 0x54) 15 12 0).fieldState 2
  else s

/-- The boot ROM takes an image pair from the preferred bank, then once from the other (R36), and the HMI starts: with the field side running, the
Satchel comes up again; else the field side starts, or shows why it does not (R23). -/
def State.hostBoot (s : State) (bankA bankB : ImagePair) : State :=
  let preferB := s.getB (glbBase + 0x58) 0
  let firstB := preferB != s.ctl.bankSwitch
  let s := (s.setCtl { s.ctl with bankSwitch := false }).enablePages true
  let first := if firstB then bankB else bankA
  let second := if firstB then bankA else bankB
  let used : Option (Bool × ImagePair) :=
    if pairResult first = 0 then some (firstB, first) else if pairResult second = 0 then some (!firstB, second) else none
  let r1 := pairResult first
  let r2 := if r1 = 0 then 15 else pairResult second
  let results := (if firstB then r1 else r2) * 256 + (if firstB then r2 else r1) * 16
  match used with
  | none => (s.setReg (glbBase + 0x54) (wd (results + 3))).detain 1
  | some (b, p) =>
    let s := s.setReg (glbBase + 0x54) (wd (results + (b != preferB).toNat * 4 + b.toNat))
    let s := s.setReg (glbBase + 0x5C) (wd (p.hmiMajor % 256 * 256 + p.hmiMinor % 256))
    let level := wd (p.minMajor % 256 * 2 ^ 24 + p.minMinor % 256 * 2 ^ 16 + p.fmiMajor % 256 * 2 ^ 8 + p.fmiMinor % 256)
    let s := s.setCtl { s.ctl with booted := true, fmiLevel := level }
    let s := if b != preferB then s.occur (evNo 1 5) else s
    if 4 ≤ s.ctl.mode then (s.setCtl { s.ctl with hostMode := some 2 }).linkInit 3 0 (p.hmiMajor % 256) (p.hmiMinor % 256)
    else ((s.setCtl { s.ctl with hostMode := none }).fieldStart true).fieldDown

/-- HOST_RESET_RELEASE (R36): `RESET_N` of the host side is released, and the boot ROM finds the image pairs of the two banks. -/
def execHostResetRelease (bankA bankB : ImagePair) (s : State) : Out :=
  .next (if s.ctl.supHost ∧ s.ctl.pgHost ∧ !s.ctl.rnHost then
    (s.setCtl { s.ctl with rnHost := true }).hostBoot bankA bankB
  else s)

/-! ### Keyed resets (R12, R36, R39) -/

/-- A write of `RESET_CTRL` with a valid key. -/
def State.resetCtrl (s : State) (key bits : Nat) (k : State → State) : State :=
  s.hostWrite 0 (glbBase + 0x70) (wd (bits * 65536 + key % 65536)) fun s => if key % 65536 = 0xB007 then k s else s

/-- Both sides are reset and the boot ROM restarts; the levels of the inputs and the supplies are what they are. -/
def State.partReset (s : State) (bankA bankB : ImagePair) : State :=
  let s := (s.hostErase true).fieldErase true
  (s.setCtl { s.ctl with mode := 2, hostMode := none }).hostBoot bankA bankB

/-- RESET_CTRL_PART (R39). -/
def execResetCtrlPart (key : Nat) (bankA bankB : ImagePair) (s : State) : Out :=
  .next (s.resetCtrl key 2 fun s => s.partReset bankA bankB)

/-- RESET_CTRL_BANK_SWITCH (R36): PART with BANK_SWITCH: this boot tries the non-preferred bank first. -/
def execResetCtrlBankSwitch (key : Nat) (bankA bankB : ImagePair) (s : State) : Out :=
  .next (s.resetCtrl key 6 fun s => State.partReset (s.setCtl { s.ctl with bankSwitch := true }) bankA bankB)

/-- RESET_CTRL_FIELD (R12): the field side alone is reset, and starts again from step 3 of start-up. -/
def execResetCtrlField (key : Nat) (s : State) : Out :=
  .next (s.resetCtrl key 1 fun s => s.fieldHold.fieldStart true)

/-! ### Inputs and supplies (R12, R358, R416, R441) -/

/-- The host side is held. -/
def State.hostHold (s : State) : State := s.hostErase false

/-- POWER_GOOD_FALL (R12, R416): the field side's hold lasts until FIELD_HOLD_RELEASE. -/
def execPowerGoodFall (field : Bool) (s : State) : Out :=
  .next (if field then
    (if s.ctl.pgField then
      let s := State.fieldHold (s.setCtl { s.ctl with pgField := false, pruneHold := true })
      { s with sat := { s.sat with vfPg := s.sat.vfPg && !s.sat.hostUp } }
    else s)
  else if s.ctl.pgHost then State.hostHold (s.setCtl { s.ctl with pgHost := false, rnHost := false })
  else s)

/-- POWER_GOOD_RISE (R441, R442). -/
def execPowerGoodRise (field : Bool) (s : State) : Out :=
  .next (if field then s.setCtl { s.ctl with pgField := s.ctl.supplies } else s.setCtl { s.ctl with pgHost := s.ctl.supHost })

/-- RESET_N_ASSERT (R12). -/
def execResetNAssert (field : Bool) (s : State) : Out :=
  .next (if field then (if s.ctl.rnField then State.fieldHold (s.setCtl { s.ctl with rnField := false }) else s)
  else if s.ctl.rnHost then State.hostHold (s.setCtl { s.ctl with rnHost := false })
  else s)

/-- FIELD_RESET_RELEASE (R12): `RESET_N` of the field side is released; with the HMI running its PLLs start to lock. -/
def execFieldResetRelease (s : State) : Out :=
  .next (if s.ctl.rnField then s else State.fieldStart (s.setCtl { s.ctl with rnField := true }) false)

/-- SUPPLY_LOSS (R358): a side goes OFF, its RWS values with it. -/
def execSupplyLoss (field : Bool) (s : State) : Out :=
  .next (if field then
    (if s.ctl.supplies then
      let s := s.fieldErase true
      let s := (s.setB (timBase + 0x40) 0 false).setB (timBase + 0x10) 0 false
      let s : State := { s with tim := {}, prune := { hostQueue := s.prune.hostQueue, hostOvf := s.prune.hostOvf } }
      let s := s.setCtl { s.ctl with supplies := false, pgField := false, rnField := false, pruneHold := false }
      if s.ctl.hostMode = some 3 then s else s.fieldState 0
    else s)
  else if s.ctl.supHost then
    let s := s.hostErase true
    s.setCtl { s.ctl with supHost := false, pgHost := false, rnHost := false }
  else s)

/-- SUPPLY_RETURN (R441): the side goes from OFF to HELD; the field side's oscillator and always-on domain start. -/
def execSupplyReturn (field : Bool) (s : State) : Out :=
  .next (if field then
    (if s.ctl.supplies then s
    else
      let s := s.setCtl { s.ctl with supplies := true, mode := 1 }
      let s : State := { s with tim := { s.tim with ovenAt := s.cycle } }
      if s.ctl.hostMode = some 3 then s else s.fieldState 1)
  else if s.ctl.supHost then s
  else s.setCtl { s.ctl with supHost := true, hostMode := some 1 })

/-! ### Start-up of the field side (R34, R37, R199) -/

/-- The instants that the host side holds, as the beat count restarts at 0 (log 72). -/
def State.hostRebase (s : State) : State :=
  let s := (lanesOf 3).foldl (fun s n =>
    s.setLane n { s.lane n with trialAt := 0, lockAt := 0, capsAt := 0, drops := (s.lane n).drops.map fun _ => 0 }) s
  let s := s.setLink 3 { s.link 3 with auditAt := 0, ackAt := 0, ackSentAt := 0, fillAt := 0, owedAt := 0 }
  { s with
    prune := { s.prune with climbFrom := 0, aboveFrom := s.prune.aboveFrom.map fun _ => 0 }
    sat := { s.sat with timeAt := 0, sensorAt := 0, downAt := 0, hostTimeAt := 0, hostTime := s.sat.hostTime.map fun t => (s.hostNow, t.2) } }

/-- FIELD_PLL_LOCKED (R199): the field PLLs lock for the first time after field reset: the beat count starts at 0, and the Satchel's lanes start
(step 4). The host end's lanes start with them unless they are already out of OFF. -/
def execFieldPllLocked (s : State) : Out :=
  .next (if s.ctl.mode = 2 ∧ s.ctl.booted ∧ s.ctl.rnField ∧ s.ctl.pgField ∧ !s.ctl.clocks ∧ !s.ctl.pruneHold then
    let s := s.setCtl { s.ctl with before := s.ctl.before + s.cycle, clocks := true }
    let r := s.freshNat 7
    let s := r.2.hostRebase
    let s : State := { s with
      cycle := 0, grids := Tab.set (fun _ => 0) [] 6 (r.1 % 80), cel := { s.cel with fast := 0 }, tim := { s.tim with ovenAt := 0 } }
    let h := s.reg (glbBase + 0x5C)
    let s := s.linkInit 0 1 (fld h 15 8) (fld h 7 0)
    if (s.lane 24).st = 0 then s.linkInit 3 0 (fld h 15 8) (fld h 7 0) else s
  else s)

/-- FMI_RECEIVED (R37): the field boot ROM checks the FMI that has crossed the Satchel. An accepted FMI starts memory training and the ring's lanes
(steps 5 to 7); a rejected one sends the part to DETENTION. -/
def execFmiReceived (accepted : Bool) (s : State) : Out :=
  .next (if s.ctl.mode = 2 ∧ s.ctl.clocks ∧ s.sat.hostUp ∧ s.sat.fieldUp ∧ !s.ctl.fmi then
    if accepted then
      let s := (s.setCtl { s.ctl with fmi := true }).setReg (glbBase + 0x60) s.ctl.fmiLevel
      ((List.range 10).foldl (fun s c => s.setCelState c 1) s).ringLanesInit
    else s.detain 3
  else s)

end Sys2Proof.Machine
end

