-- ==== Sys2Proof/Machine/Prune.lean ====
section
/-! DEFINITION. Pruning (21_pruning_conservation.md): the stages and their thresholds (R413 to R416), what each stage sheds (R417 to R420), and the
RESYNC queue's pop (R427). -/

namespace Sys2Proof.Machine

/-- `s` with the supply monitor replaced. -/
def State.setPrune (s : State) (p : Prune) : State := { s with prune := p }

/-- Entry and exit levels in mV of stage `k`, 1 to 4 (R413). -/
def stageEntry (k : Nat) : Nat := [11400, 11000, 10600, 10000].getD (k - 1) 0
def stageExit (k : Nat) : Nat := [11450, 11050, 10650, 10050].getD (k - 1) 0

/-! ### What stages shed (R417 to R420) -/

/-- Stage 1: the pending request is cancelled (R33); a mode from 0x5 to 0xB becomes SHED (R418); calibration items are aborted (R318). -/
def State.shedOne (s : State) : State :=
  let m := s.ctl.mode
  let s :=
    match s.ctl.pend with
    | none => s
    | some r =>
      let s := s.setCtl { s.ctl with pend := none, recess := if s.ctl.recess = RecessPhase.entering then .none else s.ctl.recess }
      if r.byHost then s.modeDeny 4 else s.setCtl { s.ctl with prior := r.target }
  let kept := s.ctl.prior
  let s :=
    if 5 ≤ m ∧ m ≤ 11 then
      s.setCtl { s.ctl with mode := 12, prior := if kept = 0 then m else kept }
    else s
  s.calAbort

/-- Stage 2: running bursts end SHED (R129); capture, edge capture and the trace stop (R177); a Recess exit goes no further (R45). -/
def State.shedTwo (s : State) : State :=
  let s := (List.range 16).foldl (fun s q => s.seqShed q) s
  let s := s.captureStop.traceStop 4
  if s.ctl.recess = .locking ∨ s.ctl.recess = .fine then
    s.setCtl { s.ctl with recess := .resting, wakeHeld := true, clocks := false, fineRelock := false }
  else s

/-- Stage 3: TDC runs, check-unit runs, PE_CTL transfers and DMA chains are aborted; the fast clocks stop; the Satchel keeps one lane; the node
broadcasts STATE (R417). -/
def State.shedThree (s : State) : State :=
  let s := (List.range 64).foldl (fun s e => s.tdcAbort e) s
  let s := (List.range 8).foldl (fun s n => s.chkAbort n) s
  let s := (List.range 8).foldl (fun s b => s.pecAbort b) s
  let s := s.dmaAbortForbidden.selfRefreshAll
  let rested := s.ctl.recess = .resting
  let s := s.setCtl { s.ctl with clocks := false, fineRelock := false, restart := none }
  if rested then s else s.lanesSleep.sendState

/-- Every slice loses its blocks (R138). -/
def State.decClear (s : State) : State :=
  (List.range 32).foldl (fun s d => s.setSlice d {}) s

/-- Stage 4: what the table of R417 lists is lost, with STAGE4 records (R262, R277, R298, R178, R188, R312, R138), and the Gallery's state without
one (R434). -/
def State.shedFour (s : State) : State :=
  let s := (s.slotsClear 2).queuesClear 2
  let s := s.burReset 2
  let s := ((s.cardsClear 0 2).cardsClear 1 2).flowClear 2
  let s := ((s.cmpClear 0 2).cmpClear 1 2).cmpClear 2 2
  let s := (List.range 32).foldl (fun s d => s.sigClear d 2) s
  (s.corStop true).decClear.galLost

/-- The effects of stages above `k` up to `n`, in order. -/
def State.shed (s : State) (k n : Nat) : State :=
  let s := if k < 1 ∧ 1 ≤ n then s.shedOne else s
  let s := if k < 2 ∧ 2 ≤ n then s.shedTwo else s
  let s := if k < 3 ∧ 3 ≤ n then s.shedThree else s
  if k < 4 ∧ 4 ≤ n then s.shedFour else s

/-- The stage has fallen from `k` to `n`: from 3 the fast clocks restart, at 0 the mode becomes `PRIOR`, and a wake held until now starts exit
(R45, R418, R420). -/
def State.climbed (s : State) (k n : Nat) : State :=
  let s := if 3 ≤ k ∧ n < 3 ∧ s.ctl.recess = .none ∧ 5 ≤ s.ctl.mode then s.setCtl { s.ctl with restart := some s.cycle } else s
  let s := if n = 0 ∧ s.ctl.mode = 12 then s.setCtl { s.ctl with mode := s.priorMode true, prior := 0 } else s
  if n < 2 ∧ s.ctl.wakeHeld ∧ s.ctl.recess = .resting then s.wake s.ctl.exitByReq else s

/-- The stage in force becomes `n` (R413, R415): a descent counts as an entry to it, and sheds; `PRUNE` occurs. With the field side running its
mode and units follow (R418). -/
def State.setStage (s : State) (n : Nat) : State :=
  let k := s.prune.stage
  if n = k then s
  else
    let old := s
    let s := s.setPrune { s.prune with stage := n, climbing := false }
    let s := if k < n then s.incSat (pwrBase + 0x44 + 4 * n) 1 else s
    let t := if 4 ≤ s.ctl.mode then (if k < n then s.shed k n else s.climbed k n) else s
    ((t.pinsMove old).fcResume old).occur (evNo 62 0)

/-- The stage that is due: the larger of the judged one and FORCE, and not below the one still to be climbed out of (R415). -/
def State.stageDue (s : State) : Nat := max (max s.prune.judged (s.getF (pwrBase + 0x44) 2 0)) s.prune.floor

/-! ### The supply monitor (R413, R414, R416) -/

/-- Ticks below a level, up to 4. -/
def ticksBelow (mv level n : Nat) : Nat := if mv < level then min 4 (n + 1) else 0

/-- The climb count of the stage judged or held by a lowered FORCE (R414): it runs while the input stays above the exit level of the stage in
force, and FORCE does not hold that stage. During a restart of the clocks it waits (R420). -/
def State.climbCount (s : State) (mv : Nat) : State :=
  let k := s.prune.stage
  let may := decide (0 < k) && decide (s.getF (pwrBase + 0x44) 2 0 < k) && decide (stageExit k < mv) && s.ctl.restart.isNone
  if may then
    (if s.prune.climbing then s else s.setPrune { s.prune with climbing := true, climbFrom := s.cycle })
  else s.setPrune { s.prune with climbing := false }

/-- The stage that recovery from `k` reaches at an input of `mv`, however long it takes (R414). -/
def reached (mv : Nat) : Nat → Nat
  | 0 => 0
  | k + 1 => if stageExit (k + 1) < mv then reached mv k else k + 1

/-- `PRUNE_STAT`. -/
def State.pruneStat (s : State) : State :=
  s.setF (pwrBase + 0x40) 6 0 (s.prune.measured * 16 + s.prune.climbing.toNat * 8 + s.prune.stage)

/-- ALWAYS_ON_TICK (R413, R414, R416, R428): the input reads `senseMv`, and `rails` are the rails in range. A deeper stage is entered, or the
field side is held, after 4 ticks below its level. -/
def execAlwaysOnTick (senseMv rails : Nat) (s : State) : Out :=
  .next (if !s.ctl.supplies then s else
    let s := s.toGrid 5 80
    let s := s.setF (pwrBase + 0x40) 31 16 (min senseMv 65535)
    let s := s.setReg (pwrBase + 0x58) (wd (rails % 32))
    let s := s.setLive (evNo 62 2) (decide (rails % 32 ≠ 31))
    let levels := [11400, 11000, 10600, 10000, 9000]
    let below := (levels.zip s.prune.below).map fun p => ticksBelow senseMv p.1 p.2
    let s := s.setPrune { s.prune with
      below := below, aboveFrom := if 9050 < senseMv then some (s.prune.aboveFrom.getD s.cycle) else none }
    let deep := ([4, 3, 2, 1].find? fun k => decide (below.getD (k - 1) 0 = 4)).getD 0
    let s := s.setPrune { s.prune with measured := max (reached senseMv s.prune.measured) deep }
    let s := if s.prune.judged < deep then s.setPrune { s.prune with judged := deep } else s
    let s := if s.prune.stage < s.stageDue then (s.setStage s.stageDue).setPrune { (s.setStage s.stageDue).prune with floor := 0 } else s
    let s := (s.climbCount senseMv).pruneStat
    if below.getD 4 0 = 4 ∧ !s.ctl.pruneHold then
      State.fieldHold (s.setCtl { s.ctl with pruneHold := true })
    else s)

/-- PRUNE_CLIMB_TIMER (R414): the input has stayed above the exit level for 1 ms; the part climbs one stage, and the count restarts. -/
def execPruneClimbTimer (s : State) : Out :=
  .next (if s.prune.climbing ∧ 0 < s.prune.stage then
    let s := s.passTo (s.prune.climbFrom + 800000)
    let n := s.prune.stage - 1
    let s := s.setPrune { s.prune with judged := min s.prune.judged n, floor := n }
    ((s.setStage n).climbCount (s.getF (pwrBase + 0x40) 31 16)).pruneStat
  else s)

/-- A write of `PRUNE_CFG` (R415): 5 to 7 leave it unchanged; a larger FORCE is a change of stage, and a smaller one leaves the stage to be climbed
out of, counted from the write. -/
def State.pruneForce (s : State) (v : Nat) : State :=
  if 5 ≤ v then s
  else
    let old := s.getF (pwrBase + 0x44) 2 0
    let s := s.setReg (pwrBase + 0x44) (wd v)
    let s :=
      if s.prune.stage < v then (s.setStage v).setPrune { (s.setStage v).prune with floor := 0 }
      else if v < old ∧ old = s.prune.stage then s.setPrune { s.prune with floor := s.prune.stage, climbing := false }
      else s
    (s.climbCount (s.getF (pwrBase + 0x40) 31 16)).pruneStat

/-- PRUNE_FORCE_WRITE (R415). -/
def execPruneForceWrite (v : Word) (s : State) : Out :=
  .next (s.hostWrite 0 (pwrBase + 0x44) v fun s => s.pruneForce (fld v 2 0))

/-- CLOCK_RESTART_DONE (R420): the 40 µs have passed; the fine re-lock ends and the climb count may start. -/
def execClockRestartDone (s : State) : Out :=
  .next (match s.ctl.restart with
    | none => s
    | some c =>
      let s := (if s.ctl.clocks then s else (s.passTo (c + 20000)).clocksStart)
      let s := (s.passTo (c + 32000)).selfRefreshEnd
      let s := s.setCtl { s.ctl with restart := none, fineRelock := false }
      ((s.climbCount (s.getF (pwrBase + 0x40) 31 16)).pruneStat).sendState)

/-- FIELD_HOLD_RELEASE (R416): the input has been above 9.05 V for 1 ms with `POWER_GOOD` and `RESET_N` high; the field side boots from step 3. -/
def execFieldHoldRelease (s : State) : Out :=
  .next (match s.prune.aboveFrom with
    | none => s
    | some c =>
      if s.ctl.pruneHold ∧ s.ctl.pgField ∧ s.ctl.rnField then
        let s := s.passTo (c + 800000)
        State.fieldStart (s.setCtl { s.ctl with pruneHold := false }) false
      else s)

/-- BOOT_COMPLETE (R34, R418): the FMI has finished after `ms` milliseconds; `meas` are the tables its INTERNAL item measured if no saved vintage
holds. READY is reported, or SHED with `PRIOR` READY and what the stage sheds. A ring master calls the roll (step 7). -/
def execBootComplete (ms : Nat) (meas : List (Nat × List Byte)) (s : State) : Out :=
  .next (if s.ctl.mode = 2 ∧ s.ctl.fmi ∧ (List.range 10).all (fun c => decide (s.celState c ≠ 1)) then
    let s := (((s.enablePages false).calBoot meas).burFill).burValues
    let s := s.setReg (glbBase + 0x74) (wd ms)
    let old := s
    let s := s.setCtl (if 1 ≤ s.prune.stage then { s.ctl with mode := 12, prior := 5 } else { s.ctl with mode := 5, prior := 0 })
    let s := ((((if s.ctl.hostMode = some 3 then s else s.fieldState 3)).shed 1 s.prune.stage).pinsMove old).fcResume old
    if s.getB (rngBase + 0x40) 0 ∧ !s.ring.master then s.rollStart else s.portLive
  else s)

/-- RS_POP (R427): a write of `RS_POP` with bit 0 set removes the oldest record. -/
def execRsPop (v : Word) (s : State) : Out :=
  .next (s.hostWrite 0 (pwrBase + 0x88) v fun s =>
    if bit v 0 then s.setPrune { s.prune with queue := s.prune.queue.drop 1 } else s)

/-- The soft reset of `PWR[0]`: the queue empties with a record of its own (R427), and the counters clear. -/
def State.pwrReset (s : State) : State :=
  let n := s.prune.queue.length
  let s := s.setPrune { s.prune with queue := [] }
  let s := [0x48, 0x4C, 0x50, 0x54, 0x84].foldl (fun s o => s.setReg (pwrBase + o) 0) s
  s.resync 1 18 62 0 n

end Sys2Proof.Machine
end

