-- ==== Sys2Proof/Machine/View.lean ====
section
/-! DEFINITION. What the registers read (R7, R51): the words that follow hidden state are formed here, over the words of the register
file. -/

namespace Sys2Proof.Machine

/-! ### PG_STAT (R51, and each chapter's page text) -/

/-- STATE of `CHN[n].PG_STAT`: 0 UNUSED, 1 PARKED, 2 BURST, 3 CALIB, 4 DISABLED. -/
def State.chnState (s : State) (n : Nat) : Nat :=
  if !(s.chnActive n) then 0
  else if decide (s.ctl.mode < 4) || decide (s.ctl.mode = 11) || decide (4 ≤ s.prune.stage) then 4
  else if s.inCalib (n / 8) then 3
  else if (s.seqOf (s.dskSeq (n / 8))).st = 3 then 2
  else 1

/-- `PG_STAT` of page `i` of a layout, at `p`. -/
def State.pgStat (s : State) (k : PageKind) (i p : Nat) : Word :=
  let w := s.reg (p + 0xC)
  let busy (b : Bool) : Word := setBit w 0 b
  let state (v : Nat) : Word := setFld w 7 4 v
  if pgStatZero k then 0
  else match k with
    | .chn => setBit (state (s.chnState i)) 0 (s.chnState i = 2)
    | .dsk => state (s.followerOk i).toNat
    | .sig => busy ((s.seqOf (s.dskSeq i)).jobs.any fun j => j.sig && j.last)
    | .seq1 => busy (s.burstRuns i)
    | .dec0 => busy ((List.range 16).any fun q => s.burstRuns q && (s.seqOf q).desks.any fun d => (s.wanted q d).isSome)
    | .decS => busy (s.burstRuns (s.dskSeq i) && (s.seqOf (s.dskSeq i)).desks.contains i && (s.wanted (s.dskSeq i) i).isSome)
    | .cmp0 =>
      busy ((s.cmp.logq.any fun e => !e.2.isEmpty) || !s.cmp.ends.isEmpty || (s.cmp.capq.any fun e => !e.2.isEmpty) ||
        (s.cmp.slots.any fun e => !e.2.queue.isEmpty) || s.sq.seqs.any fun e => e.2.endRec.isSome)
    | .tim0 => busy ((List.range 64).any fun e => !(s.tdc e).out.isEmpty)
    | .flw0 => busy (s.flw.step.isSome || !s.flw.queue.isEmpty)
    | .gal0 => setBit (state s.gal.trace.st) 0 (bit s.gal.trace.cfg 31 && !s.gal.trace.recs.isEmpty)
    | .sat0 => state (s.link 3).up.toNat
    | .sat1 => state (s.link 0).up.toNat
    | .pwr => state s.prune.stage
    | _ => w

/-! ### GLB (02_modes.md) -/

/-- `MODE_STAT`. While the host side cannot see the field side, it knows neither `PRIOR` nor a request (R38). -/
def State.modeStat (s : State) : Word :=
  let sees := s.ctl.hostMode.isNone
  let pend := if sees then s.ctl.pend else none
  let exiting := sees && (s.ctl.recess == .locking || s.ctl.recess == .fine)
  let prior := if sees && (s.ctl.mode == 4 || s.ctl.mode == 12) then s.ctl.prior else 0
  wd ((pend.map (·.target)).getD 0 * 2 ^ 16 + (if sees then s.prune.stage else 0) * 2 ^ 12 + exiting.toNat * 2 ^ 9 + pend.isSome.toNat * 2 ^ 8
    + prior * 16 + s.shownMode)

/-- `FIELD_STAT`: the Satchel as the host end has it. -/
def State.fieldStatus (s : State) : Word :=
  let k := s.link 3
  wd ((if k.up then k.rx.length else 0) * 256 + k.up.toNat * 16 + s.sat.vfPg.toNat * 8 + s.ctl.fieldStat)

/-! ### SAT (20_host_satchel.md) -/

/-- Frames of REGWR that the far end has not acknowledged (R406). -/
def State.writesOut (s : State) : Nat := ((s.link 3).replay.filter fun f => f.2.1 = 2).length

/-- A register of a `SAT` page at offset `o`. -/
def State.satView (s : State) (host : Bool) (o : Nat) : Option Word :=
  let l := if host then 3 else 0
  let k := s.link l
  if o = 0x40 then some (wd (k.up.toNat * 2 ^ 31 + k.txWidth * 32 + k.rx.length))
  else if o = 0x44 ∧ host then some (wd (k.tx * 65536 + Link.rxMap 3 k))
  else if host ∧ 0x80 ≤ o ∧ o < 0xC0 then some (s.laneStat (24 + (o - 0x80) / 4))
  else none

/-! ### PWR, TIM -/

/-- `RS_COUNT` and `RS_HEAD` (R427). -/
def State.pwrView (s : State) (o : Nat) : Option Word :=
  if o = 0x80 then some (wd s.prune.queue.length)
  else if 0x90 ≤ o ∧ o < 0xB0 then
    some (match s.prune.queue with
      | [] => 0
      | r :: _ => r.words.getD ((o - 0x90) / 4) 0)
  else none

/-- `OSC_STAT.WARM_S` counts seconds since the oven was powered; `BEAT_NOW` is the beat count (R199). -/
def State.timView (s : State) (o : Nat) : Option Word :=
  if o = 0x40 then some (setFld (s.reg (timBase + 0x40)) 31 16 (min 65535 ((s.cycle - s.tim.ovenAt) / 800000000)))
  else if o = 0x48 then some (wd s.beats)
  else if o = 0x4C then some (wd (s.beats / 2 ^ 32))
  else none

/-! ### One register -/

/-- A block register of page `i` of a layout that shows hidden state, at offset `o`, address `a`; `none` for one that reads as
stored. -/
def State.blockView (s : State) (k : PageKind) (i o a : Nat) : Option Word :=
  match k with
  | .glb0 => if o = 0x48 then some s.modeStat else if o = 0x6C then some s.fieldStatus else none
  | .sat0 => s.satView true o
  | .sat1 => s.satView false o
  | .chn => if o = 0x60 then some (s.chnStat i) else none
  | .dsk =>
    if o = 0x44 then some (s.dskStat i)
    else if o = 0x48 then some (wd (s.dskSites i))
    else if o = 0x4C then some (wd (s.dskSites i / 2 ^ 32))
    else none
  | .dec0 => if o = 0x48 then some (wd (s.getB (decBase + 0x10) 4).toNat) else s.decView a
  | .decS => s.decView a
  | .tim0 => s.timView o
  | .cel => s.celView a
  | .ttb0 => s.ttbView a
  | .bur0 => s.burView a
  | .vin1 => s.calView a
  | .lan0 => s.linkView 0 (o - 0x40)
  | .lan1 => if o < 0x80 then s.linkView 1 (o - 0x40) else s.linkView 2 (o - 0x80)
  | .lanL => s.laneView i o
  | .rng => if 0x400 ≤ o ∧ o < 0x800 ∧ o % 0x40 = 0x14 then some (s.bellStat ((o - 0x400) / 0x40)) else s.ringView o
  | .tkp => if 0x100 ≤ o ∧ o < 0x200 then s.tbView ((o - 0x100) / 0x40) (o % 0x40) else none
  | .gal0 => s.galView a
  | .gal1 => s.galView a
  | .pwr => s.pwrView o
  | _ => none

/-- A header register that shows hidden state. -/
def State.headView (s : State) (k : PageKind) (i o a : Nat) : Option Word :=
  if o ≠ 0xC then none
  else match k with
    | .ttb0 => s.ttbView a
    | .bur0 => s.burView a
    | .rng => s.ringView o
    | .lanL => s.laneView i o
    | _ => some (s.pgStat k i (a - o))

/-- What the word at `a` reads, without the side effects of a read. -/
def State.viewReg (s : State) (a : Nat) : Word :=
  match regAt a with
  | none => 0
  | some (k, i, o, r, _) =>
    if r.acc = .wo ∨ r.acc = .w1s then 0
    else ((if o < 0x40 then s.headView k i o a else s.blockView k i o a).getD (s.reg a))

/-- The live level code of channel `n` from the received bits `raw`, CMPH in bit 1 and CMPL in bit 0 (R73, R74): each after its inversion, and
0 while its receiver is disabled. -/
def State.liveCode (s : State) (n raw : Nat) : Nat :=
  let c := s.eff (chnBase n + 0x48)
  (bit c 2 && (nbit raw 1 != bit c 5)).toNat * 2 + (bit c 3 && (nbit raw 0 != bit c 6)).toNat

/-- The word at `a` and the state after it is formed: the bits a channel receives now (R74) and an empty trace slot are free values (log 4). -/
def State.readNow (s : State) (a : Nat) : Word × State :=
  match regAt a with
  | some (k, _, o, _, _) =>
    if k = .chn ∧ o = 0x64 then
      let r := s.freshNat 2
      (wd (s.liveCode (a / 0x1000 - chnBase 0 / 0x1000) r.1), r.2)
    else if k = .gal0 ∧ 0x800 ≤ o then s.galWord (0x1000000 + o)
    else (s.viewReg a, s)
  | none => (0, s)

/-! ### A read with its effects (R4, R7, R55) -/

/-- The registers of several words: the address of word 0 and the number of words. -/
def wordsAt (a : Nat) : Option (Nat × Nat) :=
  match regAt a with
  | some (_, _, _, r, w) => if 2 ≤ r.words then some (a - 4 * w, r.words) else none
  | none => none

/-- A read of the RC word at `a`: its value, and the word clears. In a cycle in which the hardware has updated it, the read returns the value
from before, and the updates are kept (R8). -/
def State.readRc (s : State) (a : Nat) : Word × State :=
  match if s.gal.rcAt = s.cycle then Tab.get (fun _ => none) s.gal.rcs a else none with
  | none => (s.viewReg a, s.setReg a 0)
  | some (old, kept) =>
    (old, { (s.setReg a kept) with gal := { s.gal with rcs := Tab.set (fun _ => none) s.gal.rcs a (some (0, kept)) } })

/-- A read of the word at `a` by a requester: word 0 of a time register, and the low half of a 64-bit one, latch the words above; a later
word reads its latch (R4, R55); an RC register clears after its value is taken (R7). -/
def State.readWord (s : State) (req a : Nat) : Word × State :=
  match wordsAt a with
  | some (a0, n) =>
    if a = a0 then
      let r := s.readNow a
      (r.1, (List.range (n - 1)).foldl (fun t i => t.setLatch req (a + 4 + 4 * i) (some (s.viewReg (a + 4 + 4 * i)))) r.2)
    else
      match s.latch req a with
      | some w => (w, s)
      | none => s.readNow a
  | none =>
    match regAt a with
    | some (_, _, _, r, _) => if r.acc = .rc then s.readRc a else s.readNow a
    | none => (0, s)

/-- A host read of the word at `a` (R29, R43, R419). -/
def State.hostReadWord (s : State) (req a : Nat) : State := s.hostRead req a fun s => s.readWord req a

end Sys2Proof.Machine
end

