-- ==== Sys2Proof/Machine/SoftReset.lean ====
section
/-! DEFINITION. Page soft resets (R54, R56) with what each chapter says of its own pages: what they abort, which writes they count as,
and what they discard. -/

namespace Sys2Proof.Machine

/-! ### Ring registers (R170) -/

/-- A step of the flow services or a queued datalog record keeps the datalog ring's writer busy (14_flow_services.md). -/
def State.dlogIdle (s : State) : Bool := s.flw.step.isNone && s.flw.queue.isEmpty

/-- The writers of a ring are idle, so that a new base or size takes effect (R170, R203, R376, R433, and each ring's chapter). -/
def State.writersIdle (s : State) (r : RecRing) : Bool :=
  match r with
  | .log | .ecap => s.ringIdle r
  | .res => (List.range 64).all fun e => !(s.tdcRuns e) && (s.tdc e).fifo.isEmpty
  | .dlog => s.dlogIdle
  | .drx => s.ring.rx.isEmpty
  | .spill => !(bit s.gal.trace.cfg 31) || (s.gal.trace.recs.isEmpty && decide (s.gal.trace.st ≠ 2) && decide (s.gal.trace.st ≠ 3))

/-- A staged base and size take effect, and both pointers read 0; a ring that counts losses and numbers starts over (R169, R170, R295). -/
def State.ringRestart (s : State) (r : RecRing) : State :=
  let s := s.ringApply r
  match r with
  | .log => { s with cmp := { s.cmp with lost := { s.cmp.lost with quiet := true } } }
  | .dlog => (s.setFlow { s.flw with quiet := true, seqno := 0 }).dlogFull
  | _ => s

/-- The soft reset of a page with a ring returns its base and size to their reset values, which counts as a write of them (R170): they wait for
idle writers. -/
def State.ringSrst (s : State) (r : RecRing) : State :=
  if s.writersIdle r then s.ringRestart r
  else ((s.keepForce r.regs.base).keepForce (r.regs.base + 4)).keepForce r.regs.size

/-! ### What a soft reset aborts -/

/-- Every running operation of page `i` of a layout is aborted, and one that has committed reports ABORT_NOOP (R54, R83, R128, R194, R212, R286,
R318, R344). -/
def State.srstAbort (s : State) (k : PageKind) (i : Nat) : State :=
  match k with
  | .dsk =>
    if i % 8 = 0 then
      [i / 4, i / 4 + 1].foldl (fun s b => s.pecAbort b) s
    else s
  | .seq0 => s.seqAbort i
  | .timE => (List.range 32).foldl (fun s e => s.tdcAbort (32 * i + e)) s
  | .chk => s.chkAbort i
  | .flw0 => s.flowAbort
  | .vin0 => s.calAbort
  | .lanL => s.laneReset i
  | .rng =>
    (s.setRing { s.ring with collect := none, forming := [], exchanging := false }).rollBusy false
  | _ => s

/-! ### Fields that are staged -/

/-- Every configuration word of the `CHN` or `DSK` page at `p` is written with its reset value (R71). -/
def State.srstConfig (s : State) (p : Nat) : State :=
  ((Tab.keys s.regs).filter fun a => decide (p ≤ a) && decide (a < p + 0x1000) && isConfigWord a).foldl
    (fun s a => s.configWrite a (resetValue a)) s

/-- Every word of page `n` of sequencer `q` is committed with its reset value; in a burst that shows in STAGED, whatever the values were (R87, R132). -/
def State.srstSeq (s : State) (q n : Nat) : State :=
  let p := seqBase q n
  let s := if s.burstRuns q then s.setB (p + 0x40) 0 true else s
  ((Tab.keys s.regs).filter fun a => decide (p + 0x80 ≤ a) && decide (a < p + 0x1000)).foldl
    (fun s a => s.stageSeq q n a (resetValue a)) s

/-- A write of `SLICE_CFG` of slice `d` (R136, R157). -/
def State.sliceWrite (s : State) (d : Nat) (v : Word) : State :=
  let a := sliceBase d + 0x40
  if (s.namedSeqs (dskBase d)).any s.burstRuns then s.stageWord true a v
  else (s.stageWord false a v).dropMoved s

/-- The underrun record of sequencer `q` reads 0 (R153). -/
def State.underrunClear (s : State) (q : Nat) : State := s.clearWords (seqBase q 3) 0x100 0x140

/-! ### What it clears and discards -/

/-- What a soft reset does beside the page's RW and W1C fields. -/
def State.srstClear (s : State) (k : PageKind) (i : Nat) : State :=
  match k with
  | .chn => s.setEdges i { s.edgesOf i with took := false }
  | .seq0 => s.underrunClear i
  | .seq3 => s.underrunClear i
  | .dec0 => ((List.range 32).foldl (fun s d => s.dropRetained d) s).budget
  | .tim0 =>
    let used := s.getB (timBase + 0x40) 2
    let s : State := { s with tim := { s.tim with switchReq := if used then some false else none } }
    s.fcRestart.ringSrst .res
  | .timE =>
    [0x2C, 0x30, 0x34, 0x38, 0x3C].foldl (fun s o =>
      (List.range 32).foldl (fun s e => s.setReg (tdcBase (32 * i + e) + o) 0) s) s
  | .cel => s.celReset i
  | .ttb0 => s.slotsReset State.abortUnit
  | .ttb1 => s.queuesClear 1
  | .ttbD => s.dlistReset i
  | .bur0 => s.burReset 1
  | .bur1 => s.heat
  | .flw0 => (s.flowClear 1).ringSrst .dlog
  | .flwS => s.cardsClear i 1
  | .cor0 => s.corReset
  | .cor1 => s.selReset
  | .lan0 => s.linkReset 0
  | .lan1 => (s.linkReset 1).linkReset 2
  | .rng => s.ringReset.bellReset.ringSrst .drx
  | .tkp => ((s.setReg (tkpBase + 0x4C) 0).setTime4 (tkpBase + 0x50) 0)
  | .gal0 => ((s.setTrace {}).setReg (galBase + 0x50) 0).ringSrst .spill
  | .gal1 => { s with gal := { s.gal with cnts := [] } }
  | .pwr => s.pwrReset
  | _ => s

/-- The fields a soft reset of a page returns: of `TKP[0]` the header and the conversion registers only (R378). -/
def srstFields (k : PageKind) (o : Nat) : Bool := !(decide (k = .tkp)) || decide (o < 0x60)

/-- The soft reset of page `i` of a layout at `p` (R54). `PRUNE_CFG.FORCE` returns to 0 as a write of 0 does. -/
def State.srstApply (s : State) (k : PageKind) (i p : Nat) : State :=
  let s := s.srstAbort k i
  let s := match k with
    | .chn | .dsk => s.srstConfig p
    | .seq1 => s.srstSeq i 1
    | .seq2 => s.srstSeq i 2
    | .decS => s.sliceWrite i 0
    | .pwr => s.pruneForce 0
    | _ => s
  (s.softResetOn p (srstFields k)).srstClear k i

/-- A page whose SRST is ignored (R54). -/
def srstIgnored (k : PageKind) : Bool := k = .glb0 || k = .glb1 || k = .hlk || k = .sat0 || k = .fsh || k = .sat1

/-- A page whose soft reset is held until bursts have ended (R178, R188). -/
def srstHeld (k : PageKind) : Bool := k = .cmp0 || k = .cmpS || k = .sig

/-- A write of `PG_CTRL` with SRST set to page `i` of a layout at `p`. -/
def State.pageSrst (s : State) (k : PageKind) (i p : Nat) (v : Word) : State :=
  let s := if k = .chn ∨ k = .dsk then s.configWrite (p + 8) (setBit (s.reg (p + 8)) 0 (bit v 0)) else s.setB (p + 8) 0 (bit v 0)
  if srstIgnored k ∨ s.getB (p + 8) 1 then s
  else
    let s := if srstHeld k then s else s.srstApply k i p
    (s.setB (p + 8) 1 true).setB (p + 0xC) 1 false

/-- PAGE_SRST (R54): a write of `PG_CTRL` of the page at `page` with SRST set. -/
def execPageSrst (req page : Nat) (v : Word) (s : State) : Out :=
  .next (match pageOf page with
    | some (g, i, o) =>
      if o = 0 ∧ bit v 1 then s.hostWrite req (page + 8) v fun s => s.pageSrst g.kind i page v else s
    | none => s)

/-- PAGE_SRST_DONE (R54): the reset completes, SRST reads 0 and READY 1; the drop counts of a timeset page are cleared (R87). A held one completes by CMP_SRST_APPLY or SIG_SRST_APPLY. -/
def execPageSrstDone (page : Nat) (s : State) : Out :=
  .next (match pageOf page with
    | some (g, i, o) =>
      if o = 0 ∧ s.getB (page + 8) 1 ∧ !(srstHeld g.kind) then
        let s := if g.kind = .seq1 then (s.setReg (seqBase i 1 + 0x44) 0).setReg (seqBase i 1 + 0x48) 0 else s
        if pgStatZero g.kind then s.setB (page + 8) 1 false else s.srstEnd page
      else s
    | none => s)

end Sys2Proof.Machine
end

