-- ==== Sys2Proof/Machine/Registers.lean ====
section
/-! DEFINITION. Register accesses (00_scope.md, 03_register_pages.md): 64-bit and 112-bit registers, the event registers of a page, the read
pointers and places of rings, and what a write of a register without a command of its own does. -/

namespace Sys2Proof.Machine

/-- The state a command leaves; `s` if it stops. -/
def outState (s : State) (o : Out) : State :=
  match o with
  | .next t => t
  | _ => s

/-! ### Reads (R4, R7, R55) -/

/-- The register at `a` has `n` words, and `a` is the address of word 0. -/
def isWord0 (a n : Nat) : Bool := wordsAt a = some (a, n)

/-- TIME_REG_WORD0_READ (R4): words 1 to 3 of the same value are latched for the requester. -/
def execTimeRegWord0Read (req addr : Nat) (s : State) : Out :=
  .next (if isWord0 addr 4 then s.hostReadWord req addr else s)

/-- REG64_LOW_READ (R55): the high half is latched for the requester. -/
def execReg64LowRead (req addr : Nat) (s : State) : Out :=
  .next (if isWord0 addr 2 then s.hostReadWord req addr else s)

/-- RC_READ (R7): the field's value is returned, and the field clears. -/
def execRcRead (req addr : Nat) (s : State) : Out :=
  .next (if isRc addr then s.hostReadWord req addr else s)

/-! ### Rings (R170) -/

/-- A new base or size of ring `r`: in force at once if its writers are idle, else staged until they are. -/
def State.ringMove (s : State) (r : RecRing) : State := if s.writersIdle r then s.ringRestart r else s

/-- A commit of the base of ring `r`, refused where its register says so. -/
def State.ringBaseWrite (s : State) (r : RecRing) (v : Nat) : State :=
  let a := r.regs.base
  let v := v &&& wmask64 a
  if ringPlaceOk r v (s.reg r.regs.size).toNat then ((s.ringStage a (wd v)).ringStage (a + 4) (wd (v / 2 ^ 32))).ringMove r else s

/-- A write of the size of ring `r`, refused where its register says so. -/
def State.ringSizeWrite (s : State) (r : RecRing) (v : Word) : State :=
  let n := mergeMask (writeMask r.regs.size) 0 v.toNat
  if ringSizeOk r n && ringPlaceOk r (s.reg64 r.regs.base) n then (s.ringStage r.regs.size (wd n)).ringMove r else s

/-- A write of the read pointer of ring `r`: space returned lets a full ring's writers go on. -/
def State.ringRdWrite (s : State) (r : RecRing) (v : Word) : State :=
  let s := s.ringReturn r v.toNat
  match r with
  | .drx => s.drxDrain
  | .dlog => s.dlogFull
  | _ => s

/-- RING_READ_POINTER_WRITE (R170). -/
def execRingReadPointerWrite (req addr : Nat) (v : Word) (s : State) : Out :=
  .next (match ringOfRd addr with
    | some r => s.hostWrite req addr v fun s => s.ringRdWrite r v
    | none => s)

/-- The rings by number: 0 LOG, 1 ECAP, 2 RES, 3 DLOG, 4 DRX, 5 SPILL. -/
def ringNo (n : Nat) : RecRing := [RecRing.log, .ecap, .res, .dlog, .drx, .spill].getD n .spill

/-- RING_RECONFIG_APPLY (R170): the staged base and size of a ring take effect once its writers are idle, and both pointers read 0. -/
def execRingReconfigApply (ring : Nat) (s : State) : Out :=
  .next (if ring < 6 ∧ s.ringStaged (ringNo ring) ∧ s.writersIdle (ringNo ring) then s.ringRestart (ringNo ring) else s)

/-! ### 64-bit and 112-bit registers (R4, R56) -/

/-- A register of `n` words that software writes holds the word at `a`: the address of its word 0. -/
def writable (a n : Nat) : Option Nat :=
  match regAt a, wordsAt a with
  | some (_, _, _, r, _), some (a0, m) => if m = n ∧ (r.acc = .rw ∨ r.acc = .rws) then some a0 else none
  | _, _ => none

/-- TIME_REG_STAGE_WRITE (R4): word 0, 1 or 2 is staged for the requester. -/
def execTimeRegStageWrite (req addr : Nat) (v : Word) (s : State) : Out :=
  .next (match writable addr 4 with
    | some a0 => if addr < a0 + 12 then s.hostWrite req addr v fun s => s.setStaged req addr (some v) else s
    | none => s)

/-- TIME_REG_COMMIT (R4, R5): a write of word 3 commits the four words together. A time base's `SET` acts as R371 says. -/
def execTimeRegCommit (req addr : Nat) (v : Word) (s : State) : Out :=
  .next (match writable addr 4 with
    | some a0 =>
      if addr ≠ a0 + 12 then s
      else if tkpBase ≤ addr then outState s (execTimeBaseSet req ((a0 - tbBase 0) / 0x40) v s)
      else s.hostWrite req addr v fun s => s.commitTime req a0 v
    | none => s)

/-- REG64_LOW_WRITE (R56): the low half is staged for the requester, and the register is unchanged; a check unit's register takes it as R192
says. -/
def execReg64LowWrite (req addr : Nat) (v : Word) (s : State) : Out :=
  .next (match writable addr 2, pageOf addr with
    | some a0, some (g, _, _) =>
      if addr ≠ a0 then s
      else if g.kind = .chk then outState s (execChkRegWrite req addr v s)
      else s.hostWrite req addr v fun s => s.setStaged req addr (some v)
    | _, _ => s)

/-- What a commit of the 64-bit register at `a` does where no command of its own commits it: its writable bits take the value. -/
def State.plain64 (s : State) (k : PageKind) (o a v : Nat) : State :=
  match ringOfCfg a with
  | some r => s.ringBaseWrite r v
  | none =>
    if k = .timE then (if 1280 ≤ v % 2 ^ 37 ∧ v % 2 ^ 37 ≤ 2 ^ 36 then s.commit64 a v else s)
    else if k = .bur1 ∧ o = 0x50 then (s.commit64 a v).heat
    else if k = .seq0 ∧ o = 0x48 then (s.commit64 a v).enableAgain
    else s.commit64 a v

/-- REG64_HIGH_WRITE (R56): the high half and the staged or current low half are committed in one cycle, as the register's chapter says. -/
def execReg64HighWrite (req addr : Nat) (v : Word) (s : State) : Out :=
  .next (match writable addr 2, pageOf addr with
    | some a0, some (g, i, o) =>
      if addr ≠ a0 + 4 then s
      else outState s (match g.kind with
        | .chn => execEdgeSlotCommit req i ((o - 0x404) / 8) v s
        | .seq1 => execTimesetCommit req i ((o - 0x804) / 8) v s
        | .cel => execMapMaskCommit req (i = 8) ((o - 0x144) / 8) v s
        | .chk => execChkRegWrite req addr v s
        | .tkp => execConvBeatWrite req v s
        | k => .next (s.hostWrite req addr v fun s =>
          let r := s.take64 req a0 v
          r.2.plain64 k (o - 4) a0 r.1))
    | _, _ => s)

/-! ### Event registers of a page (R57, R59, R62) -/

/-- The register that a pending bit's clear returns to 0 (each chapter's event table): event `b` of page `i` of a layout at `p`. -/
def State.clearInfo (s : State) (k : PageKind) (p b : Nat) : State :=
  match k with
  | .glb0 => if b = 1 then s.setReg (glbBase + 0x4C) 0 else s
  | .hlk => if b = 16 then s.setReg (hlkBase + 0x50) 0 else s
  | .seq0 => if b = 10 then s.setReg (p + 0x1048) 0 else if b = 7 then s.setReg (p + 0x9C) 0 else s
  | .cel => if b = 2 then s.setReg64 (p + 0x58) 0 else s
  | .ttb0 => if b = 4 then s.setReg (p + 0x7C) 0 else if b = 1 then s.setReg (p + 0x78) 0 else s
  | .bur0 => if b = 0 then s.setReg (p + 0x88) 0 else s
  | .flw0 => if b = 6 then s.setReg (p + 0x90) 0 else s
  | .cor0 => if b = 16 then s.setReg (p + 0x44) 0 else s
  | .lan0 => if b = 1 then s.setReg (p + 0x58) 0 else s
  | .lan1 => if b = 1 then s.setReg (p + 0x58) 0 else if b = 9 then s.setReg (p + 0x98) 0 else s
  | _ => s

/-- The page at `p` requests an interrupt if pending-and-enabled is not zero (R62). -/
def State.requestNow (s : State) (p : Nat) : State := if s.pendEn p ≠ 0 then s.request (ordinalAt p) else s

/-- 1s written to `EV_PEND` of the page at `p`: the pending bits and the latched `EV_RAW` bits clear, but for those of events that the hardware
sets in the same cycle (R8). -/
def State.pendClear (s : State) (k : PageKind) (p : Nat) (v : Word) : State :=
  let now := (List.range 32).filter fun b => s.setNow (evNo (ordinalAt p) b)
  let m := v &&& wd (writeMask (p + 0x14)) &&& ~~~(wd (ofBits now))
  let s := s.setReg (p + 0x14) (s.reg (p + 0x14) &&& ~~~m)
  let s := s.setReg (p + 0x10) (s.reg (p + 0x10) &&& ~~~(m &&& ~~~(wd (liveMask k))))
  ((bitsOf 32 m.toNat).foldl (fun s b => s.clearInfo k p b) s).requestNow p

/-- EV_PEND_CLEAR (R57, R62): a write of `EV_PEND` of the page at `page`. -/
def execEvPendClear (req page : Nat) (v : Word) (s : State) : Out :=
  .next (match pageOf page with
    | some (g, _, o) => if o = 0 then s.hostWrite req (page + 0x14) v fun s => s.pendClear g.kind page v else s
    | none => s)

/-- A write of `EV_EN` of the page at `p`: pending-and-enabled not zero after it requests an interrupt (R62); of a page whose fields are staged the
request comes when the enables are applied (R70). -/
def State.enWrite (s : State) (p : Nat) (v : Word) : State :=
  let t := s.rwWrite (p + 0x18) v
  if isConfigWord (p + 0x18) then t else t.requestNow p

/-- EV_EN_WRITE (R62). -/
def execEvEnWrite (req page : Nat) (v : Word) (s : State) : Out :=
  .next (match pageOf page with
    | some (_, _, o) => if o = 0 then s.hostWrite req (page + 0x18) v fun s => s.enWrite page v else s
    | none => s)

/-- EV_TEST_WRITE (R59): each 1 is one occurrence of that event, which leaves `EV_RAW` as it is. -/
def execEvTestWrite (req page : Nat) (v : Word) (s : State) : Out :=
  .next (match pageOf page with
    | some (_, _, o) =>
      if o = 0 then s.hostWrite req (page + 0x20) v fun s =>
        (bitsOf 32 (v.toNat &&& writeMask (page + 0x20))).foldl (fun s b => s.occurTest (evNo (ordinalAt page) b)) s
      else s
    | none => s)

/-! ### A register of one word without a command of its own (R7) -/

/-- A value that the register's own text refuses: the register is left unchanged. -/
def State.valueRefused (s : State) (k : PageKind) (o : Nat) (v : Word) : Bool :=
  match k with
  | .glb0 => o == 0x64 && decide (fld v 15 0 < 40)
  | .seq0 => o == 0x50 && decide (1048576 < fld v 20 0)
  | .dec0 =>
    (o == 0x40 && (decide (fld v 14 0 < 8) || decide (16384 < fld v 14 0))) ||
      (decide (0x100 ≤ o) && decide (o < 0x140) && decide (49152 < fld v 15 0 + fld v 31 16))
  | .timE => decide (0x400 ≤ o) && (o % 0x40 == 4 || o % 0x40 == 8) && !(sourceOk (fld v 11 0))
  | .cel => (o == 0x68 && fld v 7 0 == 0) || (o == 0x64 && decide (fld v 5 0 ≤ fld v 21 16))
  | .bur0 => (o == 0x40 && decide (240 < fld v 7 0)) || (o == 0x50 && v == 0)
  | .bur1 => o == 0x44 && decide (sext 12 (fld v 11 0) ≤ sext 12 (s.getF (bur1Base + 0x40) 11 0))
  | .flw0 =>
    (o == 0x48 && decide (16384 < fld v 14 0)) || (o == 0x4C && decide (65536 < fld v 16 0)) || (o == 0x98 && fld v 15 0 == 0)
  | .cor0 => o == 0x5C && fld v 7 0 == 0
  | .vin0 => o == 0x54 && fld v 15 0 == 0
  | .lanL => o == 0x64 && decide (10 < fld v 27 24)
  | .rng => (o == 0x180 && decide (fld v 15 0 < 200)) || (o == 0x190 && decide (v.toNat < 16384000))
  | _ => false

/-- What the part does beside the write, once the register at offset `o` of a layout has its value. -/
def State.afterWrite (s : State) (k : PageKind) (o : Nat) : State :=
  match k with
  | .dec0 => if 0x80 ≤ o ∧ o < 0xC0 then s.budget else s
  | .bur0 => if o = 0x48 then s.setLive (evNo 43 4) (decide (s.bur.bypass = s.bypassMax)) else s
  | .bur1 => if o = 0x40 ∨ o = 0x44 then s.heat else s
  | .cor0 => if o = 0x58 then s.gpeSoftware else s
  | .cmp0 => if o = 0x44 then s.ringThresh .log else if o = 0x68 then s.ringThresh .ecap else s
  | .tim0 => if o = 0x64 then s.ringThresh .res else s
  | .flw0 => if o = 0x74 then (s.ringThresh .dlog).dlogFull else s
  | .gal0 => if o = 0x6C then s.ringThresh .spill else s
  | _ => s

/-- A write of `v` to the one-word register at `a`, offset `o` of page `i` of a layout. -/
def State.plainWrite (s : State) (k : PageKind) (i o a : Nat) (v : Word) : State :=
  match ringOfCfg a with
  | some r => s.ringSizeWrite r v
  | none =>
    if s.valueRefused k o v then s
    else match k with
      | .chn | .dsk => s.rwWrite a v
      | .decS => if o = 0x40 then s.sliceWrite i (wd (v.toNat &&& writeMask a)) else s.writeMasked a v
      | .tkp => if o = 0x1A0 then s.tbCfg 2 v else if o = 0x1E0 then s.tbCfg 3 v else s.writeMasked a v
      | .rng => if o = 0x40 then s.ringCfg v else s.writeMasked a v
      | _ => (s.writeMasked a v).afterWrite k o

/-- A write that does not cover a whole aligned word is discarded, and `ACCESS_ERR` occurs (R49). -/
def State.accessErr (s : State) (a : Nat) : State :=
  let i := hlkBase + 0x50
  let s := if s.getB i 31 then s else s.setReg i (wd (2 ^ 31 + a % 2 ^ 26))
  (s.incSat (hlkBase + 0x54) 1).occur (evNo 2 16)

end Sys2Proof.Machine
end

