-- ==== Sys2Proof/Machine/Route.lean ====
section
/-! DEFINITION. Where a write of any register goes: to the command that its row of the table names, or to the plain write (R7). REGISTER_WRITE
and the accesses that RECESS held (R43) go through here. -/

namespace Sys2Proof.Machine

/-- A write of a register without a command of its own: what it does is its page's affair, but it passes the gate of every access. -/
def plainOut (req a : Nat) (v : Word) (s : State) : Out :=
  .next (s.hostWrite req a v fun s =>
    match regAt a with
    | some (k, i, o, r, _) => if r.words = 1 ∧ (r.acc = .rw ∨ r.acc = .rws) then s.plainWrite k i o a v else s
    | none => s)

/-- A write of a header register of page `p` at offset `o`. -/
def routeHead (req p o : Nat) (v : Word) (s : State) : Out :=
  if o = 0x08 ∧ bit v 1 then execPageSrst req p v s
  else if o = 0x14 then execEvPendClear req p v s
  else if o = 0x18 then execEvEnWrite req p v s
  else if o = 0x20 then execEvTestWrite req p v s
  else plainOut req (p + o) v s

/-- `TASK_CMD` (12_timetable.md): a reserved OP is a failed command (R256). -/
def routeTask (req : Nat) (v : Word) (s : State) : Out :=
  match fld v 31 28 with
  | 2 => execTaskArm s
  | 3 => execTaskDisarm s
  | 4 => execTaskAdd (fld v 27 26) (fld v 15 0) s
  | 5 => execTaskAbort s
  | 6 => execTaskClear s
  | op => .next (s.hostWrite req (ttbBase + 0x70) v fun s => s.cmdFail 1 8 op (s.getF (ttbBase + 0x40) 11 0))

/-- A write in the `GLB` page. `PART` and `BANK_SWITCH` of `RESET_CTRL` come as their own commands, which show what the boot ROM finds. -/
def routeGlb (req o a : Nat) (v : Word) (s : State) : Out :=
  if o = 0x44 then (if bit v 8 then execModeReqAbort (fld v 3 0) s else execModeReq (fld v 3 0) s)
  else if o = 0x68 then execAutoCfgWrite v s
  else if o = 0x70 ∧ bit v 16 ∧ !(bit v 17) then execResetCtrlField (fld v 15 0) s
  else plainOut req a v s

/-- A write in the `HLK` page. -/
def routeHlk (req o a : Nat) (v : Word) (s : State) : Out :=
  if o = 0x5C ∧ bit v 31 then
    match fld v 1 0 with
    | 0 => execFlashRead (fld v 16 8) s
    | 1 => execFlashProgram (fld v 16 8) s
    | 2 => execFlashErase (fld v 16 8) s
    | op => .next (s.hostWrite req a v fun s => s.flashGo op (fld v 16 8))
  else if 0x100 ≤ o ∧ o < 0x300 ∧ o % 0x40 = 8 then
    if bit v 1 then execDmaCtrlAbort ((o - 0x100) / 0x40) s
    else if bit v 0 then execDmaCtrlStart ((o - 0x100) / 0x40) s
    else plainOut req a v s
  else plainOut req a v s

/-- A write in a `CHN` or `DSK` page: page `i`. -/
def routeDsk (req i o a : Nat) (v : Word) (s : State) : Out :=
  if pageBase .dsk 0 ≤ a ∧ (o = 0x200 ∨ o = 0x300) ∧ i % 8 = 0 ∧ (bit v 0 ∨ bit v 1) then
    if bit v 1 then execPecAbort (i / 4 + (o - 0x200) / 0x100) v s
    else execPecStart (i / 4 + (o - 0x200) / 0x100) v s
  else if isConfigWord a then execChnDskConfigWrite req a v s
  else plainOut req a v s

/-- A write in page 0 of sequencer `q`. -/
def routeSeq (req q o a : Nat) (v : Word) (s : State) : Out :=
  if o = 0x54 then
    if bit v 2 then execBurstCtrlAbort q v s
    else if bit v 0 then execBurstCtrlStart q v s
    else if bit v 1 then execBurstCtrlStop q v s
    else plainOut req a v s
  else if o = 0x68 then execJmpReqWrite q v s
  else plainOut req a v s

/-- A write in a `TIM` engine page `h`. -/
def routeTdc (req h o a : Nat) (v : Word) (s : State) : Out :=
  let e := 32 * h + (o - 0x400) / 0x40
  if o % 0x40 = 0x20 then
    if bit v 2 then execTdcAbort e v s
    else if bit v 1 then execTdcStop e v s
    else if bit v 0 then execTdcStart e v s
    else plainOut req a v s
  else plainOut req a v s

/-- A write in the Timetable's pages: 0 control, 1 queues, 2 + b delay list b. -/
def routeTtb (req page o a : Nat) (v : Word) (s : State) : Out :=
  if page = 0 then
    if 0x44 ≤ o ∧ o < 0x64 then execTaskImageWrite ((o - 0x44) / 4) v s
    else if o = 0x70 then routeTask req v s
    else plainOut req a v s
  else if page = 1 then
    if o % 0x40 = 0x24 ∧ bit v 0 then execSqPush ((o - 0x40) / 0x40) s else plainOut req a v s
  else if o = 0x58 ∧ bit v 0 then execDlInsert (page - 2) s
  else if o = 0x58 ∧ bit v 1 then execDlCancel (page - 2) s
  else if o = 0x58 ∧ bit v 2 then execDlCancelAll (page - 2) s
  else plainOut req a v s

/-- A write in the page of check unit `n`. -/
def routeChk (req n o a : Nat) (v : Word) (s : State) : Out :=
  if o = 0x84 then
    if bit v 1 then execChkAbort n v s
    else if bit v 2 then execChkLoadInit n v s
    else if bit v 3 then execChkCheck n v s
    else if bit v 0 then execChkStart n v s
    else plainOut req a v s
  else if o = 0x90 then execChkFeedB n v s
  else if o = 0x94 then execChkFeedH n v s
  else if o = 0x98 then execChkFeedW n v s
  else if o = 0x40 ∨ o = 0x80 then execChkRegWrite req a v s
  else plainOut req a v s

/-- A write in lane page `n`. -/
def routeLane (req n o a : Nat) (v : Word) (s : State) : Out :=
  if o = 0x40 then
    if bit v 1 then execLaneDisableWrite req n v s
    else if bit v 0 then execLaneRetrainWrite req n v s
    else .next (s.hostWrite req a v fun s => s.laneCtrl n v)
  else if o = 0x60 ∧ bit v 1 then execDiagAbort n v s
  else if o = 0x60 ∧ bit v 0 then execDiagStart n v s
  else plainOut req a v s

/-- A write in the `RNG` page. -/
def routeRng (req o a : Nat) (v : Word) (s : State) : Out :=
  if o = 0x54 then execRollCtrlStart req v s
  else if o = 0x88 then execWakeSendWrite req v s
  else if o = 0x9C then execDtxGo req v s
  else if o = 0xD4 then execTsqPop req v s
  else if o = 0x1A0 then execBellRingWrite req v s
  else if 0x400 ≤ o ∧ o < 0x800 ∧ o % 0x40 = 0x10 ∧ fld v 1 0 = 1 then execBellArm req ((o - 0x400) / 0x40) v s
  else if 0x400 ≤ o ∧ o < 0x800 ∧ o % 0x40 = 0x10 ∧ fld v 1 0 = 2 then execBellDisarm req ((o - 0x400) / 0x40) v s
  else plainOut req a v s

/-- Two commands of one write, the first taken first. -/
def bothOut (b c : Bool) (f g : State → Out) (s : State) : Out :=
  let t := if b then outState s (f s) else s
  if c then g t else .next t

/-- A write of a one-word register of page `i` of a layout. -/
def routeWord (req : Nat) (k : PageKind) (i o a : Nat) (v : Word) (s : State) : Out :=
  match k with
  | .glb0 => routeGlb req o a v s
  | .hlk => routeHlk req o a v s
  | .chn | .dsk => routeDsk req i o a v s
  | .seq0 => routeSeq req i o a v s
  | .seq2 => if 0x80 ≤ o then execSeqPage2Write req a v s else plainOut req a v s
  | .dec0 => if o = 0x44 then execDecFlushWrite v s else plainOut req a v s
  | .tim0 =>
    if o = 0x44 then execRefSelWrite v s
    else if 0x6C ≤ o ∧ o < 0x90 then execFcConfigWrite req a v s
    else plainOut req a v s
  | .timE => routeTdc req i o a v s
  | .cel => if 0x200 ≤ o ∧ o < 0x218 ∧ (i = 0 ∨ i = 8) then execRegCfgWrite (i = 8) ((o - 0x200) / 4) v s else plainOut req a v s
  | .ttb0 => routeTtb req 0 o a v s
  | .ttb1 => routeTtb req 1 o a v s
  | .ttbD => routeTtb req (2 + i) o a v s
  | .flw0 =>
    if o = 0x88 ∧ bit v 1 then execFlowStepAbort s
    else if o = 0x88 ∧ bit v 0 then execFlowStepStart s
    else plainOut req a v s
  | .cor0 => if o = 0x54 then execGpeOutModeWrite v s else plainOut req a v s
  | .cor1 => if 0x800 ≤ o then execSelectorWrite ((o - 0x800) / 4) v s else plainOut req a v s
  | .chk => routeChk req i o a v s
  | .vin0 =>
    if o = 0x48 ∧ bit v 1 then execItemAbort s
    else if o = 0x48 ∧ bit v 0 then execItemStart s
    else plainOut req a v s
  | .vin1 => if 0x44 ≤ o ∧ o < 0xC0 ∧ o % 8 = 4 then execSlotFlagsWrite ((o - 0x44) / 8) v s else plainOut req a v s
  | .lanL => routeLane req i o a v s
  | .rng => routeRng req o a v s
  | .gal0 => if o = 0x44 then bothOut (bit v 0) (bit v 1) execTraceArm execTraceStop s else plainOut req a v s
  | .gal1 =>
    if o = 0x44 then execCntCfgWrite v s
    else if o = 0x4C then bothOut (bit v 0) (bit v 1) execCounterSnap execCounterClearAll s
    else plainOut req a v s
  | .pwr => if o = 0x44 then execPruneForceWrite v s else if o = 0x88 then execRsPop v s else plainOut req a v s
  | .glb1 | .sat0 | .fsh | .sat1 | .sig | .seq1 | .seq3 | .decS | .cmp0 | .cmpS | .bur0 | .bur1 | .flwS | .lan0 | .lan1 | .tkp =>
    plainOut req a v s

/-- A write of the aligned word at `a`. -/
def routeOut (req a : Nat) (v : Word) (s : State) : Out :=
  match pageOf a with
  | none => .next s
  | some (g, i, o) =>
    if o < 0x40 then routeHead req (a - o) o v s
    else match writable a 4 with
      | some a0 => if a = a0 + 12 then execTimeRegCommit req a v s else execTimeRegStageWrite req a v s
      | none =>
        match writable a 2 with
        | some a0 => if a = a0 then execReg64LowWrite req a v s else execReg64HighWrite req a v s
        | none =>
          match ringOfRd a with
          | some _ => execRingReadPointerWrite req a v s
          | none => routeWord req g.kind i o a v s

/-- A write of the aligned word at `a` by any requester: D3hot concerns the endpoint alone (R395). -/
def State.routeWrite (s : State) (req a : Nat) (v : Word) : State :=
  let d := s.host.d3hot
  if req = 0 then outState s (routeOut req a v s)
  else
    let t := s.setHost { s.host with d3hot := false }
    let r := outState t (routeOut req a v t)
    r.setHost { r.host with d3hot := d }

/-- REGISTER_WRITE (R7, R49): a write of the word at `addr` with byte enables. A register that has a command of its own takes that command's
effect. -/
def execRegisterWrite (req addr : Nat) (v : Word) (enables : Nat) (s : State) : Out :=
  .next (if 0x4000000 ≤ addr then s
    else if enables % 16 ≠ 15 ∨ addr % 4 ≠ 0 then (if req = 0 ∧ s.host.d3hot then s else s.accessErr addr)
    else s.routeWrite req addr v)

/-! ### The end of Recess (R41, R43) -/

/-- An access that RECESS held is applied. -/
def State.applyHeld (s : State) (h : HeldAccess) : State :=
  if h.bar2 then s.bar2 h.addr h.write h.data h.len
  else if h.write then s.routeWrite h.req h.addr h.val
  else s.hostReadWord h.req h.addr

/-- RECESS_EXIT_DONE (R41, R43, R45): the fine re-lock completes, and the accesses held meanwhile are applied in the order they came. -/
def execRecessExitDone (s : State) : Out :=
  .next (if s.ctl.recess = .fine then
    let s := s.recessExit
    let held := s.ctl.held
    held.foldl State.applyHeld (s.setCtl { s.ctl with held := [] })
  else s)

end Sys2Proof.Machine
end

