-- ==== Sys2Proof/Machine/Satchel.lean ====
section
/-! DEFINITION. The Satchel's messages and its loss and return (20_host_satchel.md, R403 to R407; 02_modes.md, R37, R38; R426). -/

namespace Sys2Proof.Machine

/-- `s` with the Satchel's state replaced. -/
def State.setSat (s : State) (x : Satchel) : State := { s with sat := x }

/-- Both ends see the link up. -/
def State.satUp (s : State) : Bool := s.sat.hostUp && s.sat.fieldUp

/-! ### Reads and writes (R50, R403, R405) -/

/-- The words at `a` as a read of `len` bytes takes them: 4, or 8 for a pair. -/
def State.regRead (s : State) (a len : Nat) : List Byte × State :=
  let lo := s.readWord 0 a
  if len = 8 then
    let hi := lo.2.readWord 0 (a + 4)
    (bytesLE 4 lo.1.toNat ++ bytesLE 4 hi.1.toNat, hi.2)
  else (bytesLE 4 lo.1.toNat, lo.2)

/-- A read that may be outstanding: a tag that is free, a place among 32, and an access of the register space or of BAR2. -/
def State.regrdOk (s : State) (tag : Nat) (isBar2 : Bool) (addr len : Nat) : Bool :=
  s.satReady true 1 1 && !s.host.d3hot && decide (tag < 32) && decide (s.sat.reads.length < 32) && !(s.sat.reads.any fun r => r.tag = tag) &&
    (if isBar2 then decide (1 ≤ len) && decide (len ≤ 4096) && decide (addr + len ≤ 2 ^ 36) && s.fieldVisible && decide (s.prune.stage < 3) &&
        decide (s.ctl.mode ≠ 4)
     else (len == 4 || len == 8) && addr % len == 0 && !(hostPage addr) && decide (s.gate addr = .ok))

/-- SATCHEL_REGRD_REQUEST (R403, R405): the request arrives at the field end, which reads the data of its completion. -/
def execSatchelRegrdRequest (tag : Nat) (isBar2 : Bool) (addr len : Nat) (s : State) : Out :=
  .next (if s.regrdOk tag isBar2 addr len then
    let s := s.satSend true { head := { cls := 1, tag := tag }, addr := if isBar2 then s.reg64 (hlkBase + 0x48) + addr else addr }
    if isBar2 then
      let kept := s.host
      let t := s.bar2Do (s.reg64 (hlkBase + 0x48) + addr) false [] len
      let r : SatRead := { tag := tag, bar2 := true, addr := addr, len := len, data := t.host.bar2, poisoned := t.host.poisoned }
      (t.setHost { t.host with bar2 := kept.bar2, poisoned := kept.poisoned }).setSat { t.sat with reads := t.sat.reads ++ [r] }
    else
      let r := s.regRead addr len
      r.2.setSat { r.2.sat with reads := r.2.sat.reads ++ [{ tag := tag, bar2 := false, addr := addr, len := len, data := r.1 }] }
  else s)

/-- The host receives the data of a read. -/
def State.readDone (s : State) (r : SatRead) : State :=
  let s := s.setHost { s.host with bar2 := r.data, poisoned := r.poisoned }
  if r.bar2 then s else s.setRead (wd (ofBytesLE (r.data.take 4)))

/-- The completion of a read, in frames of up to 256 bytes (R403). -/
def completionMsgs (r : SatRead) : List SatMsg :=
  (List.range (max 1 ((r.len + 255) / 256))).map fun i =>
    { head := { cls := 1, typ := 1, tag := r.tag }, addr := r.addr + 256 * i, data := (r.data.drop (256 * i)).take 256 }

/-- SATCHEL_REGRD_COMPLETION (R403): the completion with that tag returns its data to the host. -/
def execSatchelRegrdCompletion (tag : Nat) (s : State) : Out :=
  .next (match s.sat.reads.find? fun r => r.tag = tag with
    | none => s
    | some r =>
      let l := completionMsgs r
      if s.satReady false 1 l.length then
        let s := l.foldl (fun s m => s.satSend false m) s
        (s.setSat { s.sat with reads := s.sat.reads.filter fun r => decide (r.tag ≠ tag) }).readDone r
      else s)

/-- The REGWR message of a write at BAR0 offset or field address `addr`. -/
def writeMsg (addr : Nat) (data : List Byte) : SatMsg := { head := { cls := 2 }, addr := addr, data := data }

/-- SATCHEL_REGWR (R50, R403, R406): a posted write crosses whole and is applied; its frame awaits its acknowledgement. -/
def execSatchelRegwr (isBar2 : Bool) (addr : Nat) (data : List Byte) (s : State) : Out :=
  .next (if s.satReady true 2 1 ∧ !s.host.d3hot ∧ 1 ≤ data.length ∧ data.length ≤ 256 then
    if isBar2 then
      if addr + data.length ≤ 2 ^ 36 then
        (s.satSend true (writeMsg (s.reg64 (hlkBase + 0x48) + addr) data)).bar2 addr true (data.map some) data.length
      else s
    else if addr % 4 = 0 ∧ data.length % 4 = 0 ∧ !(hostPage addr) ∧ data.length ≤ 8 then
      let s := (s.satSend true (writeMsg addr data)).routeWrite 0 addr (wd (ofBytesLE (data.take 4)))
      if data.length = 8 then s.routeWrite 0 (addr + 4) (wd (ofBytesLE (data.drop 4))) else s
    else s
  else s)

/-- A DMA_DATA message of channel `c` (R403, R404). -/
def dmaMsg (c a : Nat) (data : List Byte) : SatMsg := { head := { cls := 3 }, addr := a, chan := c, data := data }

/-- DMA_DESCRIPTOR_READ_DONE (R399, R403): the descriptor at `CUR_DESC` is read across the barrier and checked; a bad one ends the chain BAD_DESC. -/
def execDmaDescriptorReadDone (c : Nat) (s : State) : Out :=
  .next (if (s.dma c).st ≠ 2 ∨ 8 ≤ c ∨ !(s.satReady true 3 1) ∨ !(s.satReady false 3 1) then s else
    let a := s.reg64 (dmaBase c + 0x20)
    match s.portRun 2 false a 32 with
    | none => s
    | some s =>
      let x : DmaChan := { s.dma c with st := 3, words := s.words a 8, inbound := [], moved := 0, askedAt := s.cycle }
      let s := (s.satSend true (dmaMsg c a [])).satSend false (dmaMsg c a (s.readBytes a 32))
      if !(s.readOk a 32) ∨ !(bit (x.w 5) 31) ∨ (!(bit (x.w 5) 1) ∧ x.next % 32 ≠ 0) then s.dmaEnd c 4
      else s.setDma c x)

/-- DMA_DESCRIPTOR_COMPLETE (R399, R401): the last byte is at its destination; DONE is written back, `DMA_DESC[c]` occurs with IRQ, and the
chain ends after LAST or reads NEXT. -/
def execDmaDescriptorComplete (c : Nat) (s : State) : Out :=
  let x := s.dma c
  .next (if 8 ≤ c ∨ x.st ≠ 3 ∨ x.moved ≠ x.len ∨ !(s.satReady true 3 1) then s
  else
    let b := dmaBase c
    match s.portRun 2 true (s.reg64 (b + 0x20) + 20) 4 with
    | none => s
    | some s =>
    let done := bytesLE 4 (setBit (x.w 5) 30 true).toNat
    let s := (s.satSend true (dmaMsg c (s.reg64 (b + 0x20) + 20) done)).hostMemWrite (s.reg64 (b + 0x20) + 20) done
    let s := (s.incWrap (b + 0x14) 1).inc64 (b + 0x18) x.len
    let s := if bit (x.w 5) 2 then s.occur (evNo 2 (8 + c)) else s
    if bit (x.w 5) 1 then s.dmaEnd c 1
    else (s.setReg64 (b + 0x20) x.next).setDma c { st := 2, task := x.task })

/-- SATCHEL_DMA_DATA (R400, R402, R403): a message of `n` bytes, 1 to 256, crosses for channel `c`, whose turn it is: to the field address, or from
it as a posted write to host memory. Uncorrectable field data ends the chain FIELD_ERR, and the 64 bytes that hold it are not written. -/
def execSatchelDmaData (c n : Nat) (s : State) : Out :=
  let x := s.dma c
  .next (if 8 ≤ c ∨ x.st ≠ 3 ∨ n = 0 ∨ 256 < n ∨ !(s.dmaTurn c n) ∨ !(s.satReady (!x.toHost) 3 1) then s
  else
    let a := x.fieldAddr + x.moved
    let msg := dmaMsg c a
    if x.toHost then
      if x.len < x.moved + n then s
      else match s.portRun 2 false a n with
        | none => s
        | some s =>
          let cross (s : State) (k : Nat) : State :=
            let bytes := s.readBytes a k
            let s := (s.satSend false (msg bytes)).dmaShare c k
            (s.setHost { s.host with out := s.host.out ++ [(x.hostAddr + x.moved, bytes)] }).setDma c { x with moved := x.moved + k }
          match (List.range n).find? fun i => s.mapped (a + i) && !(s.readOk (a + i) 1) with
          | some i =>
            let k := i - min i ((a + i) % 64)
            (if k = 0 then s else cross s k).dmaEnd c 6
          | none => cross s n
    else if x.inbound.length < n then s
    else match s.portRun 2 true a n with
      | none => s
      | some s =>
        let s := (s.satSend true (msg (x.inbound.take n))).dmaShare c n
        (s.hostMemWrite a (x.inbound.take n)).setDma c { x with inbound := x.inbound.drop n, moved := x.moved + n })

/-! ### EVENT (R62, R63, R304, R403) -/

/-- SATCHEL_EVENT_TO_FIELD (R304): the oldest `EVENT` message of the host end brings its pulse to the Corridor. The payload's layout is the model's
(log 81). -/
def execSatchelEventToField (s : State) : Out :=
  .next (match s.sat.evtRx with
    | [] => s
    | g :: l =>
      if s.satReady true 4 1 then
        let s := s.satSend true { head := { cls := 4 }, data := bytesLE 8 g }
        let s : State := { s with sat := { s.sat with evtRx := l } }
        if 4 ≤ s.prune.stage then s
        else s.setCor { s.cor with pulses := s.cor.pulses ++ [Pulse.mk g s.cycle false] }
      else s)

/-- SATCHEL_EVENT_TO_HOST (R62, R63): the oldest `EVENT` message of the field end updates the host's shadow of its page, and the MSI-X
message follows if it carries a request. -/
def execSatchelEventToHost (s : State) : Out :=
  .next (match s.sat.evtTx with
    | [] => s
    | (o, w, v) :: l =>
      if s.satReady false 4 1 then
        let s := s.satSend false { head := { cls := 4 }, data := bytesLE 4 w.toNat ++ bytesLE 4 (o + 2 ^ 16 * ((v.map (· + 256)).getD 0)) }
        let s : State := { s with sat := { s.sat with evtTx := l, shadow := Tab.set (fun _ => 0) s.sat.shadow o w } }
        match v with
        | some v => s.msixSend v
        | none => s
      else s)

/-! ### TIME and FLOW (R403) -/

/-- SATCHEL_TIME_SEND (R403): every 1 ms, with a credit. -/
def execSatchelTimeSend (s : State) : Out :=
  .next (if s.sat.fieldUp then
    let s := s.passTo (s.sat.timeAt + 800000)
    let f := s.stampFlags
    let tx := if s.sat.timeTx.length < 4 then s.sat.timeTx ++ [(s.tbNow 0, f.1, f.2)] else s.sat.timeTx
    s.setSat { s.sat with timeAt := s.cycle, timeTx := tx }
  else s)

/-- The payload of a TIME message: the TB0 time in the format of R4, and in the reserved bits of its word 0 HOLDOVER (31) and COARSE (30), which R403
does not place (log 81). -/
def timePayload (t : Nat) (hold coarse : Bool) : List Byte :=
  (match timeWords t with
    | w :: l => setBit (setBit w 31 hold) 30 coarse :: l
    | [] => []).flatMap fun (w : Word) => bytesLE 4 w.toNat

/-- SATCHEL_TIME (R403): the oldest TIME message gives the host side TB0. -/
def execSatchelTime (s : State) : Out :=
  .next (match s.sat.timeTx with
    | [] => s
    | t :: l =>
      if s.satReady false 5 1 then
        let s := s.satSend false { head := { cls := 5 }, data := timePayload t.1 t.2.1 t.2.2 }
        s.setSat { s.sat with timeTx := l, hostTime := some t, hostTimeAt := s.cycle }
      else s)

/-- The host-die sensors are 56 to 59 (13_bursar.md). -/
def hostSensor (p : Nat × Nat) : Bool := decide (56 ≤ p.1) && decide (p.1 < 60)

/-- What a FLOW message does where it arrives (R402, R403, R46, R277, R426). A dispatch that finds its channel taken, the function in
D3hot or a mode that forbids it (R26, R395) fails at once (DESIGN CHOICE, log 26). -/
def State.flowArrive (s : State) (m : FlowMsg) : State :=
  match m with
  | .dmaStart c addr =>
    if (s.dma c).st ≠ 0 ∨ s.host.d3hot ∨ !(modePermits .dma s.ctl.mode s.prune.stage) then s.setSat { s.sat with flowDown := s.sat.flowDown ++ [.dmaEnd c 4 false] }
    else s.dmaSet c addr 2 true
  | .dmaEnd c outcome noop =>
    if s.bur.runs.any fun w => w.cls = 4 && w.unit = c && !w.direct then s.endRun 4 c outcome noop none else s
  | .autoEn b => s.setCtl { s.ctl with autoEn := b }
  | .sensors l => (s.takeReadings (l.filter hostSensor)).heat
  | .resync r => s.resyncRec r

/-- A FLOW message, whose payload the spec does not lay out: up to 256 bytes of free value (log 81). -/
def State.flowSend (s : State) (toField : Bool) : State :=
  let r := s.freshNat 8
  let d := r.2.freshBytes r.1
  d.2.satSend toField { head := { cls := 6 }, data := d.1 }

/-- SATCHEL_FLOW (R403): the oldest FLOW message of one direction arrives. -/
def execSatchelFlow (toHost : Bool) (s : State) : Out :=
  .next (if !(s.satReady (!toHost) 6 1) then s
  else if toHost then
    match s.sat.flowUp with
    | [] => s
    | m :: l =>
      let s := s.flowSend false
      (s.setSat { s.sat with flowUp := l }).flowArrive m
  else
    match s.sat.flowDown with
    | [] => s
    | m :: l =>
      let s := s.flowSend true
      (s.setSat { s.sat with flowDown := l }).flowArrive m)

/-- HOST_SENSOR_READING_SEND (R403): every 1 ms the readings of the host die leave in a FLOW message, with a credit. -/
def execHostSensorReadingSend (readings : List (Nat × Nat)) (s : State) : Out :=
  .next (if s.sat.hostUp then
    let s := s.passTo (s.sat.sensorAt + 800000)
    let down := if s.sat.flowDown.length < 16 then s.sat.flowDown ++ [.sensors (readings.filter hostSensor)] else s.sat.flowDown
    s.setSat { s.sat with sensorAt := s.cycle, flowDown := down }
  else s)

/-! ### Loss and return (R37, R38, R406, R407, R426) -/

/-- The host side goes to DETENTION, which the field side does not follow (R38). -/
def State.hostDetention (s : State) : State :=
  let s := s.setCtl { s.ctl with hostMode := some 3 }
  ((s.setF (glbBase + 0x54) 15 12 2).fieldState 4).occur (evNo 1 2)

/-- The reads that wait complete with all-ones, and `FLUSHED_READS` counts them (R406). -/
def State.flushReads (s : State) : State :=
  let l := s.sat.reads
  if l.isEmpty then s
  else
    let s := l.foldl (fun s r => s.readDone { r with data := List.replicate r.len 0xFF, poisoned := false }) s
    let s := (s.setSat { s.sat with reads := [] }).incSat (sat0Base + 0x68) l.length
    (s.hostResync 6 16 3 1 l.length).occur (evNo 3 3)

/-- The REGWR messages not acknowledged are discarded, and `LOST_WRITES` counts them (R406). -/
def State.loseWrites (s : State) : State :=
  let k := s.link 3
  let n := s.writesOut
  let s := s.setLink 3 { k with replay := k.replay.filter fun f => decide (f.2.1 ≠ 2) }
  (s.incSat (sat0Base + 0x64) n).hostResync 6 15 3 2 n

/-- Every running chain ends LINK_DOWN (R406); the field end has ended its tasks itself. -/
def State.chainsDown (s : State) : State :=
  let s := (List.range 8).foldl (fun s c => if (s.dma c).st ≠ 0 then (s.withdraw 4 c).dmaEnd c 7 else s) s
  s.setSat { s.sat with flowDown := s.sat.flowDown.filter fun m => match m with | .dmaEnd _ _ _ => false | _ => true }

/-- SATCHEL_LINK_DOWN (R37, R38, R406, R412): the host end sees that its link is down. One that never comes up fails the boot. -/
def execSatchelLinkDown (s : State) : Out :=
  .next (if (s.link 3).up then s
  else if s.sat.hostUp then
    let s := s.setSat { s.sat with hostUp := false, downAt := s.cycle }
    let s := s.flushReads.loseWrites.chainsDown
    let s := (s.incSat (sat0Base + 0x60) 1).occur (evNo 3 1)
    if 4 ≤ s.ctl.mode ∨ (s.ctl.mode = 2 ∧ s.ctl.fmi) then s.hostDetention else s
  else if s.ctl.mode = 2 ∧ s.ctl.clocks ∧ !s.ctl.fmi then s.detain 2
  else if s.ctl.hostMode = some 2 then s.hostDetention
  else s)

/-- One EVENT message for every ordinal page whose `EV_PEND` is not 0 (R407); it carries a request if one is pending and enabled (R62). -/
def State.resend (s : State) : State :=
  let pages := (List.range 59).map (4 + ·)
  let msgs := pages.filterMap fun o => match ordinalPage o with
    | none => none
    | some p =>
      if s.reg (p + 0x14) = 0 then none
      else some (o, s.reg (p + 0x14), if s.pendEn p = 0 then none else some (s.getF (p + 0x1C) 7 0))
  s.setSat { s.sat with evtTx := s.sat.evtTx ++ msgs }

/-- The records of the gap (R426): the host end's go to the field side as FLOW messages, FIELD_RESET if the field side was reset; a reset of the
host side discards the FLOW messages queued for it (log 27). -/
def State.gapRecords (s : State) : State :=
  let recs := s.prune.hostQueue.map fun r => if s.sat.fieldFresh ∧ r.cause = 6 then { r with cause := 4 } else r
  let recs := if s.prune.hostOvf then (recs.take 1).map (fun r => { r with ovf := true }) ++ recs.drop 1 else recs
  let s : State := { s with prune := { s.prune with hostQueue := [], hostOvf := false } }
  let s := s.setSat { s.sat with flowDown := s.sat.flowDown ++ recs.map FlowMsg.resync }
  if s.sat.hostFresh then
    let n := s.sat.flowUp.length
    let s := s.resync 5 3 4 6 (n + s.sat.stale : Nat)
    let s := s.setSat { s.sat with flowUp := [], stale := 0 }
    if n = 0 then s else s.dmaTasksFail
  else s.setSat { s.sat with stale := 0 }

/-- SATCHEL_LINK_UP (R38, R304, R407, R412, R426): the link is up at both ends and its audit done. -/
def execSatchelLinkUp (s : State) : Out :=
  .next (if (s.link 0).up ∧ (s.link 3).up ∧ (s.link 0).audit = 2 ∧ (s.link 3).audit = 2 ∧ !s.satUp then
    let ms := min ((s.cycle - s.sat.downAt) / 800000) (2 ^ 32 - 1)
    let s := (s.setSat { s.sat with hostUp := true, fieldUp := true, vfPg := s.ctl.pgField }).hostStale false
    let s := (s.setReg (sat0Base + 0x6C) (wd ms)).setReg (sat1Base + 0x6C) (wd ms)
    let s := s.resend.gapRecords
    let s := s.setSat { s.sat with hostFresh := false, fieldFresh := false }
    let n := s.sat.hostPulses
    let s := ((s.inc64 (corBase + 0x70) n).inc64 (corBase + 0x78) n).setSat { s.sat with hostPulses := 0 }
    let s := if 4 ≤ s.ctl.mode ∨ s.ctl.fieldStat = 4 then
        ((s.setCtl { s.ctl with hostMode := none }).setF (glbBase + 0x54) 15 12 0).fieldState (if 4 ≤ s.ctl.mode then 3 else 2)
      else s
    (s.occur (evNo 3 0)).occur (evNo 4 0)
  else s)

end Sys2Proof.Machine
end

