-- ==== Sys2Proof/Machine/Dispatch.lean ====
section
/-! DEFINITION. Each command and its meaning: one arm per row of the table. -/

namespace Sys2Proof.Machine

/-- The effect of a command on everything but the queue. -/
def exec (i : Instr) (s : State) : Host.Outcome State Fault Refusal :=
  match i with
  | .timeRegWord0Read req addr => Sys2Proof.Machine.execTimeRegWord0Read req addr s
  | .timeRegStageWrite req addr v => Sys2Proof.Machine.execTimeRegStageWrite req addr v s
  | .timeRegCommit req addr v => Sys2Proof.Machine.execTimeRegCommit req addr v s
  | .reg64LowRead req addr => Sys2Proof.Machine.execReg64LowRead req addr s
  | .reg64LowWrite req addr v => Sys2Proof.Machine.execReg64LowWrite req addr v s
  | .reg64HighWrite req addr v => Sys2Proof.Machine.execReg64HighWrite req addr v s
  | .registerWrite req addr v enables => Sys2Proof.Machine.execRegisterWrite req addr v enables s
  | .rcRead req addr => Sys2Proof.Machine.execRcRead req addr s
  | .evPendClear req page v => Sys2Proof.Machine.execEvPendClear req page v s
  | .evEnWrite req page v => Sys2Proof.Machine.execEvEnWrite req page v s
  | .evTestWrite req page v => Sys2Proof.Machine.execEvTestWrite req page v s
  | .pageSrst req page v => Sys2Proof.Machine.execPageSrst req page v s
  | .pageSrstDone page => Sys2Proof.Machine.execPageSrstDone page s
  | .msixUnmask vector => Sys2Proof.Machine.execMsixUnmask vector s
  | .stormWindowBoundary => Sys2Proof.Machine.execStormWindowBoundary s
  | .bursarInterval => Sys2Proof.Machine.execBursarInterval s
  | .thermalTargetStep => Sys2Proof.Machine.execThermalTargetStep s
  | .sensorSample readings coreMv core10mA fieldP => Sys2Proof.Machine.execSensorSample readings coreMv core10mA fieldP s
  | .timetableTick => Sys2Proof.Machine.execTimetableTick s
  | .alwaysOnTick senseMv rails => Sys2Proof.Machine.execAlwaysOnTick senseMv rails s
  | .modeReq target => Sys2Proof.Machine.execModeReq target s
  | .modeReqAbort target => Sys2Proof.Machine.execModeReqAbort target s
  | .modeQuiescence => Sys2Proof.Machine.execModeQuiescence s
  | .recessEntryDone => Sys2Proof.Machine.execRecessEntryDone s
  | .recessWakeDue tb => Sys2Proof.Machine.execRecessWakeDue tb s
  | .recessPllLocked => Sys2Proof.Machine.execRecessPllLocked s
  | .recessExitDone => Sys2Proof.Machine.execRecessExitDone s
  | .hostAccessInRecess req addr write val => Sys2Proof.Machine.execHostAccessInRecess req addr write val s
  | .autoCfgWrite val => Sys2Proof.Machine.execAutoCfgWrite val s
  | .fieldSatchelLoss => Sys2Proof.Machine.execFieldSatchelLoss s
  | .resetCtrlPart key bankA bankB => Sys2Proof.Machine.execResetCtrlPart key bankA bankB s
  | .resetCtrlField key => Sys2Proof.Machine.execResetCtrlField key s
  | .resetCtrlBankSwitch key bankA bankB => Sys2Proof.Machine.execResetCtrlBankSwitch key bankA bankB s
  | .powerGoodFall field => Sys2Proof.Machine.execPowerGoodFall field s
  | .powerGoodRise field => Sys2Proof.Machine.execPowerGoodRise field s
  | .resetNAssert field => Sys2Proof.Machine.execResetNAssert field s
  | .fieldResetRelease => Sys2Proof.Machine.execFieldResetRelease s
  | .supplyLoss field => Sys2Proof.Machine.execSupplyLoss field s
  | .hostResetRelease bankA bankB => Sys2Proof.Machine.execHostResetRelease bankA bankB s
  | .fieldPllLocked => Sys2Proof.Machine.execFieldPllLocked s
  | .fmiReceived accepted => Sys2Proof.Machine.execFmiReceived accepted s
  | .memTrainingDone c geom registered result ms repaired spd trfc fenced => Sys2Proof.Machine.execMemTrainingDone c geom registered result ms repaired spd trfc fenced s
  | .bootComplete ms meas => Sys2Proof.Machine.execBootComplete ms meas s
  | .chnDskConfigWrite req a v => Sys2Proof.Machine.execChnDskConfigWrite req a v s
  | .stagedConfigApply p => Sys2Proof.Machine.execStagedConfigApply p s
  | .peClusterPowerUpDone d => Sys2Proof.Machine.execPeClusterPowerUpDone d s
  | .pecStart b v => Sys2Proof.Machine.execPecStart b v s
  | .pecAbort b v => Sys2Proof.Machine.execPecAbort b v s
  | .pecTransferEnd b rx => Sys2Proof.Machine.execPecTransferEnd b rx s
  | .timesetCommit req q t v => Sys2Proof.Machine.execTimesetCommit req q t v s
  | .seqPage2Write req a v => Sys2Proof.Machine.execSeqPage2Write req a v s
  | .stagedSeqConfigApply q => Sys2Proof.Machine.execStagedSeqConfigApply q s
  | .edgeSlotCommit req n k v => Sys2Proof.Machine.execEdgeSlotCommit req n k v s
  | .burstCtrlStart q v => Sys2Proof.Machine.execBurstCtrlStart q v s
  | .burstCtrlStop q v => Sys2Proof.Machine.execBurstCtrlStop q v s
  | .burstCtrlAbort q v => Sys2Proof.Machine.execBurstCtrlAbort q v s
  | .jmpReqWrite q v => Sys2Proof.Machine.execJmpReqWrite q v s
  | .burstAdmissionComplete q => Sys2Proof.Machine.execBurstAdmissionComplete q s
  | .burstSReached q => Sys2Proof.Machine.execBurstSReached q s
  | .segmentStart q => Sys2Proof.Machine.execSegmentStart q s
  | .commitPoint q => Sys2Proof.Machine.execCommitPoint q s
  | .descriptorArrival q idx => Sys2Proof.Machine.execDescriptorArrival q idx s
  | .matchResultReady q => Sys2Proof.Machine.execMatchResultReady q s
  | .granuleJudge q => Sys2Proof.Machine.execGranuleJudge q s
  | .parkPoint q => Sys2Proof.Machine.execParkPoint q s
  | .parkComplete q m => Sys2Proof.Machine.execParkComplete q m s
  | .refillBlockArrival d ecc => Sys2Proof.Machine.execRefillBlockArrival d ecc s
  | .stagerBlockCopy q => Sys2Proof.Machine.execStagerBlockCopy q s
  | .decFlushWrite v => Sys2Proof.Machine.execDecFlushWrite v s
  | .verdictsFormed q waves => Sys2Proof.Machine.execVerdictsFormed q waves s
  | .failLogRecordWritten => Sys2Proof.Machine.execFailLogRecordWritten s
  | .ringReadPointerWrite req addr v => Sys2Proof.Machine.execRingReadPointerWrite req addr v s
  | .ringReconfigApply ring => Sys2Proof.Machine.execRingReconfigApply ring s
  | .captureBlockWritten d => Sys2Proof.Machine.execCaptureBlockWritten d s
  | .ecapTransition idx et prev code => Sys2Proof.Machine.execEcapTransition idx et prev code s
  | .ecapRecordWritten idx => Sys2Proof.Machine.execEcapRecordWritten idx s
  | .cmpSrstApply h => Sys2Proof.Machine.execCmpSrstApply h s
  | .sigSrstApply d => Sys2Proof.Machine.execSigSrstApply d s
  | .chkFeedB n v => Sys2Proof.Machine.execChkFeedB n v s
  | .chkFeedH n v => Sys2Proof.Machine.execChkFeedH n v s
  | .chkFeedW n v => Sys2Proof.Machine.execChkFeedW n v s
  | .chkLoadInit n v => Sys2Proof.Machine.execChkLoadInit n v s
  | .chkCheck n v => Sys2Proof.Machine.execChkCheck n v s
  | .chkStart n v => Sys2Proof.Machine.execChkStart n v s
  | .chkAbort n v => Sys2Proof.Machine.execChkAbort n v s
  | .chkRunCommit n m => Sys2Proof.Machine.execChkRunCommit n m s
  | .chkRegWrite req addr v => Sys2Proof.Machine.execChkRegWrite req addr v s
  | .tdcInputEdge src et rising => Sys2Proof.Machine.execTdcInputEdge src et rising s
  | .tdcStart e v => Sys2Proof.Machine.execTdcStart e v s
  | .tdcStop e v => Sys2Proof.Machine.execTdcStop e v s
  | .tdcAbort e v => Sys2Proof.Machine.execTdcAbort e v s
  | .tdcRecordWritten e m => Sys2Proof.Machine.execTdcRecordWritten e m s
  | .tdcTimeout e => Sys2Proof.Machine.execTdcTimeout e s
  | .tdcGateEnd e => Sys2Proof.Machine.execTdcGateEnd e s
  | .coarseCountWrap => Sys2Proof.Machine.execCoarseCountWrap s
  | .ocxoWarmReached => Sys2Proof.Machine.execOcxoWarmReached s
  | .ocxoRegulationLost => Sys2Proof.Machine.execOcxoRegulationLost s
  | .refSelWrite v => Sys2Proof.Machine.execRefSelWrite v s
  | .refSwitchApply => Sys2Proof.Machine.execRefSwitchApply s
  | .refSwitchDone => Sys2Proof.Machine.execRefSwitchDone s
  | .refInDetected => Sys2Proof.Machine.execRefInDetected s
  | .refInLoss => Sys2Proof.Machine.execRefInLoss s
  | .fcGateEnd idx => Sys2Proof.Machine.execFcGateEnd idx s
  | .fcConfigWrite req addr v => Sys2Proof.Machine.execFcConfigWrite req addr v s
  | .portRequest port addr write off data => Sys2Proof.Machine.execPortRequest port addr write off data s
  | .memoryIssue c u ecc => Sys2Proof.Machine.execMemoryIssue c u ecc s
  | .memoryReadComplete c u ecc => Sys2Proof.Machine.execMemoryReadComplete c u ecc s
  | .trefiTick c u r => Sys2Proof.Machine.execTrefiTick c u r s
  | .refreshComplete c u r bank => Sys2Proof.Machine.execRefreshComplete c u r bank s
  | .realtimeHoldEnd c u r => Sys2Proof.Machine.execRealtimeHoldEnd c u r s
  | .dramTempPoll c t0 t1 => Sys2Proof.Machine.execDramTempPoll c t0 t1 s
  | .selfRefreshEntry c => Sys2Proof.Machine.execSelfRefreshEntry c s
  | .selfRefreshExit c => Sys2Proof.Machine.execSelfRefreshExit c s
  | .mapMaskCommit req near k v => Sys2Proof.Machine.execMapMaskCommit req near k v s
  | .mapApply near => Sys2Proof.Machine.execMapApply near s
  | .scrubAccess c a ecc => Sys2Proof.Machine.execScrubAccess c a ecc s
  | .regCfgWrite near p v => Sys2Proof.Machine.execRegCfgWrite near p v s
  | .taskImageWrite w v => Sys2Proof.Machine.execTaskImageWrite w v s
  | .taskSubmit q => Sys2Proof.Machine.execTaskSubmit q s
  | .taskArm => Sys2Proof.Machine.execTaskArm s
  | .taskDisarm => Sys2Proof.Machine.execTaskDisarm s
  | .taskAdd n amount => Sys2Proof.Machine.execTaskAdd n amount s
  | .taskAbort => Sys2Proof.Machine.execTaskAbort s
  | .taskClear => Sys2Proof.Machine.execTaskClear s
  | .sqPush q => Sys2Proof.Machine.execSqPush q s
  | .arrivalApply => Sys2Proof.Machine.execArrivalApply s
  | .taskDispatch => Sys2Proof.Machine.execTaskDispatch s
  | .taskComplete idx m => Sys2Proof.Machine.execTaskComplete idx m s
  | .taskAgeStep idx => Sys2Proof.Machine.execTaskAgeStep idx s
  | .dlInsert b => Sys2Proof.Machine.execDlInsert b s
  | .dlCancel b => Sys2Proof.Machine.execDlCancel b s
  | .dlCancelAll b => Sys2Proof.Machine.execDlCancelAll b s
  | .delayEntryFire b => Sys2Proof.Machine.execDelayEntryFire b s
  | .bursarAdmit => Sys2Proof.Machine.execBursarAdmit s
  | .flowStepStart => Sys2Proof.Machine.execFlowStepStart s
  | .flowStepAbort => Sys2Proof.Machine.execFlowStepAbort s
  | .flowOpenCommit => Sys2Proof.Machine.execFlowOpenCommit s
  | .flowLimitCommit => Sys2Proof.Machine.execFlowLimitCommit s
  | .flowBinCommit => Sys2Proof.Machine.execFlowBinCommit s
  | .flowPost => Sys2Proof.Machine.execFlowPost s
  | .handlerSiteStep => Sys2Proof.Machine.execHandlerSiteStep s
  | .dlogRecordWritten => Sys2Proof.Machine.execDlogRecordWritten s
  | .corridorPulseArrive => Sys2Proof.Machine.execCorridorPulseArrive s
  | .consumerPulse idx => Sys2Proof.Machine.execConsumerPulse idx s
  | .selectorWrite idx v => Sys2Proof.Machine.execSelectorWrite idx v s
  | .gpeInEdge k rising => Sys2Proof.Machine.execGpeInEdge k rising s
  | .gpeInRecessEdge k rising => Sys2Proof.Machine.execGpeInRecessEdge k rising s
  | .gpeOutPulseEnd k => Sys2Proof.Machine.execGpeOutPulseEnd k s
  | .gpeOutModeWrite v => Sys2Proof.Machine.execGpeOutModeWrite v s
  | .itemStart => Sys2Proof.Machine.execItemStart s
  | .itemAbort => Sys2Proof.Machine.execItemAbort s
  | .itemCommit meas trips m => Sys2Proof.Machine.execItemCommit meas trips m s
  | .calEngineRelease e => Sys2Proof.Machine.execCalEngineRelease e s
  | .deskAdoptVintage d => Sys2Proof.Machine.execDeskAdoptVintage d s
  | .slotFlagsWrite idx v => Sys2Proof.Machine.execSlotFlagsWrite idx v s
  | .vintageFlashSave idx => Sys2Proof.Machine.execVintageFlashSave idx s
  | .laneDisableWrite req n v => Sys2Proof.Machine.execLaneDisableWrite req n v s
  | .laneRetrainWrite req n v => Sys2Proof.Machine.execLaneRetrainWrite req n v s
  | .laneDetect n => Sys2Proof.Machine.execLaneDetect n s
  | .tsReceived n set => Sys2Proof.Machine.execTsReceived n set s
  | .trainTrialEnd n w h => Sys2Proof.Machine.execTrainTrialEnd n w h s
  | .laneSymbolLock n => Sys2Proof.Machine.execLaneSymbolLock n s
  | .lockTimeout n => Sys2Proof.Machine.execLockTimeout n s
  | .capsReceived n set skew => Sys2Proof.Machine.execCapsReceived n set skew s
  | .laneLockLoss n violations => Sys2Proof.Machine.execLaneLockLoss n violations s
  | .laneFrameReceived l sof lanes eof => Sys2Proof.Machine.execLaneFrameReceived l sof lanes eof s
  | .ackReceived l set => Sys2Proof.Machine.execAckReceived l set s
  | .replayTimeout l => Sys2Proof.Machine.execReplayTimeout l s
  | .stripeReceived l set => Sys2Proof.Machine.execStripeReceived l set s
  | .auditReceived l set => Sys2Proof.Machine.execAuditReceived l set s
  | .auditTimeout l => Sys2Proof.Machine.execAuditTimeout l s
  | .restripeComplete l skews => Sys2Proof.Machine.execRestripeComplete l skews s
  | .widenTimerExpire l => Sys2Proof.Machine.execWidenTimerExpire l s
  | .fillerDue l => Sys2Proof.Machine.execFillerDue l s
  | .idleSetReceived n => Sys2Proof.Machine.execIdleSetReceived n s
  | .fillerReceived n => Sys2Proof.Machine.execFillerReceived n s
  | .laneFreeze n => Sys2Proof.Machine.execLaneFreeze n s
  | .sleepLockTimeout n => Sys2Proof.Machine.execSleepLockTimeout n s
  | .diagStart n v => Sys2Proof.Machine.execDiagStart n v s
  | .diagAbort n v => Sys2Proof.Machine.execDiagAbort n v s
  | .diagComplete n errors => Sys2Proof.Machine.execDiagComplete n errors s
  | .ringFrameForward p body => Sys2Proof.Machine.execRingFrameForward p body s
  | .creditFrameReceived p crEvent crMgmt crData => Sys2Proof.Machine.execCreditFrameReceived p crEvent crMgmt crData s
  | .creditReturnTimer p => Sys2Proof.Machine.execCreditReturnTimer p s
  | .exportFrameReceived p c bcast => Sys2Proof.Machine.execExportFrameReceived p c bcast s
  | .exportSend c => Sys2Proof.Machine.execExportSend c s
  | .rollCtrlStart req v => Sys2Proof.Machine.execRollCtrlStart req v s
  | .rollReqReceived p => Sys2Proof.Machine.execRollReqReceived p s
  | .rollcallReceived p k => Sys2Proof.Machine.execRollcallReceived p k s
  | .helloReceived p uid => Sys2Proof.Machine.execHelloReceived p uid s
  | .rosterReceived p payload => Sys2Proof.Machine.execRosterReceived p payload s
  | .rosterCollectEnd => Sys2Proof.Machine.execRosterCollectEnd s
  | .formedReceived p payload spanE spanW => Sys2Proof.Machine.execFormedReceived p payload spanE spanW s
  | .splitTimeout => Sys2Proof.Machine.execSplitTimeout s
  | .stateFrameReceived p src recess => Sys2Proof.Machine.execStateFrameReceived p src recess s
  | .wakeFrameReceived p => Sys2Proof.Machine.execWakeFrameReceived p s
  | .wakeSendWrite req v => Sys2Proof.Machine.execWakeSendWrite req v s
  | .dataFrameReceived p words data et => Sys2Proof.Machine.execDataFrameReceived p words data et s
  | .drxSlotWrite => Sys2Proof.Machine.execDrxSlotWrite s
  | .dtxGo req v => Sys2Proof.Machine.execDtxGo req v s
  | .dtxSofSent et => Sys2Proof.Machine.execDtxSofSent et s
  | .tsqPop req v => Sys2Proof.Machine.execTsqPop req v s
  | .bypassClose => Sys2Proof.Machine.execBypassClose s
  | .bypassOpen => Sys2Proof.Machine.execBypassOpen s
  | .delayExchangeTimer p => Sys2Proof.Machine.execDelayExchangeTimer p s
  | .dreqReceived p set b c => Sys2Proof.Machine.execDreqReceived p set b c s
  | .drespReceived p set d => Sys2Proof.Machine.execDrespReceived p set d s
  | .syncSendTimer => Sys2Proof.Machine.execSyncSendTimer s
  | .syncReceived p set r x => Sys2Proof.Machine.execSyncReceived p set r x s
  | .syncLossTimeout => Sys2Proof.Machine.execSyncLossTimeout s
  | .ppsEdge rising et => Sys2Proof.Machine.execPpsEdge rising et s
  | .ppsLossTimeout => Sys2Proof.Machine.execPpsLossTimeout s
  | .timeBaseSet req b v => Sys2Proof.Machine.execTimeBaseSet req b v s
  | .convBeatWrite req v => Sys2Proof.Machine.execConvBeatWrite req v s
  | .bellArm req b v => Sys2Proof.Machine.execBellArm req b v s
  | .bellDisarm req b v => Sys2Proof.Machine.execBellDisarm req b v s
  | .bellRingWrite req v => Sys2Proof.Machine.execBellRingWrite req v s
  | .bellRepeatSend => Sys2Proof.Machine.execBellRepeatSend s
  | .bellSetReceived p set => Sys2Proof.Machine.execBellSetReceived p set s
  | .bellDecision b => Sys2Proof.Machine.execBellDecision b s
  | .bellInEdge et => Sys2Proof.Machine.execBellInEdge et s
  | .pcieFlr => Sys2Proof.Machine.execPcieFlr s
  | .pcieD3hotEntry => Sys2Proof.Machine.execPcieD3hotEntry s
  | .pcieLinkChange up l1 width speed => Sys2Proof.Machine.execPcieLinkChange up l1 width speed s
  | .bar2Access off write data len => Sys2Proof.Machine.execBar2Access off write data len s
  | .dmaCtrlStart c => Sys2Proof.Machine.execDmaCtrlStart c s
  | .dmaCtrlAbort c => Sys2Proof.Machine.execDmaCtrlAbort c s
  | .dmaDescriptorReadDone c => Sys2Proof.Machine.execDmaDescriptorReadDone c s
  | .dmaDescriptorComplete c => Sys2Proof.Machine.execDmaDescriptorComplete c s
  | .dmaHostCompletionError c => Sys2Proof.Machine.execDmaHostCompletionError c s
  | .satchelRegrdRequest tag isBar2 addr len => Sys2Proof.Machine.execSatchelRegrdRequest tag isBar2 addr len s
  | .satchelRegrdCompletion tag => Sys2Proof.Machine.execSatchelRegrdCompletion tag s
  | .satchelRegwr isBar2 addr data => Sys2Proof.Machine.execSatchelRegwr isBar2 addr data s
  | .satchelDmaData c n => Sys2Proof.Machine.execSatchelDmaData c n s
  | .satchelEventToHost => Sys2Proof.Machine.execSatchelEventToHost s
  | .satchelEventToField => Sys2Proof.Machine.execSatchelEventToField s
  | .satchelTimeSend => Sys2Proof.Machine.execSatchelTimeSend s
  | .satchelTime => Sys2Proof.Machine.execSatchelTime s
  | .satchelFlow toHost => Sys2Proof.Machine.execSatchelFlow toHost s
  | .satchelLinkDown => Sys2Proof.Machine.execSatchelLinkDown s
  | .satchelLinkUp => Sys2Proof.Machine.execSatchelLinkUp s
  | .flashRead len => Sys2Proof.Machine.execFlashRead len s
  | .flashProgram len => Sys2Proof.Machine.execFlashProgram len s
  | .flashErase len => Sys2Proof.Machine.execFlashErase len s
  | .flashOpEnd good => Sys2Proof.Machine.execFlashOpEnd good s
  | .pruneClimbTimer => Sys2Proof.Machine.execPruneClimbTimer s
  | .pruneForceWrite v => Sys2Proof.Machine.execPruneForceWrite v s
  | .fieldHoldRelease => Sys2Proof.Machine.execFieldHoldRelease s
  | .clockRestartDone => Sys2Proof.Machine.execClockRestartDone s
  | .rsPop v => Sys2Proof.Machine.execRsPop v s
  | .traceArm => Sys2Proof.Machine.execTraceArm s
  | .traceStop => Sys2Proof.Machine.execTraceStop s
  | .spillRecordWritten => Sys2Proof.Machine.execSpillRecordWritten s
  | .counterSnap => Sys2Proof.Machine.execCounterSnap s
  | .counterClearAll => Sys2Proof.Machine.execCounterClearAll s
  | .cntCfgWrite v => Sys2Proof.Machine.execCntCfgWrite v s
  | .tapGaladdr t x => Sys2Proof.Machine.execTapGaladdr t x s
  | .tapGaldata t => Sys2Proof.Machine.execTapGaldata t s
  | .supplyReturn field => Sys2Proof.Machine.execSupplyReturn field s
  | .hostSensorReadingSend readings => Sys2Proof.Machine.execHostSensorReadingSend readings s
  | .rollcallExchangeTimer => Sys2Proof.Machine.execRollcallExchangeTimer s
  | .bellInstantS b => Sys2Proof.Machine.execBellInstantS b s
  | .pcieD0Entry => Sys2Proof.Machine.execPcieD0Entry s
  | .hostReadCompletion c bytes => Sys2Proof.Machine.execHostReadCompletion c bytes s
  | .pcieCompletionTimeout c => Sys2Proof.Machine.execPcieCompletionTimeout c s

end Sys2Proof.Machine
end

