-- ==== Sys2Proof/Safety.lean ====
section
/-! DEFINITION. What counts as a safe state and a safe step, in the terms the statements use. -/

namespace Sys2Proof.Machine

/-- A step completes: it ends in a next state, neither a fault nor a refusal. -/
def Completes (o : Host.Outcome State Fault Refusal) : Prop := ∃ t, o = .next t

/-- The register file and the field memory are in their canonical form: strictly rising addresses, and nothing listed that reads as its reset
value anyway. So equal contents are equal data. -/
abbrev State.Canonical (s : State) : Prop := Tab.wf resetValue s.regs = true ∧ Memory.wf s.mem = true

/-- The Bursar's account obeys R274: ACCRUED_TOTAL = pool + `HELD` + `MEASURED_TOTAL`. -/
abbrev State.Balanced (s : State) : Prop := s.bur.accrued = s.bur.pool + s.bur.held + s.bur.measured

/-- The parts of the machine beside its queue: its fields, each under its own name. -/
inductive Part where
  | cycle | regs | mem | lastRead | fresh | grids | latches | staged | ctl | tbs | gal | msix | sat | host | cor | prune | bur | ttb
  | chn | sq | cmp | flw | tim | chk | cal | cel | lan | ring | tk | bel
  deriving DecidableEq, Repr

/-- A part is the same in two states. -/
def Part.same (s t : State) : Part → Prop
  | .cycle => t.cycle = s.cycle
  | .regs => t.regs = s.regs
  | .mem => t.mem = s.mem
  | .lastRead => t.lastRead = s.lastRead
  | .fresh => t.fresh = s.fresh
  | .grids => t.grids = s.grids
  | .latches => t.latches = s.latches
  | .staged => t.staged = s.staged
  | .ctl => t.ctl = s.ctl
  | .tbs => t.tbs = s.tbs
  | .gal => t.gal = s.gal
  | .msix => t.msix = s.msix
  | .sat => t.sat = s.sat
  | .host => t.host = s.host
  | .cor => t.cor = s.cor
  | .prune => t.prune = s.prune
  | .bur => t.bur = s.bur
  | .ttb => t.ttb = s.ttb
  | .chn => t.chn = s.chn
  | .sq => t.sq = s.sq
  | .cmp => t.cmp = s.cmp
  | .flw => t.flw = s.flw
  | .tim => t.tim = s.tim
  | .chk => t.chk = s.chk
  | .cal => t.cal = s.cal
  | .cel => t.cel = s.cel
  | .lan => t.lan = s.lan
  | .ring => t.ring = s.ring
  | .tk => t.tk = s.tk
  | .bel => t.bel = s.bel

/-- Every part but those listed is the same. -/
def SameBut (ps : List Part) (s t : State) : Prop := ∀ p, p ∉ ps → p.same s t

/-- The parts that each command may change (the model's frame, read off the meanings): it changes no other. -/
def touched : Instr → List Part
  | .timeRegWord0Read .. | .reg64LowRead .. | .rcRead .. =>
    [.regs, .lastRead, .fresh, .latches, .ctl, .gal, .msix, .sat, .cor]
  | .timeRegStageWrite .. | .reg64LowWrite .. | .chkRegWrite .. | .convBeatWrite .. =>
    [.regs, .lastRead, .staged, .ctl, .gal, .msix, .sat, .cor]
  | .timeRegCommit .. | .timeBaseSet .. =>
    [.regs, .lastRead, .staged, .ctl, .tbs, .gal, .msix, .sat, .cor, .ring, .tk]
  | .reg64HighWrite .. | .pruneForceWrite .. =>
    [.cycle, .regs, .mem, .lastRead, .fresh, .staged, .ctl, .tbs, .gal, .msix, .sat, .host, .cor, .prune, .bur, .ttb, .chn, .sq, .cmp, .flw, .tim, .chk, .cal, .cel, .lan, .ring]
  | .registerWrite .. | .recessExitDone .. | .resetCtrlPart .. | .resetCtrlBankSwitch .. | .satchelRegwr .. | .satchelLinkDown .. =>
    [.cycle, .regs, .mem, .lastRead, .fresh, .latches, .staged, .ctl, .tbs, .gal, .msix, .sat, .host, .cor, .prune, .bur, .ttb, .chn, .sq, .cmp, .flw, .tim, .chk, .cal, .cel, .lan, .ring, .tk, .bel]
  | .evPendClear .. | .evTestWrite .. | .hostAccessInRecess .. | .autoCfgWrite .. | .chkFeedB .. | .chkFeedH .. | .chkFeedW ..
  | .selectorWrite .. | .gpeOutModeWrite .. | .slotFlagsWrite .. | .traceArm .. | .traceStop .. | .counterSnap .. | .counterClearAll ..
  | .cntCfgWrite .. =>
    [.regs, .lastRead, .ctl, .gal, .msix, .sat, .cor]
  | .evEnWrite .. | .chnDskConfigWrite .. | .pecStart .. =>
    [.regs, .lastRead, .fresh, .ctl, .gal, .msix, .sat, .cor, .chn, .sq]
  | .pageSrst .. =>
    [.cycle, .regs, .mem, .lastRead, .fresh, .latches, .staged, .ctl, .tbs, .gal, .msix, .sat, .host, .cor, .prune, .bur, .ttb, .chn, .sq, .cmp, .flw, .tim, .chk, .cal, .cel, .lan, .ring, .bel]
  | .pageSrstDone .. | .refInDetected .. =>
    [.regs]
  | .msixUnmask .. =>
    [.msix]
  | .stormWindowBoundary .. =>
    [.cycle, .regs, .grids, .gal, .msix, .sat, .cor, .sq, .cel]
  | .bursarInterval .. | .thermalTargetStep .. =>
    [.cycle, .regs, .grids, .gal, .msix, .sat, .cor, .bur, .sq, .cel]
  | .sensorSample .. =>
    [.cycle, .regs, .mem, .fresh, .grids, .staged, .ctl, .tbs, .gal, .msix, .sat, .host, .cor, .prune, .bur, .ttb, .chn, .sq, .cmp, .flw, .tim, .chk, .cal, .cel, .lan, .ring]
  | .timetableTick .. =>
    [.cycle, .regs, .grids, .gal, .msix, .sat, .cor, .ttb, .sq, .cel]
  | .alwaysOnTick .. =>
    [.cycle, .regs, .mem, .fresh, .grids, .latches, .staged, .ctl, .tbs, .gal, .msix, .sat, .host, .cor, .prune, .bur, .ttb, .chn, .sq, .cmp, .flw, .tim, .chk, .cal, .cel, .lan, .ring, .tk, .bel]
  | .modeReq .. | .modeReqAbort .. =>
    [.cycle, .regs, .mem, .lastRead, .fresh, .staged, .ctl, .gal, .msix, .sat, .host, .cor, .bur, .ttb, .chn, .sq, .cmp, .flw, .tim, .chk, .cal, .cel, .lan]
  | .modeQuiescence .. =>
    [.cycle, .regs, .ctl, .gal, .msix, .sat, .cor, .chn, .sq, .cel]
  | .recessEntryDone .. =>
    [.cycle, .regs, .ctl, .tbs, .gal, .msix, .sat, .cor, .chn, .sq, .cel, .lan, .ring]
  | .recessWakeDue .. | .consumerPulse .. | .fieldHoldRelease .. =>
    [.cycle, .regs, .ctl, .gal, .msix, .sat, .cor, .sq, .cel]
  | .recessPllLocked .. =>
    [.cycle, .regs, .ctl, .gal, .msix, .sat, .cor, .ttb, .chn, .sq, .tim, .cel, .lan]
  | .fieldSatchelLoss .. | .bootComplete .. | .granuleJudge .. | .satchelFlow .. | .satchelLinkUp .. | .pruneClimbTimer .. =>
    [.cycle, .regs, .mem, .fresh, .staged, .ctl, .tbs, .gal, .msix, .sat, .host, .cor, .prune, .bur, .ttb, .chn, .sq, .cmp, .flw, .tim, .chk, .cal, .cel, .lan, .ring]
  | .resetCtrlField .. =>
    [.regs, .mem, .lastRead, .latches, .staged, .ctl, .tbs, .gal, .msix, .sat, .cor, .prune, .bur, .ttb, .chn, .sq, .cmp, .flw, .tim, .chk, .cal, .cel, .lan, .ring, .tk, .bel]
  | .powerGoodFall .. | .resetNAssert .. | .supplyLoss .. =>
    [.regs, .mem, .fresh, .latches, .staged, .ctl, .tbs, .gal, .msix, .sat, .host, .cor, .prune, .bur, .ttb, .chn, .sq, .cmp, .flw, .tim, .chk, .cal, .cel, .lan, .ring, .tk, .bel]
  | .powerGoodRise .. =>
    [.ctl]
  | .fieldResetRelease .. =>
    [.regs, .ctl, .gal, .msix, .sat, .cor]
  | .hostResetRelease .. | .fmiReceived .. =>
    [.cycle, .regs, .mem, .latches, .staged, .ctl, .tbs, .gal, .msix, .sat, .cor, .prune, .bur, .ttb, .chn, .sq, .cmp, .flw, .tim, .chk, .cal, .cel, .lan, .ring, .tk, .bel]
  | .fieldPllLocked .. =>
    [.cycle, .regs, .fresh, .grids, .ctl, .tbs, .gal, .msix, .sat, .cor, .prune, .tim, .cel, .lan, .ring]
  | .memTrainingDone .. =>
    [.regs, .gal, .msix, .sat, .cor, .chn, .cel]
  | .stagedConfigApply .. =>
    [.regs, .fresh, .gal, .msix, .sat, .cor, .chn, .sq]
  | .peClusterPowerUpDone .. | .pecTransferEnd .. | .burstSReached .. =>
    [.cycle, .regs, .gal, .msix, .sat, .cor, .chn, .sq, .cel]
  | .pecAbort .. =>
    [.cycle, .regs, .lastRead, .fresh, .ctl, .gal, .msix, .sat, .cor, .chn, .sq, .cel]
  | .timesetCommit .. | .edgeSlotCommit .. | .mapMaskCommit .. =>
    [.regs, .lastRead, .staged, .ctl, .gal, .msix, .sat, .cor, .chn]
  | .seqPage2Write .. =>
    [.regs, .lastRead, .ctl, .gal, .msix, .sat, .cor, .chn]
  | .stagedSeqConfigApply .. =>
    [.regs, .chn]
  | .burstCtrlStart .. | .burstCtrlStop .. | .burstCtrlAbort .. =>
    [.cycle, .regs, .lastRead, .fresh, .staged, .ctl, .gal, .msix, .sat, .cor, .bur, .ttb, .chn, .sq, .cmp, .flw, .cel]
  | .jmpReqWrite .. | .decFlushWrite .. =>
    [.regs, .lastRead, .ctl, .gal, .msix, .sat, .cor, .sq]
  | .burstAdmissionComplete .. =>
    [.regs, .sq]
  | .segmentStart .. =>
    [.regs, .gal, .msix, .sat, .cor, .sq]
  | .commitPoint .. | .refillBlockArrival .. =>
    [.cycle, .regs, .staged, .gal, .msix, .sat, .cor, .sq, .cel]
  | .descriptorArrival .. | .matchResultReady .. | .coarseCountWrap .. | .trefiTick .. | .refreshComplete .. | .realtimeHoldEnd ..
  | .dramTempPoll .. | .corridorPulseArrive .. | .gpeOutPulseEnd .. | .satchelTimeSend .. | .hostSensorReadingSend .. =>
    [.cycle, .regs, .gal, .msix, .sat, .cor, .sq, .cel]
  | .parkPoint .. =>
    [.cycle, .regs, .gal, .msix, .sat, .cor, .chn, .sq, .cmp, .cel]
  | .parkComplete .. =>
    [.cycle, .regs, .fresh, .staged, .gal, .msix, .sat, .cor, .bur, .ttb, .sq, .flw, .cel]
  | .stagerBlockCopy .. =>
    [.cycle, .regs, .mem, .staged, .gal, .msix, .sat, .cor, .sq, .cel]
  | .verdictsFormed .. =>
    [.cycle, .regs, .fresh, .gal, .msix, .sat, .cor, .sq, .cmp, .cel]
  | .failLogRecordWritten .. | .captureBlockWritten .. | .ecapRecordWritten .. =>
    [.cycle, .regs, .mem, .gal, .msix, .sat, .cor, .sq, .cmp, .cel]
  | .ringReadPointerWrite .. =>
    [.cycle, .regs, .mem, .lastRead, .ctl, .gal, .msix, .sat, .cor, .sq, .cel, .lan, .ring]
  | .ringReconfigApply .. =>
    [.regs, .gal, .msix, .sat, .cor, .chn, .cmp, .flw]
  | .ecapTransition .. =>
    [.regs, .gal, .msix, .sat, .cor, .cmp]
  | .cmpSrstApply .. =>
    [.regs, .latches, .staged, .gal, .msix, .sat, .cor, .prune, .cmp]
  | .sigSrstApply .. =>
    [.regs, .latches, .staged, .gal, .msix, .sat, .cor, .prune]
  | .chkLoadInit .. | .chkCheck .. | .chkStart .. | .chkAbort .. =>
    [.cycle, .regs, .lastRead, .fresh, .ctl, .gal, .msix, .sat, .cor, .bur, .ttb, .sq, .chk, .cel]
  | .chkRunCommit .. =>
    [.cycle, .regs, .fresh, .gal, .msix, .sat, .cor, .bur, .ttb, .sq, .chk, .cel]
  | .tdcInputEdge .. | .refSwitchDone .. | .fcGateEnd .. =>
    [.cycle, .regs, .gal, .msix, .sat, .cor, .sq, .tim, .cel]
  | .tdcStart .. | .tdcStop .. | .tdcAbort .. =>
    [.regs, .lastRead, .fresh, .ctl, .gal, .msix, .sat, .cor, .bur, .ttb, .tim]
  | .tdcRecordWritten .. =>
    [.cycle, .regs, .mem, .fresh, .gal, .msix, .sat, .cor, .bur, .ttb, .sq, .flw, .tim, .cel]
  | .tdcTimeout .. =>
    [.cycle, .regs, .fresh, .gal, .msix, .sat, .cor, .sq, .tim, .cel]
  | .tdcGateEnd .. =>
    [.cycle, .regs, .fresh, .tbs, .gal, .msix, .sat, .cor, .sq, .tim, .cel, .tk]
  | .ocxoWarmReached .. | .ocxoRegulationLost .. | .gpeInEdge .. | .pcieLinkChange .. =>
    [.regs, .gal, .msix, .sat, .cor]
  | .refSelWrite .. | .fcConfigWrite .. =>
    [.regs, .lastRead, .ctl, .gal, .msix, .sat, .cor, .tim]
  | .refSwitchApply .. =>
    [.regs, .ctl, .tbs, .gal, .msix, .sat, .cor, .tim, .ring]
  | .refInLoss .. =>
    [.regs, .ctl, .tbs, .gal, .msix, .sat, .cor, .ring]
  | .portRequest .. | .memoryIssue .. | .selfRefreshExit .. =>
    [.regs, .mem, .gal, .msix, .sat, .cor, .sq, .cel]
  | .memoryReadComplete .. | .scrubAccess .. =>
    [.regs, .gal, .msix, .sat, .cor, .cel]
  | .selfRefreshEntry .. =>
    [.regs, .cel]
  | .mapApply .. =>
    [.regs, .mem, .gal, .msix, .sat, .cor, .chn, .sq, .cel]
  | .regCfgWrite .. =>
    [.regs, .mem, .lastRead, .ctl, .gal, .msix, .sat, .cor, .sq, .cel]
  | .taskImageWrite .. | .taskArm .. | .taskDisarm .. | .taskClear .. | .sqPush .. | .dlInsert .. | .dlCancel .. | .dlCancelAll .. =>
    [.regs, .lastRead, .ctl, .gal, .msix, .sat, .cor, .ttb]
  | .taskSubmit .. | .taskAgeStep .. | .delayEntryFire .. =>
    [.cycle, .regs, .gal, .msix, .sat, .cor, .ttb, .sq, .cel]
  | .taskAdd .. =>
    [.cycle, .regs, .lastRead, .ctl, .gal, .msix, .sat, .cor, .ttb, .sq, .cel]
  | .taskAbort .. =>
    [.regs, .mem, .lastRead, .fresh, .staged, .ctl, .gal, .msix, .sat, .host, .cor, .bur, .ttb, .chn, .sq, .cmp, .flw, .tim, .chk, .cal, .cel]
  | .arrivalApply .. =>
    [.cycle, .regs, .mem, .fresh, .staged, .gal, .msix, .sat, .host, .cor, .bur, .ttb, .chn, .sq, .cmp, .flw, .tim, .chk, .cal, .cel]
  | .taskDispatch .. | .bursarAdmit .. =>
    [.cycle, .regs, .fresh, .staged, .gal, .msix, .sat, .host, .cor, .bur, .ttb, .sq, .cmp, .flw, .tim, .chk, .cal, .cel]
  | .taskComplete .. =>
    [.cycle, .regs, .gal, .msix, .sat, .cor, .bur, .ttb, .sq, .cel]
  | .flowStepStart .. =>
    [.regs, .lastRead, .ctl, .gal, .msix, .sat, .cor, .bur]
  | .flowStepAbort .. =>
    [.regs, .lastRead, .fresh, .ctl, .gal, .msix, .sat, .cor, .bur, .ttb, .flw]
  | .flowOpenCommit .. | .flowLimitCommit .. | .flowBinCommit .. =>
    [.cycle, .regs, .fresh, .gal, .msix, .sat, .cor, .bur, .ttb, .sq, .flw, .cel]
  | .flowPost .. =>
    [.cycle, .regs, .gal, .msix, .sat, .cor, .ttb, .sq, .flw, .cel]
  | .handlerSiteStep .. =>
    [.cycle, .regs, .gal, .msix, .sat, .cor, .sq, .flw, .cel]
  | .dlogRecordWritten .. =>
    [.cycle, .regs, .mem, .gal, .msix, .sat, .cor, .sq, .flw, .cel]
  | .gpeInRecessEdge .. =>
    [.regs, .ctl, .gal, .cor]
  | .itemStart .. =>
    [.cycle, .regs, .lastRead, .fresh, .ctl, .gal, .msix, .sat, .cor, .bur, .ttb, .sq, .tim, .cal, .cel]
  | .itemAbort .. =>
    [.regs, .lastRead, .fresh, .ctl, .gal, .msix, .sat, .cor, .bur, .ttb, .tim, .cal]
  | .itemCommit .. =>
    [.cycle, .regs, .mem, .fresh, .gal, .msix, .sat, .cor, .bur, .ttb, .sq, .cmp, .tim, .cal, .cel]
  | .calEngineRelease .. =>
    [.regs, .tim]
  | .deskAdoptVintage .. =>
    [.regs, .gal, .msix, .sat, .cor, .cal]
  | .vintageFlashSave .. =>
    [.host, .cal]
  | .laneDisableWrite .. | .laneRetrainWrite .. =>
    [.cycle, .regs, .lastRead, .fresh, .ctl, .tbs, .gal, .msix, .sat, .cor, .cel, .lan, .ring]
  | .laneDetect .. =>
    [.fresh, .lan]
  | .tsReceived .. | .laneSymbolLock .. =>
    [.lan]
  | .trainTrialEnd .. | .lockTimeout .. | .sleepLockTimeout .. =>
    [.cycle, .regs, .fresh, .gal, .msix, .sat, .cor, .sq, .cel, .lan]
  | .capsReceived .. | .restripeComplete .. | .rollReqReceived .. | .bypassClose .. | .bypassOpen .. =>
    [.cycle, .regs, .tbs, .gal, .msix, .sat, .cor, .cel, .lan, .ring]
  | .laneLockLoss .. | .stripeReceived .. =>
    [.cycle, .regs, .fresh, .tbs, .gal, .msix, .sat, .cor, .cel, .lan, .ring]
  | .laneFrameReceived .. | .ackReceived .. =>
    [.regs, .gal, .msix, .sat, .cor, .lan, .ring]
  | .replayTimeout .. | .auditTimeout .. | .fillerDue .. | .diagComplete .. | .creditReturnTimer .. =>
    [.cycle, .regs, .gal, .msix, .sat, .cor, .sq, .cel, .lan]
  | .auditReceived .. =>
    [.regs, .fresh, .gal, .msix, .sat, .cor, .prune, .lan, .ring]
  | .widenTimerExpire .. | .rosterCollectEnd .. | .syncLossTimeout .. =>
    [.cycle, .regs, .tbs, .gal, .msix, .sat, .cor, .sq, .cel, .lan, .ring]
  | .idleSetReceived .. | .fillerReceived .. | .laneFreeze .. | .exportFrameReceived .. =>
    [.regs, .gal, .msix, .sat, .cor, .lan]
  | .diagStart .. | .diagAbort .. =>
    [.regs, .lastRead, .ctl, .gal, .msix, .sat, .cor, .lan]
  | .ringFrameForward .. =>
    [.regs, .gal, .lan, .ring]
  | .creditFrameReceived .. | .helloReceived .. | .stateFrameReceived .. =>
    [.lan, .ring]
  | .exportSend .. | .rollcallReceived .. | .drespReceived .. =>
    [.regs, .lan, .ring]
  | .rollCtrlStart .. =>
    [.cycle, .regs, .lastRead, .ctl, .tbs, .gal, .msix, .sat, .cor, .cel, .lan, .ring]
  | .rosterReceived .. =>
    [.regs, .gal, .msix, .sat, .cor, .ring]
  | .formedReceived .. =>
    [.cycle, .regs, .tbs, .gal, .msix, .sat, .cor, .cel, .ring]
  | .splitTimeout .. =>
    [.cycle, .regs, .tbs, .gal, .msix, .sat, .cor, .sq, .cel, .ring]
  | .wakeFrameReceived .. =>
    [.ctl, .lan]
  | .wakeSendWrite .. =>
    [.regs, .lastRead, .ctl, .gal, .msix, .sat, .cor, .lan, .ring]
  | .dataFrameReceived .. | .drxSlotWrite .. =>
    [.cycle, .regs, .mem, .gal, .msix, .sat, .cor, .sq, .cel, .lan, .ring]
  | .dtxGo .. =>
    [.cycle, .regs, .lastRead, .ctl, .gal, .msix, .sat, .cor, .sq, .cel, .ring]
  | .dtxSofSent .. =>
    [.cycle, .regs, .gal, .msix, .sat, .cor, .sq, .cel, .lan, .ring]
  | .tsqPop .. =>
    [.regs, .lastRead, .ctl, .gal, .msix, .sat, .cor, .ring]
  | .delayExchangeTimer .. | .syncSendTimer .. | .rollcallExchangeTimer .. =>
    [.cycle, .regs, .gal, .msix, .sat, .cor, .sq, .cel, .ring]
  | .dreqReceived .. =>
    [.ring]
  | .syncReceived .. =>
    [.regs, .tbs, .gal, .msix, .sat, .cor, .ring]
  | .ppsEdge .. =>
    [.regs, .tbs, .gal, .msix, .sat, .cor, .tk]
  | .ppsLossTimeout .. =>
    [.cycle, .regs, .tbs, .gal, .msix, .sat, .cor, .sq, .cel]
  | .bellArm .. | .bellDisarm .. =>
    [.regs, .lastRead, .ctl, .gal, .msix, .sat, .cor, .bel]
  | .bellRingWrite .. =>
    [.regs, .lastRead, .ctl, .gal, .msix, .sat, .cor, .lan, .bel]
  | .bellRepeatSend .. =>
    [.cycle, .regs, .gal, .msix, .sat, .cor, .sq, .cel, .lan, .bel]
  | .bellSetReceived .. =>
    [.lan, .bel]
  | .bellDecision .. | .bellInEdge .. | .bellInstantS .. =>
    [.cycle, .regs, .gal, .msix, .sat, .cor, .sq, .cel, .bel]
  | .pcieFlr .. | .pcieD3hotEntry .. =>
    [.regs, .mem, .fresh, .latches, .staged, .gal, .msix, .sat, .host, .cor, .bur, .ttb, .sq, .cel]
  | .bar2Access .. =>
    [.cycle, .regs, .mem, .ctl, .gal, .msix, .sat, .host, .cor, .sq, .cel]
  | .dmaCtrlStart .. =>
    [.regs, .lastRead, .ctl, .gal, .msix, .sat, .host, .cor, .bur]
  | .dmaCtrlAbort .. =>
    [.regs, .mem, .lastRead, .fresh, .ctl, .gal, .msix, .sat, .host, .cor, .bur, .ttb, .sq, .cel]
  | .dmaDescriptorReadDone .. =>
    [.cycle, .regs, .fresh, .gal, .msix, .sat, .host, .cor, .bur, .ttb, .sq, .cel, .lan]
  | .dmaDescriptorComplete .. | .satchelDmaData .. =>
    [.cycle, .regs, .mem, .fresh, .gal, .msix, .sat, .host, .cor, .bur, .ttb, .sq, .cel, .lan]
  | .dmaHostCompletionError .. =>
    [.regs, .fresh, .gal, .msix, .sat, .host, .cor, .bur, .ttb]
  | .satchelRegrdRequest .. =>
    [.cycle, .regs, .mem, .fresh, .latches, .ctl, .gal, .msix, .sat, .host, .cor, .sq, .cel, .lan]
  | .satchelRegrdCompletion .. =>
    [.cycle, .regs, .mem, .lastRead, .ctl, .gal, .msix, .sat, .host, .cor, .sq, .cel, .lan]
  | .satchelEventToHost .. =>
    [.regs, .msix, .sat, .lan]
  | .satchelEventToField .. =>
    [.regs, .sat, .cor, .lan]
  | .satchelTime .. =>
    [.regs, .sat, .lan]
  | .flashRead .. | .flashProgram .. | .flashErase .. =>
    [.regs, .lastRead, .ctl, .gal, .msix, .sat, .host, .cor]
  | .flashOpEnd .. =>
    [.regs, .fresh, .gal, .msix, .sat, .host, .cor]
  | .clockRestartDone .. =>
    [.cycle, .regs, .mem, .ctl, .gal, .msix, .sat, .cor, .prune, .ttb, .chn, .sq, .tim, .cel, .lan, .ring]
  | .rsPop .. =>
    [.regs, .lastRead, .ctl, .gal, .msix, .sat, .cor, .prune]
  | .spillRecordWritten .. =>
    [.cycle, .regs, .mem, .gal, .msix, .sat, .cor, .sq, .cel]
  | .tapGaladdr .. =>
    [.gal]
  | .tapGaldata .. =>
    [.lastRead, .fresh, .gal]
  | .supplyReturn .. =>
    [.regs, .ctl, .gal, .msix, .sat, .cor, .tim]
  | .pcieD0Entry .. =>
    [.host]
  | .hostReadCompletion .. =>
    [.regs, .host]
  | .pcieCompletionTimeout .. =>
    [.cycle, .regs, .fresh, .gal, .msix, .sat, .host, .cor, .bur, .ttb, .sq, .cel]

/-- The words that an occurrence or the passing of time may write: `EV_RAW` and `EV_PEND` of the event pages (R57), the trace's count of records
lost, and a sequencer's record of dropped edges (R101). -/
def evWord (a : Nat) : Bool :=
  a % 0x1000 == 0x10 || a % 0x1000 == 0x14 || a == galBase + 0x50 ||
    ((a % 0x4000 == 0x1044 || a % 0x4000 == 0x1048) && decide (0x400000 ≤ a) && decide (a < 0x440000))

/-- A host access to the word at `a` reaches its page (R29, R34, R43, R48, R395, R419). -/
abbrev State.Reaches (s : State) (req a : Nat) : Prop := (req = 0 → s.host.d3hot = false) ∧ s.gate a = .ok

/-- No word of the register file but those of `as` changed. -/
def RegsSame (s t : State) (as : Nat → Bool) : Prop := ∀ a, as a = false → t.reg a = s.reg a

/-- Field memory is unchanged, byte for byte. -/
def MemSame (s t : State) : Prop := ∀ a, t.byte a = s.byte a

end Sys2Proof.Machine
end

