-- ==== Sys2Proof/Certificates/Slice0/Obligations.lean ====
section
/-! DEFINITION. The statements about the block: what each command does, what it leaves alone, and what every step keeps. -/

open Sys2Proof Sys2Proof.Machine

/-! ### The block as a whole -/

/-- The queue is first in, first out: a step takes the command at its front, with the queue's rest. -/
def Obligations.StepTakesTheFrontCommand : Prop :=
  ∀ (c : Instr) (rest : List Instr) (s : State), s.pending = c :: rest → step s = exec c { s with pending := rest }

/-- With no command waiting, a step is one fabric cycle (the model's choice, log 28): the cycle count goes on by one, and no register changes but the
words that the passing of time may write (`evWord`): a Gallery wrap's event, and the record of edges dropped in the cycle before. -/
def Obligations.IdleStepIsOneCycle : Prop :=
  ∀ s : State, s.pending = [] → ∃ t, step s = .next t ∧ t.cycle = s.cycle + 1 ∧ t.pending = [] ∧ RegsSame s t evWord ∧
    SameBut [.cycle, .regs, .gal, .msix, .sat, .cor, .cel, .sq] s t

/-- No command stops the block: each answers a next state, with the queue as it was. -/
def Obligations.EveryCommandCompletes : Prop :=
  ∀ (c : Instr) (s : State), ∃ t, exec c s = .next t ∧ t.pending = s.pending

/-- The frame of every command: the parts that `touched` does not list for it, field memory among them, are unchanged. -/
def Obligations.CommandsTouchOnlyTheirParts : Prop :=
  ∀ (c : Instr) (s t : State), exec c s = .next t → SameBut (touched c) s t

/-- At reset the register file and field memory are in canonical form, with nothing listed; every register reads its reset value, no command waits, and
the Bursar's account balances at 0. -/
def Obligations.ResetIsCanonical : Prop :=
  State.reset.Canonical ∧ State.reset.regs = [] ∧ State.reset.mem = [] ∧ State.reset.pending = [] ∧ State.reset.Balanced ∧
    ∀ a, State.reset.reg a = resetValue a

/-- Every step keeps the canonical form of the register file and of field memory, from any state that has it. -/
def Obligations.StepKeepsCanonical : Prop :=
  ∀ s t : State, s.Canonical → step s = .next t → t.Canonical

/-- R274: from every state in which the Bursar's account obeys ACCRUED_TOTAL = pool + `HELD` + `MEASURED_TOTAL`, every step leads to one in which it does. -/
def Obligations.StepKeepsTheAccount : Prop :=
  ∀ s t : State, s.Balanced → step s = .next t → t.Balanced

/-! ### Register accesses (00_scope.md, 03_register_pages.md) -/

/-- R2: every word of a page that is not there, of an instance the member does not have or reserved, reads 0 and ignores writes, in every state. -/
def Obligations.AbsentPagesReadZero : Prop :=
  ∀ (req a : Nat) (v : Word) (s : State), pageOf a = none → a < 0x4000000 → a % 4 = 0 → (req = 0 → s.host.d3hot = false) →
    (s.hostReadWord req a).lastRead = 0 ∧ SameBut [.lastRead] s (s.hostReadWord req a) ∧ exec (.registerWrite req a v 15) s = .next s

/-- R5: a commit of a time register with NS above 999,999,999 leaves the machine as it is, of a time base's `SET` too, and no time that the part writes in
a register has such an NS. -/
def Obligations.TimeValuesKeepTheirNs : Prop :=
  (∀ (req a0 : Nat) (v : Word) (s : State), writable (a0 + 12) 4 = some a0 → a0 + 12 < tkpBase → s.Reaches req (a0 + 12) →
    999999999 < (s.commitWord req (a0 + 4)).toNat → exec (.timeRegCommit req (a0 + 12) v) s = .next s) ∧
  (∀ (req b : Nat) (v : Word) (s : State), b < 4 → s.Reaches req (tbBase b + 0x1C) →
    999999999 < (s.commitWord req (tbBase b + 0x14)).toNat → exec (.timeBaseSet req b v) s = .next s) ∧
  ∀ (a n : Nat) (s : State), ((s.setTime4 a n).reg (a + 4)).toNat ≤ 999999999

/-- R4, R55: reading word 0 of a time register, or the low half of a 64-bit one, answers its value and latches the words above, of the same value, for the
requester alone. R7: a read of an RC register answers its value and clears it; no other word changes. R8: where the part has updated it in the same
cycle, the read answers the value from before and leaves the update. -/
def Obligations.ReadsLatchAndClear : Prop :=
  (∀ (req a : Nat) (s : State), isWord0 a 4 = true → s.Reaches req a → ∃ t, exec (.timeRegWord0Read req a) s = .next t ∧
    t.lastRead = (s.readNow a).1 ∧ (∀ i, 1 ≤ i → i ≤ 3 → t.latch req (a + 4 * i) = some (s.viewReg (a + 4 * i))) ∧
    ∀ req' b, req' % 4 ≠ req % 4 → t.latch req' b = s.latch req' b) ∧
  (∀ (req a : Nat) (s : State), isWord0 a 2 = true → s.Reaches req a → ∃ t, exec (.reg64LowRead req a) s = .next t ∧
    t.lastRead = (s.readNow a).1 ∧ t.latch req (a + 4) = some (s.viewReg (a + 4)) ∧
    ∀ req' b, req' % 4 ≠ req % 4 → t.latch req' b = s.latch req' b) ∧
  (∀ (req a : Nat) (s : State), isRc a = true → wordsAt a = none → s.Reaches req a →
    (s.gal.rcAt ≠ s.cycle ∨ Tab.get (fun _ => none) s.gal.rcs a = none → ∃ t, exec (.rcRead req a) s = .next t ∧
      t.lastRead = s.viewReg a ∧ t.reg a = 0 ∧ RegsSame s t (· == a)) ∧
    (∀ old kept, s.gal.rcAt = s.cycle → Tab.get (fun _ => none) s.gal.rcs a = some (old, kept) → ∃ t, exec (.rcRead req a) s = .next t ∧
      t.lastRead = old ∧ t.reg a = kept ∧ RegsSame s t (· == a)))

/-- R4, R56: writes of the lower words are staged for the requester and change no register. R4, R5: a write of word 3 commits the four words together,
unless their NS is above 999,999,999: then nothing changes. Of a time base's `SET`, see R371. R56: a write of the high half commits it with the staged
low half, or the current one, in one cycle; reserved bits read 0. This is the rule of every 64-bit register whose chapter gives its commit no effect
of its own; of `SITE_EN` where no flow step commits in the same cycle (R291). -/
def Obligations.WideWritesCommitWhole : Prop :=
  (∀ (req a a0 : Nat) (v : Word) (s : State), writable a 4 = some a0 → a < a0 + 12 → s.Reaches req a →
    ∃ t, exec (.timeRegStageWrite req a v) s = .next t ∧ t.stagedW req a = some v ∧ SameBut [.staged] s t) ∧
  (∀ (req a : Nat) (g : PageGroup) (i o : Nat) (v : Word) (s : State), writable a 2 = some a → pageOf a = some (g, i, o) → g.kind ≠ .chk →
    s.Reaches req a → ∃ t, exec (.reg64LowWrite req a v) s = .next t ∧ t.stagedW req a = some v ∧ SameBut [.staged] s t) ∧
  (∀ (req a0 : Nat) (v : Word) (s : State), writable (a0 + 12) 4 = some a0 → a0 + 12 < tkpBase → s.Reaches req (a0 + 12) →
    (999999999 < (s.commitWord req (a0 + 4)).toNat → exec (.timeRegCommit req (a0 + 12) v) s = .next s) ∧
    ((s.commitWord req (a0 + 4)).toNat ≤ 999999999 → ∃ t, exec (.timeRegCommit req (a0 + 12) v) s = .next t ∧
      t.time4 a0 = wordsTime (s.commitWord req a0) (s.commitWord req (a0 + 4)) (s.commitWord req (a0 + 8)) v ∧
      RegsSame s t (fun b => b == a0 || b == a0 + 4 || b == a0 + 8 || b == a0 + 12))) ∧
  (∀ (req a : Nat) (g : PageGroup) (i o : Nat) (v : Word) (s : State), writable (a + 4) 2 = some a → pageOf (a + 4) = some (g, i, o) →
    g.kind ∉ [PageKind.chn, .seq1, .cel, .chk, .tkp, .timE, .bur1] → (g.kind = .seq0 → s.flw.enAt ≠ s.cycle) → ringOfCfg a = none →
    s.Reaches req (a + 4) →
    ∃ t, exec (.reg64HighWrite req (a + 4) v) s = .next t ∧
      t.reg64 a = ((s.commitWord req a).toNat + 2 ^ 32 * v.toNat) &&& wmask64 a ∧ RegsSame s t (fun b => b == a || b == a + 4))

/-- R49: a write that does not cover a whole aligned word is discarded, `ACCESS_ERR` counts it, and no register but its record, its count and event words
changes. R7, R51: a whole write of `PG_CTRL` without SRST gives the page's EN the bit written, and changes no other word. -/
def Obligations.WholeWordsAreWritten : Prop :=
  (∀ (req a : Nat) (v : Word) (enables : Nat) (s : State), a < 0x4000000 → enables % 16 ≠ 15 ∨ a % 4 ≠ 0 → (req = 0 → s.host.d3hot = false) →
    ∃ t, exec (.registerWrite req a v enables) s = .next t ∧ t.reg (hlkBase + 0x54) = satAdd 32 (s.reg (hlkBase + 0x54)) 1 ∧
      t.mem = s.mem ∧ RegsSame s t (fun b => evWord b || b == hlkBase + 0x50 || b == hlkBase + 0x54)) ∧
  (∀ (page : Nat) (g : PageGroup) (i : Nat) (r : RegRow) (v : Word) (s : State), pageOf (page + 8) = some (g, i, 8) →
    regAt (page + 8) = some (g.kind, i, 8, r, 0) → r.words = 1 → r.acc = .rw → page % 4 = 0 → page + 8 < 0x4000000 →
    nbit (writeMask (page + 8)) 0 = true → bit v 1 = false → s.Reaches 0 (page + 8) →
    ∃ t, exec (.registerWrite 0 (page + 8) v 15) s = .next t ∧ t.getB (page + 8) 0 = bit v 0 ∧ RegsSame s t (· == page + 8))

/-- R57, R62, R8: a 1 written to `EV_PEND` clears the pending bit and, of a latched event, its `EV_RAW` bit; bits written 0 stay, as does the bit of an
event that the hardware sets in the same cycle. R62, R70: `EV_EN` takes the bits of the page's events, at once or, of a page of a running burst, when
staged fields apply, and no other word of the register file changes. R59: `EV_TEST` sets the pending bit of each event written 1 and leaves the page's
`EV_RAW` as it is. `GAL[0]` stands apart: its own CNT_WRAP and LOST can really occur then. R62: unmasking a vector, or the function, sends the message
of a vector whose pending bit is set and that no mask holds any more, and clears the bit. -/
def Obligations.EventRegistersTakeWrites : Prop :=
  (∀ (req page : Nat) (g : PageGroup) (i : Nat) (v : Word) (s : State), pageOf page = some (g, i, 0) → s.Reaches req (page + 0x14) →
    ∃ t, exec (.evPendClear req page v) s = .next t ∧
      ∀ n, n < 32 →
        bit (t.reg (page + 0x14)) n = (bit (s.reg (page + 0x14)) n &&
          !(bit v n && nbit (writeMask (page + 0x14)) n && !(s.setNow (evNo (ordinalAt page) n)))) ∧
        (nbit (liveMask g.kind) n = true → bit (t.reg (page + 0x10)) n = bit (s.reg (page + 0x10)) n) ∧
        (bit v n = true → nbit (writeMask (page + 0x14)) n = true → s.setNow (evNo (ordinalAt page) n) = false → nbit (liveMask g.kind) n = false →
          bit (t.reg (page + 0x10)) n = false)) ∧
  (∀ (req page : Nat) (g : PageGroup) (i : Nat) (v : Word) (s : State), pageOf page = some (g, i, 0) → s.Reaches req (page + 0x18) →
    ∃ t, exec (.evEnWrite req page v) s = .next t ∧
      (∀ n, n < 32 → bit (t.reg (page + 0x18)) n =
        if nbit (writeMask (page + 0x18)) n then bit v n else bit (s.reg (page + 0x18)) n) ∧
      (isConfigWord (page + 0x18) = true → s.mustStage (page + 0x18) (t.reg (page + 0x18)) = true → t.eff (page + 0x18) = s.eff (page + 0x18)) ∧
      RegsSame s t (· == page + 0x18)) ∧
  (∀ (req page : Nat) (g : PageGroup) (i : Nat) (v : Word) (s : State), pageOf page = some (g, i, 0) → ordinalPage (ordinalAt page) = some page →
    page ≠ galBase → s.Reaches req (page + 0x20) →
    ∃ t, exec (.evTestWrite req page v) s = .next t ∧ t.reg (page + 0x10) = s.reg (page + 0x10) ∧
      ∀ n, n < 32 → bit v n = true → nbit (writeMask (page + 0x20)) n = true → nbit (writeMask (page + 0x14)) n = true →
        bit (t.reg (page + 0x14)) n = true) ∧
  (∀ (v : Nat) (s : State), v < 256 → s.msix.fnMask = false → Tab.get (fun _ => false) s.msix.pba v = true →
    ∃ t, exec (.msixUnmask (some v)) s = .next t ∧ Tab.get (fun _ => false) t.msix.pba v = false ∧
      Tab.get (fun _ => 0) t.msix.sent v = Tab.get (fun _ => 0) s.msix.sent v + 1 ∧ SameBut [.msix] s t) ∧
  (∀ s : State, ∃ t, exec (.msixUnmask none) s = .next t ∧ t.msix.fnMask = false ∧ SameBut [.msix] s t ∧
    ∀ v, Tab.get (fun _ => false) t.msix.pba v =
      (Tab.get (fun _ => false) s.msix.pba v && !(Tab.get (fun _ => false) s.msix.unmasked v)))

/-- R54: after a write of SRST the page shows SRST = 1 and READY = 0 until PAGE_SRST_DONE; then SRST = 0 and READY = 1 (R87: of a timeset page its
counts of dropped edges are cleared). A page whose SRST is ignored takes EN alone. -/
def Obligations.SoftResetHandshake : Prop :=
  (∀ (req page : Nat) (g : PageGroup) (i : Nat) (v : Word) (s : State), pageOf page = some (g, i, 0) → bit v 1 = true →
    srstIgnored g.kind = false → s.getB (page + 8) 1 = false → s.Reaches req (page + 8) →
    ∃ t, exec (.pageSrst req page v) s = .next t ∧ t.getB (page + 8) 1 = true ∧ t.getB (page + 0xC) 1 = false) ∧
  (∀ (req page : Nat) (g : PageGroup) (i : Nat) (v : Word) (s : State), pageOf page = some (g, i, 0) → bit v 1 = true →
    srstIgnored g.kind = true → s.Reaches req (page + 8) →
    ∃ t, exec (.pageSrst req page v) s = .next t ∧ t.getB (page + 8) 0 = bit v 0 ∧ SameBut [.regs] s t ∧ RegsSame s t (· == page + 8)) ∧
  (∀ (page : Nat) (g : PageGroup) (i : Nat) (s : State), pageOf page = some (g, i, 0) → s.getB (page + 8) 1 = true →
    srstHeld g.kind = false → pgStatZero g.kind = false →
    ∃ t, exec (.pageSrstDone page) s = .next t ∧ t.getB (page + 8) 1 = false ∧ t.getB (page + 0xC) 1 = true ∧
      RegsSame s t (fun a => a == page + 8 || a == page + 0xC || (g.kind = .seq1 && (a == page + 0x44 || a == page + 0x48))))

/-! ### Channels, desks, timesets, edge slots and the PE_CTL bus (04_channels_desks_sites.md, 05_wavetables_edges.md) -/

/-- R70: a configuration write (but one that starts or aborts a PE_CTL transfer) reads as written at once. With no burst of a sequencer named before or after, it is in force; with one, the value in force
stays what it was. A reserved park state leaves `PARK` unchanged. R70: once no sequencer named before or after runs a burst, every staged word of a
`CHN` or `DSK` page takes effect; it reads as it did. R87: with no burst running, the staged timesets and page-2 values of a sequencer take effect,
and both STAGED bits clear. R132: a write of a jump-table entry, `MASK_CFG` or a MATCH mask word reads as written; while a burst of the sequencer runs
the value in force stays what it was. -/
def Obligations.ConfigurationAppliesBetweenBursts : Prop :=
  (∀ (req a : Nat) (g : PageGroup) (i o : Nat) (v w : Word) (s : State), isConfigWord a = true → 0x40 ≤ o → o < 0x400 →
    ¬((o = 0x200 ∨ o = 0x300) ∧ (bit v 0 = true ∨ bit v 1 = true)) → pageOf a = some (g, i, o) → s.Reaches req a → w = wd (mergeMask (writeMask a) (s.reg a).toNat v.toNat) →
    ((g.kind = .chn ∧ o = 0x44 ∧ parkRefused w = true) → exec (.chnDskConfigWrite req a v) s = .next s) ∧
    (¬(g.kind = .chn ∧ o = 0x44 ∧ parkRefused w = true) → ∃ t, exec (.chnDskConfigWrite req a v) s = .next t ∧ t.reg a = w ∧
      t.eff a = if s.mustStage a w then s.eff a else w)) ∧
  (∀ (p : Nat) (g : PageGroup) (i : Nat) (s : State), pageOf p = some (g, i, 0) → g.kind = .chn ∨ g.kind = .dsk → pageBase g.kind i = p →
    ((s.stagedIn p).any fun a => (s.namedSeqs a ++ ((s.stagedIn p).foldl (fun s a => s.dropForce a) s).namedSeqs a).any s.burstRuns) = false →
    ∃ t, exec (.stagedConfigApply p) s = .next t ∧
      ∀ a, p ≤ a → a < p + 0x1000 → evWord a = false → t.reg a = s.reg a ∧ t.eff a = s.reg a) ∧
  (∀ (q : Nat) (s : State), q < 16 → s.burstRuns q = false → ∃ t, exec (.stagedSeqConfigApply q) s = .next t ∧
    t.getB (seqBase q 1 + 0x40) 0 = false ∧ t.getB (seqBase q 2 + 0x40) 0 = false ∧
    ∀ p, p = 1 ∨ p = 2 → ∀ a, seqBase q p + 0x80 ≤ a → a < seqBase q p + 0x1000 → t.eff a = s.reg a) ∧
  (∀ (req a : Nat) (g : PageGroup) (q o : Nat) (v w : Word) (s : State), pageOf a = some (g, q, o) → g.kind = .seq2 → 0x80 ≤ o →
    writeMask a ≠ 0 → s.Reaches req a → w = wd (mergeMask (writeMask a) (s.reg a).toNat v.toNat) →
    ∃ t, exec (.seqPage2Write req a v) s = .next t ∧ t.reg a = w ∧ t.eff a = (if s.burstRuns q then s.eff a else w) ∧
      (s.burstRuns q = true → t.getB (seqBase q 2 + 0x40) 0 = true))

/-- R86, R87: a timeset commits as one value; a commit with a PERIOD below 1,280 or above 2^36 changes nothing. While a burst of the sequencer runs the value
in force stays what it was. R90, R91: an edge slot commits as one value, staged as R70 says; a reserved TYPE (5, 6, 7 or 15) leaves the slot unchanged. -/
def Obligations.TimesetsAndSlotsCommit : Prop :=
  (∀ (req q n x : Nat) (v : Word) (s : State), q < 16 → n < 256 → s.Reaches req (tsAddr q n + 4) →
    x = ((s.commitWord req (tsAddr q n)).toNat + 2 ^ 32 * v.toNat) &&& wmask64 (tsAddr q n) →
    ((x % 2 ^ 37 < 1280 ∨ 2 ^ 36 < x % 2 ^ 37) → exec (.timesetCommit req q n v) s = .next s) ∧
    (¬(x % 2 ^ 37 < 1280 ∨ 2 ^ 36 < x % 2 ^ 37) → ∃ t, exec (.timesetCommit req q n v) s = .next t ∧
      t.reg64 (tsAddr q n) = x ∧ t.eff64 (tsAddr q n) = (if s.burstRuns q then s.eff64 (tsAddr q n) else x) ∧
      RegsSame s t fun a => a == tsAddr q n || a == tsAddr q n + 4 || a == seqBase q 1 + 0x40)) ∧
  (∀ (req n k x : Nat) (v : Word) (s : State), n < 256 → k < 384 → s.Reaches req (chnBase n + 0x400 + 8 * k + 4) →
    x = ((s.commitWord req (chnBase n + 0x400 + 8 * k)).toNat + 2 ^ 32 * v.toNat) &&& wmask64 (chnBase n + 0x400 + 8 * k) →
    ((x / 2 ^ 40 = 5 ∨ x / 2 ^ 40 = 6 ∨ x / 2 ^ 40 = 7 ∨ x / 2 ^ 40 = 15) →
      ∃ t, exec (.edgeSlotCommit req n k v) s = .next t ∧ RegsSame s t fun _ => false) ∧
    (¬(x / 2 ^ 40 = 5 ∨ x / 2 ^ 40 = 6 ∨ x / 2 ^ 40 = 7 ∨ x / 2 ^ 40 = 15) → ∃ t, exec (.edgeSlotCommit req n k v) s = .next t ∧
      t.reg64 (chnBase n + 0x400 + 8 * k) = x ∧
      t.eff64 (chnBase n + 0x400 + 8 * k) = (if s.mustStage (chnBase n + 0x400 + 8 * k) (wd x) then s.eff64 (chnBase n + 0x400 + 8 * k) else x) ∧
      RegsSame s t fun a => a == chnBase n + 0x400 + 8 * k || a == chnBase n + 0x400 + 8 * k + 4))

/-- R76: 2 µs after PE_OFF is applied as 0 the cluster is usable. R81, R82, R83: a START takes the bytes of `PEC_TX` in force, and DIV, CS and LEN as
written, or as in force where R70 stages them, and runs; DIV below 7, or LEN of 0 or above 64, is refused BAD_CFG; a transfer in progress ignores it.
The end writes SENT and RESULT; an ABORT in or after the commit cycle changes nothing but the result. R84: the balls of a bus are in high impedance
with the field side held, at stage 3 and above and in RECESS, and idle with every chip select high and SCLK low. R72, R80: a cluster that is
unpowered, or held, has both pairs of a channel at ball level 0, whatever `DRV_INV`. -/
def Obligations.ClustersAndTransfers : Prop :=
  (∀ (d : Nat) (s : State), Tab.get (fun _ => 0) s.chn.peDue d ≠ 0 → ∃ t, exec (.peClusterPowerUpDone d) s = .next t ∧ t.peOn d = true ∧
    t.cycle = max s.cycle (Tab.get (fun _ => 0) s.chn.peDue d) ∧ ∀ e, e ≠ d → t.peOn e = s.peOn e) ∧
  (∀ (b : Nat) (v m w : Word) (s : State), b < 8 → bit v 0 = true → bit v 1 = false → s.Reaches 0 (pecBase b) →
    m = wd (mergeMask (writeMask (pecBase b)) (s.reg (pecBase b)).toNat v.toNat) →
    w = (if s.mustStage (pecBase b) m then s.eff (pecBase b) else m) →
    bit (s.eff (dskBase (8 * (b / 2)) + 8)) 0 = true → s.ctl.pend = none → (s.pecOf b).busy = false →
    (7 ≤ fld w 31 24 → 1 ≤ fld w 14 8 → fld w 14 8 ≤ 64 →
      ∃ t, exec (.pecStart b v) s = .next t ∧ (t.pecOf b).busy = true ∧ t.reg (pecBase b + 4) = 1 ∧ (t.pecOf b).cs = fld w 17 16 ∧
        (t.pecOf b).out = s.pecTx b (fld w 14 8) ∧ (t.pecOf b).period = 2 * (fld w 31 24 + 1) ∧
        s.cycle ≤ (t.pecOf b).start) ∧
    (fld w 31 24 < 7 ∨ fld w 14 8 = 0 ∨ 64 < fld w 14 8 →
      ∃ t, exec (.pecStart b v) s = .next t ∧ (t.pecOf b).busy = false ∧ t.getF (pecBase b + 4) 3 1 = 3)) ∧
  (∀ (b : Nat) (v : Word) (s : State), b < 8 → bit v 0 = true → bit v 1 = false → s.Reaches 0 (pecBase b) → (s.pecOf b).busy = true →
    ∃ t, exec (.pecStart b v) s = .next t ∧ t.pecOf b = s.pecOf b ∧ t.reg (pecBase b + 4) = s.reg (pecBase b + 4)) ∧
  (∀ (b : Nat) (v : Word) (s : State), b < 8 → bit v 1 = true → s.Reaches 0 (pecBase b) → (s.pecOf b).busy = true →
    (s.pecOf b).commitAt ≤ s.cycle →
    ∃ t, exec (.pecAbort b v) s = .next t ∧ t.pecOf b = { s.pecOf b with noop := true }) ∧
  (∀ (b : Nat) (v : Word) (s : State), b < 8 → bit v 1 = true → s.Reaches 0 (pecBase b) → (s.pecOf b).busy = true →
    s.cycle < (s.pecOf b).commitAt →
    ∃ t n, exec (.pecAbort b v) s = .next t ∧ (t.pecOf b).busy = false ∧ n ≤ (s.pecOf b).out.length ∧
      t.reg (pecBase b + 4) = wd (n * 256 + 4)) ∧
  (∀ (b : Nat) (rx : List Byte) (s : State), b < 8 → (s.pecOf b).busy = true →
    ∃ t, exec (.pecTransferEnd b rx) s = .next t ∧ (t.pecOf b).busy = false ∧
      t.reg (pecBase b + 4) = wd ((s.pecOf b).out.length * 256 + (if (s.pecOf b).noop then 4 else 1) * 2)) ∧
  (∀ (b c n et : Nat) (s : State),
    (s.ctl.mode = 1 ∨ s.ctl.mode = 4 ∨ 3 ≤ s.prune.stage → s.pecBalls b c = none) ∧
    (5 ≤ s.ctl.mode → s.prune.stage < 3 → (s.pecOf b).busy = false → s.pecBalls b c = some ⟨[true, true, true, true], false, false⟩) ∧
    (s.ctl.mode < 4 ∨ 4 ≤ s.prune.stage ∨ s.peOn (n / 8) = false → s.ballPins n et = some (false, false)))

/-! ### Record rings (08_compare_capture.md and each ring's chapter) -/

/-- R170: a read pointer takes a value from the current one up to the write pointer, in ring order; any other write leaves it unchanged. R170: with its
writers idle, a ring's staged base and size take effect, and both its pointers read 0. -/
def Obligations.RingsReturnSpaceAndRestart : Prop :=
  (∀ (req : Nat) (r : RecRing) (v : Word) (s : State), s.Reaches req r.regs.rd →
    ∃ t, exec (.ringReadPointerWrite req r.regs.rd v) s = .next t ∧
      t.reg r.regs.rd = if v.toNat < s.ringSize r ∧
          (v.toNat + s.ringSize r - (s.reg r.regs.rd).toNat) % s.ringSize r ≤ s.ringUnread r then v else s.reg r.regs.rd) ∧
  (∀ (k : Nat) (s : State), k < 6 → s.ringStaged (ringNo k) = true → s.writersIdle (ringNo k) = true →
    ∃ t, exec (.ringReconfigApply k) s = .next t ∧ t.reg (ringNo k).regs.wr = 0 ∧ t.reg (ringNo k).regs.rd = 0 ∧
      t.eff (ringNo k).regs.size = s.reg (ringNo k).regs.size ∧ t.eff64 (ringNo k).regs.base = s.reg64 (ringNo k).regs.base)

/-! ### The host link (20_host_satchel.md) -/

/-- R395: a function-level reset aborts every DMA chain, and returns the registers of `HLK` and the MSI-X table to their reset values (the link's state
and a flash operation's BUSY stay); D3hot entry does the same and the function is in D3hot until D0 entry, which changes nothing else. R411:
`LINK_STAT` shows the data link's state, L1, width and speed. R401: a START of a free channel that is permitted takes `FIRST_DESC` and waits for the Bursar
with its `ENERGY`; an ABORT of a chain ends it with RESULT 2. R402: a completion with an error, or none in the completion timeout, ends a chain from
the host HOST_ERR (5); field data marked uncorrectable ends one to the host FIELD_ERR (6). -/
def Obligations.FunctionResetsAndDmaEnds : Prop :=
  (∀ s : State, ∃ t, exec .pcieFlr s = .next t ∧ t.host.d3hot = s.host.d3hot ∧ t.msix.unmasked = [] ∧ t.msix.pba = [] ∧ t.msix.fnMask = false ∧
    (∀ c, c < 8 → (t.dma c).st = 0) ∧
    ∀ o, o < 0x1000 → o ≠ 0xC → o ≠ 0x40 → o ≠ 0x60 → t.reg (hlkBase + o) = resetValue (hlkBase + o)) ∧
  (∀ s : State, ∃ t, exec .pcieD3hotEntry s = .next t ∧ t.host.d3hot = true ∧ t.msix.unmasked = [] ∧ t.msix.pba = [] ∧
    (∀ c, c < 8 → (t.dma c).st = 0) ∧
    ∀ o, o < 0x1000 → o ≠ 0xC → o ≠ 0x40 → o ≠ 0x60 → t.reg (hlkBase + o) = resetValue (hlkBase + o)) ∧
  (∀ s : State, ∃ t, exec .pcieD0Entry s = .next t ∧ t.host = { s.host with d3hot := false } ∧ SameBut [.host] s t) ∧
  (∀ (up l1 : Bool) (width speed : Nat) (s : State), ∃ t, exec (.pcieLinkChange up l1 width speed) s = .next t ∧
    t.getB (hlkBase + 0x40) 16 = up ∧ t.getB (hlkBase + 0x40) 15 = l1 ∧ t.getF (hlkBase + 0x40) 9 4 = width % 64 ∧
    t.getF (hlkBase + 0x40) 3 0 = speed % 16) ∧
  (∀ (c : Nat) (s : State), c < 8 → s.host.d3hot = false → (s.dma c).st = 0 → s.dmaTaken c = false → s.startAllowed .dma (dmaBase c) = true →
    ∃ t, exec (.dmaCtrlStart c) s = .next t ∧ (t.dma c).st = 1 ∧ (t.dma c).task = false ∧ t.reg64 (dmaBase c + 0x20) = s.reg64 (dmaBase c) ∧
      t.getB (dmaBase c + 0x10) 4 = true ∧ t.bur.waits = s.bur.waits ++ [⟨4, c, true, 0, (s.reg (dmaBase c + 0xC)).toNat, s.cycle⟩]) ∧
  (∀ (c : Nat) (s : State), c < 8 → s.host.d3hot = false → (s.dma c).st ≠ 0 →
    ∃ t, exec (.dmaCtrlAbort c) s = .next t ∧ (t.dma c).st = 0 ∧ t.getF (dmaBase c + 0x10) 3 0 = 2) ∧
  (∀ (c : Nat) (s : State), c < 8 → (s.dma c).st = 3 → ∃ t, exec (.dmaHostCompletionError c) s = .next t ∧ (t.dma c).st = 0 ∧
    t.getF (dmaBase c + 0x10) 3 0 = if (s.dma c).toHost then 6 else 5) ∧
  (∀ (c : Nat) (s : State), c < 8 → (s.dma c).st = 3 → (s.dma c).toHost = false →
    (s.dma c).moved + (s.dma c).inbound.length < (s.dma c).len →
    ∃ t, exec (.pcieCompletionTimeout c) s = .next t ∧ (t.dma c).st = 0 ∧ t.getF (dmaBase c + 0x10) 3 0 = 5 ∧
      t.cycle = max s.cycle ((s.dma c).askedAt + completionTimeout))

/-- R396, R397: what the HOST port lets through of a BAR2 access (`portEach` of port 2, with its tokens and what its accesses mark) reads field memory,
or writes the enabled bytes into it and no other, at `WIN_BASE` plus the offset. -/
def Obligations.WindowAccessesFieldMemory : Prop :=
  ∀ (off len : Nat) (data : List (Option Byte)) (s u : State), s.host.d3hot = false → s.fieldVisible = true → s.prune.stage < 3 → s.ctl.mode ≠ 4 →
    (len ≤ 4096 → off + len ≤ 2 ^ 36 → s.portRun 2 false (s.reg64 (hlkBase + 0x48) + off) len = some u →
      ∃ t, exec (.bar2Access off false [] len) s = .next t ∧ t.host.bar2 = u.readBytes (s.reg64 (hlkBase + 0x48) + off) len ∧ t.mem = s.mem) ∧
    (s.Canonical → data.length ≤ 4096 → off + data.length ≤ 2 ^ 36 →
      s.portEach 2 true (bar2Accesses (s.reg64 (hlkBase + 0x48) + off) data) = some u →
      (∀ i, i < data.length → u.answers (s.reg64 (hlkBase + 0x48) + off + i) = true) →
      ∃ t, exec (.bar2Access off true data 0) s = .next t ∧
        (∀ i b, data[i]? = some (some b) → t.byte (s.reg64 (hlkBase + 0x48) + off + i) = b) ∧
        ∀ a, (∀ i b, data[i]? = some (some b) → a ≠ s.reg64 (hlkBase + 0x48) + off + i) → t.byte a = s.byte a)

/-- R399, R400, R401: a good descriptor that has been read is served; host bytes arrive; DATA messages of 1 to 256 bytes move them in the channel's turn,
to the field address or to host memory, with a credit of the Satchel; and once LEN bytes have moved, DONE is counted and the chain ends DONE after LAST,
or reads NEXT. The field side's accesses are those of the HOST port (`portRun` of port 2). -/
def Obligations.DmaChainsMoveBytes : Prop :=
  (∀ (c : Nat) (s u : State), c < 8 → (s.dma c).st = 2 → s.satReady true 3 1 = true → s.satReady false 3 1 = true →
    s.portRun 2 false (s.reg64 (dmaBase c + 0x20)) 32 = some u →
    u.readOk (s.reg64 (dmaBase c + 0x20)) 32 = true →
    bit ((u.words (s.reg64 (dmaBase c + 0x20)) 8).getD 5 0) 31 = true →
    bit ((u.words (s.reg64 (dmaBase c + 0x20)) 8).getD 5 0) 1 = true ∨ ((u.words (s.reg64 (dmaBase c + 0x20)) 8).getD 6 0).toNat % 32 = 0 →
    ∃ t, exec (.dmaDescriptorReadDone c) s = .next t ∧ (t.dma c).st = 3 ∧ (t.dma c).words = u.words (s.reg64 (dmaBase c + 0x20)) 8 ∧
      (t.dma c).moved = 0 ∧ (t.dma c).inbound = []) ∧
  (∀ (c : Nat) (bytes : List Byte) (s : State), c < 8 → (s.dma c).st = 3 → (s.dma c).toHost = false →
    (s.dma c).moved + (s.dma c).inbound.length + bytes.length ≤ (s.dma c).len →
    ∃ t, exec (.hostReadCompletion c bytes) s = .next t ∧ (t.dma c).inbound = (s.dma c).inbound ++ bytes) ∧
  (∀ (c n : Nat) (s u : State), c < 8 → (s.dma c).st = 3 → 1 ≤ n → n ≤ 256 → s.dmaTurn c n = true → s.satReady true 3 1 = true →
    (s.dma c).toHost = false → n ≤ (s.dma c).inbound.length → s.portRun 2 true ((s.dma c).fieldAddr + (s.dma c).moved) n = some u →
    ∃ t, exec (.satchelDmaData c n) s = .next t ∧ (t.dma c).moved = (s.dma c).moved + n ∧ (t.dma c).inbound = (s.dma c).inbound.drop n ∧
      t.mem = (u.writeBytes ((s.dma c).fieldAddr + (s.dma c).moved) ((s.dma c).inbound.take n)).mem) ∧
  (∀ (c n : Nat) (s u : State), c < 8 → (s.dma c).st = 3 → 1 ≤ n → n ≤ 256 → s.dmaTurn c n = true → s.satReady false 3 1 = true →
    (s.dma c).toHost = true → (s.dma c).moved + n ≤ (s.dma c).len → s.portRun 2 false ((s.dma c).fieldAddr + (s.dma c).moved) n = some u →
    ((List.range n).any fun i => u.mapped ((s.dma c).fieldAddr + (s.dma c).moved + i) &&
      !(u.readOk ((s.dma c).fieldAddr + (s.dma c).moved + i) 1)) = false →
    ∃ t, exec (.satchelDmaData c n) s = .next t ∧ (t.dma c).moved = (s.dma c).moved + n ∧
      t.host.out = s.host.out ++ [((s.dma c).hostAddr + (s.dma c).moved, u.readBytes ((s.dma c).fieldAddr + (s.dma c).moved) n)]) ∧
  (∀ (c : Nat) (s u : State), c < 8 → (s.dma c).st = 3 → (s.dma c).moved = (s.dma c).len → s.satReady true 3 1 = true →
    s.portRun 2 true (s.reg64 (dmaBase c + 0x20) + 20) 4 = some u →
    ∃ t, exec (.dmaDescriptorComplete c) s = .next t ∧ t.reg (dmaBase c + 0x14) = wd ((s.reg (dmaBase c + 0x14)).toNat + 1) ∧
      (bit ((s.dma c).w 5) 1 = true → (t.dma c).st = 0 ∧ t.getF (dmaBase c + 0x10) 3 0 = 1) ∧
      (bit ((s.dma c).w 5) 1 = false → (t.dma c).st = 2 ∧ t.reg64 (dmaBase c + 0x20) = (s.dma c).next))

/-- R410: a flash operation that is permitted runs with its address and length, `FL_STAT` reading BUSY. R410: the end of a flash operation writes its
result and clears BUSY. A PROGRAM that verifies has stored its bytes (those that differ from an erased byte, 0xFF by log 21, are listed); after an
ERASE every byte of the 64 KiB sector reads as erased. -/
def Obligations.FlashOperationsRun : Prop :=
  (∀ (len : Nat) (s : State), s.host.d3hot = false → s.host.op = none → s.getB (hlkBase + 8) 0 = true → 1 ≤ len → len ≤ 256 →
    (∃ t, exec (.flashRead len) s = .next t ∧ t.host.op.map (fun o => (o.op, o.addr, o.len)) = some (0, s.getF (hlkBase + 0x58) 25 0, len) ∧
      t.getB (hlkBase + 0x60) 4 = true) ∧
    (s.startAllowed .flash (hlkBase + 0x5C) = true → s.flashProtected (s.getF (hlkBase + 0x58) 25 0) = false →
      (s.getF (hlkBase + 0x58) 25 0 % 256 + len ≤ 256 → ∃ t, exec (.flashProgram len) s = .next t ∧
        t.host.op.map (fun o => (o.op, o.addr, o.len)) = some (1, s.getF (hlkBase + 0x58) 25 0, len) ∧ t.getB (hlkBase + 0x60) 4 = true) ∧
      ∃ t, exec (.flashErase len) s = .next t ∧
        t.host.op.map (fun o => (o.op, o.addr, o.len)) = some (2, s.getF (hlkBase + 0x58) 25 0, len) ∧ t.getB (hlkBase + 0x60) 4 = true)) ∧
  (∀ (good : Bool) (o : FlashOp) (s : State), s.host.op = some o → ∃ t, exec (.flashOpEnd good) s = .next t ∧ t.host.op = none ∧
    t.reg (hlkBase + 0x60) = (if o.op = 1 ∧ good = false then 5 else 1) ∧
    (o.op = 1 → good = true → ∀ i b, o.data[i]? = some b → b ≠ 0xFF → Tab.get flashDefault t.host.flash (o.addr + i) = b) ∧
    (2 ≤ o.op → ∀ i, i < 65536 → Tab.get flashDefault t.host.flash (o.addr / 65536 * 65536 + i) = 0xFF))

/-! ### The Corridor, the Bursar and the Timetable (15_corridor.md, 13_bursar.md, 12_timetable.md) -/

/-- R302, R303, R305, R306: the pulse that is due next goes to every input that selects it; one registered at an input is delivered and counted, or
refused and counted while the input is gated, and the first one above `STORM_LIMIT` of a window gates the input, also where it ties with a write of the
selector (R307: `selAt` keeps the count that the write ends and the cycle in which it takes effect); a window's end restarts every count.
The deliveries stated are those of the inputs whose consumer takes every pulse. R307, R308, R309, R311: a selector write takes its source, ungated; a
mode word without a reserved field takes; a ball's synchronised level follows it, and a matching edge is an occurrence, or in RECESS starts exit on
the wake input's source and else is counted; a PULSE ball goes low at its end. -/
def Obligations.CorridorCarriesPulses : Prop :=
  (∀ (p : Pulse) (s : State), s.ctl.clocks = true → nextPulse s.cor.pulses = some p →
    ∃ t, exec .corridorPulseArrive s = .next t ∧ t.cycle = max s.cycle p.due ∧ t.cor.pulses = (s.passTo p.due).cor.pulses.erase p ∧
      t.cor.routed = s.cor.routed ++
        ((s.inputsOf p.g).filter fun i => !(p.woke && decide (i = 184))).map fun i => (i, p.g, t.cycle + hopTwo i)) ∧
  (∀ (i g due : Nat) (s : State), i < 216 → g < 4096 → s.ctl.clocks = true → s.cor.routed.find? (fun p => p.1 = i) = some (i, g, due) →
    (s.getB (selAddr i) 31 = true → s.getF (selAddr i) 27 16 = g →
      ∃ t, exec (.consumerPulse i) s = .next t ∧ t.reg64 (corBase + 0x70) = (s.reg64 (corBase + 0x70) + 1) % 2 ^ 64) ∧
    (s.getB (selAddr i) 31 = false → s.getF (corBase + 0x40) 15 0 ≠ 0 →
      s.getF (corBase + 0x40) 15 0 ≤ s.windowCount i ∨ ((Tab.get (fun _ => (0, 0)) s.cor.selAt i).1 = due ∧
        s.getF (corBase + 0x40) 15 0 ≤ (Tab.get (fun _ => (0, 0)) s.cor.selAt i).2) →
      ∃ t, exec (.consumerPulse i) s = .next t ∧ t.getB (selAddr i) 31 = true ∧ t.getF (selAddr i) 27 16 = g ∧
        t.reg64 (corBase + 0x70) = (s.reg64 (corBase + 0x70) + 1) % 2 ^ 64 ∧ t.getB (corBase + 0x14) 16 = true) ∧
    (s.getB (selAddr i) 31 = false → s.getF (corBase + 0x40) 15 0 = 0 ∨ (s.windowCount i < s.getF (corBase + 0x40) 15 0 ∧
        ((Tab.get (fun _ => (0, 0)) s.cor.selAt i).1 = due →
          (Tab.get (fun _ => (0, 0)) s.cor.selAt i).2 < s.getF (corBase + 0x40) 15 0)) →
      128 ≤ i → i ≤ 184 →
      ∃ t, exec (.consumerPulse i) s = .next t ∧ t.reg64 (corBase + 0x68) = (s.reg64 (corBase + 0x68) + 1) % 2 ^ 64 ∧
        t.windowCount i = s.windowCount i + 1)) ∧
  (∀ s : State, s.ctl.clocks = true → ∃ t, exec .stormWindowBoundary s = .next t ∧ t.cor.window = [] ∧ t.cycle = s.nextGrid 0 800) ∧
  (∀ (i : Nat) (v : Word) (s : State), consumerReal i = true → s.Reaches 0 (selAddr i) →
    ∃ t, exec (.selectorWrite i v) s = .next t ∧ t.reg (selAddr i) = wd (fld v 11 0) ∧ t.windowCount i = 0 ∧ RegsSame s t (· == selAddr i)) ∧
  (∀ (v : Word) (s : State), s.Reaches 0 (corBase + 0x54) →
    (((List.range 16).any fun k => decide (fld v (2 * k + 1) (2 * k) = 3)) = true → exec (.gpeOutModeWrite v) s = .next s) ∧
    (((List.range 16).any fun k => decide (fld v (2 * k + 1) (2 * k) = 3)) = false →
      ∃ t, exec (.gpeOutModeWrite v) s = .next t ∧ t.reg (corBase + 0x54) = v ∧
        RegsSame s t (fun a => a == corBase + 0x54 || a == corBase + 0x60))) ∧
  (∀ (k : Nat) (rising : Bool) (s : State), k < 16 → s.ctl.mode ≠ 4 → s.ctl.clocks = true → s.prune.stage < 4 →
    ∃ t, exec (.gpeInEdge k rising) s = .next t ∧ t.getB (corBase + 0x4C) k = rising ∧
      (s.gpeMatch k rising = true → t.getB (corBase + 0x14) k = true)) ∧
  (∀ (k : Nat) (rising : Bool) (s : State), k < 16 → s.ctl.mode = 4 → s.ctl.wakeHeld = false → s.gpeMatch k rising = true →
    (s.inputSource 184 = evNo 47 k → s.getB (glbBase + 0x64) 21 = true → s.ctl.recess = .resting → s.prune.stage < 2 →
      ∃ t, exec (.gpeInRecessEdge k rising) s = .next t ∧ t.ctl.recess = .locking ∧ t.cor.gpeWake = s.cor.gpeWake ++ [k]) ∧
    (s.inputSource 184 ≠ evNo 47 k → ∃ t, exec (.gpeInRecessEdge k rising) s = .next t ∧
      t.reg (corBase + 0x64) = satAdd 32 (s.reg (corBase + 0x64)) 1 ∧ t.ctl = s.ctl)) ∧
  (∀ (k : Nat) (s : State), k < 16 → s.ctl.clocks = true → Tab.get (fun _ => 0) s.cor.gpeDue k ≠ 0 →
    ∃ t, exec (.gpeOutPulseEnd k) s = .next t ∧ t.getB (corBase + 0x60) k = false ∧
      t.cycle = max s.cycle (Tab.get (fun _ => 0) s.cor.gpeDue k))

/-- R264, R265, R275, R276, R455: an interval's end adds its AVAIL_W to a pool below `POOL_MAX` and finds the next interval's values; a thermal step moves
THERM_W towards its target by RAMP at most; a sensor sample's readings and telemetry show. R252, R269, R270: the one waiting direct start that is
ready, eligible and fits is admitted and charged in full, and counted; the one candidate task, a NOP with ENERGY 0, is dispatched without the Bursar,
and counted: its counters fall by their thresholds, and it has ended DONE. -/
def Obligations.BursarAccruesAndAdmits : Prop :=
  (∀ s : State, s.ctl.clocks = true → ∃ t, exec .bursarInterval s = .next t ∧ t.cycle = s.nextGrid 1 800 ∧
    t.bur.pool = s.bur.pool + (if s.bur.pool < s.poolMax then (s.bur.availW : Int) else 0) ∧
    t.bur.effW = (if 1 ≤ s.prune.stage then min (s.getF (burBase + 0x40) 7 0) s.bur.thermW / 2 else min (s.getF (burBase + 0x40) 7 0) s.bur.thermW) ∧
    t.bur.fixedW = (if s.getB (timBase + 0x40) 0 then 55 else 61) ∧ t.bur.availW = t.bur.effW - t.bur.fixedW) ∧
  (∀ (s : State) (target : Nat), s.ctl.clocks = true →
    (s.hottest = none ∧ target = 240) ∨ (∃ n, s.hottest = some n ∧
      ((s.sensorVal n ≤ s.softW ∧ target = 240) ∨
       (s.softW < s.sensorVal n ∧ target = 240 - s.getF (bur1Base + 0x48) 7 0 * (((s.sensorVal n - s.softW).toNat + 7) / 8)))) →
    ∃ t, exec .thermalTargetStep s = .next t ∧ t.cycle = s.nextGrid 2 800000 ∧
      t.bur.thermW = if s.bur.thermW < target then min target (s.bur.thermW + s.getF (bur1Base + 0x48) 15 8)
        else max target (s.bur.thermW - s.getF (bur1Base + 0x48) 15 8)) ∧
  (∀ (pre : List (Nat × Nat)) (n v mv ma p : Nat) (s : State), s.ctl.clocks = true → n < 56 ∨ (60 ≤ n ∧ n < 64) →
    ∃ t, exec (.sensorSample (pre ++ [(n, v)]) mv ma p) s = .next t ∧ t.reg (sensorAddr n) = wd (2 ^ 31 + v % 4096) ∧
      t.reg (pwrBase + 0x5C) = wd (mv % 65536) ∧ t.reg (pwrBase + 0x60) = wd (ma % 65536) ∧ t.reg (pwrBase + 0x64) = wd (p % 65536)) ∧
  (∀ (w : Wait) (s : State), s.ctl.clocks = true → (∀ k, (s.task k).st ≠ 2) → s.bur.waits = [w] → w.direct = true → w.auto = false →
    s.ctl.fineRelock = false → ¬(w.cls = 1 ∧ (1 ≤ s.prune.stage ∨ s.bur.hard = true)) →
    ((min w.energy s.poolMax : Nat) : Int) ≤ s.bur.pool → w.energy = 0 ∨ s.bur.availW ≠ 0 →
    ∃ t, exec .bursarAdmit s = .next t ∧ t.bur.declared = s.bur.declared + w.energy ∧ t.bur.waits = [] ∧
      t.reg (burBase + 0x80) = wd ((s.reg (burBase + 0x80)).toNat + 1)) ∧
  (∀ (i : Nat) (s : State), s.ctl.clocks = true → (∀ k, k ≠ i → (s.task k).st ≠ 2) → s.bur.waits = [] → (s.task i).st = 2 →
    (s.task i).exec = 0 → (s.task i).energy = 0 → (s.task i).since ≤ s.cycle → s.ctl.recess ≠ .entering → s.getB (ttbBase + 8) 0 = true →
    5 ≤ s.ctl.mode → s.ctl.mode ≤ 12 →
    ∃ t, exec .taskDispatch s = .next t ∧ (t.task i).st = 3 ∧ t.reg64 (ttbBase + 0x88) = (s.reg64 (ttbBase + 0x88) + 1) % 2 ^ 64 ∧ (t.task i).ended = some (1, false) ∧
      (t.task i).cnt = (List.range 4).map fun n =>
        if (s.task i).kind n = 0 then (s.task i).counter n else (s.task i).counter n - (s.task i).thresh n)

/-- R243, R244, R246, R255, R256, R421: the commands of `TASK_CMD` and the image writes act on the slot in `TASK_SEL` in the states that take them (R9:
the reserved bits 17:16 of word 0 read 0); an image write in another state fails and is counted. -/
def Obligations.TaskCommands : Prop :=
  ∀ (i : Nat) (s : State), i = s.getF (ttbBase + 0x40) 11 0 → s.Reaches 0 (ttbBase + 0x70) →
    (∀ (w : Nat) (v : Word), w < 8 → s.Reaches 0 (ttbBase + 0x44 + 4 * w) →
      ((s.task i).st = 0 → ∃ t, exec (.taskImageWrite w v) s = .next t ∧ (t.task i).img = (s.task i).img.set w (imageWord w v) ∧ (t.task i).st = 0) ∧
      ((s.task i).st ≠ 0 → ∃ t, exec (.taskImageWrite w v) s = .next t ∧ t.task i = s.task i ∧
        t.reg (ttbBase + 0x74) = satAdd 32 (s.reg (ttbBase + 0x74)) 1)) ∧
    ((s.task i).st = 0 → (s.task i).imageOk = true →
      ∃ t, exec .taskArm s = .next t ∧ (t.task i).st = (if (s.task i).satisfied then 2 else 1) ∧ (t.task i).runsLeft = (s.task i).runs) ∧
    ((s.task i).st = 1 ∨ (s.task i).st = 2 → ∃ t, exec .taskDisarm s = .next t ∧ (t.task i).st = 0) ∧
    (3 ≤ (s.task i).st → ∃ t, exec .taskDisarm s = .next t ∧ (t.task i).st = (s.task i).st ∧ (t.task i).toIdle = true) ∧
    (∀ n k, n < 4 → 1 ≤ k → k < 65536 → (s.task i).kind n ≠ 0 → (s.task i).counter n + k ≤ 65535 →
      ∃ t, exec (.taskAdd n k) s = .next t ∧ (t.task i).cnt = (s.task i).cnt.set n ((s.task i).counter n + k)) ∧
    ((s.task i).st = 2 → ∃ t, exec .taskAbort s = .next t ∧ (t.task i).st = 0 ∧ (t.task i).outcome = 3) ∧
    ((s.task i).st = 0 → ∃ t, exec .taskClear s = .next t ∧ (t.task i).cnt = [0, 0, 0, 0] ∧
      t.reg64 (ttbBase + 0x90) = (s.reg64 (ttbBase + 0x90) + (s.task i).cnt.sum) % 2 ^ 64)

/-- R244, R247, R257, R258: a push takes a credit and queues the nine staging words, or is refused and counted without one; a SUBMIT at the head of the
one queue with an entry writes and arms an IDLE slot; a new cycle of the matching store serves the one port with a pending pulse, or the one queue with
an entry, whose credit returns. -/
def Obligations.QueuesAndArrivals : Prop :=
  (∀ (q : Nat) (s : State), q < 8 → s.Reaches 0 (sqBase q + 0x24) →
    (s.reg (sqBase q + 0x28) = 0 → ∃ t, exec (.sqPush q) s = .next t ∧ t.queue q = s.queue q ∧
      t.reg (sqBase q + 0x2C) = satAdd 32 (s.reg (sqBase q + 0x2C)) 1) ∧
    (s.reg (sqBase q + 0x28) ≠ 0 → ∃ t, exec (.sqPush q) s = .next t ∧
      t.queue q = s.queue q ++ [(List.range 9).map fun w => s.reg (sqBase q + 4 * w)] ∧
      t.reg (sqBase q + 0x28) = wd ((s.reg (sqBase q + 0x28)).toNat - 1))) ∧
  (∀ (q i : Nat) (e img : List Word) (l : List (List Word)) (s : State), s.ctl.clocks = true → q < 8 → s.queue q = e :: l →
    (∀ q', q' ≠ q → s.queue q' = []) → fld (e.getD 0 0) 31 28 = 1 →
    i = fld (e.getD 0 0) 11 0 → img = (e.drop 1).mapIdx imageWord → (s.task i).st = 0 → Task.imageOk { s.task i with img := img } = true →
    ∃ t, exec (.taskSubmit q) s = .next t ∧ (t.task i).img = img ∧
      (t.task i).st = (if Task.satisfied { s.task i with img := img } then 2 else 1) ∧ t.queue q = l) ∧
  (∀ (p : Nat) (s : State), s.ctl.clocks = true → s.ttb.matchAt ≠ s.cycle → p < 128 → (∀ i, (s.task i).st ≠ 4) → (∀ q, s.queue q = []) →
    s.reg (ttbBase + 0x200 + 4 * p) ≠ 0 → (∀ p', p' < 128 → p' ≠ p → s.reg (ttbBase + 0x200 + 4 * p') = 0) →
    (s.portTargets p).find? s.saturates = none →
    ∃ t, exec .arrivalApply s = .next t ∧ t.reg (ttbBase + 0x200 + 4 * p) = wd ((s.reg (ttbBase + 0x200 + 4 * p)).toNat - 1) ∧
      t.ttb.lastPort = p) ∧
  (∀ (q : Nat) (e : List Word) (l : List (List Word)) (s : State), s.ctl.clocks = true → s.ttb.matchAt ≠ s.cycle → q < 8 →
    (∀ i, (s.task i).st ≠ 4) →
    (∀ p, p < 128 → s.reg (ttbBase + 0x200 + 4 * p) = 0) → s.queue q = e :: l → (∀ q', q' ≠ q → s.queue q' = []) →
    fld (e.getD 0 0) 31 28 ∈ [1, 2, 3, 6] →
    ∃ t, exec .arrivalApply s = .next t ∧ t.queue q = l ∧ t.reg (sqBase q + 0x28) = wd ((s.reg (sqBase q + 0x28)).toNat + 1) ∧
      t.reg (sqBase q + 0x30) = wd ((s.reg (sqBase q + 0x30)).toNat + 1) ∧ t.ttb.lastQueue = q)

/-- R250, R254: the completion of a task whose executor has ended records its outcome and NOOP and, with no counter in the way, leaves HOLD for WAIT or
READY, or for IDLE; a READY task's priority rises by one step each millisecond. R259, R260, R261: an INSERT of a time still to come takes its place in
the list, and so does a late one with LATE_OK, while one without is counted and dropped; CANCEL takes out every entry with the tag, CANCEL_ALL all, and each gives their number; a tick finds how many entries at the head of a
counting list are due; a due pulse entry fires. -/
def Obligations.TasksCompleteAndListsFire : Prop :=
  (∀ (i m o : Nat) (noop : Bool) (s : State), (s.task i).st = 3 → (s.task i).ended = some (o, noop) →
    ∃ t, exec (.taskComplete i m) s = .next t ∧ (t.task i).outcome = o ∧ (t.task i).noop = noop ∧ (t.task i).ended = none ∧
      (s.ctl.clocks = true → (∀ k, k ≠ i → (s.task k).st ≠ 4) → s.completionTargets i o = [] → (t.task i).st =
        if (s.task i).toIdle = true ∨ ((s.task i).runs ≠ 0 ∧ (s.task i).runsLeft = 0) then 0 else if (s.task i).satisfied then 2 else 1)) ∧
  (∀ (i : Nat) (s : State), (s.task i).st = 2 → ∃ t, exec (.taskAgeStep i) s = .next t ∧ (t.task i).aged = (s.task i).aged + 1 ∧
    t.cycle = max s.cycle (s.boundary s.tickCycles ((s.task i).since / 8 * 8 + 800000 * ((s.task i).aged + 1)))) ∧
  (∀ (b : Nat) (s : State), b < 4 → s.Reaches 0 (dlBase b + 0x58) → (s.dlist b).length < 1024 → (s.tbSrc b).counting = true →
    fld (s.reg (dlBase b + 0x50)) 31 30 = 1 ∨ fld (s.reg (dlBase b + 0x50)) 31 30 = 2 →
    (s.tbNow b + s.tickUnits < s.time4 (dlBase b + 0x40) →
      ∃ t, exec (.dlInsert b) s = .next t ∧ t.getF (dlBase b + 0x5C) 31 28 = 1 ∧
        t.dlist b = dlPlace ⟨s.time4 (dlBase b + 0x40), s.reg (dlBase b + 0x50), s.getF (dlBase b + 0x54) 15 0, false, false⟩ (s.dlist b)) ∧
    (s.time4 (dlBase b + 0x40) ≤ s.tbNow b + s.tickUnits → s.getB (dlBase b + 0x50) 29 = true →
      ∃ t, exec (.dlInsert b) s = .next t ∧ t.getF (dlBase b + 0x5C) 31 28 = 3 ∧
        t.dlist b = dlPlace ⟨s.time4 (dlBase b + 0x40), s.reg (dlBase b + 0x50), s.getF (dlBase b + 0x54) 15 0, true, true⟩ (s.dlist b)) ∧
    (s.time4 (dlBase b + 0x40) ≤ s.tbNow b + s.tickUnits → s.getB (dlBase b + 0x50) 29 = false →
      ∃ t, exec (.dlInsert b) s = .next t ∧ t.getF (dlBase b + 0x5C) 31 28 = 2 ∧ t.dlist b = s.dlist b ∧
        t.reg (dlBase b + 0x64) = satAdd 32 (s.reg (dlBase b + 0x64)) 1)) ∧
  (∀ (b : Nat) (s : State), b < 4 → s.Reaches 0 (dlBase b + 0x58) →
    (∃ t, exec (.dlCancel b) s = .next t ∧ t.dlist b = (s.dlist b).filter (fun e => e.tag ≠ s.getF (dlBase b + 0x54) 15 0) ∧
      t.reg (dlBase b + 0x60) = wd ((s.dlist b).length - (t.dlist b).length)) ∧
    ∃ t, exec (.dlCancelAll b) s = .next t ∧ t.dlist b = [] ∧ t.reg (dlBase b + 0x60) = wd (s.dlist b).length) ∧
  (∀ (b : Nat) (s : State), b < 4 → s.awake = true → (s.tbSrc b).counting = true →
    ∃ t, exec .timetableTick s = .next t ∧ t.cycle = s.nextGrid 4 8 ∧ Tab.get (fun _ => 0) t.ttb.due b = t.dueCount b) ∧
  (∀ (b : Nat) (e : DlEntry) (l : List DlEntry) (s : State), b < 4 → s.awake = true → Tab.get (fun _ => 0) s.ttb.due b ≠ 0 →
    s.dlist b = e :: l → fld e.action 31 30 = 2 →
    ∃ t, exec (.delayEntryFire b) s = .next t ∧ t.dlist b = l ∧
      Tab.get (fun _ => 0) t.ttb.due b = Tab.get (fun _ => 0) s.ttb.due b - 1 ∧ t.getB (ttbBase + 0x14) (8 + b) = true)

/-! ### Supplies, pruning, modes and resets (21_pruning_conservation.md, 02_modes.md) -/

/-- R413, R414, R415: an input below the entry level of stage `k` for a fourth tick, and not below that of a deeper stage, brings stage `k`; the climb
timer brings the next shallower stage; a larger FORCE brings its stage, a value of 5 to 7 nothing; a tick shows the input, up to 65,535 mV, and the
rails in range. R34, R416, R418, R420, R427: the restart of the fast clocks ends 40 µs after its start; the hold of the field side ends 1 ms above
9.05 V, outside DETENTION; a boot completes in READY, or in SHED at a pruning stage, with its duration shown; `RS_POP` removes the oldest record. -/
def Obligations.SuppliesPruneAndRecover : Prop :=
  (∀ (mv rails k : Nat) (s : State), s.ctl.supplies = true → 1 ≤ k → k ≤ 4 → mv < stageEntry k → (k < 4 → stageEntry (k + 1) ≤ mv) → 9000 ≤ mv →
    s.prune.below.length = 5 → s.prune.below.getD (k - 1) 0 = 3 → s.stageDue ≤ k → s.prune.stage < k →
    ∃ t, exec (.alwaysOnTick mv rails) s = .next t ∧ t.prune.stage = k ∧ t.prune.judged = k) ∧
  (∀ (mv rails : Nat) (s : State), s.ctl.supplies = true → 11400 ≤ mv → s.stageDue ≤ s.prune.stage →
    ∃ t, exec (.alwaysOnTick mv rails) s = .next t ∧ t.prune.stage = s.prune.stage ∧ t.cycle = s.nextGrid 5 80 ∧
      t.getF (pwrBase + 0x40) 31 16 = min mv 65535 ∧ t.reg (pwrBase + 0x58) = wd (rails % 32)) ∧
  (∀ s : State, s.prune.climbing = true → 0 < s.prune.stage →
    ∃ t, exec .pruneClimbTimer s = .next t ∧ t.prune.stage = s.prune.stage - 1) ∧
  (∀ (v : Word) (s : State), s.Reaches 0 (pwrBase + 0x44) →
    (5 ≤ fld v 2 0 → exec (.pruneForceWrite v) s = .next s) ∧
    (s.prune.stage < fld v 2 0 → fld v 2 0 ≤ 4 → ∃ t, exec (.pruneForceWrite v) s = .next t ∧ t.prune.stage = fld v 2 0)) ∧
  (∀ (c : Nat) (s : State), s.ctl.restart = some c → ∃ t, exec .clockRestartDone s = .next t ∧ t.ctl.restart = none ∧
    t.ctl.fineRelock = false ∧ t.ctl.clocks = true ∧ t.cycle = max s.cycle (c + 32000)) ∧
  (∀ (c : Nat) (s : State), s.prune.aboveFrom = some c → s.ctl.pruneHold = true → s.ctl.pgField = true → s.ctl.rnField = true →
    s.detained = false →
    ∃ t, exec .fieldHoldRelease s = .next t ∧ t.ctl.pruneHold = false ∧ t.cycle = max s.cycle (c + 800000) ∧
      (s.ctl.booted = true → s.ctl.supplies = true → s.ctl.mode ≤ 3 → s.ctl.clocks = false → t.ctl.mode = 2)) ∧
  (∀ (ms : Nat) (meas : List (Nat × List Byte)) (s : State), s.ctl.mode = 2 → s.ctl.fmi = true → (∀ c, c < 10 → s.celState c ≠ 1) →
    ∃ t, exec (.bootComplete ms meas) s = .next t ∧ t.ctl.mode = (if 1 ≤ s.prune.stage then 12 else 5) ∧ t.reg (glbBase + 0x74) = wd ms) ∧
  (∀ (v : Word) (s : State), s.Reaches 0 (pwrBase + 0x88) → bit v 0 = true →
    ∃ t, exec (.rsPop v) s = .next t ∧ t.prune.queue = s.prune.queue.drop 1 ∧ SameBut [.prune] s t)

/-- R30, R31, R32, R26: from a mode of 0x5 to 0xB a request for another of them, AUTONOMOUS only if `AUTO_EN`, is pending until quiescence; while one is
pending another is refused and counted. With no operation that its target forbids, the mode is the target's 4 fabric cycles later. -/
def Obligations.ModeRequestsPendAndComplete : Prop :=
  ∀ s : State,
    (∀ target, s.Reaches 0 (glbBase + 0x44) → s.ctl.hostMode = none → s.ctl.pend = none → 5 ≤ s.ctl.mode → s.ctl.mode ≤ 11 → 5 ≤ target →
      target ≤ 11 → target ≠ s.ctl.mode → (target = 10 → s.getB (glbBase + 0x68) 0 = true) →
      (∃ t, exec (.modeReq target) s = .next t ∧ t.ctl.pend = some ⟨target, false, true⟩ ∧ t.ctl.mode = s.ctl.mode) ∧
      ∃ t, exec (.modeReqAbort target) s = .next t ∧ t.ctl.pend = some ⟨target, true, true⟩ ∧ t.ctl.mode = s.ctl.mode) ∧
    (∀ target r, s.Reaches 0 (glbBase + 0x44) → s.ctl.hostMode = none → s.ctl.pend = some r →
      ∃ t, exec (.modeReq target) s = .next t ∧ t.ctl.pend = some r ∧ t.reg (glbBase + 0x50) = satAdd 32 (s.reg (glbBase + 0x50)) 1) ∧
    (∀ r, s.ctl.pend = some r → s.ctl.recess = .none → s.forbidden r.target = false → r.target ≠ 4 →
      ∃ t, exec .modeQuiescence s = .next t ∧ t.ctl.mode = r.target ∧ t.ctl.prior = 0 ∧ t.ctl.pend = none ∧ t.cycle = s.cycle + 4) ∧
    (∀ r, s.ctl.pend = some r → s.ctl.recess = .none → s.forbidden r.target = false → r.target = 4 → s.wakeDue (s.cycle + 8000) = false →
      ∃ t, exec .modeQuiescence s = .next t ∧ t.ctl.recess = .entering ∧ t.ctl.recessAt = s.cycle)

/-- R40, R41, R42: Recess begins 10 µs after quiescence, with the fast clocks stopped; an entry that comes due starts exit; 25 µs later the fast clocks
run and the fine re-lock begins; 15 µs later the mode is `PRIOR`, or SHED at a pruning stage. -/
def Obligations.RecessEntersAndExits : Prop :=
  (∀ s : State, s.ctl.recess = .entering → s.ctl.wakeHeld = false → ∃ t, exec .recessEntryDone s = .next t ∧ t.ctl.mode = 4 ∧
    t.ctl.prior = s.ctl.mode ∧ t.ctl.recess = .resting ∧ t.ctl.clocks = false ∧ t.ctl.pend = none ∧ t.cycle = max s.cycle (s.ctl.recessAt + 8000)) ∧
  (∀ (tb : Nat) (e : DlEntry) (s : State), tb < 4 → s.ctl.recess = .resting → s.getB (glbBase + 0x64) (16 + tb) = true →
    (s.tbSrc tb).counting = true → s.nextEntry tb = some e → s.prune.stage < 2 →
    ∃ t, exec (.recessWakeDue tb) s = .next t ∧ t.ctl.recess = .locking ∧ t.ctl.recessAt = t.cycle) ∧
  (∀ s : State, s.ctl.recess = .locking → ∃ t, exec .recessPllLocked s = .next t ∧ t.ctl.recess = .fine ∧ t.ctl.clocks = true ∧
    t.ctl.fineRelock = true ∧ t.cycle = max s.cycle (s.ctl.recessAt + 20000)) ∧
  (∀ s : State, s.ctl.recess = .fine → s.ctl.held = [] → ∃ t, exec .recessExitDone s = .next t ∧ t.ctl.recess = .none ∧
    t.ctl.fineRelock = false ∧ t.ctl.mode = (if 1 ≤ s.prune.stage then 12 else s.priorMode false) ∧
    t.cycle = max s.cycle (s.ctl.recessAt + 12000))

/-- R43, R46: a host access that RECESS does not let through is held and wakes the part with `ACCESS_WAKE`, and is refused and counted without; a write of
`AUTO_CFG` sends the field side its copy; a field side that loses the host side drops its messages to it, and requests READY or, with `AUTO_EN`,
AUTONOMOUS for itself unless it is there. -/
def Obligations.HeldAccessesAndLostHosts : Prop :=
  (∀ (req addr : Nat) (write : Bool) (v : Word) (s : State), s.gate addr = .recess → (req = 0 → s.host.d3hot = false) →
    (s.getB (glbBase + 0x64) 20 = true → s.ctl.recess = .resting → s.prune.stage < 2 →
      ∃ t, exec (.hostAccessInRecess req addr write v) s = .next t ∧ t.ctl.held = s.ctl.held ++ [HeldAccess.mk req addr write v false [] 0] ∧
        t.ctl.recess = .locking) ∧
    (s.getB (glbBase + 0x64) 20 = false → ∃ t, exec (.hostAccessInRecess req addr write v) s = .next t ∧ t.ctl = s.ctl ∧
      t.reg (glbBase + 0x50) = satAdd 32 (s.reg (glbBase + 0x50)) 1)) ∧
  (∀ (v : Word) (s : State), s.Reaches 0 (glbBase + 0x68) → ∃ t, exec (.autoCfgWrite v) s = .next t ∧ t.getB (glbBase + 0x68) 0 = bit v 0 ∧
    t.sat.flowDown = s.sat.flowDown ++ [.autoEn (bit v 0)]) ∧
  (∀ s : State, s.sat.fieldUp = true → (s.link 0).up = false → ∃ t, exec .fieldSatchelLoss s = .next t ∧ t.sat.fieldUp = false ∧
    t.sat.evtTx = [] ∧ t.sat.flowUp = [] ∧
    (5 ≤ s.ctl.mode → s.ctl.mode ≤ 11 → s.ctl.pend = none → s.ctl.mode ≠ (if s.ctl.autoEn then 10 else 5) →
      t.ctl.pend = some ⟨if s.ctl.autoEn then 10 else 5, false, false⟩))

/-- R12, R36, R39: with its key a part reset clears both sides and boots the host side anew: a good bank starts the field side's boot, none leads to
DETENTION; `BANK_SWITCH` tries the non-preferred bank first; a field reset clears the field side alone, which starts again; another key does nothing.
R34 to R37, R199: the host side's release boots it from a good bank; the field PLLs' first lock starts the beat count at 0; an accepted FMI goes on to
memory training, a rejected one leads to DETENTION with cause 3. -/
def Obligations.ResetsAndStartUp : Prop :=
  (∀ (bankA bankB : ImagePair) (s : State), s.host.d3hot = false →
    (pairResult bankA = 0 ∨ pairResult bankB = 0 → ∃ t, exec (.resetCtrlPart 0xB007 bankA bankB) s = .next t ∧ t.mem = [] ∧ t.ctl.mode = 2 ∧
      t.ctl.booted = true ∧ t.bur = {} ∧ t.ring = {}) ∧
    (pairResult bankA ≠ 0 → pairResult bankB ≠ 0 → ∃ t, exec (.resetCtrlPart 0xB007 bankA bankB) s = .next t ∧ t.ctl.hostMode = some 3 ∧
      t.getF (glbBase + 0x54) 15 12 = 1) ∧
    (pairResult bankB = 0 → ∃ t, exec (.resetCtrlBankSwitch 0xB007 bankA bankB) s = .next t ∧ t.ctl.booted = true ∧
      t.getF (glbBase + 0x54) 1 0 = 1 ∧ t.ctl.bankSwitch = false) ∧
    (∃ t, exec (.resetCtrlField 0xB007) s = .next t ∧ t.mem = [] ∧ t.ring = {} ∧ t.ctl.clocks = false ∧
      (s.ctl.booted = true → s.ctl.rnField = true → s.ctl.pgField = true → s.ctl.supplies = true → s.ctl.pruneHold = false → t.ctl.mode = 2)) ∧
    ∀ key, key % 65536 ≠ 0xB007 → exec (.resetCtrlField key) s = .next s) ∧
  (∀ (bankA bankB : ImagePair) (s : State), s.ctl.supHost = true → s.ctl.pgHost = true → s.ctl.rnHost = false →
    pairResult bankA = 0 ∨ pairResult bankB = 0 →
    ∃ t, exec (.hostResetRelease bankA bankB) s = .next t ∧ t.ctl.rnHost = true ∧ t.ctl.booted = true) ∧
  (∀ s : State, s.ctl.mode = 2 → s.ctl.booted = true → s.ctl.rnField = true → s.ctl.pgField = true → s.ctl.clocks = false →
    s.ctl.pruneHold = false → ∃ t, exec .fieldPllLocked s = .next t ∧ t.cycle = 0 ∧ t.ctl.clocks = true ∧
      ∀ g, g < 6 → Tab.get (fun _ => 0) t.grids g = 0) ∧
  (∀ s : State, s.ctl.mode = 2 → s.ctl.clocks = true → s.sat.hostUp = true → s.sat.fieldUp = true → s.ctl.fmi = false →
    (∃ t, exec (.fmiReceived true) s = .next t ∧ t.ctl.fmi = true ∧ t.reg (glbBase + 0x60) = s.ctl.fmiLevel ∧ ∀ c, c < 10 → t.celState c = 1) ∧
    ∃ t, exec (.fmiReceived false) s = .next t ∧ t.ctl.hostMode = some 3 ∧ t.getF (glbBase + 0x54) 15 12 = 3)

/-- R12, R358, R416, R441: the fall of a side's `POWER_GOOD` or `RESET_N` holds it and clears what it holds, and leaves the other side's registers of the
host die or the field memory; a loss of its supplies turns it off; their returns and releases show. -/
def Obligations.InputsHoldTheirSides : Prop :=
  (∀ s : State, s.ctl.pgField = true → ∃ t, exec (.powerGoodFall true) s = .next t ∧ t.ctl.pgField = false ∧ t.ctl.pruneHold = true ∧
    t.ctl.mode = 1 ∧ t.mem = [] ∧ t.host = s.host) ∧
  (∀ s : State, s.ctl.pgHost = true → ∃ t, exec (.powerGoodFall false) s = .next t ∧ t.ctl.pgHost = false ∧ t.ctl.rnHost = false ∧
    t.ctl.hostMode = some 1 ∧ t.mem = s.mem ∧ t.host.dma = []) ∧
  (∀ s : State, s.ctl.supplies = true → s.ctl.supHost = true →
    (∃ t, exec (.powerGoodRise true) s = .next t ∧ t.ctl = { s.ctl with pgField := true } ∧ SameBut [.ctl] s t) ∧
    ∃ t, exec (.powerGoodRise false) s = .next t ∧ t.ctl = { s.ctl with pgHost := true } ∧ SameBut [.ctl] s t) ∧
  (∀ s : State, s.ctl.rnField = true → ∃ t, exec (.resetNAssert true) s = .next t ∧ t.ctl.rnField = false ∧ t.ctl.mode = 1 ∧ t.mem = [] ∧
    t.host = s.host) ∧
  (∀ s : State, s.ctl.rnHost = true → ∃ t, exec (.resetNAssert false) s = .next t ∧ t.ctl.rnHost = false ∧ t.ctl.hostMode = some 1 ∧
    t.mem = s.mem) ∧
  (∀ s : State, s.ctl.rnField = false → ∃ t, exec .fieldResetRelease s = .next t ∧ t.ctl.rnField = true ∧
    (s.ctl.booted = true → s.ctl.pgField = true → s.ctl.supplies = true → s.ctl.pruneHold = false → s.ctl.mode ≤ 3 → s.ctl.clocks = false →
      (t.ctl.mode = 2 ↔ s.detained = false ∨ s.ctl.mode = 2))) ∧
  (∀ s : State, s.ctl.supplies = true → ∃ t, exec (.supplyLoss true) s = .next t ∧ t.ctl.supplies = false ∧ t.ctl.pgField = false ∧ t.mem = [] ∧
    t.host = s.host) ∧
  (∀ s : State, s.ctl.supHost = true → ∃ t, exec (.supplyLoss false) s = .next t ∧ t.ctl.supHost = false ∧ t.ctl.pgHost = false ∧
    t.mem = s.mem) ∧
  (∀ s : State, s.ctl.supplies = false → ∃ t, exec (.supplyReturn true) s = .next t ∧ t.ctl.supplies = true ∧ t.ctl.mode = 1) ∧
  (∀ s : State, s.ctl.supHost = false → ∃ t, exec (.supplyReturn false) s = .next t ∧ t.ctl.supHost = true ∧ t.ctl.hostMode = some 1)

/-! ### The memory controllers (11_cellar_controllers.md) -/

/-- R219, R220, R233, R239: a controller's training ends with its geometry, a channel's with FAIL_KIND for DIMMs of another kind, and while another
trains it is ACTIVE; self-refresh is entered when it is called for, nothing is queued and no refresh is owed, and left with the owed counts at 0; a
scrub read of an access that its pass has not read yet counts what it corrects. R230 to R232: tREFI raises a rank's owed count by 1, to 8 at most; a
REFab without a real-time hold lowers it, as a forced one does when its tRFC ends, and so does the last of a sweep of the bank indexes, which no queued
real-time request targets; a real-time hold ends at its time; a temperature reading above 85 °C halves tREFI and one of 83 °C or below restores it.
(What the bank indexes are is the model's choice, log 88.) -/
def Obligations.ControllersTrainAndRefresh : Prop :=
  (∀ (c result ms repaired spd trfc : Nat) (registered : Bool) (geom : Word) (fenced : List Nat) (s : State), c < 10 → s.celState c = 1 →
    ∃ t, exec (.memTrainingDone c geom registered result ms repaired spd trfc fenced) s = .next t ∧
      t.reg (celBase c + 0x40) = geom &&& 0x0FFF1FFF ∧
      ((∃ c', c' < 10 ∧ c' ≠ c ∧ s.celState c' = 1) → t.celState c = 2 ∧ t.reg (celBase c + 0x44) =
        wd (ms % 65536 * 65536 + repaired % 256 * 256 + if ctlNear c = false ∧ registered = false then 10 else result % 16))) ∧
  (∀ (c : Nat) (s : State), c < 10 → s.celState c = 2 → s.selfRefreshDue = true → (s.cel.queue.any fun r => r.ctl = c) = false →
    (∀ k, s.owedOf k ≤ 0) → ∃ t, exec (.selfRefreshEntry c) s = .next t ∧ t.celState c = 3) ∧
  (∀ (c u : Nat) (s : State), c < 10 → s.celState c = 3 → s.selfRefreshDue = false → s.ctl.clocks = true → u < (if ctlNear c then 32 else 2) →
    ∃ t, exec (.selfRefreshExit c) s = .next t ∧ t.celState c = 2 ∧ ∀ k, k ∈ s.rankKeys c u → t.owedOf k = 0) ∧
  (∀ (c a x : Nat) (s : State), c < 10 → x = a / 64 * 64 → s.getB (celBase c + 0x68) 31 = true → s.celState c = 2 → s.ctl.clocks = true →
    s.mapped x = true → s.ctlOf x = c → s.marked x = false → x ∉ (s.scrubPass c).2 →
    ∃ t, exec (.scrubAccess c a 1) s = .next t ∧ t.reg (celBase c + 0x50) = satAdd 32 (s.reg (celBase c + 0x50)) 1 ∧ t.mem = s.mem ∧
      Tab.get (fun _ => (0, [])) t.cel.scrub c = ((s.scrubPass c).1, x :: (s.scrubPass c).2)) ∧
  (∀ (c u r k : Nat) (s : State), c < 10 → s.celState c = 2 → k = 256 * (64 * c + u) + r → k ∈ s.rankKeys c u →
    (∃ t, exec (.trefiTick c u r) s = .next t ∧ t.owedOf k = min 8 (s.owedOf k + 1) ∧ ∀ j, j ≠ k → t.owedOf j = s.owedOf j) ∧
    (Tab.get (fun _ => 0) s.cel.refUntil k ≠ 0 → ∃ t, exec (.refreshComplete c u r none) s = .next t ∧ t.owedOf k = s.owedOf k - 1 ∧
      Tab.get (fun _ => 0) t.cel.refUntil k = 0 ∧ t.cycle = max s.cycle (Tab.get (fun _ => 0) s.cel.refUntil k)) ∧
    (Tab.get (fun _ => 0) s.cel.refUntil k = 0 → s.refreshable k = true → s.held k = false →
      ∃ t, exec (.refreshComplete c u r none) s = .next t ∧ t.owedOf k = s.owedOf k - 1 ∧ ∀ j, j ≠ k → t.owedOf j = s.owedOf j) ∧
    (∀ b, b < bankCount c → Tab.get (fun _ => 0) s.cel.refUntil k = 0 → s.refreshable k = true → s.targeted c k b = false →
      ((∃ i, i < bankCount c ∧ i ≠ b ∧ i ∉ Tab.get (fun _ => []) s.cel.swept k) → ∃ t, exec (.refreshComplete c u r (some b)) s = .next t ∧
        t.cel.owed = s.cel.owed ∧ b ∈ Tab.get (fun _ => []) t.cel.swept k) ∧
      ((∀ i, i < bankCount c → i ≠ b → i ∈ Tab.get (fun _ => []) s.cel.swept k) →
        ∃ t, exec (.refreshComplete c u r (some b)) s = .next t ∧ t.owedOf k = s.owedOf k - 1 ∧ Tab.get (fun _ => []) t.cel.swept k = []))) ∧
  (∀ (c u r k : Nat) (s : State), k = 256 * (64 * c + u) + r → Tab.get (fun _ => 0) s.cel.hold k ≠ 0 →
    (s.cel.queue.any fun x => x.realTime && decide (x.rankKey = k)) = false →
    ∃ t, exec (.realtimeHoldEnd c u r) s = .next t ∧ Tab.get (fun _ => 0) t.cel.hold k = 0 ∧
      t.cycle = max s.cycle (Tab.get (fun _ => 0) s.cel.hold k)) ∧
  (∀ (c : Nat) (t0 t1 h : Int) (s : State), c < 10 → s.celState c = 2 ∨ s.celState c = 3 → -128 ≤ t0 → t0 ≤ 127 → -128 ≤ t1 → t1 ≤ 127 →
    h = (if ctlNear c then t0 else max t0 t1) →
    ∃ t, exec (.dramTempPoll c t0 t1) s = .next t ∧
      t.getB (celBase c + 0x48) 16 = (if 85 < h then true else if h ≤ 83 then false else s.getB (celBase c + 0x48) 16))

/-- R15, R226 to R229, R237, R238: an unmapped read reads all-ones, with `UNMAPPED`; CAP and GAL do not read; a request that its controller can admit is
queued, a write stored at once; an issued read is in flight and its data comes back, marked if it is uncorrectable; an issued write is done. -/
def Obligations.MemoryRequestsAreServed : Prop :=
  (∀ (port a off : Nat) (data : List Byte) (s : State), port ≤ 5 → off + data.length ≤ 64 →
    (port ≠ 1 → port ≠ 4 → s.mapped (a / 64 * 64) = false → ∃ t, exec (.portRequest port a false off data) s = .next t ∧
      t.cel.data = List.replicate 64 0xFF ∧ t.mem = s.mem ∧ t.getB (celBase (storeCtl (isNear (a / 64 * 64))) + 0x14) 0 = true) ∧
    (port = 1 ∨ port = 4 → exec (.portRequest port a false off data) s = .next s)) ∧
  (∀ (port a off : Nat) (write : Bool) (data : List Byte) (r : MemReq) (s : State), port ≤ 5 → off + data.length ≤ 64 →
    (write = true ∨ (port ≠ 1 ∧ port ≠ 4)) →
    s.mapped (a / 64 * 64) = true → s.cel.ports = [] →
    r = { s.decodeReq (a / 64 * 64) with port := port, write := write, off := off, data := data, since := s.cycle } →
    r.ctl < 10 → port ∈ s.portOrder r.ctl → s.eligible r = true →
    ∃ t, exec (.portRequest port a write off data) s = .next t ∧ t.cel.ports = [] ∧
      (write = false → t.cel.queue = s.cel.queue ++ [{ r with data := [], cover := coverOf off data.length }] ∧ t.mem = s.mem) ∧
      (write = true → s.Canonical → (∀ i, i < data.length → s.answers (a / 64 * 64 + off + i) = true) →
        (∀ i b, data[i]? = some b → t.byte (a / 64 * 64 + off + i) = b) ∧
        ∀ x, x < a / 64 * 64 + off ∨ a / 64 * 64 + off + data.length ≤ x → t.byte x = s.byte x)) ∧
  (∀ (c u ecc : Nat) (r : MemReq) (s : State), s.celState c = 2 → s.ctl.clocks = true → s.cel.ports = [] →
    (s.cel.queue.filter fun x => decide (x.ctl = c) && decide (x.unit = u) && !x.flight && !(s.inRefresh x)) = [r] →
    (r.write = false → ∃ t, exec (.memoryIssue c u ecc) s = .next t ∧
      t.cel.queue = s.cel.queue.map fun x => if x = r then { x with flight := true } else x) ∧
    (r.write = true → ∃ t, exec (.memoryIssue c u ecc) s = .next t ∧ t.cel.queue = s.cel.queue.erase r)) ∧
  (∀ (c u ecc : Nat) (r : MemReq) (s : State), s.cel.queue.find? (fun x => decide (x.ctl = c) && decide (x.unit = u) && x.flight) = some r →
    ∃ t, exec (.memoryReadComplete c u ecc) s = .next t ∧ t.cel.data = s.readBytes r.addr 64 ∧ t.cel.queue = s.cel.queue.erase r ∧
      t.cel.marked = (decide (ecc = 2) || s.marked r.addr))

/-- R224, R225, R234, R235: a mask with its own base bit alone is staged, pending, and in force only once applied, with the store's queue quiet; another
mask changes no register. A regulator's register takes a write, which fills its bucket, except EN with BURST 0. -/
def Obligations.MapsAndRegulators : Prop :=
  (∀ (req k a m : Nat) (near : Bool) (v : Word) (s : State), k < (mapBase near).length → a = celBase (storeCtl near) + 0x140 + 8 * k →
    s.Reaches req (a + 4) → m = ((s.commitWord req a).toNat + 2 ^ 32 * v.toNat) % 2 ^ 40 →
    (maskOk near k m = true → ∃ t, exec (.mapMaskCommit req near k v) s = .next t ∧ t.reg64 a = m ∧ t.mapMask near k = s.mapMask near k ∧
      t.getB (celBase (storeCtl near) + 0x100) 4 = true) ∧
    (maskOk near k m = false → ∃ t, exec (.mapMaskCommit req near k v) s = .next t ∧ RegsSame s t fun _ => false)) ∧
  (∀ (near : Bool) (s : State), s.getB (celBase (storeCtl near) + 0x100) 4 = true →
    (s.cel.queue.any fun r => decide (ctlNear r.ctl = near)) = false →
    ∃ t, exec (.mapApply near) s = .next t ∧ t.getB (celBase (storeCtl near) + 0x100) 4 = false ∧
      ∀ k, k < (mapBase near).length → t.mapMask near k = s.reg64 (celBase (storeCtl near) + 0x140 + 8 * k)) ∧
  (∀ (near : Bool) (p : Nat) (v : Word) (s : State), p < 6 → s.Reaches 0 (regCfg near p) →
    (bit v 31 = true → fld v 27 16 = 0 → exec (.regCfgWrite near p v) s = .next s) ∧
    (bit v 31 = false ∨ fld v 27 16 ≠ 0 → ∃ t, exec (.regCfgWrite near p v) s = .next t ∧
      (s.cel.ports = [] → t.bucket near p = t.bucketFull near p) ∧ t.reg (regCfg near p) = wd (mergeMask (writeMask (regCfg near p)) (s.reg (regCfg near p)).toNat v.toNat)))

/-! ### The pattern sequencer and the decanters (06_segments_sequencer.md, 07_decanters_streaming.md) -/

/-- R125, R127, R128: a permitted START whose first descriptor passes and whose admission set fits enters ADMIT and waits for the Bursar; a STOP is
registered in RUN, and ends a burst without output in ADMIT or ARMED with RESULT 3, as an ABORT does; an ABORT in RUN fixes the boundary after which
output ends. -/
def Obligations.BurstsStartStopAndAbort : Prop :=
  ∀ (q : Nat) (v : Word) (s : State), q < 16 → s.Reaches 0 (seqBase q 0 + 0x54) →
    (∀ u : State, u = (s.writeMasked (seqBase q 0 + 0x54) v).seqAdmit q (s.getF (seqBase q 0 + 0x58) 19 0) (decide (fld v 5 4 = 1)) →
      bit v 0 = true → bit v 2 = false → fld v 5 4 < 2 → s.burstRuns q = false → s.startAllowed .burst (seqBase q 0 + 0x54) = true →
      (u.seqOf q).start < (u.seqOf q).len → u.descCause q (u.seqOf q).len (Tab.get (fun _ => []) (u.seqOf q).descs (u.seqOf q).start) = 0 →
      (u.seqWalk q).noFit q = false →
      ∃ t, exec (.burstCtrlStart q v) s = .next t ∧ (t.seqOf q).st = 1 ∧ (t.seqOf q).base = s.reg64 (seqBase q 0 + 0x40) ∧
        t.bur.waits = s.bur.waits ++ [⟨1, q, true, 0, (s.reg (seqBase q 0 + 0x5C)).toNat, s.cycle⟩]) ∧
    (bit v 1 = true → bit v 0 = false → bit v 2 = false → s.burstRuns q = true →
      ((s.seqOf q).st = 3 → (s.seqOf q).stop = none →
        ∃ t, exec (.burstCtrlStop q v) s = .next t ∧ t.seqOf q = { s.seqOf q with stop := some s.cycle }) ∧
      ((s.seqOf q).st = 1 ∨ (s.seqOf q).st = 2 →
        ∃ t, exec (.burstCtrlStop q v) s = .next t ∧ (t.seqOf q).st = 0 ∧ t.getF (seqBase q 0 + 0x60) 3 0 = 3)) ∧
    (bit v 2 = true →
      ((s.seqOf q).st = 3 → (s.seqOf q).park = none → (s.seqOf q).abort = none → (∀ r, (s.seqOf q).succ ≠ some (.stop r)) →
        (∀ c, (s.seqOf q).cp = some c → s.cycle < c / 20480) →
        ∃ t, exec (.burstCtrlAbort q v) s = .next t ∧ (t.seqOf q).abort = some ((s.cycle + 1) * 20480 + 163840)) ∧
      ((s.seqOf q).st = 1 ∨ (s.seqOf q).st = 2 →
        ∃ t, exec (.burstCtrlAbort q v) s = .next t ∧ (t.seqOf q).st = 0 ∧ t.getF (seqBase q 0 + 0x60) 3 0 = 3) ∧
      ((s.seqOf q).st = 4 → ∃ t, exec (.burstCtrlAbort q v) s = .next t ∧ (t.seqOf q).st = 4 ∧ t.getB (seqBase q 0 + 0x60) 4 = true))

/-- R119, R120, R122, R124: a jump request on time for the instance in output fills the slot, with outcome 1; a register's request takes the slot
from the Corridor's of the same cycle, and finds one of before BUSY; one outside a burst is dropped and counted; a descriptor that arrives through the
DEC port is on the die. R111, R120, R127: at the commit point a STOP registered in time decides the end with RESULT 2; without one, a
jump in the slot for the instance decides its target; without one, END NEXT decides the next segment; a LOOP segment decides its target while its
counter lasts (R112). -/
def Obligations.SuccessorsAreDecided : Prop :=
  (∀ (q : Nat) (v : Word) (s : State), q < 16 → s.Reaches 0 (seqBase q 0 + 0x68) →
    ((s.seqOf q).st = 3 → (s.seqOf q).park = none → (s.seqOf q).slot = none → (∀ e, (s.seqOf q).jumpCor ≠ some (s.cycle, e)) →
      s.onTime q = true → ∃ t, exec (.jmpReqWrite q v) s = .next t ∧ (t.seqOf q).slot = some ⟨fld v 3 0, (s.seqOf q).inst⟩ ∧
        t.reg (seqBase q 0 + 0x6C) = wd (fld v 3 0 * 16 + 9)) ∧
    (∀ j e, (s.seqOf q).st = 3 → (s.seqOf q).park = none → (∀ r, (s.seqOf q).succ ≠ some (.stop r)) → (s.seqOf q).slot = some j →
      ((s.seqOf q).jumpCor = some (s.cycle, e) → ∃ t, exec (.jmpReqWrite q v) s = .next t ∧
        (t.seqOf q).slot = some { j with entry := fld v 3 0 } ∧ t.getF (seqBase q 0 + 0x6C) 2 0 = 4) ∧
      ((s.seqOf q).jumpCor = none → ∃ t, exec (.jmpReqWrite q v) s = .next t ∧ t.seqOf q = s.seqOf q ∧
        t.getF (seqBase q 0 + 0x6C) 2 0 = 4 ∧ t.reg (seqBase q 0 + 0x74) = satAdd 32 (s.reg (seqBase q 0 + 0x74)) 1)) ∧
    ((s.seqOf q).st < 3 → ∃ t, exec (.jmpReqWrite q v) s = .next t ∧ t.seqOf q = s.seqOf q ∧
      t.getF (seqBase q 0 + 0x6C) 2 0 = 5 ∧ t.reg (seqBase q 0 + 0x74) = satAdd 32 (s.reg (seqBase q 0 + 0x74)) 1)) ∧
  (∀ (q i : Nat) (s u : State), (s.seqOf q).st ≠ 0 → (s.seqOf q).st ≠ 4 → i < (s.seqOf q).len → (s.seqOf q).succ = none →
    s.portRun 0 false ((s.seqOf q).base + 64 * i) 64 = some u →
    ∃ t, exec (.descriptorArrival q i) s = .next t ∧ Tab.get (fun _ => []) (t.seqOf q).descs i = u.readDesc (s.seqOf q).base i) ∧
  (∀ (q cp : Nat) (d : Desc) (s : State), (s.seqOf q).cp = some cp → s.validDesc q (s.seqOf q).idx = some d → (s.seqOf q).st = 3 →
    (s.seqOf q).succ = none → (s.seqOf q).park = none → (s.seqOf q).opening = false →
    (∀ k, (s.seqOf q).stop = some k → (k + 1) * 20480 ≤ cp →
      ∃ t, exec (.commitPoint q) s = .next t ∧ (t.seqOf q).succ = some (.stop 2)) ∧
    (∀ j i, (s.seqOf q).stop = none → (s.seqOf q).slot = some j → j.inst = (s.seqOf q).inst → i = (s.seqOf q).jmp.getD j.entry 0 →
      i < (s.seqOf q).len → (s.validDesc q i).isSome = true →
      ∃ t, exec (.commitPoint q) s = .next t ∧ (t.seqOf q).succ = some (.seg i false) ∧ (t.seqOf q).slot = none) ∧
    ((s.seqOf q).stop = none → (s.seqOf q).slot = none → Desc.endAct d = 0 → (s.seqOf q).idx + 1 < (s.seqOf q).len →
      (s.validDesc q ((s.seqOf q).idx + 1)).isSome = true →
      ∃ t, exec (.commitPoint q) s = .next t ∧ (t.seqOf q).succ = some (.seg ((s.seqOf q).idx + 1) false)) ∧
    (∀ k n, (s.seqOf q).stop = none → (s.seqOf q).slot = none → Desc.endAct d = 1 → k = Desc.lcsel d → k < 4 →
      n = (if s.getB (seqBase q 0 + 0x88) (8 + k) then (s.reg (seqBase q 0 + 0xA0 + 4 * k)).toNat else max (Desc.lcount d) 1) - 1 →
      (0 < n → Desc.target d < (s.seqOf q).len → (s.validDesc q (Desc.target d)).isSome = true →
        ∃ t, exec (.commitPoint q) s = .next t ∧ (t.seqOf q).succ = some (.seg (Desc.target d) false) ∧
          t.reg (seqBase q 0 + 0xA0 + 4 * k) = wd n ∧ t.getB (seqBase q 0 + 0x88) (8 + k) = true) ∧
      (n = 0 → (s.seqOf q).idx + 1 < (s.seqOf q).len → (s.validDesc q ((s.seqOf q).idx + 1)).isSome = true →
        ∃ t, exec (.commitPoint q) s = .next t ∧ (t.seqOf q).succ = some (.seg ((s.seqOf q).idx + 1) false) ∧
          t.reg (seqBase q 0 + 0xA0 + 4 * k) = 0 ∧ t.getB (seqBase q 0 + 0x88) (8 + k) = false)))

/-- R109: an instance of a segment of LEN granules that started at S with period P has its commit point at S + (n − 192) × P, n = 32 × LEN: the start of
granule LEN − 6, at which its judging finds it; with LEN of 8 or more that is at least two granules after S. -/
def Obligations.CommitPointsLieSixGranulesBeforeTheEnd : Prop :=
  ∀ (q p : Nat) (d : Desc) (s : State), (s.seqOf q).st = 3 → (s.seqOf q).park = none → (s.seqOf q).opening = false →
    s.validDesc q (s.seqOf q).idx = some d → (s.seqOf q).abort = none → (s.seqOf q).stretching = false → (s.seqOf q).cp = none →
    s.lacking q = ([], []) → p = s.tsPeriod q (Desc.ts d) → 8 ≤ Desc.len d → (s.seqOf q).g + 6 = Desc.len d →
    (s.seqOf q).t = (s.seqOf q).s0 + 32 * (s.seqOf q).g * p →
    ∃ t, exec (.granuleJudge q) s = .next t ∧ (t.seqOf q).cp = some ((s.seqOf q).s0 + (32 * Desc.len d - 192) * p) ∧
      (s.seqOf q).s0 + 2 * (32 * p) ≤ (s.seqOf q).s0 + (32 * Desc.len d - 192) * p ∧
      (s.seqOf q).s0 + (32 * Desc.len d - 192) * p + 6 * (32 * p) = (s.seqOf q).s0 + 32 * Desc.len d * p

/-- R123, R125, R145: an admitted burst with everything resident becomes ARMED, and with START_MODE IMMEDIATE S is 40 ns after the end of the cycle; at S
it enters RUN with its first segment; the start of an instance shows its segment and iteration. R78, R130, R151, R152: a granule whose blocks are all
there is output whole; a missing one without STRETCH ends output with RESULT 4; the end of the last instance is the park point, and after stage 2 or a
hard threshold (R129) that of the instance in output, with RESULT 6; from there the burst is in PARK, and with everything committed it leaves with its
RESULT. -/
def Obligations.BurstsReachOutputAndPark : Prop :=
  (∀ (q : Nat) (s : State), (s.seqOf q).st = 1 → s.admitted 1 q = true → s.resident q (fun _ => true) = true → s.leadMet q = true →
    ∃ t, exec (.burstAdmissionComplete q) s = .next t ∧ (t.seqOf q).st = 2 ∧
      (t.seqOf q).sAt = (if (s.seqOf q).bell then (s.seqOf q).sAt else some ((s.cycle + 1) * 20480 + 655360)) ∧
      (q < 16 → t.getF (seqBase q 0 + 0x60) 11 8 = 2)) ∧
  (∀ (q at0 : Nat) (s : State), (s.seqOf q).sAt = some at0 → (s.seqOf q).st = 2 →
    ∃ t, exec (.burstSReached q) s = .next t ∧ (t.seqOf q).st = 3 ∧ (t.seqOf q).idx = (s.seqOf q).start ∧ (t.seqOf q).t = at0 ∧
      t.cycle = max s.cycle (at0 / 20480)) ∧
  (∀ (q : Nat) (d : Desc) (s : State), q < 16 → (s.seqOf q).st = 3 → (s.seqOf q).opening = true → s.validDesc q (s.seqOf q).idx = some d →
    ∃ t, exec (.segmentStart q) s = .next t ∧ (t.seqOf q).opening = false ∧ t.reg (seqBase q 0 + 0x80) = wd (2 ^ 31 + (s.seqOf q).idx) ∧
      t.reg (seqBase q 0 + 0x84) = wd (s.seqOf q).iter) ∧
  (∀ (q : Nat) (d : Desc) (s : State), (s.seqOf q).st = 3 → (s.seqOf q).park = none → (s.seqOf q).opening = false →
    s.validDesc q (s.seqOf q).idx = some d → (s.seqOf q).abort = none → (s.seqOf q).stretching = false →
    (s.seqOf q).begun = false ∨ (s.seqOf q).g ≠ Desc.len d → (s.seqOf q).succ ≠ none ∨ (s.seqOf q).cp = none →
    (s.lacking q = ([], []) → ∃ t, exec (.granuleJudge q) s = .next t ∧ (t.seqOf q).g = (s.seqOf q).g + 1 ∧
      (t.seqOf q).t = (s.seqOf q).t + 32 * s.tsPeriod q (Desc.ts d) ∧ (t.seqOf q).outv = (s.seqOf q).outv + 32 ∧ (t.seqOf q).begun = true ∧
      t.cycle = max s.cycle ((s.seqOf q).t / 20480)) ∧
    ((s.lacking q).1 ≠ [] → s.getB (seqBase q 0 + 0x78) 0 = false →
      ∃ t, exec (.granuleJudge q) s = .next t ∧ (t.seqOf q).park = some ((s.seqOf q).t, 4))) ∧
  (∀ (q : Nat) (s : State), (s.seqOf q).st = 3 → (s.seqOf q).park = none → (s.seqOf q).opening = false → (s.seqOf q).begun = true →
    (s.seqOf q).g = Desc.len (Tab.get (fun _ => []) (s.seqOf q).descs (s.seqOf q).idx) → (s.seqOf q).abort = none →
    (∀ r, (s.seqOf q).succ = some (.stop r) → (s.seqOf q).shed = false →
      ∃ t, exec (.granuleJudge q) s = .next t ∧ (t.seqOf q).park = some ((s.seqOf q).t, r)) ∧
    ((s.seqOf q).succ ≠ none → (s.seqOf q).shed = true →
      ∃ t, exec (.granuleJudge q) s = .next t ∧ (t.seqOf q).park = some ((s.seqOf q).t, 6))) ∧
  (∀ (q p r : Nat) (s : State), (s.seqOf q).park = some (p, r) → (s.seqOf q).st = 3 →
    ∃ t, exec (.parkPoint q) s = .next t ∧ (t.seqOf q).st = 4 ∧ max s.cycle (p / 20480) ≤ t.cycle ∧ t.cycle ≤ max s.cycle (p / 20480 + 1) ∧
      ((s.seqOf q).outv = 0 → t.cycle = max s.cycle (p / 20480))) ∧
  (∀ (q m p r : Nat) (s : State), q < 16 → (s.seqOf q).park = some (p, r) → (s.seqOf q).st = 4 → s.burstCommitted q = true → r < 16 →
    ∃ t, exec (.parkComplete q m) s = .next t ∧ (t.seqOf q).st = 0 ∧ t.getF (seqBase q 0 + 0x60) 3 0 = r ∧
      t.getB (seqBase q 0 + 0x14) 1 = true)

/-- R138, R140, R148, R156, R158, R238: the block that a source desk fetches next, in its turn, comes through the DEC port and arrives where it was wanted
for, bad with an error found in it or marked by its store; the stager copies the next block into its ring and its engine finds it there; `FLUSH` drops the retained blocks of every slice whose sequencer runs no burst. -/
def Obligations.BlocksArriveAndFlush : Prop :=
  (∀ (q d ecc i g a : Nat) (p : Place) (c : Desc) (s u : State), q = s.dskSeq d → (s.seqOf q).st ≠ 0 → (s.seqOf q).st ≠ 4 →
    s.refillTurn q = some d → s.wanted q d = some (p, i, g) → s.validDesc q i = some c → a = (s.seqOf q).blockAddr d c g →
    ¬(p = .path ∧ (s.seqOf q).stages c = true) → (s.slice d).heads = [] → (s.slice d).retained = [] →
    ((s.shareWait q (Desc.blockSize c)).bind fun s => s.portRun 0 false a (Desc.blockSize c)) = some u →
    ∃ t k, exec (.refillBlockArrival d ecc) s = .next t ∧
      k = (⟨i, g, a, u.readBytes a (Desc.blockSize c), decide (ecc = 2) || (accesses a (Desc.blockSize c)).any (fun x => u.marked x.1),
        false⟩ : Block) ∧
      (p = .lock → (t.slice d).locked = (s.slice d).locked ++ [k]) ∧ (p = .path → (t.slice d).ahead = (s.slice d).ahead ++ [k]) ∧
      (p = .head → (t.slice d).heads = [k])) ∧
  (∀ (q d i g at0 a : Nat) (c : Desc) (s u w : State), (s.seqOf q).stageSize ≠ 0 → (s.seqOf q).st ≠ 0 → (s.seqOf q).st ≠ 4 →
    s.stagerTurn q = true → s.stageNext q = some (d, i, g, c) → (s.seqOf q).stagePlace (Desc.blockSize c) = some at0 →
    a = (s.seqOf q).blockAddr d c g →
    ((s.shareWait q (Desc.blockSize c)).bind fun s => s.portRun 0 false a (Desc.blockSize c)) = some u →
    u.portWrite 0 ((s.seqOf q).stageBase + at0) (u.readBytes a (Desc.blockSize c)) = some w →
    ∃ t, exec (.stagerBlockCopy q) s = .next t ∧
      (t.seqOf q).staged = (s.seqOf q).staged ++ [⟨i, g, d, (s.seqOf q).stageBase + at0, Desc.blockSize c⟩] ∧
      (t.seqOf q).ringAt = at0 + Desc.blockSize c ∧
      t.mem = w.mem) ∧
  (∀ (v : Word) (s : State), s.Reaches 0 (decBase + 0x44) → bit v 0 = true → ∃ t, exec (.decFlushWrite v) s = .next t ∧
    ∀ d, d < 32 → s.burstRuns (s.dskSeq d) = false → (t.slice d).retained = [])

/-! ### Compare, capture and check units (08_compare_capture.md, 09_signatures_check.md) -/

/-- R115, R116, R159, R161, R164: verdicts are formed 120 ns after a vector's end; a strobe that sees steady levels other than it expects is one failing
compare of its channel's site; the result of a MATCH iteration in which every site of the mask matched meets the exit condition. -/
def Obligations.VerdictsAreFormed : Prop :=
  (∀ (q : Nat) (waves : List ChanWave) (j : VecJob) (l : List VecJob) (s : State), (s.seqOf q).jobs = j :: l →
    ∃ t, exec (.verdictsFormed q waves) s = .next t ∧ (t.seqOf q).jobs = l ∧ t.cycle = max s.cycle ((j.t0 + j.per + 1966080) / 20480 + 1)) ∧
  (∀ (q x at0 : Nat) (high low : Bool) (j : VecJob) (l : List VecJob) (c : ChanJob) (s : State), (s.seqOf q).jobs = j :: l → j.chans = [c] →
    c.judges = [.strobe x at0] → c.mask = false → s.chnFunc c.ch = 1 ∨ s.chnFunc c.ch = 3 → c.ch < 256 →
    levelCode (bit (s.eff (chnBase c.ch + 0x48)) 2 && (high != bit (s.eff (chnBase c.ch + 0x48)) 5),
      bit (s.eff (chnBase c.ch + 0x48)) 3 && (low != bit (s.eff (chnBase c.ch + 0x48)) 6)) ≠ x →
    ∃ t, exec (.verdictsFormed q [⟨c.ch, high, low, []⟩]) s = .next t ∧
      t.reg64 (siteBlock (s.chnSite c.ch) + 8) = (s.reg64 (siteBlock (s.chnSite c.ch) + 8) + 1) % 2 ^ 64 ∧
      t.getB (siteBlock (s.chnSite c.ch)) 31 = true) ∧
  (∀ (q iter due : Nat) (failed : List Nat) (l : List (Nat × Nat × List Nat × Nat)) (d : Desc) (s : State),
    (s.seqOf q).mReady = ((s.seqOf q).run, iter, failed, due) :: l → s.validDesc q (s.seqOf q).idx = some d → (s.seqOf q).mMet = none →
    bit (s.eff (seqBase q 2 + 0xC0 + 4 * Desc.msel d)) 0 = false → (∀ st, st ∈ s.maskSites q (Desc.msel d) → st ∉ failed) →
    ∃ t, exec (.matchResultReady q) s = .next t ∧ (t.seqOf q).mMet = some (iter, due) ∧ (t.seqOf q).mReady = l ∧
      t.cycle = max s.cycle (due / 20480 + 1))

/-- R167 to R170: what a ring's writer pushes lies in the ring's next slot, and the write pointer passes it; a record of the log is pushed, with room and
no loss pending; without room it is counted as lost. R172, R173, R175, R178, R188: a capture block is written at its place; an edge on a watched slot forms a record, or is merged within
400 ps of the last one; a record is written in the ring's next slot, with room; held soft resets take effect with no burst running. -/
def Obligations.LogsAndCapturesAreWritten : Prop :=
  (∀ (r : RecRing) (l : List Byte) (s u : State), s.ringPush r l = some u →
    u.mem = (s.writeBytes (s.ringSlot r (s.reg r.regs.wr).toNat) l).mem ∧ u.reg r.regs.wr = wd (((s.reg r.regs.wr).toNat + 1) % s.ringSize r)) ∧
  (∀ (r : List Word) (l : List (List Word)) (s : State), s.cmp.ends = r :: l → s.cmp.lost.count = 0 →
    (∀ u, 1 ≤ s.ringRoom .log → ({ s with cmp := { s.cmp with ends := l, lost := {} } }.paced 0 2).ringPush .log (recBytes r) = some u →
      ∃ t, exec .failLogRecordWritten s = .next t ∧ t.cmp.ends = l ∧ t.reg (cmpBase + 0x54) = u.reg (cmpBase + 0x54) ∧ t.mem = u.mem) ∧
    (s.ringRoom .log = 0 → ∃ t, exec .failLogRecordWritten s = .next t ∧ t.cmp.ends = l ∧ t.mem = s.mem ∧ t.cmp.lost.count = 1 ∧
      t.reg64 (cmpBase + 0x60) = (s.reg64 (cmpBase + 0x60) + 1) % 2 ^ 64)) ∧
  (∀ (d : Nat) (k : CapBlock) (l : List CapBlock) (s u : State), Tab.get (fun _ => []) s.cmp.capq d = k :: l → s.portWrite 1 k.addr k.data = some u →
    ∃ t, exec (.captureBlockWritten d) s = .next t ∧ Tab.get (fun _ => []) t.cmp.capq d = l ∧ t.mem = u.mem) ∧
  (∀ (i et prev code q : Nat) (e : EcapSlot) (s : State), s.ecapSeq i = some q → e = Tab.get (fun _ => {}) s.cmp.slots i →
    code % 4 ≠ prev % 4 →
    (e.lastAt = none → e.queue.length < 32 → ∃ t, exec (.ecapTransition i et prev code) s = .next t ∧
      (Tab.get (fun _ => {}) t.cmp.slots i).queue.length = e.queue.length + 1 ∧ (Tab.get (fun _ => {}) t.cmp.slots i).lastAt = some et ∧
      (Tab.get (fun _ => {}) t.cmp.slots i).merged = 0) ∧
    (∀ a, e.lastAt = some a → (et - a) * 10 < 16384 → ∃ t, exec (.ecapTransition i et prev code) s = .next t ∧
      Tab.get (fun _ => {}) t.cmp.slots i = { e with merged := e.merged + 1 } ∧
      t.reg (cmpBase + 0x84) = satAdd 32 (s.reg (cmpBase + 0x84)) 1)) ∧
  (∀ (i : Nat) (r : List Word) (l : List (List Word)) (s u : State), (Tab.get (fun _ => {}) s.cmp.slots i).queue = r :: l → s.ringFull .ecap = false →
    ((s.passTo (Tab.get (fun _ => {}) s.cmp.slots i).nextAt).paced 1 1).ringPush .ecap (recBytes r) = some u →
    ∃ t, exec (.ecapRecordWritten i) s = .next t ∧ (Tab.get (fun _ => {}) t.cmp.slots i).queue = l ∧
      t.reg (cmpBase + 0x78) = u.reg (cmpBase + 0x78) ∧ t.mem = u.mem) ∧
  (∀ (h : Nat) (s : State), h ≤ 2 → s.getB (cmpBase + 0x1000 * h + 8) 1 = true → (∀ q, q < 16 → s.burstRuns q = false) →
    ∃ t, exec (.cmpSrstApply h) s = .next t ∧ t.getB (cmpBase + 0x1000 * h + 8) 1 = false ∧ t.getB (cmpBase + 0x1000 * h + 0xC) 1 = true ∧
      (h = 0 → t.cmp = {} ∧ t.reg (cmpBase + 0x54) = 0 ∧ t.reg (cmpBase + 0x58) = 0)) ∧
  (∀ (d : Nat) (s : State), d < 32 → s.getB (sigBase d + 8) 1 = true → s.burstRuns (s.dskSeq d) = false →
    ∃ t, exec (.sigSrstApply d) s = .next t ∧ t.getB (sigBase d + 8) 1 = false ∧ t.getB (sigBase d + 0xC) 1 = true ∧
      ∀ q, q < 16 → t.reg (sigCtx d q + 0x10) = resetValue (sigCtx d q + 0x10))

/-- R190, R191, R192, R193, R195: with no run active a feed folds its bytes into `RUN`, LOAD_INIT puts `INIT` there, and CHECK records the result and
whether it is the expected one; a feed during a run is discarded and counted. R191, R192, R194, R271: a permitted START waits for the Bursar with
`ENERGY`, or of no bytes ends DONE in the next cycle; a run ends, its reads done, at its commit cycle with RESULT 1 and its bytes folded, or by ABORT with RESULT 2; with no run active a `CFG` with WIDTH 8 to 64
takes. -/
def Obligations.CheckUnitsRun : Prop :=
  (∀ (n k o : Nat) (v : Word) (c : Nat → Word → Instr) (s : State), n < 8 →
    (k, o, c) ∈ [(1, 0x90, Instr.chkFeedB), (2, 0x94, .chkFeedH), (4, 0x98, .chkFeedW)] → s.Reaches 0 (chkBase n + o) →
    ((s.chkRun n).active = false → ∃ t, exec (c n v) s = .next t ∧ t.reg64 (chkBase n + 0x68) =
      crcBytes (s.chkWidth n) (s.reg64 (chkBase n + 0x48)) (s.getB (chkBase n + 0x40) 8) (s.reg64 (chkBase n + 0x68) % 2 ^ s.chkWidth n)
        (bytesLE k v.toNat) % 2 ^ 64) ∧
    ((s.chkRun n).active = true → ∃ t, exec (c n v) s = .next t ∧ t.reg64 (chkBase n + 0x68) = s.reg64 (chkBase n + 0x68) ∧
      t.reg (chkBase n + 0x9C) = satAdd 32 (s.reg (chkBase n + 0x9C)) 1)) ∧
  (∀ (n : Nat) (v : Word) (s : State), n < 8 → s.Reaches 0 (chkBase n + 0x84) → (s.chkRun n).active = false → bit v 1 = false →
    (bit v 2 = true → ∃ t, exec (.chkLoadInit n v) s = .next t ∧
      t.reg64 (chkBase n + 0x68) = s.reg64 (chkBase n + 0x50) % 2 ^ s.chkWidth n) ∧
    (bit v 2 = false → bit v 3 = true → ∃ t, exec (.chkCheck n v) s = .next t ∧ t.reg64 (chkBase n + 0x70) = s.chkResult n % 2 ^ 64 ∧
      t.getB (chkBase n + 0x8C) 6 = true ∧
      t.getB (chkBase n + 0x8C) 5 = decide (s.chkResult n = s.reg64 (chkBase n + 0x60) % 2 ^ s.chkWidth n))) ∧
  (∀ (n : Nat) (v : Word) (s : State), n < 8 → s.Reaches 0 (chkBase n + 0x84) →
    ((s.chkRun n).active = false → s.waiting 3 n = false → s.startAllowed .chk (chkBase n) = true → v = 1 →
      (s.reg (chkBase n + 0x80) ≠ 0 → ∃ t, exec (.chkStart n v) s = .next t ∧
        t.bur.waits = s.bur.waits ++ [⟨3, n, true, 0, (s.reg (chkBase n + 0x88)).toNat, s.cycle⟩] ∧ SameBut [.bur] s t) ∧
      (s.reg (chkBase n + 0x80) = 0 → ∃ t, exec (.chkStart n v) s = .next t ∧ (t.chkRun n).active = false ∧
        t.getF (chkBase n + 0x8C) 3 0 = 1 ∧ t.cycle = s.cycle + 1)) ∧
    ((s.chkRun n).active = true → bit v 1 = true → ∃ t, exec (.chkAbort n v) s = .next t ∧ (t.chkRun n).active = false ∧
      t.getF (chkBase n + 0x8C) 3 0 = 2)) ∧
  (∀ (n m src len : Nat) (s u : State), n < 8 → (s.chkRun n).active = true → src = s.reg64 (chkBase n + 0x78) →
    len = (s.reg (chkBase n + 0x80)).toNat → (s.passTo ((s.chkRun n).began + max 1 ((len + 7) / 8))).portRun 3 false src len = some u →
    ∃ t, exec (.chkRunCommit n m) s = .next t ∧ (t.chkRun n).active = false ∧ t.getF (chkBase n + 0x8C) 3 0 = 1 ∧ t.cycle = u.cycle ∧
      t.reg64 (chkBase n + 0x68) =
        crcBytes (u.chkWidth n) (u.reg64 (chkBase n + 0x48)) (u.getB (chkBase n + 0x40) 8) (u.reg64 (chkBase n + 0x68) % 2 ^ u.chkWidth n)
          (u.readBytes src len) % 2 ^ 64) ∧
  (∀ (req n : Nat) (v : Word) (s : State), n < 8 → s.Reaches req (chkBase n + 0x40) → (s.chkRun n).active = false →
    (8 ≤ fld v 6 0 → fld v 6 0 ≤ 64 → ∃ t, exec (.chkRegWrite req (chkBase n + 0x40) v) s = .next t ∧
      t.reg (chkBase n + 0x40) = wd (mergeMask (writeMask (chkBase n + 0x40)) (s.reg (chkBase n + 0x40)).toNat v.toNat) ∧
      t.reg64 (chkBase n + 0x68) = s.reg64 (chkBase n + 0x68) % 2 ^ fld v 6 0) ∧
    (fld v 6 0 < 8 ∨ 64 < fld v 6 0 → exec (.chkRegWrite req (chkBase n + 0x40) v) s = .next s))

/-! ### Time measurement, flow services and calibration (10_time_measurement.md, 14_flow_services.md, 16_calibration.md) -/

/-- R197, R198, R201, R202, R204 to R208: an engine that does not run takes no edge; one that runs takes into its FIFO an edge of its source that it
selects, not within its input's dead time and with room, and else counts it as lost; an EVENT_COUNT gate ends with its count of edges; an armed INTERVAL
start without a stop in time forms a record with OVF = 1 and VALID = 0. R203, R209 to R212: a START is refused BAD_CFG for a MODE outside 1 to 6, and
otherwise waits in ADMIT with its `ENERGY`; a STOP ends a STAMP run at once and lets a gated measurement finish; an ABORT ends the run; the record whose
turn it is is pushed into the result ring, and the COUNT-th ends the run DONE. -/
def Obligations.EnginesMeasure : Prop :=
  (∀ (e : Nat) (x : Tdc) (s : State), e < 64 → x = s.tdc e →
    (∀ (src et : Nat) (rising : Bool), x.st ≠ 2 → x.st ≠ 3 → ∃ t, exec (.tdcInputEdge src et rising) s = .next t ∧ t.tdc e = x) ∧
    (∀ (et : Nat) (rising : Bool), x.st = 2 → s.sourceLive x.srcA = true → edgeTaken (fld x.cfg 21 20) (rising != s.sourceInv x.srcA) = true →
      bit x.cfg 16 = false → x.srcB ≠ x.srcA → x.t0 ≤ et / 5120 →
      (x.lastA = none → x.fifo = [] → ∃ t a, exec (.tdcInputEdge x.srcA et rising) s = .next t ∧ t.tdc e = { x with lastA := some et, fifo := [a] } ∧
        a.et = et ∧ a.isB = false) ∧
      (∀ l, x.lastA = some l → (et - l) * 10 < 65536 → ∃ t, exec (.tdcInputEdge x.srcA et rising) s = .next t ∧
        t.tdc e = { x with deadA := true } ∧ t.reg (tdcBase e + 0x30) = satAdd 32 (s.reg (tdcBase e + 0x30)) 1) ∧
      (x.lastA = none → 32 ≤ x.fifo.length → x.full = true → ∃ t, exec (.tdcInputEdge x.srcA et rising) s = .next t ∧ (t.tdc e).fifo = x.fifo ∧
        t.reg (tdcBase e + 0x34) = satAdd 32 (s.reg (tdcBase e + 0x34)) 1 ∧ t.getB (timBase + 0x14) 5 = true)) ∧
    (x.st = 2 → x.full = false → x.out = [] → x.fifo = [] →
      (x.mode = 5 → ∃ t r, exec (.tdcGateEnd e) s = .next t ∧ (t.tdc e).out = [r] ∧ r.getD 0 0 = wd x.edges ∧ (t.tdc e).edges = 0 ∧
        (t.tdc e).opened = x.nominalEnd ∧ t.cycle = max s.cycle (x.nominalEnd / 20480)) ∧
      (∀ f, x.mode = 2 → x.armed = some f → x.tmo ≠ 0 → ∃ t r, exec (.tdcTimeout e) s = .next t ∧ (t.tdc e).out = [r] ∧
        (t.tdc e).armed = none ∧ bit (r.getD 3 0) 2 = true ∧ bit (r.getD 3 0) 0 = false ∧
        t.cycle = max s.cycle ((f.beat + x.tmo) / 4)))) ∧
  (∀ (e : Nat) (x : Tdc) (s : State), e < 64 → x = s.tdc e → s.Reaches 0 (tdcBase e + 0x20) →
    (x.st = 0 → s.startAllowed .tim (tdcBase e) = true →
      (fld (s.reg (tdcBase e)) 27 24 = 0 ∨ 6 < fld (s.reg (tdcBase e)) 27 24 →
        ∃ t, exec (.tdcStart e 1) s = .next t ∧ (t.tdc e).st = 0 ∧ t.getF (tdcBase e + 0x28) 3 0 = 5) ∧
      (1 ≤ fld (s.reg (tdcBase e)) 27 24 → fld (s.reg (tdcBase e)) 27 24 ≤ 3 → ∃ t, exec (.tdcStart e 1) s = .next t ∧ (t.tdc e).st = 1 ∧
        (t.tdc e).cfg = s.reg (tdcBase e) ∧ t.reg (tdcBase e + 0x2C) = 0 ∧
        t.bur.waits = s.bur.waits ++ [⟨2, e, true, 0, (s.reg (tdcBase e + 0x24)).toNat, s.cycle⟩])) ∧
    (x.st = 2 → x.mode = 1 → x.counted = false → ∃ t, exec (.tdcStop e 2) s = .next t ∧ t.getF (tdcBase e + 0x28) 3 0 = 2 ∧ (t.tdc e).st ≠ 2) ∧
    (x.st = 2 → 4 ≤ x.mode → ∃ t, exec (.tdcStop e 2) s = .next t ∧ (t.tdc e).st = 3) ∧
    (1 ≤ x.st → x.st ≤ 3 → ∃ t, exec (.tdcAbort e 4) s = .next t ∧ t.getF (tdcBase e + 0x28) 3 0 = 3 ∧
      ((t.tdc e).st = 0 ∨ (t.tdc e).st = 4)) ∧
    (∀ (m : Nat) (r : List Word) (l : List (List Word)) (u : State), x.out = r :: l → s.ringFull .res = false → s.tdcTurn = some e →
      s.tdcSlot.ringPush .res (wordBytes r) = some u →
      (∃ t, exec (.tdcRecordWritten e m) s = .next t ∧ t.mem = u.mem ∧ t.reg (timBase + 0x5C) = u.reg (timBase + 0x5C) ∧
        t.reg (tdcBase e + 0x2C) = satAdd 32 (s.reg (tdcBase e + 0x2C)) 1) ∧
      (x.st = 2 → l = [] → x.counted = true → ∃ t, exec (.tdcRecordWritten e m) s = .next t ∧ t.getF (tdcBase e + 0x28) 3 0 = 1 ∧
        (t.tdc e).st ≠ 2)))

/-- R199, R213 to R216: the oscillator and reference inputs show in `REF_STAT`; a differing SEL requests a switch, which takes 40 µs once no burst and no
engine runs; losing the reference in use goes back to the oscillator and 15 µs of fine re-lock; a counter counts the rising edges of its
source, its gate ends with their count, and a gate of 0 is not taken; the beat count wraps at 2^48. -/
def Obligations.ReferenceAndCountersRun : Prop :=
  ∀ s : State,
    (∃ t, exec .ocxoWarmReached s = .next t ∧ t.getB (timBase + 0x40) 0 = true ∧ RegsSame s t fun a => evWord a || a == timBase + 0x40) ∧
    (∃ t, exec .ocxoRegulationLost s = .next t ∧ t.getB (timBase + 0x40) 0 = false ∧ RegsSame s t fun a => evWord a || a == timBase + 0x40) ∧
    (∃ t, exec .refInDetected s = .next t ∧ t.getB (timBase + 0x40) 1 = true ∧ RegsSame s t (· == timBase + 0x40)) ∧
    (s.getB (timBase + 0x40) 2 = true → ∃ t, exec .refInLoss s = .next t ∧ t.getB (timBase + 0x40) 1 = false ∧
      t.getB (timBase + 0x40) 2 = false ∧ t.ctl.fineLoss = (s.cycle, s.cycle + 12000)) ∧
    (∀ v : Word, s.Reaches 0 (timBase + 0x44) → ∃ t, exec (.refSelWrite v) s = .next t ∧
      t.tim.switchReq = if bit v 0 = s.getB (timBase + 0x40) 2 then none else some (bit v 0)) ∧
    (∀ toRef, s.tim.switchReq = some toRef → (∀ q, q < 16 → s.burstRuns q = false) → (∀ e, e < 64 → (s.tdc e).st ≠ 2 ∧ (s.tdc e).st ≠ 3) →
      (toRef = true → s.getB (timBase + 0x40) 1 = true) → s.tim.switchDue = none →
      ∃ t, exec .refSwitchApply s = .next t ∧ t.getB (timBase + 0x40) 2 = toRef ∧ t.getB (timBase + 0x40) 3 = true ∧
        t.tim.switchDue = some (s.cycle + 32000) ∧ t.tim.switchReq = none ∧ t.ctl.fineSwitch = (s.cycle + 20000, s.cycle + 32000)) ∧
    (∀ c, s.tim.switchDue = some c → ∃ t, exec .refSwitchDone s = .next t ∧ t.getB (timBase + 0x40) 3 = false ∧ t.tim.switchDue = none ∧
      t.cycle = max s.cycle c) ∧
    (∀ i src et rising, i < 8 → s.getB (timBase + 0x70 + 4 * i) 31 = true → s.getF (timBase + 0x70 + 4 * i) 11 0 = src → s.fcRuns = true →
      s.sourceLive src = true → (rising != s.sourceInv src) = true → et / 20480 < s.fcDue i →
      ∃ t, exec (.tdcInputEdge src et rising) s = .next t ∧
        Tab.get (fun _ => 0) t.tim.fcLive i = Tab.get (fun _ => 0) s.tim.fcLive i + 1) ∧
    (∀ i, i < 8 → s.getB (timBase + 0x70 + 4 * i) 31 = true → s.fcRuns = true →
      ∃ t, exec (.fcGateEnd i) s = .next t ∧
        t.reg (timBase + 0x90 + 4 * i) = wd (min (Tab.get (fun _ => 0) s.tim.fcLive i) 0xFFFFFFFF) ∧ t.cycle = max s.cycle (s.fcDue i) ∧
        Tab.get (fun _ => 0) t.tim.fcFrom i = s.fcDue i ∧ Tab.get (fun _ => 0) t.tim.fcLive i = Tab.get (fun _ => 0) s.tim.fcNext i) ∧
    (∀ req v, s.Reaches req (timBase + 0x6C) → fld v 15 0 = 0 → ∃ t, exec (.fcConfigWrite req (timBase + 0x6C) v) s = .next t ∧
      RegsSame s t fun _ => false) ∧
    (∀ req v, s.Reaches req (timBase + 0x6C) → fld v 15 0 ≠ 0 → ∃ t, exec (.fcConfigWrite req (timBase + 0x6C) v) s = .next t ∧
      t.getF (timBase + 0x6C) 15 0 = fld v 15 0 ∧ RegsSame s t (· == timBase + 0x6C)) ∧
    (∃ t, exec .coarseCountWrap s = .next t ∧ t.cycle = (4 * s.cycle / 2 ^ 48 + 1) * 2 ^ 46 ∧ t.beats = 0 ∧
      t.getB (timBase + 0x10) 3 = true)

/-- R284, R286, R288 to R290: a permitted step start waits for the Bursar, one that is not permitted is refused; an ABORT ends the step; once its tables are
read, an OPEN with a free slot opens its sites under the next insertion number; a LIMIT counts and, on the first fail, charges the limit's bin, or ends BAD_NODE for a bin that is not
valid; a BIN gives the site its bin and counts the hard bin. R292, R295, R297: a post that arms an IDLE slot with a valid image arms it; a queued datalog record is pushed into
its ring, or waits or is lost without room; the handler sequence signals its next site, or ends and frees its slot. -/
def Obligations.FlowStepsRun : Prop :=
  (∀ s : State,
    (s.Reaches 0 (flwBase + 0x88) → s.flowBusy = false →
      (s.startAllowed .flowNode flwBase = true → ∃ t, exec .flowStepStart s = .next t ∧
        t.bur.waits = s.bur.waits ++ [⟨6, 0, true, 0, (s.reg (flwBase + 0x84)).toNat, s.cycle⟩] ∧ SameBut [.bur] s t) ∧
      (s.startAllowed .flowNode flwBase = false → ∃ t, exec .flowStepStart s = .next t ∧ t.bur.waits = s.bur.waits ∧
        t.reg (glbBase + 0x50) = satAdd 32 (s.reg (glbBase + 0x50)) 1)) ∧
    (∀ x : FlowStep, s.flw.step = some x → s.Reaches 0 (flwBase + 0x88) → ∃ t, exec .flowStepAbort s = .next t ∧ t.flw.step = none ∧
      t.reg (flwBase + 0x8C) = 2) ∧
    ∀ (x : FlowStep) (u : State), s.stepRead = some u → u.flw.step = some x →
      (x.kind = 1 → (∀ i, i < 4 → u.getB (flwBase + 0xA0 + 4 * i) 31 = true) → ∃ t, exec .flowOpenCommit s = .next t ∧ t.flw.step = none ∧
        t.reg (flwBase + 0x8C) = 1 ∧ t.reg (flwBase + 0x94) = u.reg (flwBase + 0x94)) ∧
      (x.kind = 1 → u.getB (flwBase + 0xA0) 31 = false → u.dlogRoom 2 = true → ∃ t, exec .flowOpenCommit s = .next t ∧ t.flw.step = none ∧
        t.reg (flwBase + 0x94) = wd ((u.reg (flwBase + 0x94)).toNat + 1) ∧
        ∀ st, st ∈ u.stepSites x → t.cardState st = 1 ∧ t.reg (card st + 4) = wd ((u.reg (flwBase + 0x94)).toNat + 1)) ∧
      (x.kind = 2 → u.binCause x ≠ 0 → u.dlogRoom 64 = true → ∃ t, exec .flowLimitCommit s = .next t ∧ t.flw.step = none ∧
        t.reg (flwBase + 0x8C) = 4) ∧
      (∀ st v fl l res, x.kind = 2 → u.limitResults x = [(st, v, fl, l, res)] → st < 64 → u.dlogRoom 1 = true → u.binCause x = 0 →
        ∃ t, exec .flowLimitCommit s = .next t ∧ t.flw.step = none ∧ t.reg (card st + 0x2C) = wd ((u.reg (card st + 0x2C)).toNat + 1) ∧
          (res = .pass → t.reg (card st) = u.reg (card st) ∧ t.reg (card st + 0xC) = u.reg (card st + 0xC)) ∧
          (res ≠ .pass → u.getB (card st) 16 = false → t.getB (card st) 16 = true ∧ t.getF (card st) 9 0 = limitBin l res ∧
            t.reg (card st + 0xC) = wd ((u.reg (card st + 0xC)).toNat + 1))) ∧
      (∀ st en, x.kind = 3 → u.stepSites x = [st] → st < 64 → u.dlogRoom 5 = true →
        (x.bins.find? fun p => p.1 = u.binOf x st) = some (u.binOf x st, some en) →
        ∃ t, exec .flowBinCommit s = .next t ∧ t.flw.step = none ∧ t.cardState st = 2 ∧ t.getF (card st) 9 0 = u.binOf x st ∧
          t.getF (card st) 25 21 = fld en 20 16 ∧ t.getB (card st) 26 = bit en 30 ∧
          t.reg (flwBase + 0x100 + 4 * fld en 20 16) = wd ((u.reg (flwBase + 0x100 + 4 * fld en 20 16)).toNat + 1))) ∧
  (∀ s : State,
    (∀ w, s.flw.post = some w → fld w 31 28 = 2 → (s.task (fld w 11 0)).st = 0 → (s.task (fld w 11 0)).imageOk = true →
      ∃ t, exec .flowPost s = .next t ∧ t.flw.post = none ∧ (t.task (fld w 11 0)).st ≠ 0 ∧
        (t.task (fld w 11 0)).runsLeft = (s.task (fld w 11 0)).runs) ∧
    (∀ r l, s.flw.queue = r :: l → s.flw.lost = 0 →
      (∀ u, 1 ≤ s.ringRoom .dlog → (s.passTo s.flw.nextAt).ringPush .dlog (wordBytes r) = some u → ∃ t, exec .dlogRecordWritten s = .next t ∧
        t.flw.queue = l ∧ t.mem = u.mem ∧ t.reg (flwBase + 0x6C) = u.reg (flwBase + 0x6C)) ∧
      (s.ringRoom .dlog = 0 → s.getB (flwBase + 0x74) 1 = true → ∃ t, exec .dlogRecordWritten s = .next t ∧ t.flw.queue = l ∧
        t.flw.lost = 1 ∧ t.mem = s.mem) ∧
      (s.ringRoom .dlog = 0 → s.getB (flwBase + 0x74) 1 = false → ∃ t, exec .dlogRecordWritten s = .next t ∧ t.flw.queue = r :: l ∧
        t.mem = s.mem)) ∧
    (∀ i st rest at0 l, s.flw.handler = (i, st :: rest, at0) :: l → ∃ t, exec .handlerSiteStep s = .next t ∧
      t.flw.handler = (i, rest, max s.cycle at0 + 800 * s.getF (flwBase + 0x98) 15 0) :: l ∧ t.cycle = max s.cycle at0) ∧
    (∀ i at0, s.flw.handler = [(i, [], at0)] → i < 4 → ∃ t, exec .handlerSiteStep s = .next t ∧ t.flw.handler = [] ∧
      t.reg (flwBase + 0xA0 + 4 * i) = 0))

/-- R316 to R318, R321 to R323: an item accepted waits for the Bursar with the slot it reserved, emptied; a reserved code ends BAD_ITEM; an abort before
the commit ends it ABORTED; at the commit its slot is the newest vintage under the next ID; an engine the item returns is idle; a desk takes the
newest vintage when its sequencer runs no burst; KEEP and SAVE are as written; a slot to be saved has its copy in flash. -/
def Obligations.VintagesAreMadeAndUsed : Prop :=
  ∀ s : State,
    (∀ code, s.Reaches 0 (vinBase + 0x48) → s.getB (vinBase + 0xC) 0 = false → code = s.getF (vinBase + 0x40) 7 0 →
      s.startAllowed (itemClass code) vinBase = true →
      (∀ i, s.badItem code = false → s.slotFor = some i → ∃ t it, exec .itemStart s = .next t ∧ t.cal.item = some it ∧ it.code = code ∧
        it.slot = i ∧ it.parent = s.newest ∧ it.running = false ∧ t.reg (slotId i) = 0 ∧
        t.bur.waits = s.bur.waits ++ [⟨5, 0, true, 0, (s.reg (vinBase + 0x4C)).toNat, t.cycle⟩]) ∧
      (s.badItem code = true → ∃ t, exec .itemStart s = .next t ∧ t.cal.item = none ∧ t.getF (vinBase + 0x50) 3 0 = 4)) ∧
    (∀ it, s.cal.item = some it → s.Reaches 0 (vinBase + 0x48) → ∃ t, exec .itemAbort s = .next t ∧ t.cal.item = none ∧
      t.getF (vinBase + 0x50) 3 0 = 2) ∧
    (∀ it meas trips m, s.cal.item = some it → it.running = true → it.slot < 16 → ∃ t, exec (.itemCommit meas trips m) s = .next t ∧
      t.cal.item = none ∧ t.cal.nextId = s.cal.nextId + 1 ∧ t.newest = some it.slot ∧ t.reg (slotId it.slot) = wd s.cal.nextId ∧
      t.getF (vinBase + 0x50) 3 0 = 1) ∧
    (∀ e, s.tim.calHeld.contains e = true → (s.tdc e).st = 4 → ∃ t, exec (.calEngineRelease e) s = .next t ∧ (t.tdc e).st = 0 ∧
      t.tim.calHeld.contains e = false) ∧
    (∀ d, d < 32 → s.newest ≠ none → s.burstRuns (s.dskSeq d) = false → ∃ t, exec (.deskAdoptVintage d) s = .next t ∧
      t.deskSlot d = s.newest ∧ ∀ d', d' ≠ d → t.deskSlot d' = s.deskSlot d') ∧
    (∀ i v, i < 16 → s.Reaches 0 (slotFlags i) → ∃ t, exec (.slotFlagsWrite i v) s = .next t ∧ t.getB (slotFlags i) 31 = bit v 31 ∧
      t.getB (slotFlags i) 30 = bit v 30 ∧ RegsSame s t (· == slotFlags i)) ∧
    (∀ i, i < 16 → s.getB (slotFlags i) 30 = true → s.reg (slotId i) ≠ 0 → s.slotSaved i = false →
      ∃ t, exec (.vintageFlashSave i) s = .next t ∧ t.slotSaved i = true ∧ SameBut [.cal, .host] s t)

/-! ### Lanes (17_lanes.md) -/

/-- R328 to R331, R333, R334, R342: a detected lane trains; a request moves the transmitter's coefficients within their limits; a trial ends after 48 µs
in LOCK or, failing, in the next trial; symbol lock leads to CAPS, no lock in time back to training; matching CAPS join the map of a link that has no
lane yet; other CAPS hold the lane out; a lock loss is counted and leads to training, the fourth within 1 s to DEAD. -/
def Obligations.LanesTrainAndLock : Prop :=
  ∀ (n l : Nat) (x : Lane) (s : State), n < 40 → l = linkOf n → x = s.lane n →
    (x.st = 1 → ∃ t, exec (.laneDetect n) s = .next t ∧ (t.lane n).st = 2 ∧ (t.lane n).trials = 0 ∧ SameBut [.lan] s t) ∧
    (∀ set req preset number, readTs set = some (req, preset, number) → x.st ≠ 0 → req ≠ 0 → ∃ t, exec (.tsReceived n set) s = .next t ∧
      ((t.lane n).cm1, (t.lane n).cp1) = coefAfter (x.cm1, x.cp1) req preset ∧ (t.lane n).echo = number ∧ (t.lane n).st = x.st) ∧
    (∀ w h, x.st = 2 →
      (24 ≤ w → 30 ≤ h → ∃ t, exec (.trainTrialEnd n w h) s = .next t ∧ (t.lane n).st = 3 ∧ (t.lane n).eyeW = w ∧ (t.lane n).eyeH = h ∧
        t.cycle = max s.cycle (x.trialAt + 38400)) ∧
      (w < 24 ∨ h < 30 → x.trials < 1034 → ∃ t, exec (.trainTrialEnd n w h) s = .next t ∧ (t.lane n).st = 2 ∧
        (t.lane n).trials = x.trials + 1) ∧
      (w < 24 ∨ h < 30 → 1034 ≤ x.trials → ∃ t, exec (.trainTrialEnd n w h) s = .next t ∧ (t.lane n).st = 7)) ∧
    (x.st = 3 → s.cycle ≤ x.lockAt + (if x.slept then 16000 else 80000) → ∃ t, exec (.laneSymbolLock n) s = .next t ∧ (t.lane n).st = 4) ∧
    (x.st = 3 → x.slept = false → x.trials < 1035 → ∃ t, exec (.lockTimeout n) s = .next t ∧ (t.lane n).st = 2 ∧
      (t.lane n).trials = x.trials ∧ t.cycle = max s.cycle (x.lockAt + 80000)) ∧
    (x.st = 3 → x.slept = true → ∃ t, exec (.sleepLockTimeout n) s = .next t ∧ (t.lane n).st = 2 ∧ (t.lane n).trials = 0 ∧
      t.cycle = max s.cycle (x.lockAt + 16000)) ∧
    (∀ set c skew, x.st = 4 → readCaps set = some c →
      (c.major = fld (s.link l).capsOwn 31 24 → c.kind = (fld (s.link l).capsOwn 1 0) ^^^ 1 → skew ≤ 32 → (s.link l).rx = [] →
        (∀ m, m ∈ lanesOf l → m ≠ n → (s.lane m).st < 4 ∨ 6 < (s.lane m).st) →
        ∃ t, exec (.capsReceived n set skew) s = .next t ∧ (t.lane n).st = 5 ∧ (t.lane n).deskew = skew ∧ (t.link l).rx = [n]) ∧
      (c.major ≠ fld (s.link l).capsOwn 31 24 → ∃ t, exec (.capsReceived n set skew) s = .next t ∧ (t.lane n).st = 4 ∧
        (t.lane n).held = true ∧ (t.link l).rx = (s.link l).rx)) ∧
    (∀ violations, n < 24 → x.st = 5 ∨ x.st = 6 →
      ((x.drops.filter fun c => decide (s.cycle < c + 800000000)).length < 3 → ∃ t, exec (.laneLockLoss n violations) s = .next t ∧
        (t.lane n).st = 2 ∧ (t.link l).rx.contains n = false ∧
        t.reg (linkBlock l + 0x1C) = satAdd 32 (s.reg (linkBlock l + 0x1C)) 1) ∧
      (3 ≤ (x.drops.filter fun c => decide (s.cycle < c + 800000000)).length → ∃ t, exec (.laneLockLoss n violations) s = .next t ∧
        (t.lane n).st = 7 ∧ (t.link l).rx.contains n = false))

/-- R325, R327, R335, R336, R338 to R340, R423 to R425: what a node sends as an ordered set, or as a frame with its CRC-32 striped over lanes, the far end
reads as it was meant, and an AUDIT set with a wrong SUM is none. A good frame in sequence is taken, another answered by a NAK; an acknowledgement frees the replay buffer up to
its frame, and a NAK or 10 µs without one sends the rest again; a new map of the far end starts a re-stripe; an audit's last set ends it, and gives a
class its credits; a re-stripe ends with its count; enough lanes in CAPS widen the map; FILLER is sent when it is due. -/
def Obligations.LinksCarryFrames : Prop :=
  (∀ seq nak, seq < 65536 → readAck (ackSet seq nak) = some (seq, nak)) ∧
  (∀ width map good, width < 256 → map < 65536 → good < 65536 → readStripe (stripeSet width map good) = some (width, map, good)) ∧
  (∀ n st req preset number echo cm1 cp1, req < 256 → preset < 256 → number < 256 →
    readTs (tsSet n st req preset number echo cm1 cp1) = some (req, preset, number)) ∧
  (∀ c : CapsSet, c.lane < 256 → c.locked < 256 → c.widths < 256 → c.features < 256 → c.major < 256 → c.minor < 256 → c.kind < 256 →
    readCaps c.symbols = some c) ∧
  (∀ a : AuditSet, a.cls < 16 → a.free < 65536 → a.good < 65536 → readAudit a.symbols = some a) ∧
  (∀ set : List Byte, symbolAt set 15 ≠ auditSum set → readAudit set = none) ∧
  (∀ x : BellSet, x.bell < 16 → x.gen < 16 → x.origin < 256 → readBell x.symbols = some x) ∧
  (∀ (cls seq w : Nat) (ws : List Word) (data : List Byte), seq < 65536 → 1 ≤ w → w ≤ 16 →
    readFrame (sofSet cls seq) (stripe w (frameBytes ws data)) (eofSet (padBytes w (frameBytes ws data).length)) =
      some (seq, (ws.flatMap fun x => bytesLE 4 x.toNat) ++ data)) ∧
  ∀ (l : Nat) (k : Link) (s : State), l < 4 → k = s.link l →
    (k.up = true → k.audit = 2 → k.re = none → ∀ sof lanes eof,
      (∀ body, readFrame sof lanes eof = some (k.rxNext, body) → ∃ t, exec (.laneFrameReceived l sof lanes eof) s = .next t ∧
        (t.link l).rxNext = (k.rxNext + 1) % 65536) ∧
      ((∀ body, readFrame sof lanes eof ≠ some (k.rxNext, body)) → ∃ t, exec (.laneFrameReceived l sof lanes eof) s = .next t ∧
        (t.link l).rxNext = k.rxNext ∧ (t.link l).ackSent = some ((k.rxNext + 65535) % 65536, true))) ∧
    (∀ set q nak cls bytes rest, k.up = true → ringLink l = false → k.replay = (q, cls, bytes) :: rest → readAck set = some (q, nak) →
      ∃ t, exec (.ackReceived l set) s = .next t ∧ (t.link l).replay = rest ∧
        (l = 0 → t.reg (linkBlock l + 0x24) =
          if nak = true ∧ rest ≠ [] then satAdd 32 (s.reg (linkBlock l + 0x24)) 1 else s.reg (linkBlock l + 0x24))) ∧
    (l < 3 → s.framesFlow l = true → k.replay ≠ [] → ∃ t, exec (.replayTimeout l) s = .next t ∧ (t.link l).replay = k.replay ∧
      (t.link l).ackAt = max s.cycle (k.ackAt + 8000) ∧ t.cycle = max s.cycle (k.ackAt + 8000) ∧
      t.reg (linkBlock l + 0x24) = satAdd 32 (s.reg (linkBlock l + 0x24)) 1) ∧
    (∀ set width map good, readStripe set = some (width, map, good) → k.up = true → map < 2 ^ laneCount l → (bitsOf 16 map).length = width →
      width ∈ permitted l → k.tx ≠ map → ∃ t, exec (.stripeReceived l set) s = .next t ∧ (t.link l).tx = map ∧ (t.link l).re.isSome = true ∧ (t.link l).audit = 1) ∧
    (∀ set a, readAudit set = some a → k.audit = 1 → ∃ t, exec (.auditReceived l set) s = .next t ∧
      ((t.link l).audit = if a.last then 2 else 1) ∧
      (l = 0 → 1 ≤ a.cls → a.cls ≤ 6 → a.free < 256 → t.getF (sat1Base + 0x44 + 4 * a.cls) 7 0 = a.free)) ∧
    (∀ set, readAudit set = none → exec (.auditReceived l set) s = .next s) ∧
    (k.audit = 1 → ∃ t, exec (.auditTimeout l) s = .next t ∧ (t.link l).auditAt = max s.cycle (k.auditAt + 1600) ∧
      t.cycle = max s.cycle (k.auditAt + 1600)) ∧
    (∀ r skews, k.re = some r → k.audit = 2 → (∀ p, p ∈ skews → p.2 ≤ 32) → ∃ t, exec (.restripeComplete l skews) s = .next t ∧
      (t.link l).re = none ∧ (l < 3 → t.reg (linkBlock l + 0x20) = satAdd 32 (s.reg (linkBlock l + 0x20)) 1)) ∧
    (∀ w, k.up = true → k.audit = 2 → k.re = none → s.linkCtrl l 0 = true →
      (permitted l).reverse.find? (fun w => decide (k.rx.length < w)) = some w →
      w ≤ k.rx.length + ((s.available l).filter fun n => (s.lane n).st = 4).length →
      ∃ t, exec (.widenTimerExpire l) s = .next t ∧ (t.link l).rx = (s.available l).take (widthFor l (min 16 (s.available l).length))) ∧
    (k.up = true → s.linkCtrl l 1 = true → ∃ t, exec (.fillerDue l) s = .next t ∧ t.cycle = max s.cycle (k.fillAt + 512) ∧
      (t.link l).fillAt = t.cycle ∧ ∀ i, i < laneCount l → nbit k.tx i = true →
        (t.lane (laneFirst l + i)).prbs = fillerNext i (s.lane (laneFirst l + i)).prbs ∧
        (t.lane (laneFirst l + i)).filler = fillerSet i (s.lane (laneFirst l + i)).prbs)

/-- R340, R341, R343, R344: idle sets are counted and 4,096 of them freeze an ACTIVE lane, FILLER thaws it; a lane the link cannot spare is neither
disabled nor retrained, another leaves its map and is OFF or trains; a loopback start on a lane of the map ends BAD_LANE, another permitted start runs
for its bits; an ABORT or its last bit ends it with its result. -/
def Obligations.LanesFreezeAndDiagnose : Prop :=
  ∀ (n : Nat) (x : Lane) (s : State), x = s.lane n →
    (n < 40 → 4 ≤ x.st → x.st ≤ 6 →
      (∃ t, exec (.idleSetReceived n) s = .next t ∧ (t.lane n).idleRun = min 65535 (x.idleRun + 1) ∧
        (x.st = 5 → 4095 ≤ x.idleRun → (t.lane n).st = 6)) ∧
      ∃ t, exec (.fillerReceived n) s = .next t ∧ (t.lane n).idleRun = 0 ∧ (t.lane n).st = if x.st = 6 then 5 else x.st) ∧
    (n < 40 → x.st = 5 → 4096 ≤ x.idleRun → ∃ t, exec (.laneFreeze n) s = .next t ∧ (t.lane n).st = 6) ∧
    (∀ req v, n < 24 → s.Reaches req (lanePage n + 0x40) →
      (bit v 1 = true → s.laneNeeded n = true → exec (.laneDisableWrite req n v) s = .next s) ∧
      (bit v 1 = true → s.laneNeeded n = false → x.st ≠ 0 → ∃ t, exec (.laneDisableWrite req n v) s = .next t ∧ (t.lane n).st = 0 ∧
        t.getB (lanePage n + 0x40) 1 = true ∧ (t.link (linkOf n)).rx.contains n = false) ∧
      (bit v 1 = false → bit v 0 = true → s.laneNeeded n = true → exec (.laneRetrainWrite req n v) s = .next s) ∧
      (bit v 1 = false → bit v 0 = true → s.laneNeeded n = false → ∃ t, exec (.laneRetrainWrite req n v) s = .next t ∧
        t.getB (lanePage n + 0x40) 1 = false ∧ (x.st = 7 → (t.lane n).st = 1) ∧ (1 ≤ x.st → x.st ≤ 6 → (t.lane n).st = 2))) ∧
    (∀ v, n < 24 → s.Reaches 0 (lanePage n + 0x60) →
      (bit v 0 = true → bit v 1 = false → x.diag = none →
        (s.startAllowed .diag (lanePage n + 0x60) = false → ∃ t, exec (.diagStart n v) s = .next t ∧ (t.lane n).diag = none ∧
          t.reg (glbBase + 0x50) = satAdd 32 (s.reg (glbBase + 0x50)) 1) ∧
        (s.startAllowed .diag (lanePage n + 0x60) = true → bit v 4 = true → (s.link (linkOf n)).rx.contains n = true →
          ∃ t, exec (.diagStart n v) s = .next t ∧ (t.lane n).diag = none ∧ t.reg (lanePage n + 0x68) = 4) ∧
        (s.startAllowed .diag (lanePage n + 0x60) = true → bit v 4 = false ∨ (s.link (linkOf n)).rx.contains n = false →
          ∃ t, exec (.diagStart n v) s = .next t ∧ (t.lane n).diag = some (bit v 4, 2 ^ (24 + s.getF (lanePage n + 0x64) 27 24),
            s.cycle + (2 ^ (24 + s.getF (lanePage n + 0x64) 27 24) + 19) / 20) ∧ t.getB (lanePage n + 0xC) 0 = true)) ∧
      (bit v 1 = true → x.diag.isSome = true → ∃ t, exec (.diagAbort n v) s = .next t ∧ (t.lane n).diag = none ∧
        t.reg (lanePage n + 0x68) = 2)) ∧
    (∀ b bits due errors, n < 24 → x.diag = some (b, bits, due) → bits < 2 ^ 64 → ∃ t, exec (.diagComplete n errors) s = .next t ∧
      (t.lane n).diag = none ∧ t.reg (lanePage n + 0x68) = 1 ∧ t.reg64 (lanePage n + 0x70) = bits ∧
      t.reg64 (lanePage n + 0x78) = min errors bits ∧ t.cycle = max s.cycle due)

/-! ### The ring, time bases and Bells (18_ring_time.md, 19_alignment.md) -/

/-- R349, R351 to R353: a ring frame's header is read as it was sent. A frame of a type that is not defined is discarded and counted; one of this node that
comes back is removed, and counted unless it was a broadcast; one that has passed 127 hops is discarded; any other that is not for this node leaves by
the other port, or wrapped by its own, with one hop more: at once with a credit of its class, else when one is there. A credit frame's returns are
added. Returned credits that have waited 200 ns leave without credit; on the Satchel they are back at the far end (the model's choice, log 81). -/
def Obligations.FramesAreForwardedOrDropped : Prop :=
  (∀ (h : RingHead) (data : List Byte), h.dest < 256 → h.src < 256 → h.hops < 256 → h.cls < 16 → h.typ < 16 → h.crEvent < 256 → h.crMgmt < 256 →
    h.crData < 256 → h.id < 256 → h.len < 512 → bodyRing ((h.words.flatMap fun x => bytesLE 4 x.toNat) ++ data) = h) ∧
  (∀ (p : Nat) (s : State), p < 2 → s.carries p = true →
    (∀ body h, h = bodyRing body → 2 ≤ h.cls → h.cls ≤ 4 →
      (frameTypeOk h.cls h.typ = false → ∃ t, exec (.ringFrameForward p body) s = .next t ∧ t.ring = s.ring ∧
        t.reg (rngBase + 0x5C) = satAdd 32 (s.reg (rngBase + 0x5C)) 1) ∧
      (frameTypeOk h.cls h.typ = true → h.dest ≠ 0xFE → h.dest ≠ 0xFF → s.ring.num ≠ some h.dest → s.ring.num = some h.src ∨ 127 ≤ h.hops →
        ∃ t, exec (.ringFrameForward p body) s = .next t ∧ t.ring = s.ring ∧
          t.reg (rngBase + 0x5C) = satAdd 32 (s.reg (rngBase + 0x5C)) 1) ∧
      (frameTypeOk h.cls h.typ = true → h.dest = 0xFF → s.ring.num = some h.src ∨ s.ownFrame h (body.drop 12) = true →
        ∃ t, exec (.ringFrameForward p body) s = .next t ∧ t.ring = s.ring ∧ RegsSame s t fun _ => false) ∧
      (∀ out, out = (if s.carries (1 - p) = true then 1 - p else p) → frameTypeOk h.cls h.typ = true → h.dest ≠ 0xFE →
        s.ring.num ≠ some h.dest → s.ownFrame h (body.drop 12) = false → h.dest = 0xFF ∨ h.hops < 127 → s.ring.wait = [] →
        (s.canSend (1 + out) h.cls = false → ∃ t, exec (.ringFrameForward p body) s = .next t ∧ RegsSame s t (fun _ => false) ∧
          t.ring.wait = [{ port := out, cls := h.cls, dest := h.dest, typ := h.typ, src := some h.src, hops := h.hops + 1, id := h.id, tsReq := h.tsReq,
                           wrapped := h.wrapped || decide (out = p), data := body.drop 12, origin := some p }]) ∧
        (s.canSend (1 + out) h.cls = true → ∃ t, exec (.ringFrameForward p body) s = .next t ∧ t.ring = s.ring ∧ RegsSame s t (fun _ => false) ∧
          ∃ bytes, (t.link (1 + out)).replay = (s.link (1 + out)).replay ++ [((s.link (1 + out)).txSeq, h.cls, bytes)]))) ∧
    (∀ a b c, (s.link (1 + p)).audit = 2 → s.ring.wait = [] → ∃ t, exec (.creditFrameReceived p a b c) s = .next t ∧
      Tab.get (fun _ => 0) (t.link (1 + p)).credit 2 = Tab.get (fun _ => 0) (s.link (1 + p)).credit 2 + a ∧
      Tab.get (fun _ => 0) (t.link (1 + p)).credit 3 = Tab.get (fun _ => 0) (s.link (1 + p)).credit 3 + b ∧
      Tab.get (fun _ => 0) (t.link (1 + p)).credit 4 = Tab.get (fun _ => 0) (s.link (1 + p)).credit 4 + c) ∧
    ((s.link (1 + p)).owed ≠ [] → s.framesFlow (1 + p) = true → ∃ t, exec (.creditReturnTimer p) s = .next t ∧
      (t.link (1 + p)).owed = [] ∧ (t.link (1 + p)).credit = (s.link (1 + p)).credit ∧
      t.cycle = max s.cycle ((s.link (1 + p)).owedAt + 160))) ∧
  (∀ (c n : Nat) (s : State), 1 ≤ c → c ≤ 6 → (s.link 0).owed = [(c, n)] → s.framesFlow 0 = true →
    ∃ t, exec (.creditReturnTimer 2) s = .next t ∧ (t.link 0).owed = [] ∧
      t.satCredit true c = min (s.getF (satCreditReg true c) 23 16) (s.satCredit true c + n))

/-- R53, R347, R354 to R357: the payloads of ROSTER and FORMED are read as they were sent. The master's START, refused while the page's EN is 0, or a
request that reaches it, begins a roll call; a node that sees a new roll call begins its exchanges; a neighbour's UID is kept; a roster joins those
collected, and a master that sees a roster of a master of lower UID is master no more; the master forms the ring from complete rosters, with its own
number 0; a node takes its place from the frames of FORMED. -/
def Obligations.RollCallFormsTheRing : Prop :=
  (∀ r : Roster, r.uid < 2 ^ 64 → r.num < 256 → r.bypA < 65536 → r.bypB < 65536 → r.eastUid < 2 ^ 64 → r.eastDelay < 2 ^ 32 →
    r.westUid < 2 ^ 64 → r.westDelay < 2 ^ 32 → readRoster r.payload = some r) ∧
  (∀ f : Formed, f.roll < 2 ^ 32 → f.n < 256 → f.idx ≤ 2 → f.pairs.length ≤ 27 → (∀ p, p ∈ f.pairs → p.1 < 256 ∧ p.2 < 2 ^ 64) →
    readFormed f.payload = some f) ∧
  ∀ s : State,
    (∀ req v, s.Reaches req (rngBase + 0x54) → s.ring.master = true → bit v 0 = true → s.getB (rngBase + 8) 0 = false →
      ∃ t, exec (.rollCtrlStart req v) s = .next t ∧ t.ring = s.ring ∧ t.reg (glbBase + 0x50) = satAdd 32 (s.reg (glbBase + 0x50)) 1) ∧
    (∀ req v, s.Reaches req (rngBase + 0x54) → s.ring.master = true → s.carries 0 = true ∨ s.carries 1 = true →
      (bit v 0 = true → s.getB (rngBase + 8) 0 = true → ∃ t, exec (.rollCtrlStart req v) s = .next t ∧ t.ring.collect = some [] ∧ t.ring.exchanging = true ∧
        t.ring.rollSeq = s.ring.rollSeq + 1 ∧ t.ring.rollAt = s.cycle) ∧
      (bit v 0 = false → exec (.rollCtrlStart req v) s = .next s)) ∧
    (∀ p, p < 2 → s.carries p = true →
      (s.ring.master = true → ∃ t, exec (.rollReqReceived p) s = .next t ∧ t.ring.collect = some [] ∧ t.ring.rollSeq = s.ring.rollSeq + 1) ∧
      (s.ring.master = false → ∃ t, exec (.rollReqReceived p) s = .next t ∧ t.ring = s.ring) ∧
      (∀ k, s.ring.rollSeen ≠ some k → ∃ t, exec (.rollcallReceived p k) s = .next t ∧ t.ring.rollSeen = some k ∧ t.ring.exchanging = true ∧
        (t.port p).cnt = 0 ∧ (t.port p).dreq.isSome = true) ∧
      (∀ uid, ∃ t, exec (.helloReceived p uid) s = .next t ∧ (t.port p).nbrUid = uid % 2 ^ 64) ∧
      (∀ payload r, readRoster payload = some r → r.uid ≠ s.uid →
        (∀ rs, r.master = false → s.ring.collect = some rs → ∃ t, exec (.rosterReceived p payload) s = .next t ∧
          t.ring.collect = some (rs.filter (·.uid ≠ r.uid) ++ [r])) ∧
        (r.master = true → r.uid < s.uid → s.getB (rngBase + 0x40) 0 = true → s.ring.clash ≠ s.ring.rollSeen →
          ∃ t, exec (.rosterReceived p payload) s = .next t ∧ t.ring.master = false ∧ t.ring.collect = none ∧
            t.getB (rngBase + 0x14) 3 = true)) ∧
      (∀ payload f a b, readFormed payload = some f → f.idx = 0 → s.ring.master = false → s.ring.forming = [] → 1 ≤ f.n → f.n ≤ 27 →
        ∃ t, exec (.formedReceived p payload a b) s = .next t ∧ t.ring.roster = f.pairs ∧ t.ring.n = f.pairs.length ∧
          t.ring.st = (if f.split then 3 else if f.wrapped then 2 else 1) ∧ t.ring.num = (f.pairs.find? (·.2 = s.uid)).map Prod.fst)) ∧
    (∀ rs, s.ring.collect = some rs → rs.filter (·.uid ≠ s.uid) = [] → s.carries 0 = false → s.carries 1 = false →
      ∃ t, exec .rosterCollectEnd s = .next t ∧ t.ring.collect = none ∧ t.ring.roster = [(0, s.uid)] ∧ t.ring.num = some 0 ∧ t.ring.n = 1)

/-- R354, R356, R358, R361: four SYNC intervals after a change without FORMED the ring reads SPLIT; the bypass closes for a cause and opens without one;
an exchange is started each 1 ms, or each 1 µs in a roll call; a DREQ is answered by a DRESP with its turn; the 16th measurement of a roll call sets
DELAY to their mean, a later one moves it by a sixteenth of the difference. The sets of R360 that carry them are read as they were sent. -/
def Obligations.HopsAreMeasured : Prop :=
  (∀ seq, seq < 256 → readDreq (dreqSet seq) = some seq) ∧
  (∀ turn seq, turn < 2 ^ 64 → seq < 256 → readDresp (drespSet turn seq) = some (turn, seq)) ∧
  ∀ s : State,
    (∀ c, s.ring.changeAt = some c → s.ring.master = false → s.getB (rngBase + 0x40) 0 = false → s.ring.st ≠ 0 →
      ∃ t, exec .splitTimeout s = .next t ∧ t.ring.st = 3 ∧ t.ring.changeAt = none ∧ t.cycle = max s.cycle (c + 4 * s.syncCycles)) ∧
    (s.bypassHeld = true → s.ring.closed = false → ∃ t, exec .bypassClose s = .next t ∧ t.ring.closed = true ∧ (t.link 1).up = false ∧
      (t.link 2).up = false) ∧
    (s.bypassHeld = false → s.ring.closed = true → 4 ≤ s.ctl.mode → ∃ t, exec .bypassOpen s = .next t ∧ t.ring.closed = false) ∧
    (∀ p, p < 2 → s.carries p = true → 16 ≤ (s.port p).cnt → ∃ t, exec (.delayExchangeTimer p) s = .next t ∧
      t.cycle = max s.cycle ((s.port p).exchAt + 800000) ∧ (t.port p).dreq = some (((s.port p).seq + 1) % 256, max (t.cycle * 20480) (s.port p).timeFree) ∧
      (t.port p).seq = ((s.port p).seq + 1) % 256) ∧
    (s.ring.exchanging = true → s.carries 0 = true → (s.port 0).cnt < 16 → s.carries 1 = false →
      ∃ t, exec .rollcallExchangeTimer s = .next t ∧ t.cycle = max s.cycle ((s.port 0).exchAt + 800) ∧ (t.port 0).dreq.isSome = true) ∧
    (∀ p set seq b c a, p < 2 → (s.link (1 + p)).up = true → readDreq set = some seq → a = max c (s.port p).timeFree →
      ∃ t, exec (.dreqReceived p set b c) s = .next t ∧ (t.port p).turn = some (seq, (s.frameInterval b a).toNat) ∧
        (t.port p).timeOut = drespSet (s.frameInterval b a).toNat seq ∧ (t.port p).timeFree = a + 80 * 20480 ∧ SameBut [.ring] s t) ∧
    (∀ p set seq turn d a, p < 2 → readDresp set = some (turn, seq) → (s.port p).dreq = some (seq, a) →
      ((s.port p).cnt < 15 → ∃ t, exec (.drespReceived p set d) s = .next t ∧ (t.port p).dreq = none ∧
        (t.port p).cnt = (s.port p).cnt + 1 ∧ (t.port p).sum = (s.port p).sum + (s.frameInterval a d - (turn : Int)) / 2) ∧
      ((s.port p).cnt = 15 → ∃ t, exec (.drespReceived p set d) s = .next t ∧ (t.port p).changed = false ∧
        t.reg (rngBase + 0x64 + 16 * p) = wd (unsext 32 (((s.port p).sum + (s.frameInterval a d - (turn : Int)) / 2) / 16))) ∧
      (16 ≤ (s.port p).cnt → ∃ t, exec (.drespReceived p set d) s = .next t ∧
        t.reg (rngBase + 0x64 + 16 * p) = wd (unsext 32 (((s.reg (rngBase + 0x64 + 16 * p)).toNat : Int) +
          ((s.frameInterval a d - (turn : Int)) / 2 - ((s.reg (rngBase + 0x64 + 16 * p)).toNat : Int)) / 16))))

/-- R362 to R367: the master sends a SYNC each interval; a node keeps each port's latest SYNC and sends it on with its residence time and one hop more
(none more at a wrap); the first one accepted sets TB0 by a step, and a SYNC that carries HOLDOVER moves nothing; with none for 4 intervals TB0 holds
over. A SYNC set is read as it was sent. -/
def Obligations.SyncKeepsTime : Prop :=
  (∀ y : SyncSet, y.time < unitsPerSec * 2 ^ 48 → y.hops < 64 → y.seq < 256 → readSync y.symbols = some y) ∧
  ∀ s : State,
    (s.ring.master = true → (s.tb 0).counting = true → ∃ t, exec .syncSendTimer s = .next t ∧
      t.cycle = max s.cycle (s.ring.syncAt + s.syncCycles) ∧ t.ring.syncAt = t.cycle ∧ t.ring.syncSeq = (s.ring.syncSeq + 1) % 256 ∧
      ∀ p, p < 2 → (t.port p).timeOut = (⟨t.tbAt 0 (max (t.cycle * 20480) (s.port p).timeFree), 0, (s.tb 0).holdover, false, s.ring.syncSeq,
        decide (s.ring.stepLeft ≠ 0)⟩ : SyncSet).symbols) ∧
    (∀ p set y r x now, p < 2 → (s.link (1 + p)).up = true → s.ring.master = false → readSync set = some y →
      now = (s.syncTime y : Int) + s.delayIn p →
      (∀ q a, q = (if s.carries (1 - p) = true then 1 - p else p) → a = max x (s.port q).timeFree →
        ∃ t, exec (.syncReceived p set r x) s = .next t ∧ (t.port p).sync = some ⟨y.hops, y.hold, s.cycle⟩ ∧
          (t.port q).timeOut = SyncSet.symbols { y with
            time := (now + s.frameInterval r a).toNat, hops := y.hops + (s.carries (1 - p)).toNat
            hold := y.hold || (s.port p).changed || (s.tb 0).holdover, wrapped := y.wrapped || !(s.carries (1 - p)) }) ∧
      (y.hold = true → ∃ t, exec (.syncReceived p set r x) s = .next t ∧ t.tbs = s.tbs) ∧
      (y.hold = false → s.syncChosen p y.hops = true → (s.tb 0).counting = true → (s.tb 0).holdover = false → s.ring.first = true →
        ∃ t, exec (.syncReceived p set r x) s = .next t ∧ t.tbValue 0 = s.tbValue 0 + (now - (s.tb 0).atEt r) ∧ t.ring.first = false)) ∧
    (s.ring.master = false → s.getB (rngBase + 0x40) 0 = false → (s.tb 0).counting = true → ∃ t, exec .syncLossTimeout s = .next t ∧
      (t.tb 0).holdover = true ∧ t.cycle = max s.cycle (s.ring.syncAt + 4 * s.syncCycles))

/-- R373 to R377: an EXPORT frame for an enabled channel occurs here, and in RECESS is counted as dropped; a pending export leaves with credit; STATE and
WAKE frames reach this node; a DATA frame is written in the receive ring with room; `DTX_GO` takes a good frame and refuses another, its SOF ends it
and is stamped, and a stamp is popped. -/
def Obligations.MessagesCrossTheRing : Prop :=
  ∀ s : State,
    (∀ p c, p < 2 → s.carries p = true → c < 16 → s.getB (rngBase + 0x80) c = true →
      (s.ctl.mode = 4 → ∃ t, exec (.exportFrameReceived p c false) s = .next t ∧
        t.reg (rngBase + 0x84) = satAdd 32 (s.reg (rngBase + 0x84)) 1) ∧
      (s.ctl.mode ≠ 4 → ∃ t, exec (.exportFrameReceived p c false) s = .next t ∧ t.getB (rngBase + 0x10) (16 + c) = true ∧
        t.getB (rngBase + 0x14) (16 + c) = true)) ∧
    (∀ c, c < 16 → 1 ≤ s.getF (rngBase + 0x140 + 4 * c) 15 0 → s.ring.num.isSome = true → s.getF (rngBase + 0x100 + 4 * c) 7 0 = 0xFF →
      s.carries 0 = true → s.canSend 1 2 = true → s.ring.wait = [] → ∃ t, exec (.exportSend c) s = .next t ∧
        t.reg (rngBase + 0x140 + 4 * c) = wd (s.getF (rngBase + 0x140 + 4 * c) 15 0 - 1) ∧
        Tab.get (fun _ => 0) (t.link 1).credit 2 = Tab.get (fun _ => 0) (s.link 1).credit 2 - 1) ∧
    (∀ p src, p < 2 → s.carries p = true → src < 64 → ∃ t, exec (.stateFrameReceived p src true) s = .next t ∧
      Tab.get (fun _ => false) t.ring.recess src = true ∧
      t.ring.wait = s.ring.wait.filter (fun f => !(f.dest = src && f.cls ≠ 2 && f.typ ≠ 5 && f.origin.isNone)) ∧
      t.ring.held = s.ring.held ++ s.ring.wait.filter (fun f => f.dest = src && f.cls ≠ 2 && f.typ ≠ 5 && f.origin.isNone)) ∧
    (∀ p, p < 2 → s.carries p = true → s.ctl.mode = 4 → s.getB (glbBase + 0x64) 22 = true → s.ctl.recess = .resting → s.prune.stage < 2 →
      ∃ t, exec (.wakeFrameReceived p) s = .next t ∧ t.ctl.recess = .locking) ∧
    (∀ req v, s.Reaches req (rngBase + 0x88) → s.ring.num.isSome = true → s.carries 0 = false → s.carries 1 = false → fld v 7 0 = 0xFF →
      s.ring.wait = [] → ∃ t, exec (.wakeSendWrite req v) s = .next t ∧ t.ring.wait = [{ port := 0, cls := 3, typ := 5, dest := 0xFF }]) ∧
    (∀ p words data et, p < 2 → s.carries p = true → data.length ≤ 256 → s.ring.rx = [] →
      (s.ringFull .drx = true → ∃ t, exec (.dataFrameReceived p words data et) s = .next t ∧ t.ring.rx.length = 1 ∧ t.mem = s.mem) ∧
      (s.ringFull .drx = false → s.storeUp (isNear (s.ringSlot .drx (s.reg (rngBase + 0xB0)).toNat)) = true →
        ∃ t, exec (.dataFrameReceived p words data et) s = .next t ∧ t.ring.rx = [] ∧
          t.reg (rngBase + 0xB0) = wd (((s.reg (rngBase + 0xB0)).toNat + 1) % s.ringSize .drx))) ∧
    (∀ f l, s.ring.rx = f :: l → s.ringFull .drx = false → s.storeUp (isNear (s.ringSlot .drx (s.reg (rngBase + 0xB0)).toNat)) = true →
      ∃ t, exec .drxSlotWrite s = .next t ∧ t.ring.rx = l ∧
        t.reg (rngBase + 0xB0) = wd (((s.reg (rngBase + 0xB0)).toNat + 1) % s.ringSize .drx)) ∧
    (∀ req v, s.Reaches req (rngBase + 0x9C) → bit v 0 = true → s.ring.dtx = none →
      (256 < s.getF (rngBase + 0x98) 8 0 → ∃ t, exec (.dtxGo req v) s = .next t ∧ t.ring.dtx = none ∧ t.reg (rngBase + 0xA0) = 2) ∧
      (∀ d, s.ring.num.isSome = true → s.getF (rngBase + 0x98) 31 24 = 0xFF → s.getF (rngBase + 0x98) 8 0 ≤ 256 →
        d = { dest := 0xFF, id := s.getF (rngBase + 0x98) 23 16, tsReq := s.getB (rngBase + 0x98) 15, addr := s.reg64 (rngBase + 0x90),
              len := s.getF (rngBase + 0x98) 8 0 } →
        (∀ w, w = State.setReg { s with ring := { s.ring with dtx := some d } } (rngBase + 0xA0) 16 →
          (w.portRun 3 false d.addr d.len = none → exec (.dtxGo req v) s = .next w) ∧
          (∀ u, w.portRun 3 false d.addr d.len = some u → u.readOk d.addr d.len = true → ∃ t, exec (.dtxGo req v) s = .next t ∧
            t.reg (rngBase + 0xA0) = 16 ∧ t.ring.dtx = some { d with data := some (u.readBytes d.addr d.len) })))) ∧
    (∀ d et, s.ring.dtx = some d → d.data ≠ none → d.dest = 0xFF → s.carries 0 = true → s.canSend 1 4 = true →
      Tab.get (fun _ => false) s.ring.recess 0xFF = false → ∃ t, exec (.dtxSofSent et) s = .next t ∧ t.ring.dtx = none ∧
        t.reg (rngBase + 0xA0) = 1 ∧ (d.tsReq = true → s.ring.tsq.length < 16 → t.ring.tsq.length = s.ring.tsq.length + 1)) ∧
    (∀ req v, s.Reaches req (rngBase + 0xD4) → bit v 0 = true → ∃ t, exec (.tsqPop req v) s = .next t ∧ t.ring.tsq = s.ring.tsq.drop 1 ∧
      SameBut [.ring] s t)

/-- R369 to R372: a PPS edge of the selected direction with a second committed marks it on TB1, and 1.1 s without one is holdover; a commit of the
master's `SET` steps TB0 to it; one that is not whole seconds does not take on TB1; a conversion of a base that does not count is not valid. R383 to
R389: an ARM of a PIN Bell, or of a RING Bell far enough ahead, arms it, and one too late is refused; a DISARM of an armed Bell returns it to IDLE; a
ring fills the latch here and is repeated twice, 100 ns apart; a Bell set fills the latch, or cancels an arm of its GEN; an armed RING Bell without
its ring is MISSED at D; an edge on BELL_IN fires a PIN Bell armed before it; at S `BELL_FIRED` occurs. -/
def Obligations.TimeBasesAndBells : Prop :=
  (∀ s : State,
    (∀ et, exec (.ppsEdge (s.getB (tkpBase + 0x60) 0) et) s = .next s) ∧
    (∀ et sec, s.tk.ppsSet = some sec → (s.tb 1).counting = true → (s.tb 1).follow = none → ∃ t,
      exec (.ppsEdge (!s.getB (tkpBase + 0x60) 0) et) s = .next t ∧ t.tk.ppsSet = none ∧ t.tk.ppsAt = s.cycle ∧
      t.tbValue 1 = s.tbValue 1 + ((sec * unitsPerSec : Nat) - (s.tb 1).atEt et) ∧ (t.tb 1).holdover = false) ∧
    ((s.tb 1).counting = true → (s.tb 1).holdover = false → ∃ t, exec .ppsLossTimeout s = .next t ∧ (t.tb 1).holdover = true ∧
      t.cycle = max s.cycle (s.tk.ppsAt + 880000000)) ∧
    (∀ req v tm, s.Reaches req (tbBase 0 + 0x1C) → s.ring.master = true → s.commitTimeBad req (tbBase 0 + 0x10) = false →
      tm = s.commitTimeValue req (tbBase 0 + 0x10) v → (s.tb 0).follow = none →
      ∃ t, exec (.timeBaseSet req 0 v) s = .next t ∧ t.tbValue 0 = tm ∧ t.ring.stepLeft = 4) ∧
    (∀ req v, s.Reaches req (tbBase 1 + 0x1C) → s.commitTimeValue req (tbBase 1 + 0x10) v % unitsPerSec ≠ 0 →
      ∃ t, exec (.timeBaseSet req 1 v) s = .next t ∧ t.tk = s.tk ∧ t.tbs = s.tbs) ∧
    (∀ req v, s.Reaches req (tkpBase + 0x44) → (∀ b, b < 4 → (s.tbSrc b).counting = false) → ∃ t, exec (.convBeatWrite req v) s = .next t ∧
      t.reg (tkpBase + 0x4C) = 0 ∧ t.time4 (tkpBase + 0x50) = 0)) ∧
  (∀ (b : Nat) (x : Bell) (s : State), b < 16 → x = s.bell b →
    (∀ req v, s.Reaches req (bellBase b + 0x10) → fld v 1 0 = 1 → x.st ≠ 1 →
      (bit v 8 = true → ∃ t, exec (.bellArm req b v) s = .next t ∧ (t.bell b).st = 1 ∧ (t.bell b).gen = fld v 7 4 ∧
        (t.bell b).pin = true ∧ t.reg (rngBase + 0x198) = wd (b * 16 + 1)) ∧
      (bit v 8 = false → (s.tb 0).counting = true → s.time4 (bellBase b) ≤ s.tbNow 0 + s.bellGuard → ∃ t, exec (.bellArm req b v) s = .next t ∧
        t.bell b = x ∧ t.reg (rngBase + 0x198) = wd (b * 16 + 2)) ∧
      (bit v 8 = false → (s.tb 0).counting = true → s.tbNow 0 + s.bellGuard < s.time4 (bellBase b) → ∃ t, exec (.bellArm req b v) s = .next t ∧
        (t.bell b).st = 1 ∧ (t.bell b).time = s.time4 (bellBase b) ∧ t.reg (rngBase + 0x198) = wd (b * 16 + 1))) ∧
    (∀ req v, s.Reaches req (bellBase b + 0x10) → fld v 1 0 = 2 → x.st = 1 → ∃ t, exec (.bellDisarm req b v) s = .next t ∧ (t.bell b).st = 0) ∧
    (∀ req v me, s.Reaches req (rngBase + 0x1A0) → fld v 3 0 = b → bit v 8 = false → s.ring.num = some me → s.ring.closed = false →
      ∃ t, exec (.bellRingWrite req v) s = .next t ∧ (t.bell b).latch = some (fld v 7 4, me) ∧
        t.bel.repeats = s.bel.repeats ++ [(b, fld v 7 4, me, false, 2, s.cycle + 80)] ∧ t.reg (rngBase + 0x198) = wd (b * 16 + 4)) ∧
    (∀ gen me left due, s.bel.repeats = [(b, gen, me, false, left, due)] → ∃ t, exec .bellRepeatSend s = .next t ∧
      (t.bell b).latch = some (gen, me) ∧ t.cycle = max s.cycle due ∧
      t.bel.repeats = if left ≤ 1 then [] else [(b, gen, me, false, left - 1, t.cycle + 80)]) ∧
    (∀ p set gen origin cancel, p < 2 → (s.link (1 + p)).up = true → readBell set = some ⟨b, gen, origin, cancel⟩ →
      ∃ t, exec (.bellSetReceived p set) s = .next t ∧ (t.bell b).latch = (if cancel then none else some (gen, origin)) ∧
        (t.bell b).st = (if cancel = true ∧ x.st = 1 ∧ x.gen = gen then 4 else x.st) ∧
        (s.carries (1 - p) = true → s.ring.num ≠ some origin → (t.link (2 - p)).sent = [(⟨b, gen, origin, cancel⟩ : BellSet).symbols])) ∧
    (x.st = 1 → x.pin = false → (s.tb 0).counting = true → x.latch = none → ∃ t, exec (.bellDecision b) s = .next t ∧ (t.bell b).st = 3 ∧
      t.reg (rngBase + 0x194) = satAdd 32 (s.reg (rngBase + 0x194)) 1) ∧
    (∀ et, x.st = 1 → x.pin = true → x.armAt * 20480 ≤ et →
      ∃ t, exec (.bellInEdge et) s = .next t ∧ (t.bell b).st ≠ 1 ∧ t.cycle = max s.cycle (et / 20480 + 1)) ∧
    (∀ at0 l, x.sAt = at0 :: l → ∃ t, exec (.bellInstantS b) s = .next t ∧ (t.bell b).sAt = l ∧ t.cycle = max s.cycle (at0 / 20480) ∧
      t.getB (rngBase + 0x10) 8 = true))

/-! ### The Satchel and the Gallery (20_host_satchel.md, 22_gallery.md) -/

/-- R403, R405, R46, R50: a register read is outstanding with the data read at the field end, and its completion returns them; a posted write is applied;
TIME gives the host side TB0; the oldest FLOW message of a direction arrives; TIME and the host die's readings leave every 1 ms; with the link down
nothing crosses. R62, R63, R304: the oldest `EVENT` message of the field end updates the host's shadow of its page, and sends its MSI-X message if it
asks for one and no mask holds; the oldest one of the host end brings its pulse to the Corridor. R38, R304, R406, R407: when the host end sees its
link down, the outstanding reads end, the loss is counted, and a host side past BOOT is in DETENTION; when both ends are up and audited, the messages
flow again and the host side shows the field side's mode. R404: a message is read as it was sent; each one takes a credit of its class. -/
def Obligations.MessagesCrossTheSatchel : Prop :=
  (∀ m : SatMsg, m.head.cls < 16 → m.head.typ < 16 → m.head.tag < 256 → m.head.len < 512 → m.head.crRead < 16 → m.head.crWrite < 16 →
    m.head.crDma < 256 → m.head.crEvent < 16 → m.head.crTime < 16 → m.head.crFlow < 16 →
    (1 ≤ m.head.cls ∧ m.head.cls ≤ 3 ∧ m.addr < 2 ^ 64 ∨ m.addr = 0) → (m.head.cls = 3 ∧ m.chan < 8 ∨ m.chan = 0) →
    readSat ((m.words.flatMap fun x => bytesLE 4 x.toNat) ++ m.data) = m) ∧
  (∀ s : State,
    (∀ tag addr u, s.regrdOk tag false addr 4 = true → u = s.satSend true { head := { cls := 1, tag := tag }, addr := addr } →
      ∃ t, exec (.satchelRegrdRequest tag false addr 4) s = .next t ∧ t.satCredit true 1 = s.satCredit true 1 - 1 ∧
      t.sat.reads = s.sat.reads ++ [{ tag := tag, bar2 := false, addr := addr, len := 4, data := bytesLE 4 (u.readWord 0 addr).1.toNat }]) ∧
    (∀ tag r, s.sat.reads.find? (fun r => r.tag = tag) = some r → s.satReady false 1 (completionMsgs r).length = true → r.bar2 = false →
      ∃ t, exec (.satchelRegrdCompletion tag) s = .next t ∧ t.lastRead = wd (ofBytesLE (r.data.take 4)) ∧
        t.sat.reads = s.sat.reads.filter fun r => decide (r.tag ≠ tag)) ∧
    (∀ page g i r data, pageOf (page + 8) = some (g, i, 8) → regAt (page + 8) = some (g.kind, i, 8, r, 0) → r.words = 1 → r.acc = .rw →
      page % 4 = 0 → nbit (writeMask (page + 8)) 0 = true → hostPage (page + 8) = false → List.length data = 4 →
      bit (wd (ofBytesLE data)) 1 = false → s.satReady true 2 1 = true → s.Reaches 0 (page + 8) →
      ∃ t, exec (.satchelRegwr false (page + 8) data) s = .next t ∧ t.getB (page + 8) 0 = bit (wd (ofBytesLE data)) 0) ∧
    (∀ m l, s.sat.timeTx = m :: l → s.satReady false 5 1 = true → ∃ t, exec .satchelTime s = .next t ∧ t.sat.hostTime = some m ∧
      t.sat.timeTx = l ∧ t.satCredit false 5 = s.satCredit false 5 - 1 ∧ SameBut [.sat, .lan, .regs] s t) ∧
    (s.sat.fieldUp = true → s.sat.timeTx = [] → ∃ t, exec .satchelTimeSend s = .next t ∧ t.cycle = max s.cycle (s.sat.timeAt + 800000) ∧
      t.sat.timeTx = [(t.tbNow 0, t.stampFlags)]) ∧
    (∀ b l, s.sat.flowDown = .autoEn b :: l → s.satReady true 6 1 = true → ∃ t, exec (.satchelFlow false) s = .next t ∧ t.ctl.autoEn = b ∧
      t.sat.flowDown = l) ∧
    (∀ c addr, c < 8 → s.sat.flowUp = [.dmaStart c addr] → s.satReady false 6 1 = true → (s.dma c).st = 0 → s.host.d3hot = false →
      modePermits .dma s.ctl.mode s.prune.stage = true → ∃ t, exec (.satchelFlow true) s = .next t ∧
      (t.dma c).st = 2 ∧ t.sat.flowUp = []) ∧
    (∀ toHost, s.satReady (!toHost) 6 1 = false → exec (.satchelFlow toHost) s = .next s) ∧
    (∀ readings, s.sat.hostUp = true → s.sat.flowDown.length < 16 → ∃ t, exec (.hostSensorReadingSend readings) s = .next t ∧
      t.sat.flowDown = s.sat.flowDown ++ [.sensors (readings.filter hostSensor)] ∧ t.cycle = max s.cycle (s.sat.sensorAt + 800000))) ∧
  (∀ (o : Nat) (w : Word) (v : Option Nat) (l : List (Nat × Word × Option Nat)) (s : State), s.sat.evtTx = (o, w, v) :: l → s.satReady false 4 1 = true →
    ∃ t, exec .satchelEventToHost s = .next t ∧ t.sat.evtTx = l ∧ Tab.get (fun _ => 0) t.sat.shadow o = w ∧
      (∀ n, v = some n → s.msix.fnMask = false → Tab.get (fun _ => false) s.msix.unmasked n = true →
        Tab.get (fun _ => 0) t.msix.sent n = Tab.get (fun _ => 0) s.msix.sent n + 1) ∧ (v = none → t.msix = s.msix)) ∧
  (∀ (g : Nat) (l : List Nat) (s : State), s.sat.evtRx = g :: l → s.satReady true 4 1 = true → s.prune.stage < 4 →
    ∃ t, exec .satchelEventToField s = .next t ∧ t.sat.evtRx = l ∧ t.cor.pulses = s.cor.pulses ++ [⟨g, s.cycle, false⟩] ∧
      SameBut [.sat, .cor, .lan, .regs] s t) ∧
  (∀ s : State,
    ((s.link 3).up = false → s.sat.hostUp = true → ∃ t, exec .satchelLinkDown s = .next t ∧ t.sat.hostUp = false ∧ t.sat.reads = [] ∧
      t.sat.downAt = s.cycle ∧ t.reg (sat0Base + 0x60) = satAdd 32 (s.reg (sat0Base + 0x60)) 1 ∧
      (4 ≤ s.ctl.mode ∨ s.ctl.mode = 2 ∧ s.ctl.fmi = true → t.ctl.hostMode = some 3)) ∧
    ((s.link 0).up = true → (s.link 3).up = true → (s.link 0).audit = 2 → (s.link 3).audit = 2 → s.satUp = false →
      ∃ t, exec .satchelLinkUp s = .next t ∧ t.satUp = true ∧ t.sat.hostPulses = 0 ∧
        t.reg (sat0Base + 0x6C) = wd (min ((s.cycle - s.sat.downAt) / 800000) (2 ^ 32 - 1)) ∧
        (4 ≤ s.ctl.mode → t.ctl.hostMode = none ∧ t.getF (glbBase + 0x54) 15 12 = 0)))

/-- R432, R433, R435: ARM in IDLE or DONE empties the trace and runs it at once without a start trigger; STOP ends it; with spill the oldest record moves
to the ring; SNAP shows every count without that of its own cycle, CLEAR_ALL clears them but for it; a configuration of MODE 0 or 1 takes, another only clears OVF. R436: a TAP's address
register is loaded, and a read returns the word there and moves it on by 4 with no side effect on the part: 0 while the field side is held, all-ones
at the host TAP while the link is down. -/
def Obligations.GalleryKeepsAndShows : Prop :=
  (∀ s : State,
    (s.Reaches 0 (galBase + 0x44) →
      (s.gal.trace.st = 0 ∨ s.gal.trace.st = 4 → ∃ t, exec .traceArm s = .next t ∧
        t.gal.trace.st = (if fld (s.reg (galBase + 0x40)) 19 16 = 0 then 2 else 1) ∧ t.gal.trace.recs = [] ∧ t.gal.trace.seq = 0 ∧
        t.gal.trace.cfg = s.reg (galBase + 0x40) ∧ t.reg (galBase + 0x50) = 0) ∧
      (1 ≤ s.gal.trace.st → s.gal.trace.st ≤ 3 → exec .traceArm s = .next s ∧ ∃ t, exec .traceStop s = .next t ∧ t.gal.trace.st = 4 ∧
        t.gal.trace.cause = 1 ∧ t.getB (galBase + 0x10) 0 = true)) ∧
    (∀ r l, s.gal.trace.recs = r :: l → bit s.gal.trace.cfg 31 = true → s.ringFull .spill = false → s.prune.stage < 3 →
      (s.ringRun .spill (s.ringSlot .spill (s.reg (galBase + 0x64)).toNat) 32 = none → exec .spillRecordWritten s = .next s) ∧
      (∀ u v, s.ringRun .spill (s.ringSlot .spill (s.reg (galBase + 0x64)).toNat) 32 = some u → s.ringPush .spill (wordBytes r.words) = some v →
        ∃ t, exec .spillRecordWritten s = .next t ∧ t.gal.trace.recs = v.gal.trace.recs.drop 1 ∧
          t.mem = (u.writeBytes (s.ringSlot .spill (s.reg (galBase + 0x64)).toNat) (wordBytes r.words)).mem ∧
          t.reg (galBase + 0x64) = wd (((s.reg (galBase + 0x64)).toNat + 1) % u.ringSize .spill))) ∧
    (s.Reaches 0 (gal1Base + 0x4C) →
      (∃ t, exec .counterSnap s = .next t ∧ ∀ c, t.counter c =
        { s.counter c with shadow := ((s.counter c).live + 2 ^ 48 - s.hitNow (s.counter c)) % 2 ^ 48 }) ∧
      ∃ t, exec .counterClearAll s = .next t ∧ ∀ c, t.counter c = { s.counter c with live := s.hitNow (s.counter c), ovf := false }) ∧
    (∀ v, s.Reaches 0 (gal1Base + 0x44) →
      (fld v 29 28 < 2 → ∃ t, exec (.cntCfgWrite v) s = .next t ∧ t.counter s.cntSel =
        { s.counter s.cntSel with ovf := false, en := bit v 31, mode := fld v 29 28, source := fld v 11 0 } ∧ SameBut [.gal] s t) ∧
      (2 ≤ fld v 29 28 → ∃ t, exec (.cntCfgWrite v) s = .next t ∧ t.counter s.cntSel = { s.counter s.cntSel with ovf := false } ∧
        SameBut [.gal] s t))) ∧
  (∀ (p : Nat) (s : State),
    (∀ x, ∃ t, exec (.tapGaladdr p x) s = .next t ∧ Tab.get (fun _ => 0) t.gal.tapAddr p = x % 2 ^ 32 ∧ SameBut [.gal] s t) ∧
    ∃ t, exec (.tapGaldata p) s = .next t ∧ t.regs = s.regs ∧
      Tab.get (fun _ => 0) t.gal.tapAddr p = (Tab.get (fun _ => 0) s.gal.tapAddr p + 4) % 2 ^ 32 ∧
      (s.ctl.mode < 2 → t.lastRead = 0) ∧
      (2 ≤ s.ctl.mode → p = 0 → s.sat.hostUp = false → t.lastRead = 0xFFFFFFFF) ∧
      (2 ≤ s.ctl.mode → p ≠ 0 ∨ s.sat.hostUp = true → t.lastRead = (s.galWord (Tab.get (fun _ => 0) s.gal.tapAddr p)).1))

/-! ### Completion once more -/

/-- R62, R59, R349 to R358, R361, R373 to R377: an event command, a command of the ring and of its messages has the effect of its own, for every state and
operands in which the block may run it: the pending bit goes, the enables are as written, a test sets its bit, an unmasked vector is unmasked; a frame
is forwarded; credits come and go; a roll call starts, is followed and ends; the bypass closes and opens; a hop is measured; a message is sent or
taken. -/
def Obligations.EventAndRingCommandsComplete : Prop :=
  (∀ (req page n : Nat) (g : PageGroup) (i : Nat) (v : Word) (s : State), pageOf page = some (g, i, 0) → n < 32 →
    (s.Reaches req (page + 0x14) → bit v n = true → nbit (writeMask (page + 0x14)) n = true → s.setNow (evNo (ordinalAt page) n) = false →
      ∃ t, exec (.evPendClear req page v) s = .next t ∧ t.getB (page + 0x14) n = false) ∧
    (s.Reaches req (page + 0x18) → nbit (writeMask (page + 0x18)) n = true →
      ∃ t, exec (.evEnWrite req page v) s = .next t ∧ t.getB (page + 0x18) n = bit v n) ∧
    (s.Reaches req (page + 0x20) → ordinalPage (ordinalAt page) = some page → bit v n = true → nbit (writeMask (page + 0x20)) n = true →
      nbit (writeMask (page + 0x14)) n = true → ∃ t, exec (.evTestWrite req page v) s = .next t ∧ t.getB (page + 0x14) n = true)) ∧
  (∀ s : State,
    (∀ v, v < 256 → ∃ t, exec (.msixUnmask (some v)) s = .next t ∧ Tab.get (fun _ => false) t.msix.unmasked v = true) ∧
    (∃ t, exec (.msixUnmask none) s = .next t ∧ t.msix.fnMask = false)) ∧
  (∀ (p : Nat) (s : State), p < 2 → s.carries p = true →
    (∀ body h out, h = bodyRing body → 2 ≤ h.cls → h.cls ≤ 4 → frameTypeOk h.cls h.typ = true → h.dest ≠ 0xFE → s.ring.num ≠ some h.dest →
      s.ownFrame h (body.drop 12) = false → h.dest = 0xFF ∨ h.hops < 127 → s.ring.wait = [] → out = (if s.carries (1 - p) = true then 1 - p else p) →
      ∃ t, exec (.ringFrameForward p body) s = .next t ∧
        t.ring.wait.length + (t.link (1 + out)).replay.length = (s.link (1 + out)).replay.length + 1) ∧
    (∀ a b c, (s.link (1 + p)).audit = 2 → s.ring.wait = [] → ∃ t, exec (.creditFrameReceived p a b c) s = .next t ∧
      Tab.get (fun _ => 0) (t.link (1 + p)).credit 3 = Tab.get (fun _ => 0) (s.link (1 + p)).credit 3 + b) ∧
    ((s.link (1 + p)).owed ≠ [] → s.framesFlow (1 + p) = true → ∃ t, exec (.creditReturnTimer p) s = .next t ∧ (t.link (1 + p)).owed = []) ∧
    (s.ring.master = true → ∃ t, exec (.rollReqReceived p) s = .next t ∧ t.ring.collect = some []) ∧
    (∀ k, s.ring.rollSeen ≠ some k → ∃ t, exec (.rollcallReceived p k) s = .next t ∧ t.ring.rollSeen = some k) ∧
    (∀ uid, uid < 2 ^ 64 → ∃ t, exec (.helloReceived p uid) s = .next t ∧ (t.port p).nbrUid = uid) ∧
    (∀ payload r rs, readRoster payload = some r → r.uid ≠ s.uid → r.master = false → s.ring.collect = some rs →
      ∃ t l, exec (.rosterReceived p payload) s = .next t ∧ t.ring.collect = some l ∧ r ∈ l) ∧
    (∀ payload f a b, readFormed payload = some f → f.idx = 0 → s.ring.master = false → s.ring.forming = [] → 1 ≤ f.n → f.n ≤ 27 →
      ∃ t, exec (.formedReceived p payload a b) s = .next t ∧ t.ring.roster = f.pairs) ∧
    (∀ c, c < 16 → s.getB (rngBase + 0x80) c = true → s.ctl.mode ≠ 4 → ∃ t, exec (.exportFrameReceived p c false) s = .next t ∧
      t.getB (rngBase + 0x14) (16 + c) = true) ∧
    (∀ src, src < 64 → ∃ t, exec (.stateFrameReceived p src true) s = .next t ∧ Tab.get (fun _ => false) t.ring.recess src = true) ∧
    (s.ctl.mode = 4 → s.getB (glbBase + 0x64) 22 = true → s.ctl.recess = .resting → s.prune.stage < 2 →
      ∃ t, exec (.wakeFrameReceived p) s = .next t ∧ t.ctl.recess = .locking) ∧
    (∀ words data et, data.length ≤ 256 → s.ring.rx = [] → s.ringFull .drx = true →
      ∃ t, exec (.dataFrameReceived p words data et) s = .next t ∧ t.ring.rx.map RxData.data = [data]) ∧
    (16 ≤ (s.port p).cnt → ∃ t, exec (.delayExchangeTimer p) s = .next t ∧ (t.port p).dreq.isSome = true)) ∧
  (∀ s : State,
    (∀ req v, s.Reaches req (rngBase + 0x54) → s.ring.master = true → s.carries 0 = true → bit v 0 = true → s.getB (rngBase + 8) 0 = true →
      ∃ t, exec (.rollCtrlStart req v) s = .next t ∧ t.ring.rollSeq = s.ring.rollSeq + 1) ∧
    (∀ rs, s.ring.collect = some rs → ∃ t, exec .rosterCollectEnd s = .next t ∧ t.ring.collect = none) ∧
    (∀ c, s.ring.changeAt = some c → s.ring.master = false → s.getB (rngBase + 0x40) 0 = false → s.ring.st ≠ 0 →
      ∃ t, exec .splitTimeout s = .next t ∧ t.ring.st = 3) ∧
    (s.bypassHeld = true → s.ring.closed = false → ∃ t, exec .bypassClose s = .next t ∧ t.ring.closed = true) ∧
    (s.bypassHeld = false → s.ring.closed = true → 4 ≤ s.ctl.mode → ∃ t, exec .bypassOpen s = .next t ∧ t.ring.closed = false) ∧
    (s.ring.exchanging = true → s.carries 0 = true → (s.port 0).cnt < 16 →
      ∃ t, exec .rollcallExchangeTimer s = .next t ∧ (t.port 0).dreq.isSome = true) ∧
    (∀ p set seq b c, p < 2 → (s.link (1 + p)).up = true → readDreq set = some seq → ∃ t, exec (.dreqReceived p set b c) s = .next t ∧
      (t.port p).timeOut = drespSet (s.frameInterval b (max c (s.port p).timeFree)).toNat seq) ∧
    (∀ p set seq turn d a, p < 2 → readDresp set = some (turn, seq) → (s.port p).dreq = some (seq, a) →
      ∃ t, exec (.drespReceived p set d) s = .next t ∧ (t.port p).dreq = none) ∧
    (∀ c, c < 16 → 1 ≤ s.getF (rngBase + 0x140 + 4 * c) 15 0 → s.ring.num.isSome = true → s.getF (rngBase + 0x100 + 4 * c) 7 0 = 0xFF →
      s.carries 0 = true → s.canSend 1 2 = true → ∃ t, exec (.exportSend c) s = .next t ∧
        t.getF (rngBase + 0x140 + 4 * c) 15 0 = s.getF (rngBase + 0x140 + 4 * c) 15 0 - 1) ∧
    (∀ req v, s.Reaches req (rngBase + 0x88) → s.ring.num.isSome = true → s.carries 0 = false → s.carries 1 = false → fld v 7 0 = 0xFF →
      s.ring.wait = [] → ∃ t, exec (.wakeSendWrite req v) s = .next t ∧ t.ring.wait.map RFrame.typ = [5]) ∧
    (∀ f l, s.ring.rx = f :: l → s.ringFull .drx = false → s.storeUp (isNear (s.ringSlot .drx (s.reg (rngBase + 0xB0)).toNat)) = true →
      ∃ t, exec .drxSlotWrite s = .next t ∧ t.ring.rx = l) ∧
    (∀ req v, s.Reaches req (rngBase + 0x9C) → bit v 0 = true → s.ring.dtx = none → s.ring.num.isSome = true →
      s.getF (rngBase + 0x98) 31 24 = 0xFF → s.getF (rngBase + 0x98) 8 0 ≤ 256 → s.readOk (s.reg64 (rngBase + 0x90)) (s.getF (rngBase + 0x98) 8 0) = true →
      ∃ t d, exec (.dtxGo req v) s = .next t ∧ t.ring.dtx = some d ∧ d.dest = 0xFF ∧ t.reg (rngBase + 0xA0) = 16) ∧
    (∀ d et, s.ring.dtx = some d → d.data ≠ none → d.dest = 0xFF → s.carries 0 = true → s.canSend 1 4 = true →
      Tab.get (fun _ => false) s.ring.recess 0xFF = false → ∃ t, exec (.dtxSofSent et) s = .next t ∧ t.ring.dtx = none) ∧
    (∀ req v, s.Reaches req (rngBase + 0xD4) → bit v 0 = true → ∃ t, exec (.tsqPop req v) s = .next t ∧ t.ring.tsq = s.ring.tsq.drop 1))
end

