-- ==== Sys2Proof/Laws/Bits.lean ====
section
/-! SUPPORT. What the bit-field helpers do: reading back a field or bit that was set, and the ones beside it. -/

namespace Sys2Proof.Machine

theorem setFld_lt {x lo k v t : Nat} (hx : x < 2 ^ (lo + k + t)) :
    x % 2 ^ lo + v % 2 ^ k * 2 ^ lo + x / 2 ^ (lo + k) * 2 ^ (lo + k) < 2 ^ (lo + k + t) := by
  have h1 : x % 2 ^ lo < 2 ^ lo := Nat.mod_lt _ (by positivity)
  have h2 : v % 2 ^ k < 2 ^ k := Nat.mod_lt _ (by positivity)
  have h3 : x / 2 ^ (lo + k) < 2 ^ t := by
    rw [Nat.div_lt_iff_lt_mul (by positivity), ← pow_add]; simpa [Nat.add_comm, Nat.add_left_comm] using hx
  have h4 : x % 2 ^ lo + v % 2 ^ k * 2 ^ lo < 2 ^ (lo + k) := by
    calc _ < 2 ^ lo + v % 2 ^ k * 2 ^ lo := by omega
      _ = (v % 2 ^ k + 1) * 2 ^ lo := by ring
      _ ≤ 2 ^ k * 2 ^ lo := Nat.mul_le_mul_right _ h2
      _ = _ := by rw [pow_add, Nat.mul_comm]
  calc _ < 2 ^ (lo + k) + x / 2 ^ (lo + k) * 2 ^ (lo + k) := by omega
    _ = (x / 2 ^ (lo + k) + 1) * 2 ^ (lo + k) := by ring
    _ ≤ 2 ^ t * 2 ^ (lo + k) := Nat.mul_le_mul_right _ h3
    _ = _ := by rw [pow_add 2 (lo + k) t, Nat.mul_comm]

/-- The number a word holds after a field of it is set. -/
theorem setFld_toNat (w : Word) {hi lo v : Nat} (hl : lo ≤ hi) (hh : hi < 32) :
    (setFld w hi lo v).toNat =
      w.toNat % 2 ^ lo + v % 2 ^ (hi + 1 - lo) * 2 ^ lo + w.toNat / 2 ^ (hi + 1) * 2 ^ (hi + 1) := by
  unfold setFld wd
  rw [BitVec.toNat_ofNat, Nat.mod_eq_of_lt]
  have h := setFld_lt (x := w.toNat) (lo := lo) (k := hi + 1 - lo) (v := v) (t := 31 - hi)
    (by rw [show lo + (hi + 1 - lo) + (31 - hi) = 32 by omega]; exact w.isLt)
  rwa [show lo + (hi + 1 - lo) = hi + 1 by omega, show hi + 1 + (31 - hi) = 32 by omega] at h

/-- A field that was set reads as it was set. -/
theorem fld_setFld (w : Word) {hi lo : Nat} (v : Nat) (hl : lo ≤ hi) (hh : hi < 32) :
    fld (setFld w hi lo v) hi lo = v % 2 ^ (hi + 1 - lo) := by
  unfold fld
  rw [setFld_toNat w hl hh]
  have e : w.toNat / 2 ^ (hi + 1) * 2 ^ (hi + 1) = w.toNat / 2 ^ (hi + 1) * 2 ^ (hi + 1 - lo) * 2 ^ lo := by
    rw [Nat.mul_assoc, ← pow_add, show hi + 1 - lo + lo = hi + 1 by omega]
  rw [e, Nat.add_assoc, ← Nat.add_mul, Nat.add_mul_div_right _ _ (by positivity),
    Nat.div_eq_of_lt (Nat.mod_lt _ (by positivity)), Nat.zero_add, Nat.add_mul_mod_self_right, Nat.mod_mod]

theorem testBit_setFld (w : Word) {hi lo : Nat} (v i : Nat) (hl : lo ≤ hi) (hh : hi < 32) :
    (setFld w hi lo v).toNat.testBit i = if lo ≤ i ∧ i ≤ hi then v.testBit (i - lo) else w.toNat.testBit i := by
  have p1 : w.toNat % 2 ^ lo < 2 ^ lo := Nat.mod_lt _ (by positivity)
  have e : w.toNat % 2 ^ lo + v % 2 ^ (hi + 1 - lo) * 2 ^ lo + w.toNat / 2 ^ (hi + 1) * 2 ^ (hi + 1) =
      2 ^ lo * (2 ^ (hi + 1 - lo) * (w.toNat / 2 ^ (hi + 1)) + v % 2 ^ (hi + 1 - lo)) + w.toNat % 2 ^ lo := by
    have : 2 ^ (hi + 1) = 2 ^ lo * 2 ^ (hi + 1 - lo) := by rw [← pow_add]; congr 1; omega
    rw [this]; ring
  rw [setFld_toNat w hl hh, e, Nat.testBit_two_pow_mul_add _ p1]
  have p2 : v % 2 ^ (hi + 1 - lo) < 2 ^ (hi + 1 - lo) := Nat.mod_lt _ (by positivity)
  by_cases h1 : i < lo
  · rw [if_pos h1, if_neg (by omega), Nat.testBit_mod_two_pow]; simp [h1]
  · rw [if_neg h1, Nat.testBit_two_pow_mul_add _ p2]
    by_cases h2 : i ≤ hi
    · rw [if_pos (by omega), if_pos (by omega), Nat.testBit_mod_two_pow]; simp; omega
    · rw [if_neg (by omega), if_neg (by omega), Nat.testBit_div_two_pow]; congr 1; omega

/-- Bit `n` of a word, as the bit of its number. -/
theorem bit_eq (w : Word) (n : Nat) : bit w n = w.toNat.testBit n := by
  rw [Nat.testBit_eq_decide_div_mod_eq]; rfl

/-- A bit outside a field that was set is as before. -/
theorem bit_setFld_out (w : Word) {hi lo i : Nat} (v : Nat) (hl : lo ≤ hi) (hh : hi < 32) (hi' : i < lo ∨ hi < i) :
    bit (setFld w hi lo v) i = bit w i := by
  rw [bit_eq, bit_eq, testBit_setFld w v i hl hh, if_neg (by omega)]

/-- A bit that was set reads as it was set. -/
theorem bit_setBit (w : Word) {n : Nat} (b : Bool) (h : n < 32) : bit (setBit w n b) n = b := by
  unfold setBit
  rw [bit_eq, testBit_setFld w _ n (Nat.le_refl n) h, if_pos (by omega)]
  cases b <;> simp

/-- The other bits are as before. -/
theorem bit_setBit_ne (w : Word) {n i : Nat} (b : Bool) (h : n < 32) (hi : i ≠ n) : bit (setBit w n b) i = bit w i :=
  bit_setFld_out w _ (Nat.le_refl n) h (by omega)

/-- A field that does not meet the field that was set is as before. -/
theorem fld_setFld_out (w : Word) {hi lo h2 l2 : Nat} (v : Nat) (hl : lo ≤ hi) (hh : hi < 32) (hd : h2 < lo ∨ hi < l2) :
    fld (setFld w hi lo v) h2 l2 = fld w h2 l2 := by
  unfold fld
  apply Nat.eq_of_testBit_eq
  intro i
  rw [Nat.testBit_mod_two_pow, Nat.testBit_mod_two_pow, Nat.testBit_div_two_pow, Nat.testBit_div_two_pow,
    testBit_setFld w v _ hl hh]
  by_cases h : i < h2 + 1 - l2
  · rw [if_neg (by omega)]
  · simp [h]

/-- Bit `n` of a number. -/
theorem nbit_eq (v n : Nat) : nbit v n = v.testBit n := by
  rw [Nat.testBit_eq_decide_div_mod_eq]; rfl

theorem testBit_wd (v : Nat) {i : Nat} (h : i < 32) : (wd v).toNat.testBit i = v.testBit i := by
  unfold wd
  rw [BitVec.toNat_ofNat, Nat.testBit_mod_two_pow]
  simp [h]

theorem bit_and (a b : Word) (n : Nat) : bit (a &&& b) n = (bit a n && bit b n) := by
  simp only [bit_eq, BitVec.testBit_toNat, BitVec.getLsbD_and]

theorem bit_not (a : Word) {n : Nat} (h : n < 32) : bit (~~~a) n = !(bit a n) := by
  simp only [bit_eq, BitVec.testBit_toNat, BitVec.getLsbD_not, h, decide_true, Bool.true_and]

theorem bit_wd (v : Nat) {n : Nat} (h : n < 32) : bit (wd v) n = nbit v n := by
  rw [bit_eq, testBit_wd v h, nbit_eq]

/-- Where the mask is 1 the new bit is taken, elsewhere the old one stays. -/
theorem testBit_mergeMask {m : Nat} (old v : Nat) {i : Nat} (hm : m < 2 ^ 128) (hi : i < 128) :
    (mergeMask m old v).testBit i = if m.testBit i then v.testBit i else old.testBit i := by
  unfold mergeMask
  rw [Nat.testBit_or, Nat.testBit_and, Nat.testBit_and, show 2 ^ 128 - 1 - m = 2 ^ 128 - (m + 1) by omega,
    Nat.testBit_two_pow_sub_succ hm]
  cases m.testBit i <;> simp [hi]

/-- The bits of a word that takes 1s where the mask allows. -/
theorem bit_merge {m : Nat} (old v : Word) {i : Nat} (hm : m < 2 ^ 128) (hi : i < 32) :
    bit (wd (mergeMask m old.toNat v.toNat)) i = if nbit m i then bit v i else bit old i := by
  rw [bit_eq, testBit_wd _ hi, testBit_mergeMask _ _ hm (by omega), nbit_eq, bit_eq, bit_eq]

end Sys2Proof.Machine
end

