-- ==== Sys2Proof/Laws/Tab.lean ====
section
/-! SUPPORT. What the operations of sparse tables do: a read after a write to the same index gives the
value written, a write leaves every other index alone, and a write keeps the canonical form. -/

namespace Sys2Proof.Machine

variable {α : Type}

theorem Tab.above_mono {lo lo' : Nat} (h : lo' ≤ lo) :
    ∀ {t : Tab α}, Tab.above lo t = true → Tab.above lo' t = true
  | [], _ => rfl
  | (j, v) :: t, ht => by
    simp only [Tab.above, Bool.and_eq_true, decide_eq_true_eq] at ht ⊢
    exact ⟨Nat.le_trans h ht.1, ht.2⟩

theorem Tab.get_of_above (d : Nat → α) {lo k : Nat} (hk : k < lo) :
    ∀ {t : Tab α}, Tab.above lo t = true → Tab.get d t k = d k
  | [], _ => rfl
  | (j, v) :: t, ht => by
    simp only [Tab.above, Bool.and_eq_true, decide_eq_true_eq] at ht
    have hj : k ≠ j := by omega
    simp only [Tab.get, hj, if_false]
    exact Tab.get_of_above d (by omega) ht.2

@[simp] theorem Tab.get_insert_same (d : Nat → α) (k : Nat) (v : α) :
    ∀ t : Tab α, Tab.get d (Tab.insert t k v) k = v
  | [] => by simp [Tab.insert, Tab.get]
  | (j, u) :: t => by
    by_cases h : k = j
    · simp [Tab.insert, Tab.get, h]
    · by_cases h2 : k < j
      · simp [Tab.insert, Tab.get, h, h2]
      · simp [Tab.insert, Tab.get, h, h2, Tab.get_insert_same d k v t]

theorem Tab.get_insert_ne (d : Nat → α) {k m : Nat} (v : α) (hm : m ≠ k) :
    ∀ t : Tab α, Tab.get d (Tab.insert t k v) m = Tab.get d t m
  | [] => by simp [Tab.insert, Tab.get, hm]
  | (j, u) :: t => by
    by_cases h : k = j
    · subst h; simp [Tab.insert, Tab.get, hm]
    · by_cases h2 : k < j
      · simp [Tab.insert, Tab.get, h, h2, hm]
      · simp [Tab.insert, Tab.get, h, h2, Tab.get_insert_ne d v hm t]

theorem Tab.get_erase_ne (d : Nat → α) {k m : Nat} (hm : m ≠ k) :
    ∀ t : Tab α, Tab.get d (Tab.erase t k) m = Tab.get d t m
  | [] => rfl
  | (j, u) :: t => by
    by_cases h : k = j
    · subst h; simp [Tab.erase, Tab.get, hm, Tab.get_erase_ne d hm t]
    · simp [Tab.erase, Tab.get, h, Tab.get_erase_ne d hm t]

theorem Tab.get_erase_same (d : Nat → α) {k : Nat} :
    ∀ t : Tab α, Tab.get d (Tab.erase t k) k = d k
  | [] => rfl
  | (j, u) :: t => by
    by_cases h : k = j
    · subst h; simpa [Tab.erase] using Tab.get_erase_same d t
    · simpa [Tab.erase, Tab.get, h] using Tab.get_erase_same d t

theorem Tab.above_erase {k : Nat} :
    ∀ {lo : Nat} {t : Tab α}, Tab.above lo t = true → Tab.above lo (Tab.erase t k) = true
  | _, [], _ => rfl
  | lo, (j, u) :: t, ht => by
    simp only [Tab.above, Bool.and_eq_true, decide_eq_true_eq] at ht
    by_cases h : k = j
    · simpa [Tab.erase, h] using Tab.above_mono (by omega) (Tab.above_erase ht.2)
    · simpa [Tab.erase, h, Tab.above, ht.1] using Tab.above_erase ht.2

theorem Tab.above_insert {k : Nat} (v : α) :
    ∀ {lo : Nat} {t : Tab α}, lo ≤ k → Tab.above lo t = true → Tab.above lo (Tab.insert t k v) = true
  | lo, [], hk, _ => by simp [Tab.insert, Tab.above, hk]
  | lo, (j, u) :: t, hk, ht => by
    simp only [Tab.above, Bool.and_eq_true, decide_eq_true_eq] at ht
    by_cases h : k = j
    · subst h; simpa [Tab.insert, Tab.above, hk] using ht.2
    · by_cases h2 : k < j
      · simp only [Tab.insert, h, h2, if_false, if_true, Tab.above, Bool.and_eq_true, decide_eq_true_eq]; exact ⟨hk, by omega, ht.2⟩
      · simpa [Tab.insert, Tab.above, h, h2, ht.1] using Tab.above_insert v (by omega) ht.2

theorem Tab.all_erase (p : Nat × α → Bool) {k : Nat} :
    ∀ {t : Tab α}, t.all p = true → (Tab.erase t k).all p = true
  | [], _ => rfl
  | (j, u) :: t, ht => by
    simp only [List.all_cons, Bool.and_eq_true] at ht
    by_cases h : k = j
    · simpa [Tab.erase, h] using Tab.all_erase p ht.2
    · simp only [Tab.erase, h, if_false, List.all_cons, Bool.and_eq_true]
      exact ⟨ht.1, Tab.all_erase p ht.2⟩

theorem Tab.all_insert (p : Nat × α → Bool) {k : Nat} {v : α} (hv : p (k, v) = true) :
    ∀ {t : Tab α}, t.all p = true → (Tab.insert t k v).all p = true
  | [], _ => by simp [Tab.insert, hv]
  | (j, u) :: t, ht => by
    simp only [List.all_cons, Bool.and_eq_true] at ht
    by_cases h : k = j
    · simp only [Tab.insert, h, if_true, List.all_cons, Bool.and_eq_true]
      exact ⟨h ▸ hv, ht.2⟩
    · by_cases h2 : k < j
      · simp only [Tab.insert, h, h2, if_false, if_true, List.all_cons, Bool.and_eq_true]
        exact ⟨hv, ht.1, ht.2⟩
      · simp only [Tab.insert, h, h2, if_false, List.all_cons, Bool.and_eq_true]
        exact ⟨ht.1, Tab.all_insert p hv ht.2⟩

theorem Tab.above_iff : ∀ (t : Tab α) (lo : Nat),
    Tab.above lo t = true ↔ (∀ e ∈ t, lo ≤ e.1) ∧ t.Pairwise fun a b => a.1 < b.1
  | [], lo => by simp [Tab.above]
  | (j, v) :: t, lo => by
    have ih := Tab.above_iff t (j + 1)
    simp only [Tab.above, Bool.and_eq_true, decide_eq_true_eq, ih, List.mem_cons, forall_eq_or_imp, List.pairwise_cons]
    constructor
    · rintro ⟨h1, h2, h3⟩
      exact ⟨⟨h1, fun e he => by have := h2 e he; omega⟩, fun e he => by have := h2 e he; omega, h3⟩
    · rintro ⟨⟨h1, _⟩, h2, h3⟩
      exact ⟨h1, fun e he => by have := h2 e he; omega, h3⟩

variable [DecidableEq α]

/-- A read after a write to the same index gives the value written. -/
theorem Tab.get_set_same (d : Nat → α) (t : Tab α) (k : Nat) (v : α) :
    Tab.get d (Tab.set d t k v) k = v := by
  unfold Tab.set
  split
  · next hv => rw [Tab.get_erase_same d, hv]
  · simp

/-- A write leaves every other index alone. -/
theorem Tab.get_set_ne (d : Nat → α) (t : Tab α) {k m : Nat} (v : α) (hm : m ≠ k) :
    Tab.get d (Tab.set d t k v) m = Tab.get d t m := by
  unfold Tab.set
  split
  · exact Tab.get_erase_ne d hm t
  · exact Tab.get_insert_ne d v hm t

/-- A write keeps the canonical form. -/
theorem Tab.wf_set (d : Nat → α) {t : Tab α} (k : Nat) (v : α) (h : Tab.wf d t = true) :
    Tab.wf d (Tab.set d t k v) = true := by
  simp only [Tab.wf, Bool.and_eq_true] at h ⊢
  unfold Tab.set
  split
  · exact ⟨Tab.above_erase h.1, Tab.all_erase _ h.2⟩
  · next hv => exact ⟨Tab.above_insert v (Nat.zero_le k) h.1, Tab.all_insert _ (by simpa using hv) h.2⟩

@[simp] theorem Tab.wf_nil (d : Nat → α) : Tab.wf d ([] : Tab α) = true := rfl

theorem Tab.wf_iff (d : Nat → α) (t : Tab α) :
    Tab.wf d t = true ↔ t.Pairwise (fun a b => a.1 < b.1) ∧ ∀ e ∈ t, e.2 ≠ d e.1 := by
  simp [Tab.wf, Tab.above_iff]

/-- Leaving entries out keeps the canonical form. -/
theorem Tab.wf_sublist (d : Nat → α) {t u : Tab α} (hs : u.Sublist t) (h : Tab.wf d t = true) : Tab.wf d u = true := by
  rw [Tab.wf_iff] at h ⊢
  exact ⟨h.1.sublist hs, fun e he => h.2 e (hs.subset he)⟩

theorem Tab.wf_filter (d : Nat → α) {t : Tab α} (p : Nat × α → Bool) (h : Tab.wf d t = true) : Tab.wf d (t.filter p) = true :=
  Tab.wf_sublist d List.filter_sublist h

theorem Tab.mem_listed {d : Nat → α} {k : Nat} {vs : List α} {e : Nat × α} (h : e ∈ Tab.listed d k vs) :
    k ≤ e.1 ∧ e.1 < k + vs.length ∧ e.2 ≠ d e.1 ∧ vs[e.1 - k]? = some e.2 := by
  simp only [Tab.listed, List.mem_filterMap] at h
  obtain ⟨⟨i, v⟩, hm, he⟩ := h
  split at he
  · simp at he
  · next hne =>
    simp only [Option.some.injEq] at he
    subst he
    obtain ⟨n, hn⟩ := List.getElem?_of_mem hm
    simp only [List.getElem?_zip_eq_some] at hn
    obtain ⟨h1, h2⟩ := hn
    obtain ⟨h3, h4⟩ := List.getElem?_eq_some_iff.1 h1
    simp at h3 h4
    subst h4
    exact ⟨by omega, by simpa using h3, hne, by simpa using h2⟩

theorem Tab.listed_pairwise (d : Nat → α) (k : Nat) (vs : List α) : (Tab.listed d k vs).Pairwise fun a b => a.1 < b.1 := by
  unfold Tab.listed
  rw [List.pairwise_filterMap]
  have h : ((List.range vs.length).zip vs).Pairwise fun a b => a.1 < b.1 := by
    have := List.pairwise_lt_range (n := vs.length)
    have hm : ((List.range vs.length).zip vs).map Prod.fst = List.range vs.length := by
      rw [List.map_fst_zip]; simp
    rw [← hm, List.pairwise_map] at this
    exact this
  refine h.imp ?_
  rintro ⟨i, a⟩ ⟨j, b⟩ hij x hx y hy
  split at hx <;> split at hy <;> simp at hx hy
  subst hx hy
  simpa using hij

omit [DecidableEq α] in
theorem Tab.dropWhile_ge {t : Tab α} (h : t.Pairwise fun a b => a.1 < b.1) (m : Nat) :
    ∀ e ∈ t.dropWhile (fun e => decide (e.1 < m)), m ≤ e.1 := by
  induction t with
  | nil => simp
  | cons x t ih =>
    simp only [List.dropWhile_cons]
    split
    · exact ih h.of_cons
    · next hx =>
      simp only [decide_eq_true_eq] at hx
      intro e he
      rcases List.mem_cons.1 he with rfl | he
      · omega
      · have := (List.pairwise_cons.1 h).1 e he; omega

omit [DecidableEq α] in
theorem Tab.takeWhile_lt {t : Tab α} {k : Nat} {e : Nat × α} (h : e ∈ t.takeWhile (fun e => decide (e.1 < k))) : e.1 < k := by
  induction t with
  | nil => simp at h
  | cons x t ih =>
    rw [List.takeWhile_cons] at h
    split at h
    · next hx =>
      rcases List.mem_cons.1 h with rfl | h
      · simpa using hx
      · exact ih h
    · simp at h

/-- A run of writes keeps the canonical form. -/
theorem Tab.wf_setRun (d : Nat → α) {t : Tab α} (k : Nat) (vs : List α) (h : Tab.wf d t = true) :
    Tab.wf d (Tab.setRun d t k vs) = true := by
  rw [Tab.wf_iff] at h ⊢
  have hd := Tab.dropWhile_ge h.1 (k + vs.length)
  have ht : ∀ e ∈ t.takeWhile (fun e => decide (e.1 < k)), e.1 < k := fun e he => Tab.takeWhile_lt he
  constructor
  · unfold Tab.setRun
    rw [List.pairwise_append, List.pairwise_append]
    refine ⟨⟨h.1.sublist (List.takeWhile_sublist _), Tab.listed_pairwise d k vs, ?_⟩, h.1.sublist (List.dropWhile_sublist _), ?_⟩
    · intro a ha b hb
      have := ht a ha; have := (Tab.mem_listed hb).1; omega
    · intro a ha b hb
      have hb' := hd b hb
      rcases List.mem_append.1 ha with ha | ha
      · have := ht a ha; omega
      · have := (Tab.mem_listed ha).2.1; omega
  · intro e he
    unfold Tab.setRun at he
    rcases List.mem_append.1 he with he | he
    · rcases List.mem_append.1 he with he | he
      · exact h.2 e ((List.takeWhile_sublist _).subset he)
      · exact (Tab.mem_listed he).2.2.1
    · exact h.2 e ((List.dropWhile_sublist _).subset he)

omit [DecidableEq α] in
/-- A table that has its entry of `k` reads it. -/
theorem Tab.get_of_mem {d : Nat → α} {t : Tab α} (h : t.Pairwise fun a b => a.1 < b.1) {e : Nat × α} (he : e ∈ t) :
    Tab.get d t e.1 = e.2 := by
  induction t with
  | nil => simp at he
  | cons x t ih =>
    obtain ⟨j, v⟩ := x
    rcases List.mem_cons.1 he with rfl | he
    · simp [Tab.get]
    · have := (List.pairwise_cons.1 h).1 e he
      have hne : e.1 ≠ j := by simp at this; omega
      simp [Tab.get, hne, ih h.of_cons he]

omit [DecidableEq α] in
theorem Tab.get_of_no {d : Nat → α} {t : Tab α} {k : Nat} (h : ∀ e ∈ t, e.1 ≠ k) : Tab.get d t k = d k := by
  induction t with
  | nil => rfl
  | cons x t ih =>
    obtain ⟨j, v⟩ := x
    have hj : k ≠ j := fun e => h (j, v) (by simp) e.symm
    simp [Tab.get, hj, ih fun e he => h e (by simp [he])]

omit [DecidableEq α] in
/-- Two tables with the same entries at `k` read the same there. -/
theorem Tab.get_append_of_no {d : Nat → α} {t u : Tab α} {k : Nat} (h : ∀ e ∈ t, e.1 ≠ k) : Tab.get d (t ++ u) k = Tab.get d u k := by
  induction t with
  | nil => rfl
  | cons x t ih =>
    obtain ⟨j, v⟩ := x
    have hj : k ≠ j := fun e => h (j, v) (by simp) e.symm
    simp [Tab.get, hj, ih fun e he => h e (by simp [he])]

omit [DecidableEq α] in
theorem Tab.get_takeWhile {d : Nat → α} {t : Tab α} (h : t.Pairwise fun a b => a.1 < b.1) {k m : Nat} (hm : m < k) (u : Tab α)
    (hu : ∀ e ∈ u, e.1 ≠ m) :
    Tab.get d (t.takeWhile (fun e => decide (e.1 < k)) ++ u) m = Tab.get d t m := by
  induction t with
  | nil => simpa [Tab.get] using Tab.get_of_no hu
  | cons x t ih =>
    obtain ⟨j, v⟩ := x
    simp only [List.takeWhile_cons]
    split
    · simp only [List.cons_append, Tab.get]
      split
      · rfl
      · exact ih h.of_cons
    · next hx =>
      simp only [decide_eq_true_eq] at hx
      rw [List.nil_append, Tab.get_of_no hu, Tab.get_of_no]
      intro e he
      rcases List.mem_cons.1 he with rfl | he
      · simp at hx ⊢; omega
      · have := (List.pairwise_cons.1 h).1 e he; simp at this; omega

omit [DecidableEq α] in
theorem Tab.get_dropWhile {d : Nat → α} {t : Tab α} {k m : Nat} (hm : k ≤ m) :
    Tab.get d (t.dropWhile (fun e => decide (e.1 < k))) m = Tab.get d t m := by
  induction t with
  | nil => rfl
  | cons x t ih =>
    obtain ⟨j, v⟩ := x
    simp only [List.dropWhile_cons]
    split
    · next hx =>
      simp only [decide_eq_true_eq] at hx
      have : m ≠ j := by omega
      simp [Tab.get, this, ih]
    · rfl

/-- What a table reads after a run of writes: the values of the run in it, and elsewhere what it read before. -/
theorem Tab.get_setRun (d : Nat → α) {t : Tab α} (h : Tab.wf d t = true) (k m : Nat) (vs : List α) :
    Tab.get d (Tab.setRun d t k vs) m = if k ≤ m then (vs[m - k]?).getD (Tab.get d t m) else Tab.get d t m := by
  have hw := Tab.wf_setRun d k vs h
  rw [Tab.wf_iff] at h hw
  have hd := Tab.dropWhile_ge h.1 (k + vs.length)
  have ht : ∀ e ∈ t.takeWhile (fun e => decide (e.1 < k)), e.1 < k := fun e he => Tab.takeWhile_lt he
  have hl : ∀ e ∈ Tab.listed d k vs, k ≤ e.1 ∧ e.1 < k + vs.length := fun e he => ⟨(Tab.mem_listed he).1, (Tab.mem_listed he).2.1⟩
  split
  · next hkm =>
    by_cases hmv : m < k + vs.length
    · have hsome : vs[m - k]? = some vs[m - k] := List.getElem?_eq_getElem (by omega)
      rw [hsome, Option.getD_some]
      by_cases hdef : vs[m - k] = d m
      · rw [hdef]
        apply Tab.get_of_no
        intro e he hem
        unfold Tab.setRun at he
        rcases List.mem_append.1 he with he | he
        · rcases List.mem_append.1 he with he | he
          · have := ht e he; omega
          · have := Tab.mem_listed he
            rw [hem] at this
            rw [hsome] at this
            simp only [Option.some.injEq] at this
            exact this.2.2.1 (this.2.2.2 ▸ hdef)
        · have := hd e he; omega
      · have hmem : (m, vs[m - k]) ∈ Tab.setRun d t k vs := by
          unfold Tab.setRun
          refine List.mem_append_left _ (List.mem_append_right _ ?_)
          simp only [Tab.listed, List.mem_filterMap]
          refine ⟨(m - k, vs[m - k]), ?_, ?_⟩
          · rw [List.mem_iff_getElem?]
            refine ⟨m - k, ?_⟩
            rw [List.getElem?_zip_eq_some]
            exact ⟨by rw [List.getElem?_range (by omega)], hsome⟩
          · have : k + (m - k) = m := by omega
            simp [this, hdef]
        exact Tab.get_of_mem hw.1 hmem
    · have : vs[m - k]? = none := by rw [List.getElem?_eq_none_iff]; omega
      rw [this, Option.getD_none]
      unfold Tab.setRun
      rw [Tab.get_append_of_no, Tab.get_dropWhile (by omega)]
      intro e he
      rcases List.mem_append.1 he with he | he
      · have := ht e he; omega
      · have := hl e he; omega
  · next hkm =>
    unfold Tab.setRun
    rw [List.append_assoc]
    apply Tab.get_takeWhile h.1 (by omega)
    intro e he
    rcases List.mem_append.1 he with he | he
    · have := hl e he; omega
    · have := hd e he; omega

omit [DecidableEq α] in
theorem Tab.runStep_spec (d : Nat → α) :
    ∀ (n k : Nat) (t : Tab α) (acc : List α), t.Pairwise (fun a b => a.1 < b.1) → (∀ e ∈ t, k ≤ e.1) →
      ((List.range' k n).foldl (Tab.runStep d) (t, acc)).2 = ((List.range' k n).map (Tab.get d t)).reverse ++ acc
  | 0, k, t, acc, _, _ => by simp
  | n + 1, k, t, acc, hp, hk => by
    simp only [List.range'_succ, List.foldl_cons, List.map_cons, List.reverse_cons, List.append_assoc, List.singleton_append]
    match t, hp, hk with
    | [], _, _ =>
      have := Tab.runStep_spec d n (k + 1) [] (d k :: acc) (by simp) (by simp)
      simpa [Tab.runStep, Tab.get] using this
    | (i, v) :: t, hp, hk =>
      have hp' := List.pairwise_cons.1 hp
      by_cases hi : i = k
      · subst hi
        have := Tab.runStep_spec d n (i + 1) t (v :: acc) hp'.2 (fun e he => by have := hp'.1 e he; simp at this; omega)
        simp only [Tab.runStep, if_true, Tab.get]
        rw [this]
        congr 2
        apply List.map_congr_left
        intro m hm
        have : m ≠ i := by have := List.mem_range'_1.1 hm; omega
        simp [this]
      · have hik : k < i := by have := hk (i, v) (by simp); simp at this; omega
        have := Tab.runStep_spec d n (k + 1) ((i, v) :: t) (d k :: acc) hp (fun e he => by
          rcases List.mem_cons.1 he with rfl | he
          · show k + 1 ≤ i; omega
          · have := hp'.1 e he; simp at this; omega)
        simp only [Tab.runStep, hi, if_false]
        rw [this]
        congr 2
        have hne : ∀ e ∈ (i, v) :: t, e.1 ≠ k := fun e he => by
          rcases List.mem_cons.1 he with rfl | he
          · simpa using hi
          · have := hp'.1 e he; simp at this; omega
        rw [Tab.get_of_no hne]

/-- A run of reads is each of them. -/
theorem Tab.getRun_eq (d : Nat → α) {t : Tab α} (h : Tab.wf d t = true) (k n : Nat) :
    Tab.getRun d t k n = (List.range' k n).map (Tab.get d t) := by
  rw [Tab.wf_iff] at h
  unfold Tab.getRun
  rw [Tab.runStep_spec d n k _ [] (h.1.sublist (List.dropWhile_sublist _)) (Tab.dropWhile_ge h.1 k)]
  simp only [List.append_nil, List.reverse_reverse]
  apply List.map_congr_left
  intro m hm
  exact Tab.get_dropWhile (List.mem_range'_1.1 hm).1

end Sys2Proof.Machine
end

