-- ==== Sys2Proof/Laws/Keeps.lean ====
section
/-! SUPPORT. What every operation of the model keeps: the queue of commands as it was, and the register file and field memory in canonical
form; and which parts of the machine each leaves alone. -/

namespace Sys2Proof.Machine

/-- A part's place in a set of parts written as a number, one bit a part. -/
def Part.idx : Part → Nat
  | .cycle => 0
  | .regs => 1
  | .mem => 2
  | .lastRead => 3
  | .fresh => 4
  | .grids => 5
  | .latches => 6
  | .staged => 7
  | .ctl => 8
  | .tbs => 9
  | .gal => 10
  | .msix => 11
  | .sat => 12
  | .host => 13
  | .cor => 14
  | .prune => 15
  | .bur => 16
  | .ttb => 17
  | .chn => 18
  | .sq => 19
  | .cmp => 20
  | .flw => 21
  | .tim => 22
  | .chk => 23
  | .cal => 24
  | .cel => 25
  | .lan => 26
  | .ring => 27
  | .tk => 28
  | .bel => 29

/-- The set `a` of parts lies in the set `b`. -/
def Sub (a b : Nat) : Prop := Nat.land a b = a

theorem Sub.of {a b m : Nat} (h : Sub b m) (k : Nat.land a b = a) : Sub a m := by
  unfold Sub at *
  show a &&& m = a
  have k' : a &&& b = a := k
  have h' : b &&& m = b := h
  rw [← k', Nat.and_assoc, h']

theorem Sub.has {a m i : Nat} (h : Sub a m) (k : Nat.testBit a i = true) : Nat.testBit m i = true := by
  have h' : a &&& m = a := h
  rw [← h', Nat.testBit_and] at k
  exact (Bool.and_eq_true_iff.1 k).2

/-- `t` comes from `s` by effects that leave the queue alone, keep the canonical forms, and change no part outside the set `pm`. -/
structure Keeps (pm : Nat) (s t : State) : Prop where
  queue : t.pending = s.pending
  regs : Tab.wf resetValue s.regs = true → Tab.wf resetValue t.regs = true
  mem : Memory.wf s.mem = true → Memory.wf t.mem = true
  same : ∀ p : Part, pm.testBit p.idx = false → p.same s t

variable {pm : Nat} {sk s : State}

theorem Part.same_refl (s : State) (p : Part) : p.same s s := by cases p <;> rfl

theorem Part.same_trans {s t u : State} {p : Part} (h : p.same s t) (k : p.same t u) : p.same s u := by
  cases p <;> exact Eq.trans k h

theorem Keeps.refl (pm : Nat) (s : State) : Keeps pm s s := ⟨rfl, id, id, fun p _ => p.same_refl s⟩

theorem Keeps.trans {t : State} (h : Keeps pm sk s) (k : Keeps pm s t) : Keeps pm sk t :=
  ⟨k.queue.trans h.queue, fun x => k.regs (h.regs x), fun x => k.mem (h.mem x), fun p hp => Part.same_trans (h.same p hp) (k.same p hp)⟩

/-- Every next state of an outcome keeps the same. -/
structure OutKeeps (pm : Nat) (sk : State) (o : Out) : Prop where
  keeps : ∀ t, o = .next t → Keeps pm sk t

theorem OutKeeps.next {t : State} (h : Keeps pm sk t) : OutKeeps pm sk (.next t) := ⟨fun _ e => by cases e; exact h⟩

/-- A value named on the way keeps what its definition keeps. -/
theorem Keeps.cut {x : State} {G : Prop} (hx : Keeps pm sk x) (k : Keeps pm sk x → G) : G := k hx
theorem Keeps.cut2 {α : Type} {x : α × State} {G : Prop} (hx : Keeps pm sk x.2) (k : Keeps pm sk x.2 → G) : G := k hx
theorem Keeps.cut3 {α β : Type} {x : α × β × State} {G : Prop} (hx : Keeps pm sk x.2.2) (k : Keeps pm sk x.2.2 → G) : G := k hx
theorem Keeps.cutF {α : Type} {x : α → State} {G : Prop} (hx : ∀ a, Keeps pm sk (x a)) (k : (∀ a, Keeps pm sk (x a)) → G) : G := k hx
theorem Keeps.cutG {x : State → State} {G : Prop} (hx : ∀ a, Keeps pm sk a → Keeps pm sk (x a))
    (k : (∀ a, Keeps pm sk a → Keeps pm sk (x a)) → G) : G := k hx
theorem Keeps.cutH {α : Type} {x : State → α → State} {G : Prop} (hx : ∀ a b, Keeps pm sk a → Keeps pm sk (x a b))
    (k : (∀ a b, Keeps pm sk a → Keeps pm sk (x a b)) → G) : G := k hx

theorem Keeps.cutF2 {α β : Type} {x : α → β → State} {G : Prop} (hx : ∀ a b, Keeps pm sk (x a b)) (k : (∀ a b, Keeps pm sk (x a b)) → G) : G := k hx

theorem Keeps.foldl {α : Type} {f : State → α → State} (h : Keeps pm sk s) (l : List α)
    (hf : ∀ t x, Keeps pm sk t → Keeps pm sk (f t x)) : Keeps pm sk (l.foldl f s) := by
  induction l generalizing s with
  | nil => exact h
  | cons x l ih => exact ih (hf s x h)

theorem Keeps.foldl2 {α β : Type} {f : β × State → α → β × State} {r : β × State} (h : Keeps pm sk r.2) (l : List α)
    (hf : ∀ t x, Keeps pm sk t.2 → Keeps pm sk (f t x).2) : Keeps pm sk (l.foldl f r).2 := by
  induction l generalizing r with
  | nil => exact h
  | cons x l ih => exact ih (hf r x h)

theorem Keeps.foldl1 {α β : Type} {f : State × β → α → State × β} {r : State × β} (h : Keeps pm sk r.1) (l : List α)
    (hf : ∀ t x, Keeps pm sk t.1 → Keeps pm sk (f t x).1) : Keeps pm sk (l.foldl f r).1 := by
  induction l generalizing r with
  | nil => exact h
  | cons x l ih => exact ih (hf r x h)

/-- A change of fields in the set `pm`. -/
theorem Keeps.upd (h : Keeps pm sk s) {cycle : Nat} {lastRead : Word} {fresh : Nat} {grids : Tab Nat} {latches : Tab (Option Word)} {staged : Tab (Option Word)} {ctl : ModeCtl} {tbs : Tab TimeBase} {gal : Gallery} {msix : Msix} {sat : Satchel} {host : HostLink} {cor : Corridor} {prune : Prune} {bur : Bursar} {ttb : Timetable} {chn : Channels} {sq : Sequencers} {cmp : Compare} {flw : Flow} {tim : Timing} {chk : Tab ChkRun} {cal : Calib} {cel : Cellar} {lan : Lanes} {ring : Ring} {tk : TimeKeep} {bel : Bells}
    (hcycle : pm.testBit 0 = true ∨ cycle = s.cycle := by first | (apply Or.inr; with_reducible rfl) | exact .inl (Sub.has (by assumption) rfl))
    (hlastRead : pm.testBit 3 = true ∨ lastRead = s.lastRead := by first | (apply Or.inr; with_reducible rfl) | exact .inl (Sub.has (by assumption) rfl))
    (hfresh : pm.testBit 4 = true ∨ fresh = s.fresh := by first | (apply Or.inr; with_reducible rfl) | exact .inl (Sub.has (by assumption) rfl))
    (hgrids : pm.testBit 5 = true ∨ grids = s.grids := by first | (apply Or.inr; with_reducible rfl) | exact .inl (Sub.has (by assumption) rfl))
    (hlatches : pm.testBit 6 = true ∨ latches = s.latches := by first | (apply Or.inr; with_reducible rfl) | exact .inl (Sub.has (by assumption) rfl))
    (hstaged : pm.testBit 7 = true ∨ staged = s.staged := by first | (apply Or.inr; with_reducible rfl) | exact .inl (Sub.has (by assumption) rfl))
    (hctl : pm.testBit 8 = true ∨ ctl = s.ctl := by first | (apply Or.inr; with_reducible rfl) | exact .inl (Sub.has (by assumption) rfl))
    (htbs : pm.testBit 9 = true ∨ tbs = s.tbs := by first | (apply Or.inr; with_reducible rfl) | exact .inl (Sub.has (by assumption) rfl))
    (hgal : pm.testBit 10 = true ∨ gal = s.gal := by first | (apply Or.inr; with_reducible rfl) | exact .inl (Sub.has (by assumption) rfl))
    (hmsix : pm.testBit 11 = true ∨ msix = s.msix := by first | (apply Or.inr; with_reducible rfl) | exact .inl (Sub.has (by assumption) rfl))
    (hsat : pm.testBit 12 = true ∨ sat = s.sat := by first | (apply Or.inr; with_reducible rfl) | exact .inl (Sub.has (by assumption) rfl))
    (hhost : pm.testBit 13 = true ∨ host = s.host := by first | (apply Or.inr; with_reducible rfl) | exact .inl (Sub.has (by assumption) rfl))
    (hcor : pm.testBit 14 = true ∨ cor = s.cor := by first | (apply Or.inr; with_reducible rfl) | exact .inl (Sub.has (by assumption) rfl))
    (hprune : pm.testBit 15 = true ∨ prune = s.prune := by first | (apply Or.inr; with_reducible rfl) | exact .inl (Sub.has (by assumption) rfl))
    (hbur : pm.testBit 16 = true ∨ bur = s.bur := by first | (apply Or.inr; with_reducible rfl) | exact .inl (Sub.has (by assumption) rfl))
    (httb : pm.testBit 17 = true ∨ ttb = s.ttb := by first | (apply Or.inr; with_reducible rfl) | exact .inl (Sub.has (by assumption) rfl))
    (hchn : pm.testBit 18 = true ∨ chn = s.chn := by first | (apply Or.inr; with_reducible rfl) | exact .inl (Sub.has (by assumption) rfl))
    (hsq : pm.testBit 19 = true ∨ sq = s.sq := by first | (apply Or.inr; with_reducible rfl) | exact .inl (Sub.has (by assumption) rfl))
    (hcmp : pm.testBit 20 = true ∨ cmp = s.cmp := by first | (apply Or.inr; with_reducible rfl) | exact .inl (Sub.has (by assumption) rfl))
    (hflw : pm.testBit 21 = true ∨ flw = s.flw := by first | (apply Or.inr; with_reducible rfl) | exact .inl (Sub.has (by assumption) rfl))
    (htim : pm.testBit 22 = true ∨ tim = s.tim := by first | (apply Or.inr; with_reducible rfl) | exact .inl (Sub.has (by assumption) rfl))
    (hchk : pm.testBit 23 = true ∨ chk = s.chk := by first | (apply Or.inr; with_reducible rfl) | exact .inl (Sub.has (by assumption) rfl))
    (hcal : pm.testBit 24 = true ∨ cal = s.cal := by first | (apply Or.inr; with_reducible rfl) | exact .inl (Sub.has (by assumption) rfl))
    (hcel : pm.testBit 25 = true ∨ cel = s.cel := by first | (apply Or.inr; with_reducible rfl) | exact .inl (Sub.has (by assumption) rfl))
    (hlan : pm.testBit 26 = true ∨ lan = s.lan := by first | (apply Or.inr; with_reducible rfl) | exact .inl (Sub.has (by assumption) rfl))
    (hring : pm.testBit 27 = true ∨ ring = s.ring := by first | (apply Or.inr; with_reducible rfl) | exact .inl (Sub.has (by assumption) rfl))
    (htk : pm.testBit 28 = true ∨ tk = s.tk := by first | (apply Or.inr; with_reducible rfl) | exact .inl (Sub.has (by assumption) rfl))
    (hbel : pm.testBit 29 = true ∨ bel = s.bel := by first | (apply Or.inr; with_reducible rfl) | exact .inl (Sub.has (by assumption) rfl)) :
    Keeps pm sk ⟨cycle, s.regs, s.mem, s.pending, lastRead, fresh, grids, latches, staged, ctl, tbs, gal, msix, sat, host, cor, prune, bur, ttb, chn, sq, cmp, flw, tim, chk, cal, cel, lan, ring, tk, bel⟩ := by
  have keep {α : Type} {a b c : α} {i : Nat} (h : b = a) (k : pm.testBit i = true ∨ c = b) (hp : pm.testBit i = false) : c = a := by
    rcases k with k | k
    · rw [hp] at k; cases k
    · exact k.trans h
  refine ⟨h.queue, h.regs, h.mem, fun p hp => ?_⟩
  cases p with
    | cycle => exact keep (h.same .cycle hp) hcycle hp
    | regs => exact h.same .regs hp
    | mem => exact h.same .mem hp
    | lastRead => exact keep (h.same .lastRead hp) hlastRead hp
    | fresh => exact keep (h.same .fresh hp) hfresh hp
    | grids => exact keep (h.same .grids hp) hgrids hp
    | latches => exact keep (h.same .latches hp) hlatches hp
    | staged => exact keep (h.same .staged hp) hstaged hp
    | ctl => exact keep (h.same .ctl hp) hctl hp
    | tbs => exact keep (h.same .tbs hp) htbs hp
    | gal => exact keep (h.same .gal hp) hgal hp
    | msix => exact keep (h.same .msix hp) hmsix hp
    | sat => exact keep (h.same .sat hp) hsat hp
    | host => exact keep (h.same .host hp) hhost hp
    | cor => exact keep (h.same .cor hp) hcor hp
    | prune => exact keep (h.same .prune hp) hprune hp
    | bur => exact keep (h.same .bur hp) hbur hp
    | ttb => exact keep (h.same .ttb hp) httb hp
    | chn => exact keep (h.same .chn hp) hchn hp
    | sq => exact keep (h.same .sq hp) hsq hp
    | cmp => exact keep (h.same .cmp hp) hcmp hp
    | flw => exact keep (h.same .flw hp) hflw hp
    | tim => exact keep (h.same .tim hp) htim hp
    | chk => exact keep (h.same .chk hp) hchk hp
    | cal => exact keep (h.same .cal hp) hcal hp
    | cel => exact keep (h.same .cel hp) hcel hp
    | lan => exact keep (h.same .lan hp) hlan hp
    | ring => exact keep (h.same .ring hp) hring hp
    | tk => exact keep (h.same .tk hp) htk hp
    | bel => exact keep (h.same .bel hp) hbel hp

/-- Field memory replaced by another in canonical form, with any change of fields in the set `pm`. -/
theorem Keeps.updMem (h : Keeps pm sk s) {mem : Tab Byte} (hw : Memory.wf mem = true) {cycle : Nat} {lastRead : Word} {fresh : Nat} {grids : Tab Nat} {latches : Tab (Option Word)} {staged : Tab (Option Word)} {ctl : ModeCtl} {tbs : Tab TimeBase} {gal : Gallery} {msix : Msix} {sat : Satchel} {host : HostLink} {cor : Corridor} {prune : Prune} {bur : Bursar} {ttb : Timetable} {chn : Channels} {sq : Sequencers} {cmp : Compare} {flw : Flow} {tim : Timing} {chk : Tab ChkRun} {cal : Calib} {cel : Cellar} {lan : Lanes} {ring : Ring} {tk : TimeKeep} {bel : Bells}
    (hcycle : pm.testBit 0 = true ∨ cycle = s.cycle := by first | (apply Or.inr; with_reducible rfl) | exact .inl (Sub.has (by assumption) rfl))
    (hlastRead : pm.testBit 3 = true ∨ lastRead = s.lastRead := by first | (apply Or.inr; with_reducible rfl) | exact .inl (Sub.has (by assumption) rfl))
    (hfresh : pm.testBit 4 = true ∨ fresh = s.fresh := by first | (apply Or.inr; with_reducible rfl) | exact .inl (Sub.has (by assumption) rfl))
    (hgrids : pm.testBit 5 = true ∨ grids = s.grids := by first | (apply Or.inr; with_reducible rfl) | exact .inl (Sub.has (by assumption) rfl))
    (hlatches : pm.testBit 6 = true ∨ latches = s.latches := by first | (apply Or.inr; with_reducible rfl) | exact .inl (Sub.has (by assumption) rfl))
    (hstaged : pm.testBit 7 = true ∨ staged = s.staged := by first | (apply Or.inr; with_reducible rfl) | exact .inl (Sub.has (by assumption) rfl))
    (hctl : pm.testBit 8 = true ∨ ctl = s.ctl := by first | (apply Or.inr; with_reducible rfl) | exact .inl (Sub.has (by assumption) rfl))
    (htbs : pm.testBit 9 = true ∨ tbs = s.tbs := by first | (apply Or.inr; with_reducible rfl) | exact .inl (Sub.has (by assumption) rfl))
    (hgal : pm.testBit 10 = true ∨ gal = s.gal := by first | (apply Or.inr; with_reducible rfl) | exact .inl (Sub.has (by assumption) rfl))
    (hmsix : pm.testBit 11 = true ∨ msix = s.msix := by first | (apply Or.inr; with_reducible rfl) | exact .inl (Sub.has (by assumption) rfl))
    (hsat : pm.testBit 12 = true ∨ sat = s.sat := by first | (apply Or.inr; with_reducible rfl) | exact .inl (Sub.has (by assumption) rfl))
    (hhost : pm.testBit 13 = true ∨ host = s.host := by first | (apply Or.inr; with_reducible rfl) | exact .inl (Sub.has (by assumption) rfl))
    (hcor : pm.testBit 14 = true ∨ cor = s.cor := by first | (apply Or.inr; with_reducible rfl) | exact .inl (Sub.has (by assumption) rfl))
    (hprune : pm.testBit 15 = true ∨ prune = s.prune := by first | (apply Or.inr; with_reducible rfl) | exact .inl (Sub.has (by assumption) rfl))
    (hbur : pm.testBit 16 = true ∨ bur = s.bur := by first | (apply Or.inr; with_reducible rfl) | exact .inl (Sub.has (by assumption) rfl))
    (httb : pm.testBit 17 = true ∨ ttb = s.ttb := by first | (apply Or.inr; with_reducible rfl) | exact .inl (Sub.has (by assumption) rfl))
    (hchn : pm.testBit 18 = true ∨ chn = s.chn := by first | (apply Or.inr; with_reducible rfl) | exact .inl (Sub.has (by assumption) rfl))
    (hsq : pm.testBit 19 = true ∨ sq = s.sq := by first | (apply Or.inr; with_reducible rfl) | exact .inl (Sub.has (by assumption) rfl))
    (hcmp : pm.testBit 20 = true ∨ cmp = s.cmp := by first | (apply Or.inr; with_reducible rfl) | exact .inl (Sub.has (by assumption) rfl))
    (hflw : pm.testBit 21 = true ∨ flw = s.flw := by first | (apply Or.inr; with_reducible rfl) | exact .inl (Sub.has (by assumption) rfl))
    (htim : pm.testBit 22 = true ∨ tim = s.tim := by first | (apply Or.inr; with_reducible rfl) | exact .inl (Sub.has (by assumption) rfl))
    (hchk : pm.testBit 23 = true ∨ chk = s.chk := by first | (apply Or.inr; with_reducible rfl) | exact .inl (Sub.has (by assumption) rfl))
    (hcal : pm.testBit 24 = true ∨ cal = s.cal := by first | (apply Or.inr; with_reducible rfl) | exact .inl (Sub.has (by assumption) rfl))
    (hcel : pm.testBit 25 = true ∨ cel = s.cel := by first | (apply Or.inr; with_reducible rfl) | exact .inl (Sub.has (by assumption) rfl))
    (hlan : pm.testBit 26 = true ∨ lan = s.lan := by first | (apply Or.inr; with_reducible rfl) | exact .inl (Sub.has (by assumption) rfl))
    (hring : pm.testBit 27 = true ∨ ring = s.ring := by first | (apply Or.inr; with_reducible rfl) | exact .inl (Sub.has (by assumption) rfl))
    (htk : pm.testBit 28 = true ∨ tk = s.tk := by first | (apply Or.inr; with_reducible rfl) | exact .inl (Sub.has (by assumption) rfl))
    (hbel : pm.testBit 29 = true ∨ bel = s.bel := by first | (apply Or.inr; with_reducible rfl) | exact .inl (Sub.has (by assumption) rfl))
    (hmem : pm.testBit 2 = true := by exact Sub.has (by assumption) rfl) :
    Keeps pm sk ⟨cycle, s.regs, mem, s.pending, lastRead, fresh, grids, latches, staged, ctl, tbs, gal, msix, sat, host, cor, prune, bur, ttb, chn, sq, cmp, flw, tim, chk, cal, cel, lan, ring, tk, bel⟩ := by
  have keep {α : Type} {a b c : α} {i : Nat} (h : b = a) (k : pm.testBit i = true ∨ c = b) (hp : pm.testBit i = false) : c = a := by
    rcases k with k | k
    · rw [hp] at k; cases k
    · exact k.trans h
  refine ⟨h.queue, h.regs, fun _ => hw, fun p hp => ?_⟩
  cases p with
    | cycle => exact keep (h.same .cycle hp) hcycle hp
    | regs => exact h.same .regs hp
    | mem => exact absurd hmem (by rw [show pm.testBit 2 = false from hp]; decide)
    | lastRead => exact keep (h.same .lastRead hp) hlastRead hp
    | fresh => exact keep (h.same .fresh hp) hfresh hp
    | grids => exact keep (h.same .grids hp) hgrids hp
    | latches => exact keep (h.same .latches hp) hlatches hp
    | staged => exact keep (h.same .staged hp) hstaged hp
    | ctl => exact keep (h.same .ctl hp) hctl hp
    | tbs => exact keep (h.same .tbs hp) htbs hp
    | gal => exact keep (h.same .gal hp) hgal hp
    | msix => exact keep (h.same .msix hp) hmsix hp
    | sat => exact keep (h.same .sat hp) hsat hp
    | host => exact keep (h.same .host hp) hhost hp
    | cor => exact keep (h.same .cor hp) hcor hp
    | prune => exact keep (h.same .prune hp) hprune hp
    | bur => exact keep (h.same .bur hp) hbur hp
    | ttb => exact keep (h.same .ttb hp) httb hp
    | chn => exact keep (h.same .chn hp) hchn hp
    | sq => exact keep (h.same .sq hp) hsq hp
    | cmp => exact keep (h.same .cmp hp) hcmp hp
    | flw => exact keep (h.same .flw hp) hflw hp
    | tim => exact keep (h.same .tim hp) htim hp
    | chk => exact keep (h.same .chk hp) hchk hp
    | cal => exact keep (h.same .cal hp) hcal hp
    | cel => exact keep (h.same .cel hp) hcel hp
    | lan => exact keep (h.same .lan hp) hlan hp
    | ring => exact keep (h.same .ring hp) hring hp
    | tk => exact keep (h.same .tk hp) htk hp
    | bel => exact keep (h.same .bel hp) hbel hp

theorem State.setReg_keeps (hm : Sub 2 pm) (h : Keeps pm sk s) (a : Nat) (v : Word) : Keeps pm sk (s.setReg a v) := by
  refine ⟨h.queue, fun x => Tab.wf_set resetValue a v (h.regs x), h.mem, fun p hp => ?_⟩
  cases p with
  | regs => exact absurd (hm.has (i := 1) rfl) (by rw [show pm.testBit 1 = false from hp]; decide)
  | cycle => exact h.same .cycle hp
  | mem => exact h.same .mem hp
  | lastRead => exact h.same .lastRead hp
  | fresh => exact h.same .fresh hp
  | grids => exact h.same .grids hp
  | latches => exact h.same .latches hp
  | staged => exact h.same .staged hp
  | ctl => exact h.same .ctl hp
  | tbs => exact h.same .tbs hp
  | gal => exact h.same .gal hp
  | msix => exact h.same .msix hp
  | sat => exact h.same .sat hp
  | host => exact h.same .host hp
  | cor => exact h.same .cor hp
  | prune => exact h.same .prune hp
  | bur => exact h.same .bur hp
  | ttb => exact h.same .ttb hp
  | chn => exact h.same .chn hp
  | sq => exact h.same .sq hp
  | cmp => exact h.same .cmp hp
  | flw => exact h.same .flw hp
  | tim => exact h.same .tim hp
  | chk => exact h.same .chk hp
  | cal => exact h.same .cal hp
  | cel => exact h.same .cel hp
  | lan => exact h.same .lan hp
  | ring => exact h.same .ring hp
  | tk => exact h.same .tk hp
  | bel => exact h.same .bel hp

/-- The register file with some of its entries left out. -/
theorem Keeps.filterRegs (hm : Sub 2 pm) (h : Keeps pm sk s) (p : Nat × Word → Bool) : Keeps pm sk { s with regs := s.regs.filter p } := by
  refine ⟨h.queue, fun x => Tab.wf_filter resetValue p (h.regs x), h.mem, fun p hp => ?_⟩
  cases p with
  | regs => exact absurd (hm.has (i := 1) rfl) (by rw [show pm.testBit 1 = false from hp]; decide)
  | cycle => exact h.same .cycle hp
  | mem => exact h.same .mem hp
  | lastRead => exact h.same .lastRead hp
  | fresh => exact h.same .fresh hp
  | grids => exact h.same .grids hp
  | latches => exact h.same .latches hp
  | staged => exact h.same .staged hp
  | ctl => exact h.same .ctl hp
  | tbs => exact h.same .tbs hp
  | gal => exact h.same .gal hp
  | msix => exact h.same .msix hp
  | sat => exact h.same .sat hp
  | host => exact h.same .host hp
  | cor => exact h.same .cor hp
  | prune => exact h.same .prune hp
  | bur => exact h.same .bur hp
  | ttb => exact h.same .ttb hp
  | chn => exact h.same .chn hp
  | sq => exact h.same .sq hp
  | cmp => exact h.same .cmp hp
  | flw => exact h.same .flw hp
  | tim => exact h.same .tim hp
  | chk => exact h.same .chk hp
  | cal => exact h.same .cal hp
  | cel => exact h.same .cel hp
  | lan => exact h.same .lan hp
  | ring => exact h.same .ring hp
  | tk => exact h.same .tk hp
  | bel => exact h.same .bel hp

/-- Field memory changed by an operation that keeps its canonical form. -/
theorem Keeps.mapMem (hm : Sub 4 pm) (h : Keeps pm sk s) {mem : Tab Byte} (hw : Memory.wf s.mem = true → Memory.wf mem = true) :
    Keeps pm sk { s with mem := mem } := by
  refine ⟨h.queue, h.regs, fun x => hw (h.mem x), fun p hp => ?_⟩
  cases p with
  | mem => exact absurd (hm.has (i := 2) rfl) (by rw [show pm.testBit 2 = false from hp]; decide)
  | cycle => exact h.same .cycle hp
  | regs => exact h.same .regs hp
  | lastRead => exact h.same .lastRead hp
  | fresh => exact h.same .fresh hp
  | grids => exact h.same .grids hp
  | latches => exact h.same .latches hp
  | staged => exact h.same .staged hp
  | ctl => exact h.same .ctl hp
  | tbs => exact h.same .tbs hp
  | gal => exact h.same .gal hp
  | msix => exact h.same .msix hp
  | sat => exact h.same .sat hp
  | host => exact h.same .host hp
  | cor => exact h.same .cor hp
  | prune => exact h.same .prune hp
  | bur => exact h.same .bur hp
  | ttb => exact h.same .ttb hp
  | chn => exact h.same .chn hp
  | sq => exact h.same .sq hp
  | cmp => exact h.same .cmp hp
  | flw => exact h.same .flw hp
  | tim => exact h.same .tim hp
  | chk => exact h.same .chk hp
  | cal => exact h.same .cal hp
  | cel => exact h.same .cel hp
  | lan => exact h.same .lan hp
  | ring => exact h.same .ring hp
  | tk => exact h.same .tk hp
  | bel => exact h.same .bel hp

theorem State.setByte_keeps (hm : Sub 4 pm) (h : Keeps pm sk s) (a : Nat) (b : Byte) : Keeps pm sk (s.setByte a b) :=
  Keeps.mapMem hm h fun x => Tab.wf_set memDefault a b x

theorem State.putEach_keeps (hm : Sub 4 pm) (h : Keeps pm sk s) (a : Nat) (l : List Byte) : Keeps pm sk (s.putEach a l) := by
  induction l generalizing s a with
  | nil => exact h
  | cons b l ih =>
    unfold State.putEach
    apply ih
    split
    · exact State.setByte_keeps hm h a b
    · exact h

theorem State.putBytes_keeps (hm : Sub 4 pm) (h : Keeps pm sk s) (a : Nat) (l : List Byte) : Keeps pm sk (s.putBytes a l) := by
  unfold State.putBytes
  split
  · exact Keeps.mapMem hm h fun x => Tab.wf_setRun memDefault a l x
  · exact State.putEach_keeps hm h a l


/-- A state that may not be there keeps the same where it is. -/
structure OptKeeps (pm : Nat) (sk : State) (o : Option State) : Prop where
  keeps : ∀ t, o = some t → Keeps pm sk t

theorem OptKeeps.of {o : Option State} {t : State} (h : o = some t) (k : OptKeeps pm sk o) : Keeps pm sk t := k.keeps t h
theorem OptKeeps.none : OptKeeps pm sk none := ⟨fun _ e => by cases e⟩
theorem OptKeeps.some {t : State} (h : Keeps pm sk t) : OptKeeps pm sk (some t) := ⟨fun _ e => by cases e; exact h⟩
theorem OptKeeps.bind {o : Option State} {f : State → Option State} (h : OptKeeps pm sk o) (k : ∀ t, Keeps pm sk t → OptKeeps pm sk (f t)) :
    OptKeeps pm sk (o.bind f) := ⟨fun u e => by
  cases o with
  | none => cases e
  | some t => exact (k t (h.keeps t rfl)).keeps u e⟩
theorem OptKeeps.map {o : Option State} {f : State → State} (h : OptKeeps pm sk o) (k : ∀ t, Keeps pm sk t → Keeps pm sk (f t)) :
    OptKeeps pm sk (o.map f) := ⟨fun u e => by
  cases o with
  | none => cases e
  | some t => cases e; exact k t (h.keeps t rfl)⟩
theorem OptKeeps.getD {o : Option State} {s : State} (h : OptKeeps pm sk o) (k : Keeps pm sk s) : Keeps pm sk (o.getD s) := by
  cases o with
  | none => exact k
  | some t => exact h.keeps t rfl
theorem OptKeeps.foldl {α : Type} {f : State → α → Option State} (l : List α) {o : Option State} (h : OptKeeps pm sk o)
    (hf : ∀ t x, Keeps pm sk t → OptKeeps pm sk (f t x)) : OptKeeps pm sk (l.foldl (fun r x => r.bind fun s => f s x) o) := by
  induction l generalizing o with
  | nil => exact h
  | cons x l ih => exact ih (h.bind fun t ht => hf t x ht)
end Sys2Proof.Machine
end

