-- ==== Sys2Proof/Laws/KeepsChannels.lean ====
section
/-! SUPPORT. What each definition of the shared operations, the flags, the ports of field memory, the operand forms, the channels, the record rings, the Gallery, the Timetable and the edges keeps. -/

namespace Sys2Proof.Machine

set_option Elab.async false
set_option linter.all false

variable {pm : Nat} {sk s : State}

theorem State.setF_keeps (hm : Sub 2 pm) (hk : Keeps pm sk s) (a : Nat) (hi : Nat) (lo : Nat) (v : Nat) : Keeps pm sk (State.setF s a hi lo v) := by
  unfold State.setF
  repeat' first
    | with_reducible assumption | with_reducible apply State.setReg_keeps (hm.of rfl) | dsimp only

theorem State.setB_keeps (hm : Sub 2 pm) (hk : Keeps pm sk s) (a : Nat) (n : Nat) (b : Bool) : Keeps pm sk (State.setB s a n b) := by
  unfold State.setB
  repeat' first
    | with_reducible assumption | with_reducible apply State.setReg_keeps (hm.of rfl) | dsimp only

theorem State.setReg64_keeps (hm : Sub 2 pm) (hk : Keeps pm sk s) (a : Nat) (v : Nat) : Keeps pm sk (State.setReg64 s a v) := by
  unfold State.setReg64
  repeat' first
    | with_reducible assumption | with_reducible apply State.setReg_keeps (hm.of rfl) | dsimp only

theorem State.noteRc_keeps (hm : Sub 1024 pm) (hk : Keeps pm sk s) (a : Nat) (kept : Word → Word) : Keeps pm sk (State.noteRc s a kept) := by
  unfold State.noteRc
  repeat' first
    | with_reducible assumption | refine fun t (ht : Keeps pm sk t) => ?_ | refine fun _ t (ht : Keeps pm sk t) => ?_
    | ((try lift_lets); intro x; refine Keeps.cut (pm := pm) (sk := sk) (x := x) ?_ (fun hx => ?_); rotate_left; clear_value x; rotate_right)
    | ((try lift_lets); intro x; refine Keeps.cut2 (pm := pm) (sk := sk) (x := x) ?_ (fun hx => ?_); rotate_left; clear_value x; rotate_right)
    | ((try lift_lets); intro x; refine Keeps.cut3 (pm := pm) (sk := sk) (x := x) ?_ (fun hx => ?_); rotate_left; clear_value x; rotate_right)
    | ((try lift_lets); intro x; clear_value x) | split | unfold x | dsimp only | with_reducible refine Keeps.upd ?_

theorem State.incSat_keeps (hm : Sub 1026 pm) (hk : Keeps pm sk s) (a : Nat) (k : Nat) : Keeps pm sk (State.incSat s a k) := by
  unfold State.incSat
  repeat' first
    | with_reducible assumption | refine fun t (ht : Keeps pm sk t) => ?_ | refine fun _ t (ht : Keeps pm sk t) => ?_
    | with_reducible apply State.noteRc_keeps (hm.of rfl) | with_reducible apply State.setReg_keeps (hm.of rfl) | split | dsimp only

theorem State.incWrap_keeps (hm : Sub 2 pm) (hk : Keeps pm sk s) (a : Nat) (k : Nat) : Keeps pm sk (State.incWrap s a k) := by
  unfold State.incWrap
  repeat' first
    | with_reducible assumption | with_reducible apply State.setReg_keeps (hm.of rfl) | dsimp only

theorem State.inc64_keeps (hm : Sub 2 pm) (hk : Keeps pm sk s) (a : Nat) (k : Nat) : Keeps pm sk (State.inc64 s a k) := by
  unfold State.inc64
  repeat' first
    | with_reducible assumption | with_reducible apply State.setReg64_keeps (hm.of rfl) | dsimp only

theorem State.setTime4_keeps (hm : Sub 2 pm) (hk : Keeps pm sk s) (a : Nat) (t : Nat) : Keeps pm sk (State.setTime4 s a t) := by
  unfold State.setTime4
  repeat' first
    | with_reducible assumption | with_reducible apply State.setReg_keeps (hm.of rfl) | split | dsimp only

theorem State.setTb_keeps (hm : Sub 512 pm) (hk : Keeps pm sk s) (b : Nat) (t : TimeBase) : Keeps pm sk (State.setTb s b t) := by
  unfold State.setTb
  repeat' first
    | with_reducible assumption | refine fun t (ht : Keeps pm sk t) => ?_ | refine fun _ t (ht : Keeps pm sk t) => ?_ | dsimp only
    | with_reducible refine Keeps.upd ?_

theorem State.freshNat_keeps (hm : Sub 16 pm) (hk : Keeps pm sk s) (n : Nat) : Keeps pm sk (State.freshNat s n).2 := by
  unfold State.freshNat
  repeat' first
    | with_reducible assumption | dsimp only | with_reducible refine Keeps.upd ?_

theorem State.writeBytes_keeps (hm : Sub 33554436 pm) (hk : Keeps pm sk s) (a : Nat) (l : List Byte) : Keeps pm sk (State.writeBytes s a l) := by
  unfold State.writeBytes
  repeat' first
    | with_reducible assumption | refine fun t (ht : Keeps pm sk t) => ?_ | refine fun _ t (ht : Keeps pm sk t) => ?_
    | ((try lift_lets); intro x; refine Keeps.cut (pm := pm) (sk := sk) (x := x) ?_ (fun hx => ?_); rotate_left; clear_value x; rotate_right)
    | ((try lift_lets); intro x; clear_value x) | with_reducible apply State.putBytes_keeps (hm.of rfl) | unfold x | dsimp only
    | with_reducible refine Keeps.upd ?_

theorem State.writeLE_keeps (hm : Sub 33554436 pm) (hk : Keeps pm sk s) (a : Nat) (n : Nat) (v : Nat) : Keeps pm sk (State.writeLE s a n v) := by
  unfold State.writeLE
  repeat' first
    | with_reducible assumption | with_reducible apply State.writeBytes_keeps (hm.of rfl) | dsimp only

theorem State.writeWords_keeps (hm : Sub 33554436 pm) (hk : Keeps pm sk s) (a : Nat) (ws : List Word) : Keeps pm sk (State.writeWords s a ws) := by
  unfold State.writeWords
  repeat' first
    | with_reducible assumption | refine fun t (ht : Keeps pm sk t) => ?_ | refine fun _ t (ht : Keeps pm sk t) => ?_
    | with_reducible apply State.writeBytes_keeps (hm.of rfl) | dsimp only

theorem State.trigPulse_keeps (hm : Sub 16384 pm) (hk : Keeps pm sk s) (k : Nat) (et : Nat) : Keeps pm sk (State.trigPulse s k et) := by
  unfold State.trigPulse
  repeat' first
    | with_reducible assumption | refine fun t (ht : Keeps pm sk t) => ?_ | refine fun _ t (ht : Keeps pm sk t) => ?_
    | ((try lift_lets); intro x; refine Keeps.cut (pm := pm) (sk := sk) (x := x) ?_ (fun hx => ?_); rotate_left; clear_value x; rotate_right)
    | ((try lift_lets); intro x; refine Keeps.cut2 (pm := pm) (sk := sk) (x := x) ?_ (fun hx => ?_); rotate_left; clear_value x; rotate_right)
    | ((try lift_lets); intro x; refine Keeps.cut3 (pm := pm) (sk := sk) (x := x) ?_ (fun hx => ?_); rotate_left; clear_value x; rotate_right)
    | ((try lift_lets); intro x; clear_value x) | unfold x | dsimp only | with_reducible refine Keeps.upd ?_

theorem State.flashPut_keeps (hm : Sub 8192 pm) (hk : Keeps pm sk s) (a : Nat) (l : List Byte) : Keeps pm sk (State.flashPut s a l) := by
  unfold State.flashPut
  repeat' first
    | with_reducible assumption | dsimp only | with_reducible refine Keeps.upd ?_

theorem State.msixSend_keeps (hm : Sub 2048 pm) (hk : Keeps pm sk s) (v : Nat) : Keeps pm sk (State.msixSend s v) := by
  unfold State.msixSend
  repeat' first
    | with_reducible assumption | refine fun t (ht : Keeps pm sk t) => ?_ | refine fun _ t (ht : Keeps pm sk t) => ?_ | split
    | dsimp only | with_reducible refine Keeps.upd ?_

theorem State.request_keeps (hm : Sub 6144 pm) (hk : Keeps pm sk s) (o : Nat) : Keeps pm sk (State.request s o) := by
  unfold State.request
  repeat' first
    | with_reducible assumption | with_reducible apply State.msixSend_keeps (hm.of rfl) | split | dsimp only
    | with_reducible refine Keeps.upd ?_

theorem State.requestRise_keeps (hm : Sub 6144 pm) (hk : Keeps pm sk s) (o : Nat) (old : Word) : Keeps pm sk (State.requestRise s o old) := by
  unfold State.requestRise
  repeat' first
    | with_reducible assumption | with_reducible apply State.request_keeps (hm.of rfl) | split | dsimp only

theorem State.pulse_keeps (hm : Sub 20480 pm) (hk : Keeps pm sk s) (g : Nat) : Keeps pm sk (State.pulse s g) := by
  unfold State.pulse
  repeat' first
    | with_reducible assumption | split | dsimp only | with_reducible refine Keeps.upd ?_

theorem State.setCounter_keeps (hm : Sub 1024 pm) (hk : Keeps pm sk s) (c : Nat) (x : Counter) : Keeps pm sk (State.setCounter s c x) := by
  unfold State.setCounter
  repeat' first
    | with_reducible assumption | refine fun t (ht : Keeps pm sk t) => ?_ | refine fun _ t (ht : Keeps pm sk t) => ?_ | dsimp only
    | with_reducible refine Keeps.upd ?_

theorem State.countOcc_keeps (hm : Sub 1024 pm) (hk : Keeps pm sk s) (g : Nat) : Keeps pm sk (State.countOcc s g).2 := by
  unfold State.countOcc
  repeat' first
    | with_reducible assumption | refine fun t (ht : Keeps pm sk t) => ?_ | refine fun _ t (ht : Keeps pm sk t) => ?_
    | ((try lift_lets); intro x; refine Keeps.cut (pm := pm) (sk := sk) (x := x) ?_ (fun hx => ?_); rotate_left; clear_value x; rotate_right)
    | ((try lift_lets); intro x; refine Keeps.cut2 (pm := pm) (sk := sk) (x := x) ?_ (fun hx => ?_); rotate_left; clear_value x; rotate_right)
    | ((try lift_lets); intro x; refine Keeps.cut3 (pm := pm) (sk := sk) (x := x) ?_ (fun hx => ?_); rotate_left; clear_value x; rotate_right)
    | ((try lift_lets); intro x; clear_value x) | with_reducible apply State.setCounter_keeps (hm.of rfl)
    | with_reducible refine Keeps.foldl ?_ _ (fun t y ht => ?_) | with_reducible refine Keeps.foldl2 ?_ _ (fun t y ht => ?_) | split
    | unfold x | dsimp only | with_reducible refine Keeps.upd ?_

theorem State.noteSet_keeps (hm : Sub 1024 pm) (hk : Keeps pm sk s) (g : Nat) : Keeps pm sk (State.noteSet s g) := by
  unfold State.noteSet
  repeat' first
    | with_reducible assumption | split | dsimp only | with_reducible refine Keeps.upd ?_

theorem State.pend_keeps (hm : Sub 23554 pm) (hk : Keeps pm sk s) (raw : Bool) (g : Nat) : Keeps pm sk (State.pend s raw g) := by
  unfold State.pend
  repeat' first
    | with_reducible assumption
    | ((try lift_lets); intro x; refine Keeps.cut (pm := pm) (sk := sk) (x := x) ?_ (fun hx => ?_); rotate_left; clear_value x; rotate_right)
    | ((try lift_lets); intro x; clear_value x) | with_reducible apply State.noteSet_keeps (hm.of rfl)
    | with_reducible apply State.pulse_keeps (hm.of rfl) | with_reducible apply State.requestRise_keeps (hm.of rfl)
    | with_reducible apply State.setB_keeps (hm.of rfl) | split | unfold x | dsimp only

theorem State.occurG_keeps (hm : Sub 23554 pm) (hk : Keeps pm sk s) (raw : Bool) (g : Nat) : Keeps pm sk (State.occurG s raw g) := by
  unfold State.occurG
  repeat' first
    | with_reducible assumption
    | ((try lift_lets); intro x; refine Keeps.cut (pm := pm) (sk := sk) (x := x) ?_ (fun hx => ?_); rotate_left; clear_value x; rotate_right)
    | ((try lift_lets); intro x; refine Keeps.cut2 (pm := pm) (sk := sk) (x := x) ?_ (fun hx => ?_); rotate_left; clear_value x; rotate_right)
    | ((try lift_lets); intro x; refine Keeps.cut3 (pm := pm) (sk := sk) (x := x) ?_ (fun hx => ?_); rotate_left; clear_value x; rotate_right)
    | ((try lift_lets); intro x; clear_value x) | with_reducible apply State.countOcc_keeps (hm.of rfl)
    | with_reducible apply State.pend_keeps (hm.of rfl) | split | unfold x | dsimp only

theorem State.traceEnd_keeps (hm : Sub 23554 pm) (hk : Keeps pm sk s) (cause : Nat) : Keeps pm sk (State.traceEnd s cause) := by
  unfold State.traceEnd
  repeat' first
    | with_reducible assumption | with_reducible apply State.occurG_keeps (hm.of rfl) | dsimp only | with_reducible refine Keeps.upd ?_

theorem State.traceWrite_keeps (hm : Sub 23554 pm) (hk : Keeps pm sk s) (kind : Nat) (source : Nat) (raw : Word) : Keeps pm sk (State.traceWrite s kind source raw) := by
  unfold State.traceWrite
  repeat' first
    | with_reducible assumption
    | ((try lift_lets); intro x; refine Keeps.cut (pm := pm) (sk := sk) (x := x) ?_ (fun hx => ?_); rotate_left; clear_value x; rotate_right)
    | ((try lift_lets); intro x; refine Keeps.cut2 (pm := pm) (sk := sk) (x := x) ?_ (fun hx => ?_); rotate_left; clear_value x; rotate_right)
    | ((try lift_lets); intro x; refine Keeps.cut3 (pm := pm) (sk := sk) (x := x) ?_ (fun hx => ?_); rotate_left; clear_value x; rotate_right)
    | ((try lift_lets); intro x; clear_value x) | with_reducible apply State.incSat_keeps (hm.of rfl)
    | with_reducible apply State.occurG_keeps (hm.of rfl) | with_reducible apply State.traceEnd_keeps (hm.of rfl) | split | unfold x
    | dsimp only | with_reducible refine Keeps.upd ?_

theorem State.traceSettle_keeps (hm : Sub 1024 pm) (hk : Keeps pm sk s) : Keeps pm sk (State.traceSettle s) := by
  unfold State.traceSettle
  repeat' first
    | with_reducible assumption
    | ((try lift_lets); intro x; refine Keeps.cut (pm := pm) (sk := sk) (x := x) ?_ (fun hx => ?_); rotate_left; clear_value x; rotate_right)
    | ((try lift_lets); intro x; refine Keeps.cutG (pm := pm) (sk := sk) (x := x) (fun a ha => ?_) (fun hx => ?_))
    | ((try lift_lets); intro x; refine Keeps.cutH (pm := pm) (sk := sk) (x := x) (fun a b ha => ?_) (fun hx => ?_))
    | ((try lift_lets); intro x; refine Keeps.cutF2 (pm := pm) (sk := sk) (x := x) (fun a b => ?_) (fun hx => ?_))
    | ((try lift_lets); intro x; refine Keeps.cutF (pm := pm) (sk := sk) (x := x) (fun a => ?_) (fun hx => ?_))
    | ((try lift_lets); intro x; clear_value x) | split | unfold x | dsimp only | with_reducible refine Keeps.upd ?_

theorem State.traceOcc_keeps (hm : Sub 23554 pm) (hk : Keeps pm sk s) (g : Nat) : Keeps pm sk (State.traceOcc s g) := by
  unfold State.traceOcc
  repeat' first
    | with_reducible assumption | with_reducible apply State.traceWrite_keeps (hm.of rfl) | split | dsimp only

theorem State.occur_keeps (hm : Sub 23554 pm) (hk : Keeps pm sk s) (g : Nat) : Keeps pm sk (State.occur s g) := by
  unfold State.occur
  repeat' first
    | with_reducible assumption | with_reducible apply State.occurG_keeps (hm.of rfl) | with_reducible apply State.pend_keeps (hm.of rfl)
    | with_reducible apply State.traceOcc_keeps (hm.of rfl) | split | dsimp only

theorem State.occurTest_keeps (hm : Sub 23554 pm) (hk : Keeps pm sk s) (g : Nat) : Keeps pm sk (State.occurTest s g) := by
  unfold State.occurTest
  repeat' first
    | with_reducible assumption | with_reducible apply State.occurG_keeps (hm.of rfl) | with_reducible apply State.pend_keeps (hm.of rfl)
    | with_reducible apply State.traceOcc_keeps (hm.of rfl) | split | dsimp only

theorem State.setLive_keeps (hm : Sub 23554 pm) (hk : Keeps pm sk s) (g : Nat) (b : Bool) : Keeps pm sk (State.setLive s g b) := by
  unfold State.setLive
  repeat' first
    | with_reducible assumption
    | ((try lift_lets); intro x; refine Keeps.cut (pm := pm) (sk := sk) (x := x) ?_ (fun hx => ?_); rotate_left; clear_value x; rotate_right)
    | ((try lift_lets); intro x; clear_value x) | with_reducible apply State.noteSet_keeps (hm.of rfl)
    | with_reducible apply State.occurTest_keeps (hm.of rfl) | with_reducible apply State.setB_keeps (hm.of rfl) | split | unfold x
    | dsimp only

theorem State.tick_keeps (hm : Sub 33554433 pm) (hk : Keeps pm sk s) (n : Nat) : Keeps pm sk (State.tick s n) := by
  unfold State.tick
  repeat' first
    | with_reducible assumption | split | dsimp only | with_reducible refine Keeps.upd ?_

theorem State.setDrops_keeps (hm : Sub 524288 pm) (hk : Keeps pm sk s) (l : List EdgeDrop) : Keeps pm sk (State.setDrops s l) := by
  unfold State.setDrops
  repeat' first
    | with_reducible assumption | dsimp only | with_reducible refine Keeps.upd ?_

theorem State.dropCount_keeps (hm : Sub 23554 pm) (hk : Keeps pm sk s) (d : EdgeDrop) : Keeps pm sk (State.dropCount s d) := by
  unfold State.dropCount
  repeat' first
    | with_reducible assumption
    | ((try lift_lets); intro x; refine Keeps.cut (pm := pm) (sk := sk) (x := x) ?_ (fun hx => ?_); rotate_left; clear_value x; rotate_right)
    | ((try lift_lets); intro x; clear_value x) | with_reducible apply State.incSat_keeps (hm.of rfl)
    | with_reducible apply State.occur_keeps (hm.of rfl) | with_reducible apply State.setReg_keeps (hm.of rfl) | split | unfold x
    | dsimp only

theorem State.dropsDue_keeps (hm : Sub 547842 pm) (hk : Keeps pm sk s) : Keeps pm sk (State.dropsDue s) := by
  unfold State.dropsDue
  repeat' first
    | with_reducible assumption | refine fun t (ht : Keeps pm sk t) => ?_ | refine fun _ t (ht : Keeps pm sk t) => ?_
    | ((try lift_lets); intro x; refine Keeps.cut (pm := pm) (sk := sk) (x := x) ?_ (fun hx => ?_); rotate_left; clear_value x; rotate_right)
    | ((try lift_lets); intro x; refine Keeps.cutG (pm := pm) (sk := sk) (x := x) (fun a ha => ?_) (fun hx => ?_))
    | ((try lift_lets); intro x; refine Keeps.cutH (pm := pm) (sk := sk) (x := x) (fun a b ha => ?_) (fun hx => ?_))
    | ((try lift_lets); intro x; refine Keeps.cutF2 (pm := pm) (sk := sk) (x := x) (fun a b => ?_) (fun hx => ?_))
    | ((try lift_lets); intro x; refine Keeps.cutF (pm := pm) (sk := sk) (x := x) (fun a => ?_) (fun hx => ?_))
    | ((try lift_lets); intro x; clear_value x) | with_reducible apply State.dropCount_keeps (hm.of rfl)
    | with_reducible apply State.setDrops_keeps (hm.of rfl) | with_reducible refine Keeps.foldl ?_ _ (fun t y ht => ?_)
    | with_reducible refine Keeps.foldl2 ?_ _ (fun t y ht => ?_) | unfold x | dsimp only

theorem State.run_keeps (hm : Sub 33577987 pm) (hk : Keeps pm sk s) (n : Nat) : Keeps pm sk (State.run s n) := by
  unfold State.run
  repeat' first
    | with_reducible assumption | refine fun t (ht : Keeps pm sk t) => ?_ | refine fun _ t (ht : Keeps pm sk t) => ?_
    | ((try lift_lets); intro x; refine Keeps.cut (pm := pm) (sk := sk) (x := x) ?_ (fun hx => ?_); rotate_left; clear_value x; rotate_right)
    | ((try lift_lets); intro x; refine Keeps.cut2 (pm := pm) (sk := sk) (x := x) ?_ (fun hx => ?_); rotate_left; clear_value x; rotate_right)
    | ((try lift_lets); intro x; refine Keeps.cut3 (pm := pm) (sk := sk) (x := x) ?_ (fun hx => ?_); rotate_left; clear_value x; rotate_right)
    | ((try lift_lets); intro x; clear_value x) | with_reducible apply State.occurG_keeps (hm.of rfl)
    | with_reducible apply State.setCounter_keeps (hm.of rfl) | with_reducible apply State.tick_keeps (hm.of rfl)
    | with_reducible refine Keeps.foldl ?_ _ (fun t y ht => ?_) | with_reducible refine Keeps.foldl2 ?_ _ (fun t y ht => ?_) | split
    | unfold x | dsimp only

theorem State.pass_keeps (hm : Sub 34102275 pm) (hk : Keeps pm sk s) (n : Nat) : Keeps pm sk (State.pass s n) := by
  unfold State.pass
  repeat' first
    | with_reducible assumption | with_reducible apply State.dropsDue_keeps (hm.of rfl)
    | with_reducible apply State.run_keeps (hm.of rfl) | with_reducible apply State.traceSettle_keeps (hm.of rfl) | dsimp only

theorem State.passTo_keeps (hm : Sub 34102275 pm) (hk : Keeps pm sk s) (c : Nat) : Keeps pm sk (State.passTo s c) := by
  unfold State.passTo
  repeat' first
    | with_reducible assumption | with_reducible apply State.pass_keeps (hm.of rfl) | split | dsimp only

theorem State.toGrid_keeps (hm : Sub 34102307 pm) (hk : Keeps pm sk s) (g : Nat) (l : Nat) : Keeps pm sk (State.toGrid s g l) := by
  unfold State.toGrid
  repeat' first
    | with_reducible assumption | refine fun t (ht : Keeps pm sk t) => ?_ | refine fun _ t (ht : Keeps pm sk t) => ?_
    | ((try lift_lets); intro x; refine Keeps.cut (pm := pm) (sk := sk) (x := x) ?_ (fun hx => ?_); rotate_left; clear_value x; rotate_right)
    | ((try lift_lets); intro x; clear_value x) | with_reducible apply State.passTo_keeps (hm.of rfl) | unfold x | dsimp only
    | with_reducible refine Keeps.upd ?_

theorem State.deny_keeps (hm : Sub 23554 pm) (hk : Keeps pm sk s) (cause : Nat) (off : Nat) (page : Nat) (access : Bool) (write : Bool) : Keeps pm sk (State.deny s cause off page access write) := by
  unfold State.deny
  repeat' first
    | with_reducible assumption
    | ((try lift_lets); intro x; refine Keeps.cut (pm := pm) (sk := sk) (x := x) ?_ (fun hx => ?_); rotate_left; clear_value x; rotate_right)
    | ((try lift_lets); intro x; clear_value x) | with_reducible apply State.incSat_keeps (hm.of rfl)
    | with_reducible apply State.occur_keeps (hm.of rfl) | with_reducible apply State.setReg_keeps (hm.of rfl) | split | unfold x
    | dsimp only

theorem State.denyStart_keeps (hm : Sub 23554 pm) (hk : Keeps pm sk s) (a : Nat) : Keeps pm sk (State.denyStart s a) := by
  unfold State.denyStart
  repeat' first
    | with_reducible assumption | with_reducible apply State.deny_keeps (hm.of rfl) | split | dsimp only

theorem State.resyncRec_keeps (hm : Sub 56322 pm) (hk : Keeps pm sk s) (r : Resync) : Keeps pm sk (State.resyncRec s r) := by
  unfold State.resyncRec
  repeat' first
    | with_reducible assumption | refine fun t (ht : Keeps pm sk t) => ?_ | refine fun _ t (ht : Keeps pm sk t) => ?_
    | ((try lift_lets); intro x; refine Keeps.cut (pm := pm) (sk := sk) (x := x) ?_ (fun hx => ?_); rotate_left; clear_value x; rotate_right)
    | ((try lift_lets); intro x; clear_value x) | with_reducible apply State.incSat_keeps (hm.of rfl)
    | with_reducible apply State.occur_keeps (hm.of rfl) | split | unfold x | dsimp only | with_reducible refine Keeps.upd ?_

theorem State.resync_keeps (hm : Sub 56322 pm) (hk : Keeps pm sk s) (cause : Nat) (kind : Nat) (page : Nat) (sub : Nat) (amount : Int) : Keeps pm sk (State.resync s cause kind page sub amount) := by
  unfold State.resync
  repeat' first
    | with_reducible assumption | with_reducible apply State.resyncRec_keeps (hm.of rfl) | dsimp only

theorem State.setBucket_keeps (hm : Sub 33554432 pm) (hk : Keeps pm sk s) (near : Bool) (p : Nat) (u : Option Nat) : Keeps pm sk (State.setBucket s near p u) := by
  unfold State.setBucket
  repeat' first
    | with_reducible assumption | refine fun t (ht : Keeps pm sk t) => ?_ | refine fun _ t (ht : Keeps pm sk t) => ?_ | dsimp only
    | with_reducible refine Keeps.upd ?_

theorem State.portTake_keeps (hm : Sub 33554434 pm) (hk : Keeps pm sk s) (near : Bool) (p : Nat) : Keeps pm sk (State.portTake s near p) := by
  unfold State.portTake
  repeat' first
    | with_reducible assumption
    | ((try lift_lets); intro x; refine Keeps.cut (pm := pm) (sk := sk) (x := x) ?_ (fun hx => ?_); rotate_left; clear_value x; rotate_right)
    | ((try lift_lets); intro x; clear_value x) | with_reducible apply State.inc64_keeps (hm.of rfl)
    | with_reducible apply State.setBucket_keeps (hm.of rfl) | split | unfold x | dsimp only

theorem State.budget_keeps (hm : Sub 23554 pm) (hk : Keeps pm sk s) : Keeps pm sk (State.budget s) := by
  unfold State.budget
  repeat' first
    | with_reducible assumption | with_reducible apply State.setLive_keeps (hm.of rfl) | dsimp only

theorem State.corrected_keeps (hm : Sub 23554 pm) (hk : Keeps pm sk s) (c : Nat) : Keeps pm sk (State.corrected s c) := by
  unfold State.corrected
  repeat' first
    | with_reducible assumption | with_reducible apply State.incSat_keeps (hm.of rfl)
    | with_reducible apply State.occur_keeps (hm.of rfl) | dsimp only

theorem State.uncorrectable_keeps (hm : Sub 23554 pm) (hk : Keeps pm sk s) (c : Nat) (a : Nat) : Keeps pm sk (State.uncorrectable s c a) := by
  unfold State.uncorrectable
  repeat' first
    | with_reducible assumption
    | ((try lift_lets); intro x; refine Keeps.cut (pm := pm) (sk := sk) (x := x) ?_ (fun hx => ?_); rotate_left; clear_value x; rotate_right)
    | ((try lift_lets); intro x; clear_value x) | with_reducible apply State.incSat_keeps (hm.of rfl)
    | with_reducible apply State.occur_keeps (hm.of rfl) | with_reducible apply State.setReg64_keeps (hm.of rfl) | split | unfold x
    | dsimp only

theorem State.spoil_keeps (hm : Sub 33554432 pm) (hk : Keeps pm sk s) (a : Nat) : Keeps pm sk (State.spoil s a) := by
  unfold State.spoil
  repeat' first
    | with_reducible assumption | split | dsimp only | with_reducible refine Keeps.upd ?_

theorem State.checked_keeps (hm : Sub 33577986 pm) (hk : Keeps pm sk s) (c : Nat) (a : Nat) (ecc : Nat) : Keeps pm sk (State.checked s c a ecc).2 := by
  unfold State.checked
  repeat' first
    | with_reducible assumption | with_reducible apply State.corrected_keeps (hm.of rfl)
    | with_reducible apply State.spoil_keeps (hm.of rfl) | with_reducible apply State.uncorrectable_keeps (hm.of rfl) | split
    | dsimp only

theorem State.portMark_keeps (hm : Sub 23554 pm) (hk : Keeps pm sk s) (write : Bool) (whole : Bool) (a : Nat) : Keeps pm sk (State.portMark s write whole a) := by
  unfold State.portMark
  repeat' first
    | with_reducible assumption | with_reducible apply State.incSat_keeps (hm.of rfl)
    | with_reducible apply State.occur_keeps (hm.of rfl) | with_reducible apply State.uncorrectable_keeps (hm.of rfl) | split
    | dsimp only

theorem State.portWait_keeps (hm : Sub 34102275 pm) (hk : Keeps pm sk s) (near : Bool) (p : Nat) : OptKeeps pm sk (State.portWait s near p) := by
  unfold State.portWait
  repeat' first
    | with_reducible assumption
    | ((try lift_lets); intro x; refine Keeps.cut (pm := pm) (sk := sk) (x := x) ?_ (fun hx => ?_); rotate_left; clear_value x; rotate_right)
    | ((try lift_lets); intro x; clear_value x) | with_reducible exact OptKeeps.none | with_reducible apply OptKeeps.some
    | with_reducible refine OptKeeps.bind ?_ (fun t ht => ?_) | with_reducible refine OptKeeps.map ?_ (fun t ht => ?_)
    | with_reducible apply OptKeeps.getD | with_reducible refine OptKeeps.of (by assumption) ?_
    | with_reducible refine OptKeeps.foldl _ ?_ (fun t x ht => ?_) | with_reducible apply State.pass_keeps (hm.of rfl) | split | unfold x
    | dsimp only

theorem State.portOne_keeps (hm : Sub 34102275 pm) (hk : Keeps pm sk s) (p : Nat) (write : Bool) (whole : Bool) (a : Nat) : OptKeeps pm sk (State.portOne s p write whole a) := by
  unfold State.portOne
  repeat' first
    | with_reducible assumption | refine fun t (ht : Keeps pm sk t) => ?_ | refine fun _ t (ht : Keeps pm sk t) => ?_
    | ((try lift_lets); intro x; refine Keeps.cut (pm := pm) (sk := sk) (x := x) ?_ (fun hx => ?_); rotate_left; clear_value x; rotate_right)
    | ((try lift_lets); intro x; clear_value x) | with_reducible exact OptKeeps.none | with_reducible apply OptKeeps.some
    | with_reducible refine OptKeeps.bind ?_ (fun t ht => ?_) | with_reducible refine OptKeeps.map ?_ (fun t ht => ?_)
    | with_reducible apply OptKeeps.getD | with_reducible refine OptKeeps.of (by assumption) ?_
    | with_reducible refine OptKeeps.foldl _ ?_ (fun t x ht => ?_) | with_reducible apply State.portMark_keeps (hm.of rfl)
    | with_reducible apply State.portTake_keeps (hm.of rfl) | with_reducible apply State.portWait_keeps (hm.of rfl) | split | unfold x
    | dsimp only

theorem State.portEach_keeps (hm : Sub 34102275 pm) (hk : Keeps pm sk s) (p : Nat) (write : Bool) (l : List (Nat × Bool)) : OptKeeps pm sk (State.portEach s p write l) := by
  unfold State.portEach
  repeat' first
    | with_reducible assumption | refine fun t (ht : Keeps pm sk t) => ?_ | refine fun _ t (ht : Keeps pm sk t) => ?_
    | with_reducible exact OptKeeps.none | with_reducible apply OptKeeps.some | with_reducible refine OptKeeps.bind ?_ (fun t ht => ?_)
    | with_reducible refine OptKeeps.map ?_ (fun t ht => ?_) | with_reducible apply OptKeeps.getD
    | with_reducible refine OptKeeps.of (by assumption) ?_ | with_reducible refine OptKeeps.foldl _ ?_ (fun t x ht => ?_)
    | with_reducible apply State.portOne_keeps (hm.of rfl) | with_reducible refine Keeps.foldl ?_ _ (fun t y ht => ?_)
    | with_reducible refine Keeps.foldl2 ?_ _ (fun t y ht => ?_) | dsimp only

theorem State.portRun_keeps (hm : Sub 34102275 pm) (hk : Keeps pm sk s) (p : Nat) (write : Bool) (a : Nat) (n : Nat) : OptKeeps pm sk (State.portRun s p write a n) := by
  unfold State.portRun
  repeat' first
    | with_reducible assumption | with_reducible exact OptKeeps.none | with_reducible apply OptKeeps.some
    | with_reducible refine OptKeeps.bind ?_ (fun t ht => ?_) | with_reducible refine OptKeeps.map ?_ (fun t ht => ?_)
    | with_reducible apply OptKeeps.getD | with_reducible refine OptKeeps.of (by assumption) ?_
    | with_reducible refine OptKeeps.foldl _ ?_ (fun t x ht => ?_) | with_reducible apply State.portEach_keeps (hm.of rfl) | dsimp only

theorem State.portWrite_keeps (hm : Sub 34102279 pm) (hk : Keeps pm sk s) (p : Nat) (a : Nat) (l : List Byte) : OptKeeps pm sk (State.portWrite s p a l) := by
  unfold State.portWrite
  repeat' first
    | with_reducible assumption | refine fun t (ht : Keeps pm sk t) => ?_ | refine fun _ t (ht : Keeps pm sk t) => ?_
    | with_reducible exact OptKeeps.none | with_reducible apply OptKeeps.some | with_reducible refine OptKeeps.bind ?_ (fun t ht => ?_)
    | with_reducible refine OptKeeps.map ?_ (fun t ht => ?_) | with_reducible apply OptKeeps.getD
    | with_reducible refine OptKeeps.of (by assumption) ?_ | with_reducible refine OptKeeps.foldl _ ?_ (fun t x ht => ?_)
    | with_reducible apply State.portRun_keeps (hm.of rfl) | with_reducible apply State.writeBytes_keeps (hm.of rfl) | dsimp only

theorem State.looseRun_keeps (hm : Sub 23554 pm) (hk : Keeps pm sk s) (write : Bool) (a : Nat) (n : Nat) : Keeps pm sk (State.looseRun s write a n) := by
  unfold State.looseRun
  repeat' first
    | with_reducible assumption | refine fun t (ht : Keeps pm sk t) => ?_ | refine fun _ t (ht : Keeps pm sk t) => ?_
    | with_reducible apply State.portMark_keeps (hm.of rfl) | with_reducible refine Keeps.foldl ?_ _ (fun t y ht => ?_)
    | with_reducible refine Keeps.foldl2 ?_ _ (fun t y ht => ?_) | dsimp only

theorem State.portDone_keeps (hm : Sub 34102275 pm) (hk : Keeps pm sk s) (p : Nat) (write : Bool) (a : Nat) (n : Nat) : Keeps pm sk (State.portDone s p write a n) := by
  unfold State.portDone
  repeat' first
    | with_reducible assumption | with_reducible exact OptKeeps.none | with_reducible apply OptKeeps.some
    | with_reducible refine OptKeeps.bind ?_ (fun t ht => ?_) | with_reducible refine OptKeeps.map ?_ (fun t ht => ?_)
    | with_reducible apply OptKeeps.getD | with_reducible refine OptKeeps.of (by assumption) ?_
    | with_reducible refine OptKeeps.foldl _ ?_ (fun t x ht => ?_) | with_reducible apply State.looseRun_keeps (hm.of rfl)
    | with_reducible apply State.portRun_keeps (hm.of rfl) | dsimp only

theorem State.setRead_keeps (hm : Sub 8 pm) (hk : Keeps pm sk s) (w : Word) : Keeps pm sk (State.setRead s w) := by
  unfold State.setRead
  repeat' first
    | with_reducible assumption | dsimp only | with_reducible refine Keeps.upd ?_

theorem State.wake_keeps (hm : Sub 256 pm) (hk : Keeps pm sk s) (byReq : Bool) : Keeps pm sk (State.wake s byReq) := by
  unfold State.wake
  repeat' first
    | with_reducible assumption | split | dsimp only | with_reducible refine Keeps.upd ?_

theorem State.recessAccess_keeps (hm : Sub 23818 pm) (hk : Keeps pm sk s) (req : Nat) (a : Nat) (write : Bool) (v : Word) : Keeps pm sk (State.recessAccess s req a write v) := by
  unfold State.recessAccess
  repeat' first
    | with_reducible assumption
    | ((try lift_lets); intro x; refine Keeps.cut (pm := pm) (sk := sk) (x := x) ?_ (fun hx => ?_); rotate_left; clear_value x; rotate_right)
    | ((try lift_lets); intro x; clear_value x) | with_reducible apply State.deny_keeps (hm.of rfl)
    | with_reducible apply State.setRead_keeps (hm.of rfl) | with_reducible apply State.wake_keeps (hm.of rfl) | split | unfold x
    | dsimp only | with_reducible refine Keeps.upd ?_

theorem State.hostWrite_keeps (hm : Sub 23818 pm) (hk : Keeps pm sk s) (req : Nat) (a : Nat) (v : Word) (k : State → State) (hk : ∀ t, Keeps pm sk t → Keeps pm sk (k t)) : Keeps pm sk (State.hostWrite s req a v k) := by
  unfold State.hostWrite
  repeat' first
    | with_reducible assumption | with_reducible apply State.deny_keeps (hm.of rfl)
    | with_reducible apply State.recessAccess_keeps (hm.of rfl) | with_reducible apply hk | split | dsimp only

theorem State.hostRead_keeps (hm : Sub 23818 pm) (hk : Keeps pm sk s) (req : Nat) (a : Nat) (k : State → Word × State) (hk : ∀ t, Keeps pm sk t → Keeps pm sk (k t).2) : Keeps pm sk (State.hostRead s req a k) := by
  unfold State.hostRead
  repeat' first
    | with_reducible assumption | with_reducible apply State.deny_keeps (hm.of rfl)
    | with_reducible apply State.recessAccess_keeps (hm.of rfl) | with_reducible apply State.setRead_keeps (hm.of rfl)
    | with_reducible apply hk | split | dsimp only

theorem State.setLatch_keeps (hm : Sub 64 pm) (hk : Keeps pm sk s) (req : Nat) (a : Nat) (v : Option Word) : Keeps pm sk (State.setLatch s req a v) := by
  unfold State.setLatch
  repeat' first
    | with_reducible assumption | refine fun t (ht : Keeps pm sk t) => ?_ | refine fun _ t (ht : Keeps pm sk t) => ?_ | dsimp only
    | with_reducible refine Keeps.upd ?_

theorem State.setStaged_keeps (hm : Sub 128 pm) (hk : Keeps pm sk s) (req : Nat) (a : Nat) (v : Option Word) : Keeps pm sk (State.setStaged s req a v) := by
  unfold State.setStaged
  repeat' first
    | with_reducible assumption | refine fun t (ht : Keeps pm sk t) => ?_ | refine fun _ t (ht : Keeps pm sk t) => ?_ | dsimp only
    | with_reducible refine Keeps.upd ?_

theorem State.take64_keeps (hm : Sub 128 pm) (hk : Keeps pm sk s) (req : Nat) (a : Nat) (v : Word) : Keeps pm sk (State.take64 s req a v).2 := by
  unfold State.take64
  repeat' first
    | with_reducible assumption | with_reducible apply State.setStaged_keeps (hm.of rfl) | dsimp only

theorem State.timeTaken_keeps (hm : Sub 128 pm) (hk : Keeps pm sk s) (req : Nat) (a : Nat) : Keeps pm sk (State.timeTaken s req a) := by
  unfold State.timeTaken
  repeat' first
    | with_reducible assumption | with_reducible apply State.setStaged_keeps (hm.of rfl) | dsimp only

theorem State.commitTime_keeps (hm : Sub 130 pm) (hk : Keeps pm sk s) (req : Nat) (a : Nat) (v : Word) : Keeps pm sk (State.commitTime s req a v) := by
  unfold State.commitTime
  repeat' first
    | with_reducible assumption | with_reducible apply State.setTime4_keeps (hm.of rfl)
    | with_reducible apply State.timeTaken_keeps (hm.of rfl) | split | dsimp only

theorem State.commit64_keeps (hm : Sub 2 pm) (hk : Keeps pm sk s) (a : Nat) (v : Nat) : Keeps pm sk (State.commit64 s a v) := by
  unfold State.commit64
  repeat' first
    | with_reducible assumption | with_reducible apply State.setReg64_keeps (hm.of rfl) | dsimp only

theorem State.dropStaging_keeps (hm : Sub 192 pm) (hk : Keeps pm sk s) (p : Nat) : Keeps pm sk (State.dropStaging s p) := by
  unfold State.dropStaging
  repeat' first
    | with_reducible assumption | refine fun t (ht : Keeps pm sk t) => ?_ | refine fun _ t (ht : Keeps pm sk t) => ?_
    | ((try lift_lets); intro x; refine Keeps.cut (pm := pm) (sk := sk) (x := x) ?_ (fun hx => ?_); rotate_left; clear_value x; rotate_right)
    | ((try lift_lets); intro x; refine Keeps.cut2 (pm := pm) (sk := sk) (x := x) ?_ (fun hx => ?_); rotate_left; clear_value x; rotate_right)
    | ((try lift_lets); intro x; refine Keeps.cut3 (pm := pm) (sk := sk) (x := x) ?_ (fun hx => ?_); rotate_left; clear_value x; rotate_right)
    | ((try lift_lets); intro x; refine Keeps.cutG (pm := pm) (sk := sk) (x := x) (fun a ha => ?_) (fun hx => ?_))
    | ((try lift_lets); intro x; refine Keeps.cutH (pm := pm) (sk := sk) (x := x) (fun a b ha => ?_) (fun hx => ?_))
    | ((try lift_lets); intro x; refine Keeps.cutF2 (pm := pm) (sk := sk) (x := x) (fun a b => ?_) (fun hx => ?_))
    | ((try lift_lets); intro x; refine Keeps.cutF (pm := pm) (sk := sk) (x := x) (fun a => ?_) (fun hx => ?_))
    | ((try lift_lets); intro x; clear_value x) | unfold x | dsimp only | with_reducible refine Keeps.upd ?_

theorem State.writeMasked_keeps (hm : Sub 2 pm) (hk : Keeps pm sk s) (a : Nat) (v : Word) : Keeps pm sk (State.writeMasked s a v) := by
  unfold State.writeMasked
  repeat' first
    | with_reducible assumption | with_reducible apply State.setReg_keeps (hm.of rfl) | dsimp only

theorem State.softResetOn_keeps (hm : Sub 194 pm) (hk : Keeps pm sk s) (p : Nat) (on : Nat → Bool) : Keeps pm sk (State.softResetOn s p on) := by
  unfold State.softResetOn
  repeat' first
    | with_reducible assumption | refine fun t (ht : Keeps pm sk t) => ?_ | refine fun _ t (ht : Keeps pm sk t) => ?_
    | ((try lift_lets); intro x; refine Keeps.cut (pm := pm) (sk := sk) (x := x) ?_ (fun hx => ?_); rotate_left; clear_value x; rotate_right)
    | ((try lift_lets); intro x; refine Keeps.cutG (pm := pm) (sk := sk) (x := x) (fun a ha => ?_) (fun hx => ?_))
    | ((try lift_lets); intro x; refine Keeps.cutH (pm := pm) (sk := sk) (x := x) (fun a b ha => ?_) (fun hx => ?_))
    | ((try lift_lets); intro x; refine Keeps.cutF2 (pm := pm) (sk := sk) (x := x) (fun a b => ?_) (fun hx => ?_))
    | ((try lift_lets); intro x; refine Keeps.cutF (pm := pm) (sk := sk) (x := x) (fun a => ?_) (fun hx => ?_))
    | ((try lift_lets); intro x; clear_value x) | with_reducible apply State.dropStaging_keeps (hm.of rfl)
    | with_reducible apply State.setReg_keeps (hm.of rfl) | with_reducible refine Keeps.foldl ?_ _ (fun t y ht => ?_)
    | with_reducible refine Keeps.foldl2 ?_ _ (fun t y ht => ?_) | split | unfold x | dsimp only

theorem State.softReset_keeps (hm : Sub 194 pm) (hk : Keeps pm sk s) (p : Nat) : Keeps pm sk (State.softReset s p) := by
  unfold State.softReset
  repeat' first
    | with_reducible assumption | refine fun t (ht : Keeps pm sk t) => ?_ | refine fun _ t (ht : Keeps pm sk t) => ?_
    | with_reducible apply State.softResetOn_keeps (hm.of rfl) | dsimp only

theorem State.keepForce_keeps (hm : Sub 262144 pm) (hk : Keeps pm sk s) (a : Nat) : Keeps pm sk (State.keepForce s a) := by
  unfold State.keepForce
  repeat' first
    | with_reducible assumption | refine fun t (ht : Keeps pm sk t) => ?_ | refine fun _ t (ht : Keeps pm sk t) => ?_ | dsimp only
    | with_reducible refine Keeps.upd ?_

theorem State.dropForce_keeps (hm : Sub 262144 pm) (hk : Keeps pm sk s) (a : Nat) : Keeps pm sk (State.dropForce s a) := by
  unfold State.dropForce
  repeat' first
    | with_reducible assumption | refine fun t (ht : Keeps pm sk t) => ?_ | refine fun _ t (ht : Keeps pm sk t) => ?_ | dsimp only
    | with_reducible refine Keeps.upd ?_

theorem State.stageWord_keeps (hm : Sub 262146 pm) (hk : Keeps pm sk s) (staged : Bool) (a : Nat) (v : Word) : Keeps pm sk (State.stageWord s staged a v) := by
  unfold State.stageWord
  repeat' first
    | with_reducible assumption | with_reducible apply State.dropForce_keeps (hm.of rfl)
    | with_reducible apply State.keepForce_keeps (hm.of rfl) | with_reducible apply State.setReg_keeps (hm.of rfl) | split | dsimp only

theorem State.dropMoved_keeps (hm : Sub 524288 pm) (hk : Keeps pm sk s) (old : State) : Keeps pm sk (State.dropMoved s old) := by
  unfold State.dropMoved
  repeat' first
    | with_reducible assumption | refine fun t (ht : Keeps pm sk t) => ?_ | refine fun _ t (ht : Keeps pm sk t) => ?_
    | ((try lift_lets); intro x; refine Keeps.cut (pm := pm) (sk := sk) (x := x) ?_ (fun hx => ?_); rotate_left; clear_value x; rotate_right)
    | ((try lift_lets); intro x; refine Keeps.cut2 (pm := pm) (sk := sk) (x := x) ?_ (fun hx => ?_); rotate_left; clear_value x; rotate_right)
    | ((try lift_lets); intro x; refine Keeps.cut3 (pm := pm) (sk := sk) (x := x) ?_ (fun hx => ?_); rotate_left; clear_value x; rotate_right)
    | ((try lift_lets); intro x; refine Keeps.cutG (pm := pm) (sk := sk) (x := x) (fun a ha => ?_) (fun hx => ?_))
    | ((try lift_lets); intro x; refine Keeps.cutH (pm := pm) (sk := sk) (x := x) (fun a b ha => ?_) (fun hx => ?_))
    | ((try lift_lets); intro x; refine Keeps.cutF2 (pm := pm) (sk := sk) (x := x) (fun a b => ?_) (fun hx => ?_))
    | ((try lift_lets); intro x; refine Keeps.cutF (pm := pm) (sk := sk) (x := x) (fun a => ?_) (fun hx => ?_))
    | ((try lift_lets); intro x; clear_value x) | split | unfold x | dsimp only | with_reducible refine Keeps.upd ?_

theorem State.judgeStray_keeps (hm : Sub 285714 pm) (hk : Keeps pm sk s) : Keeps pm sk (State.judgeStray s) := by
  unfold State.judgeStray
  repeat' first
    | with_reducible assumption | refine fun t (ht : Keeps pm sk t) => ?_ | refine fun _ t (ht : Keeps pm sk t) => ?_
    | ((try lift_lets); intro x; refine Keeps.cut (pm := pm) (sk := sk) (x := x) ?_ (fun hx => ?_); rotate_left; clear_value x; rotate_right)
    | ((try lift_lets); intro x; clear_value x) | with_reducible apply State.occur_keeps (hm.of rfl)
    | with_reducible refine Keeps.foldl ?_ _ (fun t y ht => ?_) | with_reducible refine Keeps.foldl2 ?_ _ (fun t y ht => ?_) | unfold x
    | dsimp only | with_reducible refine Keeps.upd ?_

theorem State.applyPower_keeps (hm : Sub 262144 pm) (hk : Keeps pm sk s) (d : Nat) : Keeps pm sk (State.applyPower s d) := by
  unfold State.applyPower
  repeat' first
    | with_reducible assumption | refine fun t (ht : Keeps pm sk t) => ?_ | refine fun _ t (ht : Keeps pm sk t) => ?_
    | ((try lift_lets); intro x; refine Keeps.cut (pm := pm) (sk := sk) (x := x) ?_ (fun hx => ?_); rotate_left; clear_value x; rotate_right)
    | ((try lift_lets); intro x; clear_value x) | split | unfold x | dsimp only | with_reducible refine Keeps.upd ?_

theorem State.setEdges_keeps (hm : Sub 262144 pm) (hk : Keeps pm sk s) (n : Nat) (e : ChanEdges) : Keeps pm sk (State.setEdges s n e) := by
  unfold State.setEdges
  repeat' first
    | with_reducible assumption | refine fun t (ht : Keeps pm sk t) => ?_ | refine fun _ t (ht : Keeps pm sk t) => ?_ | dsimp only
    | with_reducible refine Keeps.upd ?_

theorem State.parkChannel_keeps (hm : Sub 262144 pm) (hk : Keeps pm sk s) (n : Nat) (p : Nat) : Keeps pm sk (State.parkChannel s n p) := by
  unfold State.parkChannel
  repeat' first
    | with_reducible assumption
    | ((try lift_lets); intro x; refine Keeps.cut (pm := pm) (sk := sk) (x := x) ?_ (fun hx => ?_); rotate_left; clear_value x; rotate_right)
    | ((try lift_lets); intro x; clear_value x) | with_reducible apply State.setEdges_keeps (hm.of rfl) | unfold x | dsimp only
    | with_reducible refine Keeps.upd ?_

theorem State.restMove_keeps (hm : Sub 262144 pm) (hk : Keeps pm sk s) (old : State) (n : Nat) : Keeps pm sk (State.restMove s old n) := by
  unfold State.restMove
  repeat' first
    | with_reducible assumption
    | ((try lift_lets); intro x; refine Keeps.cut (pm := pm) (sk := sk) (x := x) ?_ (fun hx => ?_); rotate_left; clear_value x; rotate_right)
    | ((try lift_lets); intro x; refine Keeps.cut2 (pm := pm) (sk := sk) (x := x) ?_ (fun hx => ?_); rotate_left; clear_value x; rotate_right)
    | ((try lift_lets); intro x; refine Keeps.cut3 (pm := pm) (sk := sk) (x := x) ?_ (fun hx => ?_); rotate_left; clear_value x; rotate_right)
    | ((try lift_lets); intro x; clear_value x) | with_reducible apply State.setEdges_keeps (hm.of rfl) | split | unfold x | dsimp only
    | with_reducible refine Keeps.upd ?_

theorem State.pinsMove_keeps (hm : Sub 262144 pm) (hk : Keeps pm sk s) (old : State) : Keeps pm sk (State.pinsMove s old) := by
  unfold State.pinsMove
  repeat' first
    | with_reducible assumption | refine fun t (ht : Keeps pm sk t) => ?_ | refine fun _ t (ht : Keeps pm sk t) => ?_
    | with_reducible apply State.restMove_keeps (hm.of rfl) | with_reducible refine Keeps.foldl ?_ _ (fun t y ht => ?_)
    | with_reducible refine Keeps.foldl2 ?_ _ (fun t y ht => ?_) | dsimp only

theorem State.applied_keeps (hm : Sub 285714 pm) (hk : Keeps pm sk s) (a : Nat) : Keeps pm sk (State.applied s a) := by
  unfold State.applied
  repeat' first
    | with_reducible assumption | with_reducible apply State.applyPower_keeps (hm.of rfl)
    | with_reducible apply State.judgeStray_keeps (hm.of rfl) | with_reducible apply State.request_keeps (hm.of rfl) | split | dsimp only

theorem State.configWrite_keeps (hm : Sub 810002 pm) (hk : Keeps pm sk s) (a : Nat) (v : Word) : Keeps pm sk (State.configWrite s a v) := by
  unfold State.configWrite
  repeat' first
    | with_reducible assumption
    | ((try lift_lets); intro x; refine Keeps.cut (pm := pm) (sk := sk) (x := x) ?_ (fun hx => ?_); rotate_left; clear_value x; rotate_right)
    | ((try lift_lets); intro x; clear_value x) | with_reducible apply State.applied_keeps (hm.of rfl)
    | with_reducible apply State.dropMoved_keeps (hm.of rfl) | with_reducible apply State.pinsMove_keeps (hm.of rfl)
    | with_reducible apply State.stageWord_keeps (hm.of rfl) | split | unfold x | dsimp only

theorem State.rwWrite_keeps (hm : Sub 810002 pm) (hk : Keeps pm sk s) (a : Nat) (v : Word) : Keeps pm sk (State.rwWrite s a v) := by
  unfold State.rwWrite
  repeat' first
    | with_reducible assumption | with_reducible apply State.configWrite_keeps (hm.of rfl)
    | with_reducible apply State.writeMasked_keeps (hm.of rfl) | split | dsimp only

theorem execChnDskConfigWrite_keeps (hm : Sub 810266 pm) (hk : Keeps pm sk s) (req : Nat) (a : Nat) (v : Word) : OutKeeps pm sk (execChnDskConfigWrite req a v s) := by
  unfold execChnDskConfigWrite
  repeat' first
    | with_reducible assumption | refine fun t (ht : Keeps pm sk t) => ?_ | refine fun _ t (ht : Keeps pm sk t) => ?_
    | ((try lift_lets); intro x; refine Keeps.cut (pm := pm) (sk := sk) (x := x) ?_ (fun hx => ?_); rotate_left; clear_value x; rotate_right)
    | ((try lift_lets); intro x; clear_value x) | with_reducible apply OutKeeps.next
    | with_reducible apply State.configWrite_keeps (hm.of rfl) | with_reducible apply State.hostWrite_keeps (hm.of rfl) | split
    | unfold x | dsimp only

theorem State.applyStaged_keeps (hm : Sub 810002 pm) (hk : Keeps pm sk s) (p : Nat) : Keeps pm sk (State.applyStaged s p) := by
  unfold State.applyStaged
  repeat' first
    | with_reducible assumption | refine fun t (ht : Keeps pm sk t) => ?_ | refine fun _ t (ht : Keeps pm sk t) => ?_
    | ((try lift_lets); intro x; refine Keeps.cut (pm := pm) (sk := sk) (x := x) ?_ (fun hx => ?_); rotate_left; clear_value x; rotate_right)
    | ((try lift_lets); intro x; clear_value x) | with_reducible apply State.applied_keeps (hm.of rfl)
    | with_reducible apply State.dropForce_keeps (hm.of rfl) | with_reducible apply State.dropMoved_keeps (hm.of rfl)
    | with_reducible apply State.pinsMove_keeps (hm.of rfl) | with_reducible refine Keeps.foldl ?_ _ (fun t y ht => ?_)
    | with_reducible refine Keeps.foldl2 ?_ _ (fun t y ht => ?_) | split | unfold x | dsimp only

theorem execPeClusterPowerUpDone_keeps (hm : Sub 34364419 pm) (hk : Keeps pm sk s) (d : Nat) : OutKeeps pm sk (execPeClusterPowerUpDone d s) := by
  unfold execPeClusterPowerUpDone
  repeat' first
    | with_reducible assumption | refine fun t (ht : Keeps pm sk t) => ?_ | refine fun _ t (ht : Keeps pm sk t) => ?_
    | ((try lift_lets); intro x; refine Keeps.cut (pm := pm) (sk := sk) (x := x) ?_ (fun hx => ?_); rotate_left; clear_value x; rotate_right)
    | ((try lift_lets); intro x; clear_value x) | with_reducible apply OutKeeps.next
    | with_reducible apply State.passTo_keeps (hm.of rfl) | with_reducible apply State.pinsMove_keeps (hm.of rfl) | split | unfold x
    | dsimp only | with_reducible refine Keeps.upd ?_

theorem execEdgeSlotCommit_keeps (hm : Sub 286090 pm) (hk : Keeps pm sk s) (req : Nat) (n : Nat) (k : Nat) (v : Word) : OutKeeps pm sk (execEdgeSlotCommit req n k v s) := by
  unfold execEdgeSlotCommit
  repeat' first
    | with_reducible assumption | refine fun t (ht : Keeps pm sk t) => ?_ | refine fun _ t (ht : Keeps pm sk t) => ?_
    | ((try lift_lets); intro x; refine Keeps.cut (pm := pm) (sk := sk) (x := x) ?_ (fun hx => ?_); rotate_left; clear_value x; rotate_right)
    | ((try lift_lets); intro x; clear_value x) | with_reducible apply OutKeeps.next
    | with_reducible apply State.hostWrite_keeps (hm.of rfl) | with_reducible apply State.stageWord_keeps (hm.of rfl)
    | with_reducible apply State.take64_keeps (hm.of rfl) | split | unfold x | dsimp only

theorem State.setPec_keeps (hm : Sub 262144 pm) (hk : Keeps pm sk s) (b : Nat) (p : Pec) : Keeps pm sk (State.setPec s b p) := by
  unfold State.setPec
  repeat' first
    | with_reducible assumption | refine fun t (ht : Keeps pm sk t) => ?_ | refine fun _ t (ht : Keeps pm sk t) => ?_ | dsimp only
    | with_reducible refine Keeps.upd ?_

theorem State.pecPageBusy_keeps (hm : Sub 2 pm) (hk : Keeps pm sk s) (b : Nat) : Keeps pm sk (State.pecPageBusy s b) := by
  unfold State.pecPageBusy
  repeat' first
    | with_reducible assumption | with_reducible apply State.setB_keeps (hm.of rfl) | dsimp only

theorem State.setPecRx_keeps (hm : Sub 2 pm) (hk : Keeps pm sk s) (b : Nat) (rx : List Byte) : Keeps pm sk (State.setPecRx s b rx) := by
  unfold State.setPecRx
  repeat' first
    | with_reducible assumption | refine fun t (ht : Keeps pm sk t) => ?_ | refine fun _ t (ht : Keeps pm sk t) => ?_
    | with_reducible apply State.setF_keeps (hm.of rfl) | with_reducible refine Keeps.foldl ?_ _ (fun t y ht => ?_)
    | with_reducible refine Keeps.foldl2 ?_ _ (fun t y ht => ?_) | dsimp only

theorem State.pecStart_keeps (hm : Sub 810002 pm) (hk : Keeps pm sk s) (b : Nat) (v : Word) : Keeps pm sk (State.pecStart s b v) := by
  unfold State.pecStart
  repeat' first
    | with_reducible assumption | refine fun t (ht : Keeps pm sk t) => ?_ | refine fun _ t (ht : Keeps pm sk t) => ?_
    | ((try lift_lets); intro x; refine Keeps.cut (pm := pm) (sk := sk) (x := x) ?_ (fun hx => ?_); rotate_left; clear_value x; rotate_right)
    | ((try lift_lets); intro x; clear_value x) | with_reducible apply State.configWrite_keeps (hm.of rfl)
    | with_reducible apply State.denyStart_keeps (hm.of rfl) | with_reducible apply State.pecPageBusy_keeps (hm.of rfl)
    | with_reducible apply State.pend_keeps (hm.of rfl) | with_reducible apply State.setF_keeps (hm.of rfl)
    | with_reducible apply State.setPec_keeps (hm.of rfl) | with_reducible apply State.setReg_keeps (hm.of rfl) | split | unfold x
    | dsimp only | with_reducible refine Keeps.upd ?_

theorem State.pecEnd_keeps (hm : Sub 285698 pm) (hk : Keeps pm sk s) (b : Nat) (sent : Nat) (result : Nat) : Keeps pm sk (State.pecEnd s b sent result) := by
  unfold State.pecEnd
  repeat' first
    | with_reducible assumption
    | ((try lift_lets); intro x; refine Keeps.cut (pm := pm) (sk := sk) (x := x) ?_ (fun hx => ?_); rotate_left; clear_value x; rotate_right)
    | ((try lift_lets); intro x; clear_value x) | with_reducible apply State.occur_keeps (hm.of rfl)
    | with_reducible apply State.pecPageBusy_keeps (hm.of rfl) | with_reducible apply State.setPec_keeps (hm.of rfl)
    | with_reducible apply State.setReg_keeps (hm.of rfl) | unfold x | dsimp only | with_reducible refine Keeps.upd ?_

theorem State.pecAbort_keeps (hm : Sub 34364419 pm) (hk : Keeps pm sk s) (b : Nat) : Keeps pm sk (State.pecAbort s b) := by
  unfold State.pecAbort
  repeat' first
    | with_reducible assumption
    | ((try lift_lets); intro x; refine Keeps.cut (pm := pm) (sk := sk) (x := x) ?_ (fun hx => ?_); rotate_left; clear_value x; rotate_right)
    | ((try lift_lets); intro x; clear_value x) | with_reducible apply State.passTo_keeps (hm.of rfl)
    | with_reducible apply State.pecEnd_keeps (hm.of rfl) | with_reducible apply State.setF_keeps (hm.of rfl)
    | with_reducible apply State.setPec_keeps (hm.of rfl) | split | unfold x | dsimp only | with_reducible refine Keeps.upd ?_

theorem execPecStart_keeps (hm : Sub 810266 pm) (hk : Keeps pm sk s) (b : Nat) (v : Word) : OutKeeps pm sk (execPecStart b v s) := by
  unfold execPecStart
  repeat' first
    | with_reducible assumption | refine fun t (ht : Keeps pm sk t) => ?_ | refine fun _ t (ht : Keeps pm sk t) => ?_
    | with_reducible apply OutKeeps.next | with_reducible apply State.hostWrite_keeps (hm.of rfl)
    | with_reducible apply State.pecStart_keeps (hm.of rfl) | split | dsimp only

theorem execPecAbort_keeps (hm : Sub 34364699 pm) (hk : Keeps pm sk s) (b : Nat) (v : Word) : OutKeeps pm sk (execPecAbort b v s) := by
  unfold execPecAbort
  repeat' first
    | with_reducible assumption | refine fun t (ht : Keeps pm sk t) => ?_ | refine fun _ t (ht : Keeps pm sk t) => ?_
    | with_reducible apply OutKeeps.next | with_reducible apply State.configWrite_keeps (hm.of rfl)
    | with_reducible apply State.hostWrite_keeps (hm.of rfl) | with_reducible apply State.pecAbort_keeps (hm.of rfl) | split | dsimp only

theorem execPecTransferEnd_keeps (hm : Sub 34364419 pm) (hk : Keeps pm sk s) (b : Nat) (rx : List Byte) : OutKeeps pm sk (execPecTransferEnd b rx s) := by
  unfold execPecTransferEnd
  repeat' first
    | with_reducible assumption
    | ((try lift_lets); intro x; refine Keeps.cut (pm := pm) (sk := sk) (x := x) ?_ (fun hx => ?_); rotate_left; clear_value x; rotate_right)
    | ((try lift_lets); intro x; clear_value x) | with_reducible apply OutKeeps.next
    | with_reducible apply State.passTo_keeps (hm.of rfl) | with_reducible apply State.pecEnd_keeps (hm.of rfl)
    | with_reducible apply State.setPecRx_keeps (hm.of rfl) | split | unfold x | dsimp only

theorem State.ringThresh_keeps (hm : Sub 23554 pm) (hk : Keeps pm sk s) (r : RecRing) : Keeps pm sk (State.ringThresh s r) := by
  unfold State.ringThresh
  repeat' first
    | with_reducible assumption
    | ((try lift_lets); intro x; refine Keeps.cut (pm := pm) (sk := sk) (x := x) ?_ (fun hx => ?_); rotate_left; clear_value x; rotate_right)
    | ((try lift_lets); intro x; clear_value x) | with_reducible apply State.setLive_keeps (hm.of rfl) | split | unfold x | dsimp only

theorem State.ringRun_keeps (hm : Sub 34102275 pm) (hk : Keeps pm sk s) (r : RecRing) (a : Nat) (n : Nat) : OptKeeps pm sk (State.ringRun s r a n) := by
  unfold State.ringRun
  repeat' first
    | with_reducible assumption | with_reducible exact OptKeeps.none | with_reducible apply OptKeeps.some
    | with_reducible refine OptKeeps.bind ?_ (fun t ht => ?_) | with_reducible refine OptKeeps.map ?_ (fun t ht => ?_)
    | with_reducible apply OptKeeps.getD | with_reducible refine OptKeeps.of (by assumption) ?_
    | with_reducible refine OptKeeps.foldl _ ?_ (fun t x ht => ?_) | with_reducible apply State.looseRun_keeps (hm.of rfl)
    | with_reducible apply State.portRun_keeps (hm.of rfl) | split | dsimp only

theorem State.ringPush_keeps (hm : Sub 34102279 pm) (hk : Keeps pm sk s) (r : RecRing) (bytes : List Byte) : OptKeeps pm sk (State.ringPush s r bytes) := by
  unfold State.ringPush
  repeat' first
    | with_reducible assumption | refine fun t (ht : Keeps pm sk t) => ?_ | refine fun _ t (ht : Keeps pm sk t) => ?_
    | ((try lift_lets); intro x; refine Keeps.cut (pm := pm) (sk := sk) (x := x) ?_ (fun hx => ?_); rotate_left; clear_value x; rotate_right)
    | ((try lift_lets); intro x; clear_value x) | with_reducible exact OptKeeps.none | with_reducible apply OptKeeps.some
    | with_reducible refine OptKeeps.bind ?_ (fun t ht => ?_) | with_reducible refine OptKeeps.map ?_ (fun t ht => ?_)
    | with_reducible apply OptKeeps.getD | with_reducible refine OptKeeps.of (by assumption) ?_
    | with_reducible refine OptKeeps.foldl _ ?_ (fun t x ht => ?_) | with_reducible apply State.ringRun_keeps (hm.of rfl)
    | with_reducible apply State.ringThresh_keeps (hm.of rfl) | with_reducible apply State.setReg_keeps (hm.of rfl)
    | with_reducible apply State.writeBytes_keeps (hm.of rfl) | unfold x | dsimp only

theorem State.ringReturn_keeps (hm : Sub 23554 pm) (hk : Keeps pm sk s) (r : RecRing) (v : Nat) : Keeps pm sk (State.ringReturn s r v) := by
  unfold State.ringReturn
  repeat' first
    | with_reducible assumption
    | ((try lift_lets); intro x; refine Keeps.cut (pm := pm) (sk := sk) (x := x) ?_ (fun hx => ?_); rotate_left; clear_value x; rotate_right)
    | ((try lift_lets); intro x; clear_value x) | with_reducible apply State.ringThresh_keeps (hm.of rfl)
    | with_reducible apply State.setReg_keeps (hm.of rfl) | split | unfold x | dsimp only

theorem State.ringStage_keeps (hm : Sub 262146 pm) (hk : Keeps pm sk s) (a : Nat) (v : Word) : Keeps pm sk (State.ringStage s a v) := by
  unfold State.ringStage
  repeat' first
    | with_reducible assumption | with_reducible apply State.stageWord_keeps (hm.of rfl) | dsimp only

theorem State.ringApply_keeps (hm : Sub 285698 pm) (hk : Keeps pm sk s) (r : RecRing) : Keeps pm sk (State.ringApply s r) := by
  unfold State.ringApply
  repeat' first
    | with_reducible assumption
    | ((try lift_lets); intro x; refine Keeps.cut (pm := pm) (sk := sk) (x := x) ?_ (fun hx => ?_); rotate_left; clear_value x; rotate_right)
    | ((try lift_lets); intro x; clear_value x) | with_reducible apply State.dropForce_keeps (hm.of rfl)
    | with_reducible apply State.ringThresh_keeps (hm.of rfl) | with_reducible apply State.setReg_keeps (hm.of rfl) | unfold x
    | dsimp only

theorem State.setTrace_keeps (hm : Sub 1024 pm) (hk : Keeps pm sk s) (t : Trace) : Keeps pm sk (State.setTrace s t) := by
  unfold State.setTrace
  repeat' first
    | with_reducible assumption | dsimp only | with_reducible refine Keeps.upd ?_

theorem State.traceArm_keeps (hm : Sub 1026 pm) (hk : Keeps pm sk s) : Keeps pm sk (State.traceArm s) := by
  unfold State.traceArm
  repeat' first
    | with_reducible assumption
    | ((try lift_lets); intro x; refine Keeps.cut (pm := pm) (sk := sk) (x := x) ?_ (fun hx => ?_); rotate_left; clear_value x; rotate_right)
    | ((try lift_lets); intro x; clear_value x) | with_reducible apply State.setReg_keeps (hm.of rfl)
    | with_reducible apply State.setTrace_keeps (hm.of rfl) | split | unfold x | dsimp only | with_reducible refine Keeps.upd ?_

theorem State.traceStop_keeps (hm : Sub 23554 pm) (hk : Keeps pm sk s) (cause : Nat) : Keeps pm sk (State.traceStop s cause) := by
  unfold State.traceStop
  repeat' first
    | with_reducible assumption
    | ((try lift_lets); intro x; refine Keeps.cut (pm := pm) (sk := sk) (x := x) ?_ (fun hx => ?_); rotate_left; clear_value x; rotate_right)
    | ((try lift_lets); intro x; clear_value x) | with_reducible apply State.traceEnd_keeps (hm.of rfl) | split | unfold x | dsimp only

theorem execTraceArm_keeps (hm : Sub 23818 pm) (hk : Keeps pm sk s) : OutKeeps pm sk (execTraceArm s) := by
  unfold execTraceArm
  repeat' first
    | with_reducible assumption | refine fun t (ht : Keeps pm sk t) => ?_ | refine fun _ t (ht : Keeps pm sk t) => ?_
    | with_reducible apply OutKeeps.next | with_reducible apply State.hostWrite_keeps (hm.of rfl)
    | with_reducible apply State.traceArm_keeps (hm.of rfl) | dsimp only

theorem execTraceStop_keeps (hm : Sub 23818 pm) (hk : Keeps pm sk s) : OutKeeps pm sk (execTraceStop s) := by
  unfold execTraceStop
  repeat' first
    | with_reducible assumption | refine fun t (ht : Keeps pm sk t) => ?_ | refine fun _ t (ht : Keeps pm sk t) => ?_
    | with_reducible apply OutKeeps.next | with_reducible apply State.hostWrite_keeps (hm.of rfl)
    | with_reducible apply State.traceStop_keeps (hm.of rfl) | dsimp only

theorem State.traceToPost_keeps (hm : Sub 23554 pm) (hk : Keeps pm sk s) (t : Nat) : Keeps pm sk (State.traceToPost s t) := by
  unfold State.traceToPost
  repeat' first
    | with_reducible assumption
    | ((try lift_lets); intro x; refine Keeps.cut (pm := pm) (sk := sk) (x := x) ?_ (fun hx => ?_); rotate_left; clear_value x; rotate_right)
    | ((try lift_lets); intro x; clear_value x) | with_reducible apply State.setTrace_keeps (hm.of rfl)
    | with_reducible apply State.traceEnd_keeps (hm.of rfl) | with_reducible apply State.traceWrite_keeps (hm.of rfl) | split | unfold x
    | dsimp only | with_reducible refine Keeps.upd ?_

theorem State.trigger_keeps (hm : Sub 23554 pm) (hk : Keeps pm sk s) (t : Nat) : Keeps pm sk (State.trigger s t) := by
  unfold State.trigger
  repeat' first
    | with_reducible assumption
    | ((try lift_lets); intro x; refine Keeps.cut (pm := pm) (sk := sk) (x := x) ?_ (fun hx => ?_); rotate_left; clear_value x; rotate_right)
    | ((try lift_lets); intro x; clear_value x) | with_reducible apply State.setTrace_keeps (hm.of rfl)
    | with_reducible apply State.traceToPost_keeps (hm.of rfl) | with_reducible apply State.traceWrite_keeps (hm.of rfl) | split
    | unfold x | dsimp only | with_reducible refine Keeps.upd ?_

theorem execSpillRecordWritten_keeps (hm : Sub 34102279 pm) (hk : Keeps pm sk s) : OutKeeps pm sk (execSpillRecordWritten s) := by
  unfold execSpillRecordWritten
  repeat' first
    | with_reducible assumption
    | ((try lift_lets); intro x; refine Keeps.cut (pm := pm) (sk := sk) (x := x) ?_ (fun hx => ?_); rotate_left; clear_value x; rotate_right)
    | ((try lift_lets); intro x; clear_value x) | with_reducible exact OptKeeps.none | with_reducible apply OptKeeps.some
    | with_reducible refine OptKeeps.bind ?_ (fun t ht => ?_) | with_reducible refine OptKeeps.map ?_ (fun t ht => ?_)
    | with_reducible apply OptKeeps.getD | with_reducible refine OptKeeps.of (by assumption) ?_
    | with_reducible refine OptKeeps.foldl _ ?_ (fun t x ht => ?_) | with_reducible apply OutKeeps.next
    | with_reducible apply State.ringPush_keeps (hm.of rfl) | with_reducible apply State.setTrace_keeps (hm.of rfl) | split | unfold x
    | dsimp only | with_reducible refine Keeps.upd ?_

theorem execCounterSnap_keeps (hm : Sub 23818 pm) (hk : Keeps pm sk s) : OutKeeps pm sk (execCounterSnap s) := by
  unfold execCounterSnap
  repeat' first
    | with_reducible assumption | refine fun t (ht : Keeps pm sk t) => ?_ | refine fun _ t (ht : Keeps pm sk t) => ?_
    | with_reducible apply OutKeeps.next | with_reducible apply State.hostWrite_keeps (hm.of rfl)
    | with_reducible apply State.setCounter_keeps (hm.of rfl) | with_reducible refine Keeps.foldl ?_ _ (fun t y ht => ?_)
    | with_reducible refine Keeps.foldl2 ?_ _ (fun t y ht => ?_) | dsimp only | with_reducible refine Keeps.upd ?_

theorem execCounterClearAll_keeps (hm : Sub 23818 pm) (hk : Keeps pm sk s) : OutKeeps pm sk (execCounterClearAll s) := by
  unfold execCounterClearAll
  repeat' first
    | with_reducible assumption | refine fun t (ht : Keeps pm sk t) => ?_ | refine fun _ t (ht : Keeps pm sk t) => ?_
    | with_reducible apply OutKeeps.next | with_reducible apply State.hostWrite_keeps (hm.of rfl)
    | with_reducible apply State.setCounter_keeps (hm.of rfl) | with_reducible refine Keeps.foldl ?_ _ (fun t y ht => ?_)
    | with_reducible refine Keeps.foldl2 ?_ _ (fun t y ht => ?_) | dsimp only | with_reducible refine Keeps.upd ?_

theorem State.galLost_keeps (hm : Sub 23554 pm) (hk : Keeps pm sk s) : Keeps pm sk s.galLost := by
  unfold State.galLost
  exact State.ringThresh_keeps (hm.of rfl) (Keeps.upd (Keeps.filterRegs (hm.of rfl) hk _)) _

theorem execCntCfgWrite_keeps (hm : Sub 23818 pm) (hk : Keeps pm sk s) (v : Word) : OutKeeps pm sk (execCntCfgWrite v s) := by
  unfold execCntCfgWrite
  repeat' first
    | with_reducible assumption | refine fun t (ht : Keeps pm sk t) => ?_ | refine fun _ t (ht : Keeps pm sk t) => ?_
    | ((try lift_lets); intro x; refine Keeps.cut (pm := pm) (sk := sk) (x := x) ?_ (fun hx => ?_); rotate_left; clear_value x; rotate_right)
    | ((try lift_lets); intro x; clear_value x) | with_reducible apply OutKeeps.next
    | with_reducible apply State.hostWrite_keeps (hm.of rfl) | with_reducible apply State.setCounter_keeps (hm.of rfl) | split | unfold x
    | dsimp only | with_reducible refine Keeps.upd ?_

theorem State.sramWord_keeps (hm : Sub 16 pm) (hk : Keeps pm sk s) (i : Nat) (w : Nat) : Keeps pm sk (State.sramWord s i w).2 := by
  unfold State.sramWord
  repeat' first
    | with_reducible assumption
    | ((try lift_lets); intro x; refine Keeps.cut (pm := pm) (sk := sk) (x := x) ?_ (fun hx => ?_); rotate_left; clear_value x; rotate_right)
    | ((try lift_lets); intro x; refine Keeps.cut2 (pm := pm) (sk := sk) (x := x) ?_ (fun hx => ?_); rotate_left; clear_value x; rotate_right)
    | ((try lift_lets); intro x; refine Keeps.cut3 (pm := pm) (sk := sk) (x := x) ?_ (fun hx => ?_); rotate_left; clear_value x; rotate_right)
    | ((try lift_lets); intro x; clear_value x) | with_reducible apply State.freshNat_keeps (hm.of rfl) | split | unfold x | dsimp only

theorem State.galWord_keeps (hm : Sub 16 pm) (hk : Keeps pm sk s) (x : Nat) : Keeps pm sk (State.galWord s x).2 := by
  unfold State.galWord
  repeat' first
    | with_reducible assumption
    | ((try lift_lets); intro x; refine Keeps.cut (pm := pm) (sk := sk) (x := x) ?_ (fun hx => ?_); rotate_left; clear_value x; rotate_right)
    | ((try lift_lets); intro x; clear_value x) | with_reducible apply State.sramWord_keeps (hm.of rfl) | split | unfold x | dsimp only

theorem execTapGaladdr_keeps (hm : Sub 1024 pm) (hk : Keeps pm sk s) (t : Nat) (x : Nat) : OutKeeps pm sk (execTapGaladdr t x s) := by
  unfold execTapGaladdr
  repeat' first
    | with_reducible assumption | refine fun t (ht : Keeps pm sk t) => ?_ | refine fun _ t (ht : Keeps pm sk t) => ?_
    | with_reducible apply OutKeeps.next | dsimp only | with_reducible refine Keeps.upd ?_

theorem execTapGaldata_keeps (hm : Sub 1048 pm) (hk : Keeps pm sk s) (t : Nat) : OutKeeps pm sk (execTapGaldata t s) := by
  unfold execTapGaldata
  repeat' first
    | with_reducible assumption | refine fun t (ht : Keeps pm sk t) => ?_ | refine fun _ t (ht : Keeps pm sk t) => ?_
    | ((try lift_lets); intro x; refine Keeps.cut (pm := pm) (sk := sk) (x := x) ?_ (fun hx => ?_); rotate_left; clear_value x; rotate_right)
    | ((try lift_lets); intro x; refine Keeps.cut2 (pm := pm) (sk := sk) (x := x) ?_ (fun hx => ?_); rotate_left; clear_value x; rotate_right)
    | ((try lift_lets); intro x; refine Keeps.cut3 (pm := pm) (sk := sk) (x := x) ?_ (fun hx => ?_); rotate_left; clear_value x; rotate_right)
    | ((try lift_lets); intro x; clear_value x) | with_reducible apply OutKeeps.next
    | with_reducible apply State.galWord_keeps (hm.of rfl) | split | unfold x | dsimp only | with_reducible refine Keeps.upd ?_

theorem State.setTask_keeps (hm : Sub 131072 pm) (hk : Keeps pm sk s) (i : Nat) (t : Task) : Keeps pm sk (State.setTask s i t) := by
  unfold State.setTask
  repeat' first
    | with_reducible assumption | refine fun t (ht : Keeps pm sk t) => ?_ | refine fun _ t (ht : Keeps pm sk t) => ?_ | dsimp only
    | with_reducible refine Keeps.upd ?_

theorem State.judgeReady_keeps (hm : Sub 131072 pm) (hk : Keeps pm sk s) (i : Nat) : Keeps pm sk (State.judgeReady s i) := by
  unfold State.judgeReady
  repeat' first
    | with_reducible assumption
    | ((try lift_lets); intro x; refine Keeps.cut (pm := pm) (sk := sk) (x := x) ?_ (fun hx => ?_); rotate_left; clear_value x; rotate_right)
    | ((try lift_lets); intro x; clear_value x) | with_reducible apply State.setTask_keeps (hm.of rfl) | split | unfold x | dsimp only
    | with_reducible refine Keeps.upd ?_

theorem State.cmdFail_keeps (hm : Sub 23554 pm) (hk : Keeps pm sk s) (cause : Nat) (source : Nat) (op : Nat) (i : Nat) : Keeps pm sk (State.cmdFail s cause source op i) := by
  unfold State.cmdFail
  repeat' first
    | with_reducible assumption
    | ((try lift_lets); intro x; refine Keeps.cut (pm := pm) (sk := sk) (x := x) ?_ (fun hx => ?_); rotate_left; clear_value x; rotate_right)
    | ((try lift_lets); intro x; clear_value x) | with_reducible apply State.incSat_keeps (hm.of rfl)
    | with_reducible apply State.occur_keeps (hm.of rfl) | with_reducible apply State.setReg_keeps (hm.of rfl) | split | unfold x
    | dsimp only

theorem State.matchOpen_keeps (hm : Sub 34233347 pm) (hk : Keeps pm sk s) (k : Nat) : Keeps pm sk (State.matchOpen s k) := by
  unfold State.matchOpen
  repeat' first
    | with_reducible assumption
    | ((try lift_lets); intro x; refine Keeps.cut (pm := pm) (sk := sk) (x := x) ?_ (fun hx => ?_); rotate_left; clear_value x; rotate_right)
    | ((try lift_lets); intro x; clear_value x) | with_reducible apply State.pass_keeps (hm.of rfl) | split | unfold x | dsimp only
    | with_reducible refine Keeps.upd ?_

theorem State.matchDone_keeps (hm : Sub 131072 pm) (hk : Keeps pm sk s) (n : Nat) (k : Nat) : Keeps pm sk (State.matchDone s n k) := by
  unfold State.matchDone
  repeat' first
    | with_reducible assumption | dsimp only | with_reducible refine Keeps.upd ?_

theorem State.satHold_keeps (hm : Sub 23554 pm) (hk : Keeps pm sk s) (i : Nat) (n : Nat) : Keeps pm sk (State.satHold s i n) := by
  unfold State.satHold
  repeat' first
    | with_reducible assumption | with_reducible apply State.occur_keeps (hm.of rfl)
    | with_reducible apply State.setReg_keeps (hm.of rfl) | split | dsimp only

theorem State.applyWhole_keeps (hm : Sub 131072 pm) (hk : Keeps pm sk s) (l : Arrival) : Keeps pm sk (State.applyWhole s l) := by
  unfold State.applyWhole
  repeat' first
    | with_reducible assumption | refine fun t (ht : Keeps pm sk t) => ?_ | refine fun _ t (ht : Keeps pm sk t) => ?_
    | ((try lift_lets); intro x; refine Keeps.cut (pm := pm) (sk := sk) (x := x) ?_ (fun hx => ?_); rotate_left; clear_value x; rotate_right)
    | ((try lift_lets); intro x; refine Keeps.cut2 (pm := pm) (sk := sk) (x := x) ?_ (fun hx => ?_); rotate_left; clear_value x; rotate_right)
    | ((try lift_lets); intro x; refine Keeps.cut3 (pm := pm) (sk := sk) (x := x) ?_ (fun hx => ?_); rotate_left; clear_value x; rotate_right)
    | ((try lift_lets); intro x; clear_value x) | with_reducible apply State.judgeReady_keeps (hm.of rfl)
    | with_reducible apply State.setTask_keeps (hm.of rfl) | with_reducible refine Keeps.foldl ?_ _ (fun t y ht => ?_)
    | with_reducible refine Keeps.foldl2 ?_ _ (fun t y ht => ?_) | unfold x | dsimp only | with_reducible refine Keeps.upd ?_

theorem State.arrive_keeps (hm : Sub 154626 pm) (hk : Keeps pm sk s) (l : Arrival) : Keeps pm sk (State.arrive s l).2 := by
  unfold State.arrive
  repeat' first
    | with_reducible assumption | with_reducible apply State.applyWhole_keeps (hm.of rfl)
    | with_reducible apply State.satHold_keeps (hm.of rfl) | split | dsimp only

theorem State.offerCompletion_keeps (hm : Sub 154626 pm) (hk : Keeps pm sk s) (j : Nat) : Keeps pm sk (State.offerCompletion s j).2 := by
  unfold State.offerCompletion
  repeat' first
    | with_reducible assumption
    | ((try lift_lets); intro x; refine Keeps.cut (pm := pm) (sk := sk) (x := x) ?_ (fun hx => ?_); rotate_left; clear_value x; rotate_right)
    | ((try lift_lets); intro x; refine Keeps.cut2 (pm := pm) (sk := sk) (x := x) ?_ (fun hx => ?_); rotate_left; clear_value x; rotate_right)
    | ((try lift_lets); intro x; refine Keeps.cut3 (pm := pm) (sk := sk) (x := x) ?_ (fun hx => ?_); rotate_left; clear_value x; rotate_right)
    | ((try lift_lets); intro x; clear_value x) | with_reducible apply State.arrive_keeps (hm.of rfl)
    | with_reducible apply State.judgeReady_keeps (hm.of rfl) | with_reducible apply State.setTask_keeps (hm.of rfl) | split | unfold x
    | dsimp only | with_reducible refine Keeps.upd ?_

theorem State.portPulse_keeps (hm : Sub 23554 pm) (hk : Keeps pm sk s) (p : Nat) : Keeps pm sk (State.portPulse s p).2 := by
  unfold State.portPulse
  repeat' first
    | with_reducible assumption
    | ((try lift_lets); intro x; refine Keeps.cut (pm := pm) (sk := sk) (x := x) ?_ (fun hx => ?_); rotate_left; clear_value x; rotate_right)
    | ((try lift_lets); intro x; clear_value x) | with_reducible apply State.incSat_keeps (hm.of rfl)
    | with_reducible apply State.occur_keeps (hm.of rfl) | split | unfold x | dsimp only

theorem State.servePort_keeps (hm : Sub 154626 pm) (hk : Keeps pm sk s) (p : Nat) : Keeps pm sk (State.servePort s p).2 := by
  unfold State.servePort
  repeat' first
    | with_reducible assumption
    | ((try lift_lets); intro x; refine Keeps.cut (pm := pm) (sk := sk) (x := x) ?_ (fun hx => ?_); rotate_left; clear_value x; rotate_right)
    | ((try lift_lets); intro x; refine Keeps.cut2 (pm := pm) (sk := sk) (x := x) ?_ (fun hx => ?_); rotate_left; clear_value x; rotate_right)
    | ((try lift_lets); intro x; refine Keeps.cut3 (pm := pm) (sk := sk) (x := x) ?_ (fun hx => ?_); rotate_left; clear_value x; rotate_right)
    | ((try lift_lets); intro x; clear_value x) | with_reducible apply State.arrive_keeps (hm.of rfl)
    | with_reducible apply State.setReg_keeps (hm.of rfl) | split | unfold x | dsimp only

theorem State.imageWrite_keeps (hm : Sub 154626 pm) (hk : Keeps pm sk s) (w : Nat) (v : Word) : Keeps pm sk (State.imageWrite s w v) := by
  unfold State.imageWrite
  repeat' first
    | with_reducible assumption
    | ((try lift_lets); intro x; refine Keeps.cut (pm := pm) (sk := sk) (x := x) ?_ (fun hx => ?_); rotate_left; clear_value x; rotate_right)
    | ((try lift_lets); intro x; clear_value x) | with_reducible apply State.cmdFail_keeps (hm.of rfl)
    | with_reducible apply State.setTask_keeps (hm.of rfl) | split | unfold x | dsimp only | with_reducible refine Keeps.upd ?_

theorem State.armTask_keeps (hm : Sub 154626 pm) (hk : Keeps pm sk s) (source : Nat) (op : Nat) (i : Nat) (t : Task) : Keeps pm sk (State.armTask s source op i t) := by
  unfold State.armTask
  repeat' first
    | with_reducible assumption | with_reducible apply State.cmdFail_keeps (hm.of rfl)
    | with_reducible apply State.judgeReady_keeps (hm.of rfl) | with_reducible apply State.setTask_keeps (hm.of rfl) | split | dsimp only
    | with_reducible refine Keeps.upd ?_

theorem State.disarmTask_keeps (hm : Sub 154626 pm) (hk : Keeps pm sk s) (source : Nat) (i : Nat) : Keeps pm sk (State.disarmTask s source i) := by
  unfold State.disarmTask
  repeat' first
    | with_reducible assumption
    | ((try lift_lets); intro x; refine Keeps.cut (pm := pm) (sk := sk) (x := x) ?_ (fun hx => ?_); rotate_left; clear_value x; rotate_right)
    | ((try lift_lets); intro x; clear_value x) | with_reducible apply State.cmdFail_keeps (hm.of rfl)
    | with_reducible apply State.setTask_keeps (hm.of rfl) | split | unfold x | dsimp only | with_reducible refine Keeps.upd ?_

theorem State.addTask_both (hm : Sub 154626 pm) (hk : Keeps pm sk s) (tk i p kind : Nat) (b : Bool) :
    Keeps pm sk (s.addTask tk i p kind b).2 ∧ ∀ t, (s.addTask tk i p kind b).1 = some t → Keeps pm sk t := by
  have done (t : State) (h : Keeps pm sk t) : Keeps pm sk ((some t, t) : Option State × State).2 ∧
      ∀ u, ((some t, t) : Option State × State).1 = some u → Keeps pm sk u := ⟨h, fun u e => by cases e; exact h⟩
  unfold State.addTask
  dsimp only
  split
  · exact done _ (State.cmdFail_keeps (hm.of rfl) hk _ _ _ _)
  · have ha := State.arrive_keeps (hm.of rfl) hk [(i, p, kind)]
    split
    · exact ⟨ha, fun u e => by cases e; exact ha⟩
    · split
      · exact ⟨ha, fun u e => by cases e⟩
      · exact done _ (State.cmdFail_keeps (hm.of rfl) hk _ _ _ _)

theorem State.addTask_keeps (hm : Sub 154626 pm) (hk : Keeps pm sk s) (tk i p kind : Nat) (b : Bool) : Keeps pm sk (s.addTask tk i p kind b).2 :=
  (State.addTask_both (hm.of rfl) hk tk i p kind b).1

theorem State.clearTask_keeps (hm : Sub 154626 pm) (hk : Keeps pm sk s) (source : Nat) (i : Nat) : Keeps pm sk (State.clearTask s source i) := by
  unfold State.clearTask
  repeat' first
    | with_reducible assumption
    | ((try lift_lets); intro x; refine Keeps.cut (pm := pm) (sk := sk) (x := x) ?_ (fun hx => ?_); rotate_left; clear_value x; rotate_right)
    | ((try lift_lets); intro x; clear_value x) | with_reducible apply State.cmdFail_keeps (hm.of rfl)
    | with_reducible apply State.inc64_keeps (hm.of rfl) | with_reducible apply State.setTask_keeps (hm.of rfl) | split | unfold x
    | dsimp only | with_reducible refine Keeps.upd ?_

theorem State.abortTask_keeps (hm : Sub 131072 pm) (hk : Keeps pm sk s) (ab : Task → State → State)
    (hab : ∀ b t, Keeps pm sk t → Keeps pm sk (ab b t)) (i : Nat) : Keeps pm sk (s.abortTask ab i) := by
  unfold State.abortTask
  dsimp only
  split
  · exact State.setTask_keeps (hm.of rfl) hk _ _
  · exact State.setTask_keeps (hm.of rfl) hk _ _
  · split
    · exact hab _ _ (State.setTask_keeps (hm.of rfl) hk _ _)
    · exact State.setTask_keeps (hm.of rfl) hk _ _
  · exact State.setTask_keeps (hm.of rfl) hk _ _
  · exact hk

theorem State.overdraw_keeps (hm : Sub 23554 pm) (hk : Keeps pm sk s) (w : Wait) : Keeps pm sk (State.overdraw s w) := by
  unfold State.overdraw
  repeat' first
    | with_reducible assumption
    | ((try lift_lets); intro x; refine Keeps.cut (pm := pm) (sk := sk) (x := x) ?_ (fun hx => ?_); rotate_left; clear_value x; rotate_right)
    | ((try lift_lets); intro x; clear_value x) | with_reducible apply State.incSat_keeps (hm.of rfl)
    | with_reducible apply State.occur_keeps (hm.of rfl) | with_reducible apply State.setReg_keeps (hm.of rfl) | split | unfold x
    | dsimp only

theorem State.settle_keeps (hm : Sub 89090 pm) (hk : Keeps pm sk s) (w : Wait) (m : Nat) : Keeps pm sk (State.settle s w m) := by
  unfold State.settle
  repeat' first
    | with_reducible assumption
    | ((try lift_lets); intro x; refine Keeps.cut (pm := pm) (sk := sk) (x := x) ?_ (fun hx => ?_); rotate_left; clear_value x; rotate_right)
    | ((try lift_lets); intro x; clear_value x) | with_reducible apply State.overdraw_keeps (hm.of rfl) | split | unfold x | dsimp only
    | with_reducible refine Keeps.upd ?_

theorem State.meter_keeps (hm : Sub 16 pm) (hk : Keeps pm sk s) (m : Option Nat) : Keeps pm sk (State.meter s m).2 := by
  unfold State.meter
  repeat' first
    | with_reducible assumption | with_reducible apply State.freshNat_keeps (hm.of rfl) | split | dsimp only

theorem State.endRun_keeps (hm : Sub 220178 pm) (hk : Keeps pm sk s) (c : Nat) (u : Nat) (outcome : Nat) (noop : Bool) (m : Option Nat) : Keeps pm sk (State.endRun s c u outcome noop m) := by
  unfold State.endRun
  repeat' first
    | with_reducible assumption | refine fun t (ht : Keeps pm sk t) => ?_ | refine fun _ t (ht : Keeps pm sk t) => ?_
    | ((try lift_lets); intro x; refine Keeps.cut (pm := pm) (sk := sk) (x := x) ?_ (fun hx => ?_); rotate_left; clear_value x; rotate_right)
    | ((try lift_lets); intro x; refine Keeps.cut2 (pm := pm) (sk := sk) (x := x) ?_ (fun hx => ?_); rotate_left; clear_value x; rotate_right)
    | ((try lift_lets); intro x; refine Keeps.cut3 (pm := pm) (sk := sk) (x := x) ?_ (fun hx => ?_); rotate_left; clear_value x; rotate_right)
    | ((try lift_lets); intro x; clear_value x) | with_reducible apply State.meter_keeps (hm.of rfl)
    | with_reducible apply State.setTask_keeps (hm.of rfl) | with_reducible apply State.settle_keeps (hm.of rfl) | split | unfold x
    | dsimp only | with_reducible refine Keeps.upd ?_

theorem execTaskImageWrite_keeps (hm : Sub 154890 pm) (hk : Keeps pm sk s) (w : Nat) (v : Word) : OutKeeps pm sk (execTaskImageWrite w v s) := by
  unfold execTaskImageWrite
  repeat' first
    | with_reducible assumption | refine fun t (ht : Keeps pm sk t) => ?_ | refine fun _ t (ht : Keeps pm sk t) => ?_
    | with_reducible apply OutKeeps.next | with_reducible apply State.hostWrite_keeps (hm.of rfl)
    | with_reducible apply State.imageWrite_keeps (hm.of rfl) | split | dsimp only

theorem State.taskCmd_keeps (hm : Sub 23818 pm) (hk : Keeps pm sk s) (v : Word) (k : Nat → State → State)
    (hab : ∀ b t, Keeps pm sk t → Keeps pm sk (k b t)) : Keeps pm sk (s.taskCmd v k) :=
  State.hostWrite_keeps (hm.of rfl) hk _ _ _ _ fun _ h => hab _ _ h

theorem execTaskArm_keeps (hm : Sub 154890 pm) (hk : Keeps pm sk s) : OutKeeps pm sk (execTaskArm s) := by
  unfold execTaskArm
  repeat' first
    | with_reducible assumption | refine fun t (ht : Keeps pm sk t) => ?_ | refine fun _ t (ht : Keeps pm sk t) => ?_
    | with_reducible apply OutKeeps.next | with_reducible apply State.armTask_keeps (hm.of rfl)
    | with_reducible apply State.taskCmd_keeps (hm.of rfl) | dsimp only

theorem execTaskDisarm_keeps (hm : Sub 154890 pm) (hk : Keeps pm sk s) : OutKeeps pm sk (execTaskDisarm s) := by
  unfold execTaskDisarm
  repeat' first
    | with_reducible assumption | refine fun t (ht : Keeps pm sk t) => ?_ | refine fun _ t (ht : Keeps pm sk t) => ?_
    | with_reducible apply OutKeeps.next | with_reducible apply State.disarmTask_keeps (hm.of rfl)
    | with_reducible apply State.taskCmd_keeps (hm.of rfl) | dsimp only

theorem execTaskAdd_keeps (hm : Sub 34233611 pm) (hk : Keeps pm sk s) (n : Nat) (amount : Nat) : OutKeeps pm sk (execTaskAdd n amount s) := by
  unfold execTaskAdd
  repeat' first
    | with_reducible assumption | refine fun t (ht : Keeps pm sk t) => ?_ | refine fun _ t (ht : Keeps pm sk t) => ?_
    | with_reducible apply OutKeeps.next | with_reducible apply State.addTask_keeps (hm.of rfl)
    | with_reducible apply State.matchDone_keeps (hm.of rfl) | with_reducible apply State.matchOpen_keeps (hm.of rfl)
    | with_reducible apply State.taskCmd_keeps (hm.of rfl) | dsimp only

theorem execTaskClear_keeps (hm : Sub 154890 pm) (hk : Keeps pm sk s) : OutKeeps pm sk (execTaskClear s) := by
  unfold execTaskClear
  repeat' first
    | with_reducible assumption | refine fun t (ht : Keeps pm sk t) => ?_ | refine fun _ t (ht : Keeps pm sk t) => ?_
    | with_reducible apply OutKeeps.next | with_reducible apply State.clearTask_keeps (hm.of rfl)
    | with_reducible apply State.taskCmd_keeps (hm.of rfl) | dsimp only

theorem execTaskAgeStep_keeps (hm : Sub 34233347 pm) (hk : Keeps pm sk s) (i : Nat) : OutKeeps pm sk (execTaskAgeStep i s) := by
  unfold execTaskAgeStep
  repeat' first
    | with_reducible assumption
    | ((try lift_lets); intro x; refine Keeps.cut (pm := pm) (sk := sk) (x := x) ?_ (fun hx => ?_); rotate_left; clear_value x; rotate_right)
    | ((try lift_lets); intro x; clear_value x) | with_reducible apply OutKeeps.next
    | with_reducible apply State.passTo_keeps (hm.of rfl) | with_reducible apply State.setTask_keeps (hm.of rfl) | split | unfold x
    | dsimp only | with_reducible refine Keeps.upd ?_

theorem State.setQueue_keeps (hm : Sub 131072 pm) (hk : Keeps pm sk s) (q : Nat) (l : List (List Word)) : Keeps pm sk (State.setQueue s q l) := by
  unfold State.setQueue
  repeat' first
    | with_reducible assumption | refine fun t (ht : Keeps pm sk t) => ?_ | refine fun _ t (ht : Keeps pm sk t) => ?_ | dsimp only
    | with_reducible refine Keeps.upd ?_

theorem execSqPush_keeps (hm : Sub 154890 pm) (hk : Keeps pm sk s) (q : Nat) : OutKeeps pm sk (execSqPush q s) := by
  unfold execSqPush
  repeat' first
    | with_reducible assumption | refine fun t (ht : Keeps pm sk t) => ?_ | refine fun _ t (ht : Keeps pm sk t) => ?_
    | ((try lift_lets); intro x; refine Keeps.cut (pm := pm) (sk := sk) (x := x) ?_ (fun hx => ?_); rotate_left; clear_value x; rotate_right)
    | ((try lift_lets); intro x; clear_value x) | with_reducible apply OutKeeps.next
    | with_reducible apply State.hostWrite_keeps (hm.of rfl) | with_reducible apply State.incSat_keeps (hm.of rfl)
    | with_reducible apply State.occur_keeps (hm.of rfl) | with_reducible apply State.setQueue_keeps (hm.of rfl)
    | with_reducible apply State.setReg_keeps (hm.of rfl) | split | unfold x | dsimp only

theorem State.submitTask_keeps (hm : Sub 154626 pm) (hk : Keeps pm sk s) (q : Nat) (i : Nat) (img : List Word) : Keeps pm sk (State.submitTask s q i img) := by
  unfold State.submitTask
  repeat' first
    | with_reducible assumption | with_reducible apply State.armTask_keeps (hm.of rfl) | dsimp only | with_reducible refine Keeps.upd ?_

theorem State.applyEntry_keeps (hm : Sub 154626 pm) (hk : Keeps pm sk s) (ab : Task → State → State)
    (hab : ∀ b t, Keeps pm sk t → Keeps pm sk (ab b t)) (q : Nat) (e : List Word) :
    Keeps pm sk (s.applyEntry ab q e).2 ∧ ∀ t, (s.applyEntry ab q e).1 = some t → Keeps pm sk t := by
  have done (t : State) (h : Keeps pm sk t) : Keeps pm sk ((some t, t) : Option State × State).2 ∧
      ∀ u, ((some t, t) : Option State × State).1 = some u → Keeps pm sk u := ⟨h, fun u e => by cases e; exact h⟩
  unfold State.applyEntry
  dsimp only
  split
  · exact done _ (State.submitTask_keeps (hm.of rfl) hk _ _ _)
  · exact done _ (State.armTask_keeps (hm.of rfl) hk _ _ _ _)
  · exact done _ (State.disarmTask_keeps (hm.of rfl) hk _ _)
  · exact State.addTask_both (hm.of rfl) hk _ _ _ _ _
  · exact done _ (State.abortTask_keeps (hm.of rfl) hk ab hab _)
  · exact done _ (State.clearTask_keeps (hm.of rfl) hk _ _)
  · exact done _ (State.cmdFail_keeps (hm.of rfl) hk _ _ _ _)

theorem State.serveQueue_keeps (hm : Sub 154626 pm) (hk : Keeps pm sk s) (ab : Task → State → State)
    (hab : ∀ b t, Keeps pm sk t → Keeps pm sk (ab b t)) (q : Nat) : Keeps pm sk (s.serveQueue ab q).2 := by
  unfold State.serveQueue
  split
  · exact hk
  · next e l _ =>
    have ha := State.applyEntry_keeps (hm.of rfl) hk ab hab q e
    split
    · next h => rw [h] at ha; exact ha.1
    · next h =>
      rw [h] at ha
      exact Keeps.upd (State.incWrap_keeps (hm.of rfl) (State.setReg_keeps (hm.of rfl) (State.setQueue_keeps (hm.of rfl) (ha.2 _ rfl) _ _) _ _) _ _)

theorem serveFirst_keeps (hm : Sub 0 pm) (serve : Nat → State → Bool × State) (hs : ∀ b t, Keeps pm sk t → Keeps pm sk (serve b t).2)
    (hk : Keeps pm sk s) (l : List Nat) : Keeps pm sk (serveFirst serve l s) := by
  induction l generalizing s with
  | nil => exact hk
  | cons x l ih =>
    unfold serveFirst
    dsimp only
    split
    · exact hs _ _ hk
    · exact ih (hs _ _ hk)

theorem serveUpTo_keeps (hm : Sub 0 pm) (serve : Nat → State → Bool × State) (hs : ∀ b t, Keeps pm sk t → Keeps pm sk (serve b t).2)
    (hk : Keeps pm sk s) (l : List Nat) (n : Nat) : Keeps pm sk (serveUpTo serve l n s).2 := by
  induction l generalizing s n with
  | nil => exact hk
  | cons x l ih =>
    cases n with
    | zero => exact hk
    | succ n =>
      unfold serveUpTo
      dsimp only
      split
      · exact ih (hs _ _ hk) n
      · exact ih (hs _ _ hk) (n + 1)

theorem State.matchHolds_keeps (hm : Sub 154626 pm) (hk : Keeps pm sk s) : Keeps pm sk (State.matchHolds s) := by
  unfold State.matchHolds
  repeat' first
    | with_reducible assumption | refine fun t (ht : Keeps pm sk t) => ?_ | refine fun _ t (ht : Keeps pm sk t) => ?_
    | ((try lift_lets); intro x; refine Keeps.cut (pm := pm) (sk := sk) (x := x) ?_ (fun hx => ?_); rotate_left; clear_value x; rotate_right)
    | ((try lift_lets); intro x; refine Keeps.cut2 (pm := pm) (sk := sk) (x := x) ?_ (fun hx => ?_); rotate_left; clear_value x; rotate_right)
    | ((try lift_lets); intro x; refine Keeps.cut3 (pm := pm) (sk := sk) (x := x) ?_ (fun hx => ?_); rotate_left; clear_value x; rotate_right)
    | ((try lift_lets); intro x; clear_value x) | with_reducible apply State.matchDone_keeps (hm.of rfl)
    | with_reducible apply State.offerCompletion_keeps (hm.of rfl) | with_reducible apply serveUpTo_keeps (hm.of rfl) | unfold x
    | dsimp only

theorem execTaskComplete_keeps (hm : Sub 34298883 pm) (hk : Keeps pm sk s) (i : Nat) (m : Nat) : OutKeeps pm sk (execTaskComplete i m s) := by
  unfold execTaskComplete
  repeat' first
    | with_reducible assumption | refine fun t (ht : Keeps pm sk t) => ?_ | refine fun _ t (ht : Keeps pm sk t) => ?_
    | ((try lift_lets); intro x; refine Keeps.cut (pm := pm) (sk := sk) (x := x) ?_ (fun hx => ?_); rotate_left; clear_value x; rotate_right)
    | ((try lift_lets); intro x; clear_value x) | with_reducible apply OutKeeps.next
    | with_reducible apply State.matchHolds_keeps (hm.of rfl) | with_reducible apply State.matchOpen_keeps (hm.of rfl)
    | with_reducible apply State.occur_keeps (hm.of rfl) | with_reducible apply State.passTo_keeps (hm.of rfl)
    | with_reducible apply State.setTask_keeps (hm.of rfl) | with_reducible apply State.settle_keeps (hm.of rfl) | split | unfold x
    | dsimp only | with_reducible refine Keeps.upd ?_

theorem execTaskSubmit_keeps (hm : Sub 34233347 pm) (hk : Keeps pm sk s) (q : Nat) : OutKeeps pm sk (execTaskSubmit q s) := by
  unfold execTaskSubmit
  repeat' first
    | with_reducible assumption | refine fun t (ht : Keeps pm sk t) => ?_ | refine fun _ t (ht : Keeps pm sk t) => ?_
    | with_reducible apply OutKeeps.next | with_reducible apply State.matchDone_keeps (hm.of rfl)
    | with_reducible apply State.matchOpen_keeps (hm.of rfl) | with_reducible apply State.serveQueue_keeps (hm.of rfl) | split
    | dsimp only

theorem State.matchCycle_keeps (hm : Sub 34233347 pm) (hk : Keeps pm sk s) (ab : Task → State → State)
    (hab : ∀ b t, Keeps pm sk t → Keeps pm sk (ab b t)) : Keeps pm sk (s.matchCycle ab) := by
  unfold State.matchCycle
  extract_lets a b left ports first r c tt d e
  have ha : Keeps pm sk a := State.matchOpen_keeps (hm.of rfl) hk _
  have hb : Keeps pm sk b := by
    unfold b
    split
    · exact State.matchHolds_keeps (hm.of rfl) ha
    · exact ha
  have hr : Keeps pm sk r.2 := serveUpTo_keeps (hm.of rfl) _ (fun p t h => State.servePort_keeps (hm.of rfl) h p) hb _ _
  have hc : Keeps pm sk c := State.matchDone_keeps (hm.of rfl) hr _ _
  have hd : Keeps pm sk d := by
    show Keeps pm sk (match first with
      | some p => { c with ttb := { c.ttb with lastPort := p } }
      | none => c)
    generalize first = o
    cases o with
    | none => exact hc
    | some p => exact Keeps.upd hc
  refine State.matchDone_keeps (hm.of rfl) ?_ _ _
  unfold e
  split
  · exact serveFirst_keeps (hm.of rfl) _ (fun q t h => State.serveQueue_keeps (hm.of rfl) h ab hab q) hd _
  · exact hd

theorem State.setDlist_keeps (hm : Sub 131074 pm) (hk : Keeps pm sk s) (b : Nat) (l : List DlEntry) : Keeps pm sk (State.setDlist s b l) := by
  unfold State.setDlist
  repeat' first
    | with_reducible assumption | refine fun t (ht : Keeps pm sk t) => ?_ | refine fun _ t (ht : Keeps pm sk t) => ?_
    | ((try lift_lets); intro x; refine Keeps.cut (pm := pm) (sk := sk) (x := x) ?_ (fun hx => ?_); rotate_left; clear_value x; rotate_right)
    | ((try lift_lets); intro x; clear_value x) | with_reducible apply State.setB_keeps (hm.of rfl)
    | with_reducible apply State.setF_keeps (hm.of rfl) | with_reducible apply State.setTime4_keeps (hm.of rfl) | split | unfold x
    | dsimp only | with_reducible refine Keeps.upd ?_

theorem State.lateNote_keeps (hm : Sub 2 pm) (hk : Keeps pm sk s) (b : Nat) (e : DlEntry) (actual : Nat) : Keeps pm sk (State.lateNote s b e actual) := by
  unfold State.lateNote
  repeat' first
    | with_reducible assumption
    | ((try lift_lets); intro x; refine Keeps.cut (pm := pm) (sk := sk) (x := x) ?_ (fun hx => ?_); rotate_left; clear_value x; rotate_right)
    | ((try lift_lets); intro x; clear_value x) | with_reducible apply State.setReg_keeps (hm.of rfl)
    | with_reducible apply State.setTime4_keeps (hm.of rfl) | unfold x | dsimp only

theorem State.lateCount_keeps (hm : Sub 154626 pm) (hk : Keeps pm sk s) (b : Nat) : Keeps pm sk (State.lateCount s b) := by
  unfold State.lateCount
  repeat' first
    | with_reducible assumption
    | ((try lift_lets); intro x; refine Keeps.cut (pm := pm) (sk := sk) (x := x) ?_ (fun hx => ?_); rotate_left; clear_value x; rotate_right)
    | ((try lift_lets); intro x; clear_value x) | with_reducible apply State.incSat_keeps (hm.of rfl)
    | with_reducible apply State.occur_keeps (hm.of rfl) | split | unfold x | dsimp only | with_reducible refine Keeps.upd ?_

theorem State.lateRecord_keeps (hm : Sub 154626 pm) (hk : Keeps pm sk s) (b : Nat) (e : DlEntry) (actual : Nat) : Keeps pm sk (State.lateRecord s b e actual) := by
  unfold State.lateRecord
  repeat' first
    | with_reducible assumption | with_reducible apply State.lateCount_keeps (hm.of rfl)
    | with_reducible apply State.lateNote_keeps (hm.of rfl) | dsimp only

theorem State.dlLast_keeps (hm : Sub 2 pm) (hk : Keeps pm sk s) (b : Nat) (last : Nat) : Keeps pm sk (State.dlLast s b last) := by
  unfold State.dlLast
  repeat' first
    | with_reducible assumption | with_reducible apply State.setF_keeps (hm.of rfl) | dsimp only

theorem State.dlInsert_keeps (hm : Sub 154626 pm) (hk : Keeps pm sk s) (b : Nat) : Keeps pm sk (State.dlInsert s b) := by
  unfold State.dlInsert
  repeat' first
    | with_reducible assumption
    | ((try lift_lets); intro x; refine Keeps.cut (pm := pm) (sk := sk) (x := x) ?_ (fun hx => ?_); rotate_left; clear_value x; rotate_right)
    | ((try lift_lets); intro x; clear_value x) | with_reducible apply State.dlLast_keeps (hm.of rfl)
    | with_reducible apply State.incSat_keeps (hm.of rfl) | with_reducible apply State.lateCount_keeps (hm.of rfl)
    | with_reducible apply State.lateRecord_keeps (hm.of rfl) | with_reducible apply State.occur_keeps (hm.of rfl)
    | with_reducible apply State.setDlist_keeps (hm.of rfl) | split | unfold x | dsimp only | with_reducible refine Keeps.upd ?_

theorem State.clampDue_keeps (hm : Sub 131072 pm) (hk : Keeps pm sk s) (b : Nat) : Keeps pm sk (State.clampDue s b) := by
  unfold State.clampDue
  repeat' first
    | with_reducible assumption | refine fun t (ht : Keeps pm sk t) => ?_ | refine fun _ t (ht : Keeps pm sk t) => ?_
    | ((try lift_lets); intro x; refine Keeps.cut (pm := pm) (sk := sk) (x := x) ?_ (fun hx => ?_); rotate_left; clear_value x; rotate_right)
    | ((try lift_lets); intro x; clear_value x) | unfold x | dsimp only | with_reducible refine Keeps.upd ?_

theorem State.dlCmd_keeps (hm : Sub 23818 pm) (hk : Keeps pm sk s) (b : Nat) (v : Word) (k : State → State) (hk : ∀ t, Keeps pm sk t → Keeps pm sk (k t)) : Keeps pm sk (State.dlCmd s b v k) := by
  unfold State.dlCmd
  repeat' first
    | with_reducible assumption | refine fun t (ht : Keeps pm sk t) => ?_ | refine fun _ t (ht : Keeps pm sk t) => ?_
    | with_reducible apply State.hostWrite_keeps (hm.of rfl) | with_reducible apply hk | split | dsimp only

theorem execDlInsert_keeps (hm : Sub 154890 pm) (hk : Keeps pm sk s) (b : Nat) : OutKeeps pm sk (execDlInsert b s) := by
  unfold execDlInsert
  repeat' first
    | with_reducible assumption | refine fun t (ht : Keeps pm sk t) => ?_ | refine fun _ t (ht : Keeps pm sk t) => ?_
    | with_reducible apply OutKeeps.next | with_reducible apply State.dlCmd_keeps (hm.of rfl)
    | with_reducible apply State.dlInsert_keeps (hm.of rfl) | dsimp only

theorem execDlCancel_keeps (hm : Sub 154890 pm) (hk : Keeps pm sk s) (b : Nat) : OutKeeps pm sk (execDlCancel b s) := by
  unfold execDlCancel
  repeat' first
    | with_reducible assumption | refine fun t (ht : Keeps pm sk t) => ?_ | refine fun _ t (ht : Keeps pm sk t) => ?_
    | ((try lift_lets); intro x; refine Keeps.cut (pm := pm) (sk := sk) (x := x) ?_ (fun hx => ?_); rotate_left; clear_value x; rotate_right)
    | ((try lift_lets); intro x; clear_value x) | with_reducible apply OutKeeps.next
    | with_reducible apply State.clampDue_keeps (hm.of rfl) | with_reducible apply State.dlCmd_keeps (hm.of rfl)
    | with_reducible apply State.setDlist_keeps (hm.of rfl) | with_reducible apply State.setReg_keeps (hm.of rfl) | unfold x | dsimp only

theorem execDlCancelAll_keeps (hm : Sub 154890 pm) (hk : Keeps pm sk s) (b : Nat) : OutKeeps pm sk (execDlCancelAll b s) := by
  unfold execDlCancelAll
  repeat' first
    | with_reducible assumption | refine fun t (ht : Keeps pm sk t) => ?_ | refine fun _ t (ht : Keeps pm sk t) => ?_
    | ((try lift_lets); intro x; refine Keeps.cut (pm := pm) (sk := sk) (x := x) ?_ (fun hx => ?_); rotate_left; clear_value x; rotate_right)
    | ((try lift_lets); intro x; clear_value x) | with_reducible apply OutKeeps.next
    | with_reducible apply State.clampDue_keeps (hm.of rfl) | with_reducible apply State.dlCmd_keeps (hm.of rfl)
    | with_reducible apply State.setDlist_keeps (hm.of rfl) | with_reducible apply State.setReg_keeps (hm.of rfl) | unfold x | dsimp only

theorem State.lateStopped_keeps (hm : Sub 154626 pm) (hk : Keeps pm sk s) (b : Nat) : Keeps pm sk (State.lateStopped s b) := by
  unfold State.lateStopped
  repeat' first
    | with_reducible assumption | refine fun t (ht : Keeps pm sk t) => ?_ | refine fun _ t (ht : Keeps pm sk t) => ?_
    | ((try lift_lets); intro x; refine Keeps.cut (pm := pm) (sk := sk) (x := x) ?_ (fun hx => ?_); rotate_left; clear_value x; rotate_right)
    | ((try lift_lets); intro x; clear_value x) | with_reducible apply State.clampDue_keeps (hm.of rfl)
    | with_reducible apply State.lateCount_keeps (hm.of rfl) | with_reducible apply State.lateRecord_keeps (hm.of rfl)
    | with_reducible apply State.setDlist_keeps (hm.of rfl) | with_reducible refine Keeps.foldl ?_ _ (fun t y ht => ?_)
    | with_reducible refine Keeps.foldl2 ?_ _ (fun t y ht => ?_) | split | unfold x | dsimp only | with_reducible refine Keeps.upd ?_

theorem State.lateRun_keeps (hm : Sub 131074 pm) (hk : Keeps pm sk s) (b : Nat) : Keeps pm sk (State.lateRun s b) := by
  unfold State.lateRun
  repeat' first
    | with_reducible assumption | refine fun t (ht : Keeps pm sk t) => ?_ | refine fun _ t (ht : Keeps pm sk t) => ?_
    | ((try lift_lets); intro x; refine Keeps.cut (pm := pm) (sk := sk) (x := x) ?_ (fun hx => ?_); rotate_left; clear_value x; rotate_right)
    | ((try lift_lets); intro x; clear_value x) | with_reducible apply State.lateNote_keeps (hm.of rfl)
    | with_reducible apply State.setDlist_keeps (hm.of rfl) | with_reducible refine Keeps.foldl ?_ _ (fun t y ht => ?_)
    | with_reducible refine Keeps.foldl2 ?_ _ (fun t y ht => ?_) | split | unfold x | dsimp only | with_reducible refine Keeps.upd ?_

theorem State.dlTick_keeps (hm : Sub 154626 pm) (hk : Keeps pm sk s) (b : Nat) : Keeps pm sk (State.dlTick s b) := by
  unfold State.dlTick
  repeat' first
    | with_reducible assumption | refine fun t (ht : Keeps pm sk t) => ?_ | refine fun _ t (ht : Keeps pm sk t) => ?_
    | ((try lift_lets); intro x; refine Keeps.cut (pm := pm) (sk := sk) (x := x) ?_ (fun hx => ?_); rotate_left; clear_value x; rotate_right)
    | ((try lift_lets); intro x; clear_value x) | with_reducible apply State.lateRun_keeps (hm.of rfl)
    | with_reducible apply State.lateStopped_keeps (hm.of rfl) | split | unfold x | dsimp only | with_reducible refine Keeps.upd ?_

theorem execTimetableTick_keeps (hm : Sub 34233379 pm) (hk : Keeps pm sk s) : OutKeeps pm sk (execTimetableTick s) := by
  unfold execTimetableTick
  repeat' first
    | with_reducible assumption | refine fun t (ht : Keeps pm sk t) => ?_ | refine fun _ t (ht : Keeps pm sk t) => ?_
    | with_reducible apply OutKeeps.next | with_reducible apply State.dlTick_keeps (hm.of rfl)
    | with_reducible apply State.toGrid_keeps (hm.of rfl) | with_reducible refine Keeps.foldl ?_ _ (fun t y ht => ?_)
    | with_reducible refine Keeps.foldl2 ?_ _ (fun t y ht => ?_) | dsimp only

theorem State.lateBack_keeps (hm : Sub 154626 pm) (hk : Keeps pm sk s) : Keeps pm sk (State.lateBack s) := by
  unfold State.lateBack
  repeat' first
    | with_reducible assumption | with_reducible apply State.occur_keeps (hm.of rfl) | split | dsimp only
    | with_reducible refine Keeps.upd ?_

theorem execDelayEntryFire_keeps (hm : Sub 34233347 pm) (hk : Keeps pm sk s) (b : Nat) : OutKeeps pm sk (execDelayEntryFire b s) := by
  unfold execDelayEntryFire
  repeat' first
    | with_reducible assumption | refine fun t (ht : Keeps pm sk t) => ?_ | refine fun _ t (ht : Keeps pm sk t) => ?_
    | ((try lift_lets); intro x; refine Keeps.cut (pm := pm) (sk := sk) (x := x) ?_ (fun hx => ?_); rotate_left; clear_value x; rotate_right)
    | ((try lift_lets); intro x; refine Keeps.cut2 (pm := pm) (sk := sk) (x := x) ?_ (fun hx => ?_); rotate_left; clear_value x; rotate_right)
    | ((try lift_lets); intro x; refine Keeps.cut3 (pm := pm) (sk := sk) (x := x) ?_ (fun hx => ?_); rotate_left; clear_value x; rotate_right)
    | ((try lift_lets); intro x; refine Keeps.cutG (pm := pm) (sk := sk) (x := x) (fun a ha => ?_) (fun hx => ?_))
    | ((try lift_lets); intro x; refine Keeps.cutH (pm := pm) (sk := sk) (x := x) (fun a b ha => ?_) (fun hx => ?_))
    | ((try lift_lets); intro x; refine Keeps.cutF2 (pm := pm) (sk := sk) (x := x) (fun a b => ?_) (fun hx => ?_))
    | ((try lift_lets); intro x; refine Keeps.cutF (pm := pm) (sk := sk) (x := x) (fun a => ?_) (fun hx => ?_))
    | ((try lift_lets); intro x; clear_value x) | with_reducible apply OutKeeps.next
    | with_reducible apply State.arrive_keeps (hm.of rfl) | with_reducible apply State.cmdFail_keeps (hm.of rfl)
    | with_reducible apply State.incWrap_keeps (hm.of rfl) | with_reducible apply State.matchDone_keeps (hm.of rfl)
    | with_reducible apply State.matchOpen_keeps (hm.of rfl) | with_reducible apply State.occur_keeps (hm.of rfl)
    | with_reducible apply State.passTo_keeps (hm.of rfl) | with_reducible apply State.setDlist_keeps (hm.of rfl) | split | unfold x
    | dsimp only | with_reducible refine Keeps.upd ?_

theorem State.orphanRun_keeps (hm : Sub 89106 pm) (hk : Keeps pm sk s) (i : Nat) : Keeps pm sk (State.orphanRun s i) := by
  unfold State.orphanRun
  repeat' first
    | with_reducible assumption | refine fun t (ht : Keeps pm sk t) => ?_ | refine fun _ t (ht : Keeps pm sk t) => ?_
    | ((try lift_lets); intro x; refine Keeps.cut (pm := pm) (sk := sk) (x := x) ?_ (fun hx => ?_); rotate_left; clear_value x; rotate_right)
    | ((try lift_lets); intro x; refine Keeps.cut2 (pm := pm) (sk := sk) (x := x) ?_ (fun hx => ?_); rotate_left; clear_value x; rotate_right)
    | ((try lift_lets); intro x; refine Keeps.cut3 (pm := pm) (sk := sk) (x := x) ?_ (fun hx => ?_); rotate_left; clear_value x; rotate_right)
    | ((try lift_lets); intro x; clear_value x) | with_reducible apply State.meter_keeps (hm.of rfl)
    | with_reducible apply State.settle_keeps (hm.of rfl) | split | unfold x | dsimp only | with_reducible refine Keeps.upd ?_

theorem State.slotsClear_keeps (hm : Sub 252946 pm) (hk : Keeps pm sk s) (cause : Nat) : Keeps pm sk (State.slotsClear s cause) := by
  unfold State.slotsClear
  repeat' first
    | with_reducible assumption | refine fun t (ht : Keeps pm sk t) => ?_ | refine fun _ t (ht : Keeps pm sk t) => ?_
    | ((try lift_lets); intro x; refine Keeps.cut (pm := pm) (sk := sk) (x := x) ?_ (fun hx => ?_); rotate_left; clear_value x; rotate_right)
    | ((try lift_lets); intro x; refine Keeps.cut2 (pm := pm) (sk := sk) (x := x) ?_ (fun hx => ?_); rotate_left; clear_value x; rotate_right)
    | ((try lift_lets); intro x; refine Keeps.cut3 (pm := pm) (sk := sk) (x := x) ?_ (fun hx => ?_); rotate_left; clear_value x; rotate_right)
    | ((try lift_lets); intro x; clear_value x) | with_reducible apply State.orphanRun_keeps (hm.of rfl)
    | with_reducible apply State.resync_keeps (hm.of rfl) | with_reducible apply State.setReg_keeps (hm.of rfl)
    | with_reducible refine Keeps.foldl ?_ _ (fun t y ht => ?_) | with_reducible refine Keeps.foldl2 ?_ _ (fun t y ht => ?_) | unfold x
    | dsimp only | with_reducible refine Keeps.upd ?_

theorem State.queuesClear_keeps (hm : Sub 187394 pm) (hk : Keeps pm sk s) (cause : Nat) : Keeps pm sk (State.queuesClear s cause) := by
  unfold State.queuesClear
  repeat' first
    | with_reducible assumption | refine fun t (ht : Keeps pm sk t) => ?_ | refine fun _ t (ht : Keeps pm sk t) => ?_
    | with_reducible apply State.resync_keeps (hm.of rfl) | with_reducible apply State.setQueue_keeps (hm.of rfl)
    | with_reducible apply State.setReg_keeps (hm.of rfl) | with_reducible refine Keeps.foldl ?_ _ (fun t y ht => ?_)
    | with_reducible refine Keeps.foldl2 ?_ _ (fun t y ht => ?_) | dsimp only

theorem State.slotsReset_keeps (hm : Sub 252946 pm) (hk : Keeps pm sk s) (ab : Task → State → State) (hab : ∀ b t, Keeps pm sk t → Keeps pm sk (ab b t)) : Keeps pm sk (State.slotsReset s ab) := by
  unfold State.slotsReset
  repeat' first
    | with_reducible assumption | refine fun t (ht : Keeps pm sk t) => ?_ | refine fun _ t (ht : Keeps pm sk t) => ?_
    | with_reducible apply State.abortTask_keeps (hm.of rfl) | with_reducible apply State.slotsClear_keeps (hm.of rfl)
    | with_reducible apply hab | with_reducible refine Keeps.foldl ?_ _ (fun t y ht => ?_)
    | with_reducible refine Keeps.foldl2 ?_ _ (fun t y ht => ?_) | dsimp only

theorem State.dlistReset_keeps (hm : Sub 187394 pm) (hk : Keeps pm sk s) (b : Nat) : Keeps pm sk (State.dlistReset s b) := by
  unfold State.dlistReset
  repeat' first
    | with_reducible assumption | with_reducible apply State.clampDue_keeps (hm.of rfl)
    | with_reducible apply State.resync_keeps (hm.of rfl) | with_reducible apply State.setDlist_keeps (hm.of rfl) | dsimp only

theorem State.stageSeq_keeps (hm : Sub 262146 pm) (hk : Keeps pm sk s) (q : Nat) (p : Nat) (a : Nat) (v : Word) : Keeps pm sk (State.stageSeq s q p a v) := by
  unfold State.stageSeq
  repeat' first
    | with_reducible assumption
    | ((try lift_lets); intro x; refine Keeps.cut (pm := pm) (sk := sk) (x := x) ?_ (fun hx => ?_); rotate_left; clear_value x; rotate_right)
    | ((try lift_lets); intro x; clear_value x) | with_reducible apply State.setB_keeps (hm.of rfl)
    | with_reducible apply State.stageWord_keeps (hm.of rfl) | split | unfold x | dsimp only

theorem execTimesetCommit_keeps (hm : Sub 286090 pm) (hk : Keeps pm sk s) (req : Nat) (q : Nat) (t : Nat) (v : Word) : OutKeeps pm sk (execTimesetCommit req q t v s) := by
  unfold execTimesetCommit
  repeat' first
    | with_reducible assumption | refine fun t (ht : Keeps pm sk t) => ?_ | refine fun _ t (ht : Keeps pm sk t) => ?_
    | ((try lift_lets); intro x; refine Keeps.cut (pm := pm) (sk := sk) (x := x) ?_ (fun hx => ?_); rotate_left; clear_value x; rotate_right)
    | ((try lift_lets); intro x; refine Keeps.cut2 (pm := pm) (sk := sk) (x := x) ?_ (fun hx => ?_); rotate_left; clear_value x; rotate_right)
    | ((try lift_lets); intro x; refine Keeps.cut3 (pm := pm) (sk := sk) (x := x) ?_ (fun hx => ?_); rotate_left; clear_value x; rotate_right)
    | ((try lift_lets); intro x; clear_value x) | with_reducible apply OutKeeps.next
    | with_reducible apply State.hostWrite_keeps (hm.of rfl) | with_reducible apply State.stageSeq_keeps (hm.of rfl)
    | with_reducible apply State.take64_keeps (hm.of rfl) | split | unfold x | dsimp only

theorem execSeqPage2Write_keeps (hm : Sub 285962 pm) (hk : Keeps pm sk s) (req : Nat) (a : Nat) (v : Word) : OutKeeps pm sk (execSeqPage2Write req a v s) := by
  unfold execSeqPage2Write
  repeat' first
    | with_reducible assumption | refine fun t (ht : Keeps pm sk t) => ?_ | refine fun _ t (ht : Keeps pm sk t) => ?_
    | with_reducible apply OutKeeps.next | with_reducible apply State.hostWrite_keeps (hm.of rfl)
    | with_reducible apply State.stageSeq_keeps (hm.of rfl) | split | dsimp only

theorem execStagedSeqConfigApply_keeps (hm : Sub 262146 pm) (hk : Keeps pm sk s) (q : Nat) : OutKeeps pm sk (execStagedSeqConfigApply q s) := by
  unfold execStagedSeqConfigApply
  repeat' first
    | with_reducible assumption | refine fun t (ht : Keeps pm sk t) => ?_ | refine fun _ t (ht : Keeps pm sk t) => ?_
    | ((try lift_lets); intro x; refine Keeps.cut (pm := pm) (sk := sk) (x := x) ?_ (fun hx => ?_); rotate_left; clear_value x; rotate_right)
    | ((try lift_lets); intro x; clear_value x) | with_reducible apply OutKeeps.next
    | with_reducible apply State.dropForce_keeps (hm.of rfl) | with_reducible apply State.setB_keeps (hm.of rfl)
    | with_reducible refine Keeps.foldl ?_ _ (fun t y ht => ?_) | with_reducible refine Keeps.foldl2 ?_ _ (fun t y ht => ?_) | split
    | unfold x | dsimp only

theorem execStagedConfigApply_keeps (hm : Sub 810002 pm) (hk : Keeps pm sk s) (p : Nat) : OutKeeps pm sk (execStagedConfigApply p s) := by
  unfold execStagedConfigApply
  repeat' first
    | with_reducible assumption | refine fun t (ht : Keeps pm sk t) => ?_ | refine fun _ t (ht : Keeps pm sk t) => ?_
    | with_reducible apply OutKeeps.next | with_reducible apply State.applyStaged_keeps (hm.of rfl)
    | with_reducible apply State.dropForce_keeps (hm.of rfl) | with_reducible apply State.dropMoved_keeps (hm.of rfl)
    | with_reducible refine Keeps.foldl ?_ _ (fun t y ht => ?_) | with_reducible refine Keeps.foldl2 ?_ _ (fun t y ht => ?_) | split
    | dsimp only

end Sys2Proof.Machine
end

