-- ==== Sys2Proof/Laws/KeepsCompare.lean ====
section
/-! SUPPORT. What each definition of the decanter and the comparators keeps. -/

namespace Sys2Proof.Machine

set_option Elab.async false
set_option linter.all false

variable {pm : Nat} {sk s : State}

theorem State.setSeq_keeps (hm : Sub 524288 pm) (hk : Keeps pm sk s) (q : Nat) (x : Seq) : Keeps pm sk (State.setSeq s q x) := by
  unfold State.setSeq
  repeat' first
    | with_reducible assumption | refine fun t (ht : Keeps pm sk t) => ?_ | refine fun _ t (ht : Keeps pm sk t) => ?_ | dsimp only
    | with_reducible refine Keeps.upd ?_

theorem State.setSlice_keeps (hm : Sub 524288 pm) (hk : Keeps pm sk s) (d : Nat) (x : Slice) : Keeps pm sk (State.setSlice s d x) := by
  unfold State.setSlice
  repeat' first
    | with_reducible assumption | refine fun t (ht : Keeps pm sk t) => ?_ | refine fun _ t (ht : Keeps pm sk t) => ?_ | dsimp only
    | with_reducible refine Keeps.upd ?_

theorem State.setCtx_keeps (hm : Sub 524290 pm) (hk : Keeps pm sk s) (q : Nat) (c : Ctx) : Keeps pm sk (State.setCtx s q c) := by
  unfold State.setCtx
  repeat' first
    | with_reducible assumption | refine fun t (ht : Keeps pm sk t) => ?_ | refine fun _ t (ht : Keeps pm sk t) => ?_
    | ((try lift_lets); intro x; refine Keeps.cut (pm := pm) (sk := sk) (x := x) ?_ (fun hx => ?_); rotate_left; clear_value x; rotate_right)
    | ((try lift_lets); intro x; refine Keeps.cut2 (pm := pm) (sk := sk) (x := x) ?_ (fun hx => ?_); rotate_left; clear_value x; rotate_right)
    | ((try lift_lets); intro x; refine Keeps.cut3 (pm := pm) (sk := sk) (x := x) ?_ (fun hx => ?_); rotate_left; clear_value x; rotate_right)
    | ((try lift_lets); intro x; clear_value x) | with_reducible apply State.setReg_keeps (hm.of rfl)
    | with_reducible apply State.setSeq_keeps (hm.of rfl) | with_reducible refine Keeps.foldl ?_ _ (fun t y ht => ?_)
    | with_reducible refine Keeps.foldl2 ?_ _ (fun t y ht => ?_) | unfold x | dsimp only | with_reducible refine Keeps.upd ?_

theorem State.place_keeps (hm : Sub 524288 pm) (hk : Keeps pm sk s) (d : Nat) (p : Place) (k : Block) : Keeps pm sk (State.place s d p k) := by
  unfold State.place
  repeat' first
    | with_reducible assumption
    | ((try lift_lets); intro x; refine Keeps.cut (pm := pm) (sk := sk) (x := x) ?_ (fun hx => ?_); rotate_left; clear_value x; rotate_right)
    | ((try lift_lets); intro x; clear_value x) | with_reducible apply State.setSlice_keeps (hm.of rfl) | split | unfold x | dsimp only
    | with_reducible refine Keeps.upd ?_

theorem State.absorb_keeps (hm : Sub 524288 pm) (hk : Keeps pm sk s) (q d n : Nat) : Keeps pm sk (s.absorb q d n) := by
  induction n generalizing s with
  | zero => exact hk
  | succ n ih =>
    unfold State.absorb
    iterate 40 try any_goals first
      | with_reducible assumption
      | ((try lift_lets); intro x; clear_value x)
      | with_reducible apply ih
      | with_reducible apply State.place_keeps (hm.of rfl)
      | with_reducible apply State.setSlice_keeps (hm.of rfl)
      | split

theorem State.absorbAll_keeps (hm : Sub 524288 pm) (hk : Keeps pm sk s) (q : Nat) : Keeps pm sk (State.absorbAll s q) := by
  unfold State.absorbAll
  repeat' first
    | with_reducible assumption | refine fun t (ht : Keeps pm sk t) => ?_ | refine fun _ t (ht : Keeps pm sk t) => ?_
    | with_reducible apply State.absorb_keeps (hm.of rfl) | with_reducible refine Keeps.foldl ?_ _ (fun t y ht => ?_)
    | with_reducible refine Keeps.foldl2 ?_ _ (fun t y ht => ?_) | dsimp only

theorem State.repath_keeps (hm : Sub 525314 pm) (hk : Keeps pm sk s) (q : Nat) : Keeps pm sk (State.repath s q) := by
  unfold State.repath
  repeat' first
    | with_reducible assumption | refine fun t (ht : Keeps pm sk t) => ?_ | refine fun _ t (ht : Keeps pm sk t) => ?_
    | ((try lift_lets); intro x; refine Keeps.cut (pm := pm) (sk := sk) (x := x) ?_ (fun hx => ?_); rotate_left; clear_value x; rotate_right)
    | ((try lift_lets); intro x; refine Keeps.cut2 (pm := pm) (sk := sk) (x := x) ?_ (fun hx => ?_); rotate_left; clear_value x; rotate_right)
    | ((try lift_lets); intro x; refine Keeps.cut3 (pm := pm) (sk := sk) (x := x) ?_ (fun hx => ?_); rotate_left; clear_value x; rotate_right)
    | ((try lift_lets); intro x; clear_value x) | with_reducible apply State.absorbAll_keeps (hm.of rfl)
    | with_reducible apply State.incSat_keeps (hm.of rfl) | with_reducible apply State.setSlice_keeps (hm.of rfl)
    | with_reducible refine Keeps.foldl ?_ _ (fun t y ht => ?_) | with_reducible refine Keeps.foldl2 ?_ _ (fun t y ht => ?_) | split
    | unfold x | dsimp only | with_reducible refine Keeps.upd ?_

theorem State.sliceEcc_keeps (hm : Sub 23554 pm) (hk : Keeps pm sk s) (d : Nat) (ecc : Nat) : Keeps pm sk (State.sliceEcc s d ecc) := by
  unfold State.sliceEcc
  repeat' first
    | with_reducible assumption | with_reducible apply State.incSat_keeps (hm.of rfl)
    | with_reducible apply State.occur_keeps (hm.of rfl) | split | dsimp only

theorem State.showFill_keeps (hm : Sub 2 pm) (hk : Keeps pm sk s) (q : Nat) : Keeps pm sk (State.showFill s q) := by
  unfold State.showFill
  repeat' first
    | with_reducible assumption | with_reducible apply State.setReg_keeps (hm.of rfl) | dsimp only

theorem State.shareWait_keeps (hm : Sub 34102275 pm) (hk : Keeps pm sk s) (q : Nat) (n : Nat) : OptKeeps pm sk (State.shareWait s q n) := by
  unfold State.shareWait
  repeat' first
    | with_reducible assumption | refine fun t (ht : Keeps pm sk t) => ?_ | refine fun _ t (ht : Keeps pm sk t) => ?_
    | ((try lift_lets); intro x; refine Keeps.cut (pm := pm) (sk := sk) (x := x) ?_ (fun hx => ?_); rotate_left; clear_value x; rotate_right)
    | ((try lift_lets); intro x; clear_value x) | with_reducible exact OptKeeps.none | with_reducible apply OptKeeps.some
    | with_reducible refine OptKeeps.bind ?_ (fun t ht => ?_) | with_reducible refine OptKeeps.map ?_ (fun t ht => ?_)
    | with_reducible apply OptKeeps.getD | with_reducible refine OptKeeps.of (by assumption) ?_
    | with_reducible refine OptKeeps.foldl _ ?_ (fun t x ht => ?_) | with_reducible apply State.passTo_keeps (hm.of rfl) | split
    | unfold x | dsimp only | with_reducible refine Keeps.upd ?_

theorem State.refill_keeps (hm : Sub 34102275 pm) (hk : Keeps pm sk s) (q : Nat) (d : Nat) (ecc : Nat) (p : Place) (i : Nat) (g : Nat) (addr : Nat) (c : Desc) : OptKeeps pm sk (State.refill s q d ecc p i g addr c) := by
  unfold State.refill
  repeat' first
    | with_reducible assumption | refine fun t (ht : Keeps pm sk t) => ?_ | refine fun _ t (ht : Keeps pm sk t) => ?_
    | ((try lift_lets); intro x; refine Keeps.cut (pm := pm) (sk := sk) (x := x) ?_ (fun hx => ?_); rotate_left; clear_value x; rotate_right)
    | ((try lift_lets); intro x; refine Keeps.cut2 (pm := pm) (sk := sk) (x := x) ?_ (fun hx => ?_); rotate_left; clear_value x; rotate_right)
    | ((try lift_lets); intro x; refine Keeps.cut3 (pm := pm) (sk := sk) (x := x) ?_ (fun hx => ?_); rotate_left; clear_value x; rotate_right)
    | ((try lift_lets); intro x; clear_value x) | with_reducible exact OptKeeps.none | with_reducible apply OptKeeps.some
    | with_reducible refine OptKeeps.bind ?_ (fun t ht => ?_) | with_reducible refine OptKeeps.map ?_ (fun t ht => ?_)
    | with_reducible apply OptKeeps.getD | with_reducible refine OptKeeps.of (by assumption) ?_
    | with_reducible refine OptKeeps.foldl _ ?_ (fun t x ht => ?_) | with_reducible apply State.absorb_keeps (hm.of rfl)
    | with_reducible apply State.place_keeps (hm.of rfl) | with_reducible apply State.portRun_keeps (hm.of rfl)
    | with_reducible apply State.shareWait_keeps (hm.of rfl) | with_reducible apply State.sliceEcc_keeps (hm.of rfl) | unfold x
    | dsimp only | with_reducible refine Keeps.upd ?_

theorem execRefillBlockArrival_keeps (hm : Sub 34102403 pm) (hk : Keeps pm sk s) (d : Nat) (ecc : Nat) : OutKeeps pm sk (execRefillBlockArrival d ecc s) := by
  unfold execRefillBlockArrival
  repeat' first
    | with_reducible assumption
    | ((try lift_lets); intro x; refine Keeps.cut (pm := pm) (sk := sk) (x := x) ?_ (fun hx => ?_); rotate_left; clear_value x; rotate_right)
    | ((try lift_lets); intro x; clear_value x) | with_reducible exact OptKeeps.none | with_reducible apply OptKeeps.some
    | with_reducible refine OptKeeps.bind ?_ (fun t ht => ?_) | with_reducible refine OptKeeps.map ?_ (fun t ht => ?_)
    | with_reducible apply OptKeeps.getD | with_reducible refine OptKeeps.of (by assumption) ?_
    | with_reducible refine OptKeeps.foldl _ ?_ (fun t x ht => ?_) | with_reducible apply OutKeeps.next
    | with_reducible apply State.refill_keeps (hm.of rfl) | with_reducible apply State.setSeq_keeps (hm.of rfl)
    | with_reducible apply State.showFill_keeps (hm.of rfl) | split | unfold x | dsimp only | with_reducible refine Keeps.upd ?_

theorem execStagerBlockCopy_keeps (hm : Sub 34102407 pm) (hk : Keeps pm sk s) (q : Nat) : OutKeeps pm sk (execStagerBlockCopy q s) := by
  unfold execStagerBlockCopy
  repeat' first
    | with_reducible assumption | refine fun t (ht : Keeps pm sk t) => ?_ | refine fun _ t (ht : Keeps pm sk t) => ?_
    | ((try lift_lets); intro x; refine Keeps.cut (pm := pm) (sk := sk) (x := x) ?_ (fun hx => ?_); rotate_left; clear_value x; rotate_right)
    | ((try lift_lets); intro x; clear_value x) | with_reducible exact OptKeeps.none | with_reducible apply OptKeeps.some
    | with_reducible refine OptKeeps.bind ?_ (fun t ht => ?_) | with_reducible refine OptKeeps.map ?_ (fun t ht => ?_)
    | with_reducible apply OptKeeps.getD | with_reducible refine OptKeeps.of (by assumption) ?_
    | with_reducible refine OptKeeps.foldl _ ?_ (fun t x ht => ?_) | with_reducible apply OutKeeps.next
    | with_reducible apply State.portRun_keeps (hm.of rfl) | with_reducible apply State.portWrite_keeps (hm.of rfl)
    | with_reducible apply State.setSeq_keeps (hm.of rfl) | with_reducible apply State.shareWait_keeps (hm.of rfl)
    | with_reducible apply State.showFill_keeps (hm.of rfl) | split | unfold x | dsimp only | with_reducible refine Keeps.upd ?_

theorem State.stageLeave_keeps (hm : Sub 547970 pm) (hk : Keeps pm sk s) (q : Nat) : Keeps pm sk (State.stageLeave s q) := by
  unfold State.stageLeave
  repeat' first
    | with_reducible assumption
    | ((try lift_lets); intro x; refine Keeps.cut (pm := pm) (sk := sk) (x := x) ?_ (fun hx => ?_); rotate_left; clear_value x; rotate_right)
    | ((try lift_lets); intro x; clear_value x) | with_reducible apply State.incSat_keeps (hm.of rfl)
    | with_reducible apply State.occur_keeps (hm.of rfl) | with_reducible apply State.setSeq_keeps (hm.of rfl)
    | with_reducible apply State.showFill_keeps (hm.of rfl) | split | unfold x | dsimp only | with_reducible refine Keeps.upd ?_

theorem State.retainAll_keeps (hm : Sub 524418 pm) (hk : Keeps pm sk s) (q : Nat) : Keeps pm sk (State.retainAll s q) := by
  unfold State.retainAll
  repeat' first
    | with_reducible assumption | refine fun t (ht : Keeps pm sk t) => ?_ | refine fun _ t (ht : Keeps pm sk t) => ?_
    | ((try lift_lets); intro x; refine Keeps.cut (pm := pm) (sk := sk) (x := x) ?_ (fun hx => ?_); rotate_left; clear_value x; rotate_right)
    | ((try lift_lets); intro x; clear_value x) | with_reducible apply State.setSeq_keeps (hm.of rfl)
    | with_reducible apply State.setSlice_keeps (hm.of rfl) | with_reducible apply State.showFill_keeps (hm.of rfl)
    | with_reducible refine Keeps.foldl ?_ _ (fun t y ht => ?_) | with_reducible refine Keeps.foldl2 ?_ _ (fun t y ht => ?_) | split
    | unfold x | dsimp only | with_reducible refine Keeps.upd ?_

theorem State.dropRetained_keeps (hm : Sub 524288 pm) (hk : Keeps pm sk s) (d : Nat) : Keeps pm sk (State.dropRetained s d) := by
  unfold State.dropRetained
  repeat' first
    | with_reducible assumption | with_reducible apply State.setSlice_keeps (hm.of rfl) | dsimp only | with_reducible refine Keeps.upd ?_

theorem State.hostMemWrite_keeps (hm : Sub 34078724 pm) (hk : Keeps pm sk s) (a : Nat) (bytes : List Byte) : Keeps pm sk (State.hostMemWrite s a bytes) := by
  unfold State.hostMemWrite
  repeat' first
    | with_reducible assumption | refine fun t (ht : Keeps pm sk t) => ?_ | refine fun _ t (ht : Keeps pm sk t) => ?_
    | ((try lift_lets); intro x; refine Keeps.cut (pm := pm) (sk := sk) (x := x) ?_ (fun hx => ?_); rotate_left; clear_value x; rotate_right)
    | ((try lift_lets); intro x; refine Keeps.cutG (pm := pm) (sk := sk) (x := x) (fun a ha => ?_) (fun hx => ?_))
    | ((try lift_lets); intro x; refine Keeps.cutH (pm := pm) (sk := sk) (x := x) (fun a b ha => ?_) (fun hx => ?_))
    | ((try lift_lets); intro x; refine Keeps.cutF2 (pm := pm) (sk := sk) (x := x) (fun a b => ?_) (fun hx => ?_))
    | ((try lift_lets); intro x; refine Keeps.cutF (pm := pm) (sk := sk) (x := x) (fun a => ?_) (fun hx => ?_))
    | ((try lift_lets); intro x; clear_value x) | with_reducible apply State.setSlice_keeps (hm.of rfl)
    | with_reducible apply State.writeBytes_keeps (hm.of rfl) | with_reducible refine Keeps.foldl ?_ _ (fun t y ht => ?_)
    | with_reducible refine Keeps.foldl2 ?_ _ (fun t y ht => ?_) | unfold x | dsimp only | with_reducible refine Keeps.upd ?_

theorem execDecFlushWrite_keeps (hm : Sub 548106 pm) (hk : Keeps pm sk s) (v : Word) : OutKeeps pm sk (execDecFlushWrite v s) := by
  unfold execDecFlushWrite
  repeat' first
    | with_reducible assumption | refine fun t (ht : Keeps pm sk t) => ?_ | refine fun _ t (ht : Keeps pm sk t) => ?_
    | ((try lift_lets); intro x; refine Keeps.cut (pm := pm) (sk := sk) (x := x) ?_ (fun hx => ?_); rotate_left; clear_value x; rotate_right)
    | ((try lift_lets); intro x; clear_value x) | with_reducible apply OutKeeps.next
    | with_reducible apply State.dropRetained_keeps (hm.of rfl) | with_reducible apply State.hostWrite_keeps (hm.of rfl)
    | with_reducible apply State.setSeq_keeps (hm.of rfl) | with_reducible refine Keeps.foldl ?_ _ (fun t y ht => ?_)
    | with_reducible refine Keeps.foldl2 ?_ _ (fun t y ht => ?_) | split | unfold x | dsimp only | with_reducible refine Keeps.upd ?_

theorem State.sample_keeps (hm : Sub 16 pm) (hk : Keeps pm sk s) (w : Wave) (high : Bool) (t : Int) : Keeps pm sk (State.sample s w high t).2 := by
  unfold State.sample
  repeat' first
    | with_reducible assumption | refine fun t (ht : Keeps pm sk t) => ?_ | refine fun _ t (ht : Keeps pm sk t) => ?_
    | ((try lift_lets); intro x; refine Keeps.cut (pm := pm) (sk := sk) (x := x) ?_ (fun hx => ?_); rotate_left; clear_value x; rotate_right)
    | ((try lift_lets); intro x; refine Keeps.cut2 (pm := pm) (sk := sk) (x := x) ?_ (fun hx => ?_); rotate_left; clear_value x; rotate_right)
    | ((try lift_lets); intro x; refine Keeps.cut3 (pm := pm) (sk := sk) (x := x) ?_ (fun hx => ?_); rotate_left; clear_value x; rotate_right)
    | ((try lift_lets); intro x; refine Keeps.cutG (pm := pm) (sk := sk) (x := x) (fun a ha => ?_) (fun hx => ?_))
    | ((try lift_lets); intro x; refine Keeps.cutH (pm := pm) (sk := sk) (x := x) (fun a b ha => ?_) (fun hx => ?_))
    | ((try lift_lets); intro x; refine Keeps.cutF2 (pm := pm) (sk := sk) (x := x) (fun a b => ?_) (fun hx => ?_))
    | ((try lift_lets); intro x; refine Keeps.cutF (pm := pm) (sk := sk) (x := x) (fun a => ?_) (fun hx => ?_))
    | ((try lift_lets); intro x; clear_value x) | with_reducible apply State.freshNat_keeps (hm.of rfl) | split | unfold x | dsimp only

theorem State.strobeCode_keeps (hm : Sub 16 pm) (hk : Keeps pm sk s) (w : Wave) (t : Int) : Keeps pm sk (State.strobeCode s w t).2 := by
  unfold State.strobeCode
  repeat' first
    | with_reducible assumption
    | ((try lift_lets); intro x; refine Keeps.cut (pm := pm) (sk := sk) (x := x) ?_ (fun hx => ?_); rotate_left; clear_value x; rotate_right)
    | ((try lift_lets); intro x; refine Keeps.cut2 (pm := pm) (sk := sk) (x := x) ?_ (fun hx => ?_); rotate_left; clear_value x; rotate_right)
    | ((try lift_lets); intro x; refine Keeps.cut3 (pm := pm) (sk := sk) (x := x) ?_ (fun hx => ?_); rotate_left; clear_value x; rotate_right)
    | ((try lift_lets); intro x; clear_value x) | with_reducible apply State.sample_keeps (hm.of rfl) | unfold x | dsimp only

theorem State.firstDeparture_keeps (hm : Sub 16 pm) (hk : Keeps pm sk s) (o c : Int) (l : List (Int × Int)) :
    Keeps pm sk (s.firstDeparture o c l).2 := by
  induction l generalizing s with
  | nil => exact hk
  | cons p l ih =>
    obtain ⟨a, b⟩ := p
    unfold State.firstDeparture
    dsimp only
    generalize (if a = o ∨ b = c then (102400 : Int) else 98304) = need
    split
    · exact hk
    · split
      · exact State.freshNat_keeps (hm.of rfl) hk 1
      · exact ih (State.freshNat_keeps (hm.of rfl) hk 1)

theorem State.judge_keeps (hm : Sub 16 pm) (hk : Keeps pm sk s) (w : Wave) (t0 : Nat) (j : Judge) : Keeps pm sk (State.judge s w t0 j).2.2 := by
  unfold State.judge
  repeat' first
    | with_reducible assumption | refine fun t (ht : Keeps pm sk t) => ?_ | refine fun _ t (ht : Keeps pm sk t) => ?_
    | ((try lift_lets); intro x; refine Keeps.cut (pm := pm) (sk := sk) (x := x) ?_ (fun hx => ?_); rotate_left; clear_value x; rotate_right)
    | ((try lift_lets); intro x; refine Keeps.cut2 (pm := pm) (sk := sk) (x := x) ?_ (fun hx => ?_); rotate_left; clear_value x; rotate_right)
    | ((try lift_lets); intro x; refine Keeps.cut3 (pm := pm) (sk := sk) (x := x) ?_ (fun hx => ?_); rotate_left; clear_value x; rotate_right)
    | ((try lift_lets); intro x; clear_value x) | with_reducible apply State.firstDeparture_keeps (hm.of rfl)
    | with_reducible apply State.strobeCode_keeps (hm.of rfl) | with_reducible refine Keeps.foldl ?_ _ (fun t y ht => ?_)
    | with_reducible refine Keeps.foldl2 ?_ _ (fun t y ht => ?_) | split | unfold x | dsimp only

theorem State.siteReset_keeps (hm : Sub 2 pm) (hk : Keeps pm sk s) (q : Nat) : Keeps pm sk (State.siteReset s q) := by
  unfold State.siteReset
  repeat' first
    | with_reducible assumption | refine fun t (ht : Keeps pm sk t) => ?_ | refine fun _ t (ht : Keeps pm sk t) => ?_
    | ((try lift_lets); intro x; refine Keeps.cut (pm := pm) (sk := sk) (x := x) ?_ (fun hx => ?_); rotate_left; clear_value x; rotate_right)
    | ((try lift_lets); intro x; clear_value x) | with_reducible apply State.setB_keeps (hm.of rfl)
    | with_reducible apply State.setReg_keeps (hm.of rfl) | with_reducible refine Keeps.foldl ?_ _ (fun t y ht => ?_)
    | with_reducible refine Keeps.foldl2 ?_ _ (fun t y ht => ?_) | split | unfold x | dsimp only

theorem State.logLost_keeps (hm : Sub 1072130 pm) (hk : Keeps pm sk s) (r : List Word) : Keeps pm sk (State.logLost s r) := by
  unfold State.logLost
  repeat' first
    | with_reducible assumption
    | ((try lift_lets); intro x; refine Keeps.cut (pm := pm) (sk := sk) (x := x) ?_ (fun hx => ?_); rotate_left; clear_value x; rotate_right)
    | ((try lift_lets); intro x; refine Keeps.cutG (pm := pm) (sk := sk) (x := x) (fun a ha => ?_) (fun hx => ?_))
    | ((try lift_lets); intro x; refine Keeps.cutH (pm := pm) (sk := sk) (x := x) (fun a b ha => ?_) (fun hx => ?_))
    | ((try lift_lets); intro x; refine Keeps.cutF2 (pm := pm) (sk := sk) (x := x) (fun a b => ?_) (fun hx => ?_))
    | ((try lift_lets); intro x; refine Keeps.cutF (pm := pm) (sk := sk) (x := x) (fun a => ?_) (fun hx => ?_))
    | ((try lift_lets); intro x; clear_value x) | with_reducible apply State.inc64_keeps (hm.of rfl)
    | with_reducible apply State.occur_keeps (hm.of rfl) | split | unfold x | dsimp only | with_reducible refine Keeps.upd ?_

theorem State.logQueue_keeps (hm : Sub 1072130 pm) (hk : Keeps pm sk s) (d : Nat) (r : List Word) : Keeps pm sk (State.logQueue s d r) := by
  unfold State.logQueue
  repeat' first
    | with_reducible assumption | refine fun t (ht : Keeps pm sk t) => ?_ | refine fun _ t (ht : Keeps pm sk t) => ?_
    | ((try lift_lets); intro x; refine Keeps.cut (pm := pm) (sk := sk) (x := x) ?_ (fun hx => ?_); rotate_left; clear_value x; rotate_right)
    | ((try lift_lets); intro x; clear_value x) | with_reducible apply State.logLost_keeps (hm.of rfl) | split | unfold x | dsimp only
    | with_reducible refine Keeps.upd ?_

theorem State.paced_keeps (hm : Sub 35150851 pm) (hk : Keeps pm sk s) (k : Nat) (n : Nat) : Keeps pm sk (State.paced s k n) := by
  unfold State.paced
  repeat' first
    | with_reducible assumption | refine fun t (ht : Keeps pm sk t) => ?_ | refine fun _ t (ht : Keeps pm sk t) => ?_
    | ((try lift_lets); intro x; refine Keeps.cut (pm := pm) (sk := sk) (x := x) ?_ (fun hx => ?_); rotate_left; clear_value x; rotate_right)
    | ((try lift_lets); intro x; refine Keeps.cut2 (pm := pm) (sk := sk) (x := x) ?_ (fun hx => ?_); rotate_left; clear_value x; rotate_right)
    | ((try lift_lets); intro x; refine Keeps.cut3 (pm := pm) (sk := sk) (x := x) ?_ (fun hx => ?_); rotate_left; clear_value x; rotate_right)
    | ((try lift_lets); intro x; clear_value x) | with_reducible apply State.pass_keeps (hm.of rfl) | split | unfold x | dsimp only
    | with_reducible refine Keeps.upd ?_

theorem State.logWrite_keeps (hm : Sub 35150855 pm) (hk : Keeps pm sk s) (r : List Word) : OptKeeps pm sk (s.logWrite r) := by
  unfold State.logWrite
  extract_lets l need put
  have hp (t : State) (r : List Word) (h : Keeps pm sk t) : OptKeeps pm sk (put t r) :=
    State.ringPush_keeps (hm.of rfl) (State.paced_keeps (hm.of rfl) h _ _) _ _
  split
  · exact OptKeeps.some (State.logLost_keeps (hm.of rfl) hk r)
  · refine OptKeeps.map (OptKeeps.bind ?_ fun t ht => hp _ _ (Keeps.upd ht)) fun t ht => ?_
    · split
      · exact OptKeeps.some hk
      · exact hp _ _ hk
    · dsimp only
      split
      · exact State.setSeq_keeps (hm.of rfl) ht _ _
      · exact ht

theorem execFailLogRecordWritten_keeps (hm : Sub 35150855 pm) (hk : Keeps pm sk s) : OutKeeps pm sk (execFailLogRecordWritten s) := by
  unfold execFailLogRecordWritten
  repeat' first
    | with_reducible assumption | refine fun t (ht : Keeps pm sk t) => ?_ | refine fun _ t (ht : Keeps pm sk t) => ?_
    | ((try lift_lets); intro x; refine Keeps.cut (pm := pm) (sk := sk) (x := x) ?_ (fun hx => ?_); rotate_left; clear_value x; rotate_right)
    | ((try lift_lets); intro x; refine Keeps.cut2 (pm := pm) (sk := sk) (x := x) ?_ (fun hx => ?_); rotate_left; clear_value x; rotate_right)
    | ((try lift_lets); intro x; refine Keeps.cut3 (pm := pm) (sk := sk) (x := x) ?_ (fun hx => ?_); rotate_left; clear_value x; rotate_right)
    | ((try lift_lets); intro x; clear_value x) | with_reducible exact OptKeeps.none | with_reducible apply OptKeeps.some
    | with_reducible refine OptKeeps.bind ?_ (fun t ht => ?_) | with_reducible refine OptKeeps.map ?_ (fun t ht => ?_)
    | with_reducible apply OptKeeps.getD | with_reducible refine OptKeeps.of (by assumption) ?_
    | with_reducible refine OptKeeps.foldl _ ?_ (fun t x ht => ?_) | with_reducible apply OutKeeps.next
    | with_reducible apply State.logWrite_keeps (hm.of rfl) | with_reducible apply State.setSeq_keeps (hm.of rfl) | split | unfold x
    | dsimp only | with_reducible refine Keeps.upd ?_

theorem State.failCompare_keeps (hm : Sub 1596418 pm) (hk : Keeps pm sk s) (q : Nat) (j : VecJob) (c : ChanJob) (g : Judge) (v : Verdict) : Keeps pm sk (State.failCompare s q j c g v) := by
  unfold State.failCompare
  repeat' first
    | with_reducible assumption | refine fun t (ht : Keeps pm sk t) => ?_ | refine fun _ t (ht : Keeps pm sk t) => ?_
    | ((try lift_lets); intro x; refine Keeps.cut (pm := pm) (sk := sk) (x := x) ?_ (fun hx => ?_); rotate_left; clear_value x; rotate_right)
    | ((try lift_lets); intro x; clear_value x) | with_reducible apply State.inc64_keeps (hm.of rfl)
    | with_reducible apply State.logQueue_keeps (hm.of rfl) | with_reducible apply State.occur_keeps (hm.of rfl)
    | with_reducible apply State.setB_keeps (hm.of rfl) | with_reducible apply State.setReg_keeps (hm.of rfl)
    | with_reducible apply State.setReg64_keeps (hm.of rfl) | with_reducible apply State.setSeq_keeps (hm.of rfl) | split | unfold x
    | dsimp only | with_reducible refine Keeps.upd ?_

theorem State.sigVector_keeps (hm : Sub 524290 pm) (hk : Keeps pm sk s) (q : Nat) (codes : List (Nat × Nat)) : Keeps pm sk (State.sigVector s q codes) := by
  unfold State.sigVector
  repeat' first
    | with_reducible assumption | refine fun t (ht : Keeps pm sk t) => ?_ | refine fun _ t (ht : Keeps pm sk t) => ?_
    | ((try lift_lets); intro x; refine Keeps.cut (pm := pm) (sk := sk) (x := x) ?_ (fun hx => ?_); rotate_left; clear_value x; rotate_right)
    | ((try lift_lets); intro x; clear_value x) | with_reducible apply State.setReg64_keeps (hm.of rfl)
    | with_reducible apply State.setSeq_keeps (hm.of rfl) | with_reducible refine Keeps.foldl ?_ _ (fun t y ht => ?_)
    | with_reducible refine Keeps.foldl2 ?_ _ (fun t y ht => ?_) | unfold x | dsimp only | with_reducible refine Keeps.upd ?_

theorem State.sigFinish_keeps (hm : Sub 34102274 pm) (hk : Keeps pm sk s) (q : Nat) (j : VecJob) : Keeps pm sk (State.sigFinish s q j) := by
  unfold State.sigFinish
  repeat' first
    | with_reducible assumption | refine fun t (ht : Keeps pm sk t) => ?_ | refine fun _ t (ht : Keeps pm sk t) => ?_
    | ((try lift_lets); intro x; refine Keeps.cut (pm := pm) (sk := sk) (x := x) ?_ (fun hx => ?_); rotate_left; clear_value x; rotate_right)
    | ((try lift_lets); intro x; refine Keeps.cut2 (pm := pm) (sk := sk) (x := x) ?_ (fun hx => ?_); rotate_left; clear_value x; rotate_right)
    | ((try lift_lets); intro x; refine Keeps.cut3 (pm := pm) (sk := sk) (x := x) ?_ (fun hx => ?_); rotate_left; clear_value x; rotate_right)
    | ((try lift_lets); intro x; refine Keeps.cutG (pm := pm) (sk := sk) (x := x) (fun a ha => ?_) (fun hx => ?_))
    | ((try lift_lets); intro x; refine Keeps.cutH (pm := pm) (sk := sk) (x := x) (fun a b ha => ?_) (fun hx => ?_))
    | ((try lift_lets); intro x; refine Keeps.cutF2 (pm := pm) (sk := sk) (x := x) (fun a b => ?_) (fun hx => ?_))
    | ((try lift_lets); intro x; refine Keeps.cutF (pm := pm) (sk := sk) (x := x) (fun a => ?_) (fun hx => ?_))
    | ((try lift_lets); intro x; clear_value x) | with_reducible apply State.checked_keeps (hm.of rfl)
    | with_reducible apply State.incSat_keeps (hm.of rfl) | with_reducible apply State.occur_keeps (hm.of rfl)
    | with_reducible apply State.setReg_keeps (hm.of rfl) | with_reducible apply State.setReg64_keeps (hm.of rfl)
    | with_reducible apply State.setSeq_keeps (hm.of rfl) | with_reducible refine Keeps.foldl ?_ _ (fun t y ht => ?_)
    | with_reducible refine Keeps.foldl2 ?_ _ (fun t y ht => ?_) | split | unfold x | dsimp only | with_reducible refine Keeps.upd ?_

theorem State.sigAdmit_keeps (hm : Sub 524290 pm) (hk : Keeps pm sk s) (q : Nat) : Keeps pm sk (State.sigAdmit s q) := by
  unfold State.sigAdmit
  repeat' first
    | with_reducible assumption | refine fun t (ht : Keeps pm sk t) => ?_ | refine fun _ t (ht : Keeps pm sk t) => ?_
    | ((try lift_lets); intro x; refine Keeps.cut (pm := pm) (sk := sk) (x := x) ?_ (fun hx => ?_); rotate_left; clear_value x; rotate_right)
    | ((try lift_lets); intro x; clear_value x) | with_reducible apply State.setReg_keeps (hm.of rfl)
    | with_reducible apply State.setReg64_keeps (hm.of rfl) | with_reducible apply State.setSeq_keeps (hm.of rfl)
    | with_reducible refine Keeps.foldl ?_ _ (fun t y ht => ?_) | with_reducible refine Keeps.foldl2 ?_ _ (fun t y ht => ?_) | split
    | unfold x | dsimp only | with_reducible refine Keeps.upd ?_

theorem State.sigPartial_keeps (hm : Sub 23554 pm) (hk : Keeps pm sk s) (q : Nat) : Keeps pm sk (State.sigPartial s q) := by
  unfold State.sigPartial
  repeat' first
    | with_reducible assumption | refine fun t (ht : Keeps pm sk t) => ?_ | refine fun _ t (ht : Keeps pm sk t) => ?_
    | with_reducible apply State.incSat_keeps (hm.of rfl) | with_reducible apply State.occur_keeps (hm.of rfl)
    | with_reducible refine Keeps.foldl ?_ _ (fun t y ht => ?_) | with_reducible refine Keeps.foldl2 ?_ _ (fun t y ht => ?_) | dsimp only

theorem State.captureFull_keeps (hm : Sub 23554 pm) (hk : Keeps pm sk s) (q : Nat) : Keeps pm sk (State.captureFull s q) := by
  unfold State.captureFull
  repeat' first
    | with_reducible assumption | with_reducible apply State.occur_keeps (hm.of rfl) | with_reducible apply State.setB_keeps (hm.of rfl)
    | split | dsimp only

theorem State.captureGranule_keeps (hm : Sub 1072130 pm) (hk : Keeps pm sk s) (q : Nat) (gq : Nat) (acc : Tab (List Nat)) : Keeps pm sk (State.captureGranule s q gq acc) := by
  unfold State.captureGranule
  repeat' first
    | with_reducible assumption | refine fun t (ht : Keeps pm sk t) => ?_ | refine fun _ t (ht : Keeps pm sk t) => ?_
    | ((try lift_lets); intro x; refine Keeps.cut (pm := pm) (sk := sk) (x := x) ?_ (fun hx => ?_); rotate_left; clear_value x; rotate_right)
    | ((try lift_lets); intro x; refine Keeps.cut2 (pm := pm) (sk := sk) (x := x) ?_ (fun hx => ?_); rotate_left; clear_value x; rotate_right)
    | ((try lift_lets); intro x; refine Keeps.cut3 (pm := pm) (sk := sk) (x := x) ?_ (fun hx => ?_); rotate_left; clear_value x; rotate_right)
    | ((try lift_lets); intro x; refine Keeps.cutG (pm := pm) (sk := sk) (x := x) (fun a ha => ?_) (fun hx => ?_))
    | ((try lift_lets); intro x; refine Keeps.cutH (pm := pm) (sk := sk) (x := x) (fun a b ha => ?_) (fun hx => ?_))
    | ((try lift_lets); intro x; refine Keeps.cutF2 (pm := pm) (sk := sk) (x := x) (fun a b => ?_) (fun hx => ?_))
    | ((try lift_lets); intro x; refine Keeps.cutF (pm := pm) (sk := sk) (x := x) (fun a => ?_) (fun hx => ?_))
    | ((try lift_lets); intro x; clear_value x) | with_reducible apply State.captureFull_keeps (hm.of rfl)
    | with_reducible apply State.incSat_keeps (hm.of rfl) | with_reducible apply State.occur_keeps (hm.of rfl)
    | with_reducible refine Keeps.foldl ?_ _ (fun t y ht => ?_) | with_reducible refine Keeps.foldl2 ?_ _ (fun t y ht => ?_) | split
    | unfold x | dsimp only | with_reducible refine Keeps.upd ?_

theorem State.captureVector_keeps (hm : Sub 1596418 pm) (hk : Keeps pm sk s) (q : Nat) (j : VecJob) (entries : List (Nat × Nat)) : Keeps pm sk (State.captureVector s q j entries) := by
  unfold State.captureVector
  repeat' first
    | with_reducible assumption | refine fun t (ht : Keeps pm sk t) => ?_ | refine fun _ t (ht : Keeps pm sk t) => ?_
    | ((try lift_lets); intro x; refine Keeps.cut (pm := pm) (sk := sk) (x := x) ?_ (fun hx => ?_); rotate_left; clear_value x; rotate_right)
    | ((try lift_lets); intro x; refine Keeps.cut2 (pm := pm) (sk := sk) (x := x) ?_ (fun hx => ?_); rotate_left; clear_value x; rotate_right)
    | ((try lift_lets); intro x; refine Keeps.cut3 (pm := pm) (sk := sk) (x := x) ?_ (fun hx => ?_); rotate_left; clear_value x; rotate_right)
    | ((try lift_lets); intro x; clear_value x) | with_reducible apply State.captureGranule_keeps (hm.of rfl)
    | with_reducible apply State.setSeq_keeps (hm.of rfl) | with_reducible refine Keeps.foldl ?_ _ (fun t y ht => ?_)
    | with_reducible refine Keeps.foldl2 ?_ _ (fun t y ht => ?_) | split | unfold x | dsimp only | with_reducible refine Keeps.upd ?_

theorem State.captureFlush_keeps (hm : Sub 1596418 pm) (hk : Keeps pm sk s) (q : Nat) : Keeps pm sk (State.captureFlush s q) := by
  unfold State.captureFlush
  repeat' first
    | with_reducible assumption
    | ((try lift_lets); intro x; refine Keeps.cut (pm := pm) (sk := sk) (x := x) ?_ (fun hx => ?_); rotate_left; clear_value x; rotate_right)
    | ((try lift_lets); intro x; clear_value x) | with_reducible apply State.captureGranule_keeps (hm.of rfl)
    | with_reducible apply State.setSeq_keeps (hm.of rfl) | split | unfold x | dsimp only | with_reducible refine Keeps.upd ?_

theorem execCaptureBlockWritten_keeps (hm : Sub 35150855 pm) (hk : Keeps pm sk s) (d : Nat) : OutKeeps pm sk (execCaptureBlockWritten d s) := by
  unfold execCaptureBlockWritten
  repeat' first
    | with_reducible assumption | refine fun t (ht : Keeps pm sk t) => ?_ | refine fun _ t (ht : Keeps pm sk t) => ?_
    | ((try lift_lets); intro x; refine Keeps.cut (pm := pm) (sk := sk) (x := x) ?_ (fun hx => ?_); rotate_left; clear_value x; rotate_right)
    | ((try lift_lets); intro x; clear_value x) | with_reducible exact OptKeeps.none | with_reducible apply OptKeeps.some
    | with_reducible refine OptKeeps.bind ?_ (fun t ht => ?_) | with_reducible refine OptKeeps.map ?_ (fun t ht => ?_)
    | with_reducible apply OptKeeps.getD | with_reducible refine OptKeeps.of (by assumption) ?_
    | with_reducible refine OptKeeps.foldl _ ?_ (fun t x ht => ?_) | with_reducible apply OutKeeps.next
    | with_reducible apply State.incSat_keeps (hm.of rfl) | with_reducible apply State.portWrite_keeps (hm.of rfl)
    | with_reducible apply State.setB_keeps (hm.of rfl) | split | unfold x | dsimp only | with_reducible refine Keeps.upd ?_

theorem State.judgeChan_keeps (hm : Sub 16 pm) (hk : Keeps pm sk s) (t0 : Nat) (w : Wave) (l : List Judge) :
    Keeps pm sk (s.judgeChan t0 w l).2 := by
  induction l generalizing s with
  | nil => exact hk
  | cons j l ih => exact ih (State.judge_keeps (hm.of rfl) hk w t0 j)

theorem State.chanVerdicts_keeps (hm : Sub 1596434 pm) (hk : Keeps pm sk s) (q : Nat) (j : VecJob) (waves : List ChanWave) (c : ChanJob) : Keeps pm sk (State.chanVerdicts s q j waves c).2.2 := by
  unfold State.chanVerdicts
  repeat' first
    | with_reducible assumption | refine fun t (ht : Keeps pm sk t) => ?_ | refine fun _ t (ht : Keeps pm sk t) => ?_
    | ((try lift_lets); intro x; refine Keeps.cut (pm := pm) (sk := sk) (x := x) ?_ (fun hx => ?_); rotate_left; clear_value x; rotate_right)
    | ((try lift_lets); intro x; refine Keeps.cut2 (pm := pm) (sk := sk) (x := x) ?_ (fun hx => ?_); rotate_left; clear_value x; rotate_right)
    | ((try lift_lets); intro x; refine Keeps.cut3 (pm := pm) (sk := sk) (x := x) ?_ (fun hx => ?_); rotate_left; clear_value x; rotate_right)
    | ((try lift_lets); intro x; clear_value x) | with_reducible apply State.failCompare_keeps (hm.of rfl)
    | with_reducible apply State.judgeChan_keeps (hm.of rfl) | with_reducible apply State.setSeq_keeps (hm.of rfl)
    | with_reducible refine Keeps.foldl ?_ _ (fun t y ht => ?_) | with_reducible refine Keeps.foldl2 ?_ _ (fun t y ht => ?_) | split
    | unfold x | dsimp only | with_reducible refine Keeps.upd ?_

theorem State.vectorVerdicts_keeps (hm : Sub 1596434 pm) (hk : Keeps pm sk s) (q : Nat) (j : VecJob) (waves : List ChanWave) (l : List ChanJob) :
    Keeps pm sk (s.vectorVerdicts q j waves l).2.2 := by
  induction l generalizing s with
  | nil => exact hk
  | cons c l ih => exact ih (State.chanVerdicts_keeps (hm.of rfl) hk q j waves c)

theorem execVerdictsFormed_keeps (hm : Sub 35150867 pm) (hk : Keeps pm sk s) (q : Nat) (waves : List ChanWave) : OutKeeps pm sk (execVerdictsFormed q waves s) := by
  unfold execVerdictsFormed
  repeat' first
    | with_reducible assumption | refine fun t (ht : Keeps pm sk t) => ?_ | refine fun _ t (ht : Keeps pm sk t) => ?_
    | ((try lift_lets); intro x; refine Keeps.cut (pm := pm) (sk := sk) (x := x) ?_ (fun hx => ?_); rotate_left; clear_value x; rotate_right)
    | ((try lift_lets); intro x; refine Keeps.cut2 (pm := pm) (sk := sk) (x := x) ?_ (fun hx => ?_); rotate_left; clear_value x; rotate_right)
    | ((try lift_lets); intro x; refine Keeps.cut3 (pm := pm) (sk := sk) (x := x) ?_ (fun hx => ?_); rotate_left; clear_value x; rotate_right)
    | ((try lift_lets); intro x; clear_value x) | with_reducible apply OutKeeps.next
    | with_reducible apply State.captureFlush_keeps (hm.of rfl) | with_reducible apply State.captureVector_keeps (hm.of rfl)
    | with_reducible apply State.passTo_keeps (hm.of rfl) | with_reducible apply State.run_keeps (hm.of rfl)
    | with_reducible apply State.setSeq_keeps (hm.of rfl) | with_reducible apply State.sigFinish_keeps (hm.of rfl)
    | with_reducible apply State.sigVector_keeps (hm.of rfl) | with_reducible apply State.vectorVerdicts_keeps (hm.of rfl) | split
    | unfold x | dsimp only | with_reducible refine Keeps.upd ?_

theorem execMatchResultReady_keeps (hm : Sub 34102275 pm) (hk : Keeps pm sk s) (q : Nat) : OutKeeps pm sk (execMatchResultReady q s) := by
  unfold execMatchResultReady
  repeat' first
    | with_reducible assumption | refine fun t (ht : Keeps pm sk t) => ?_ | refine fun _ t (ht : Keeps pm sk t) => ?_
    | ((try lift_lets); intro x; refine Keeps.cut (pm := pm) (sk := sk) (x := x) ?_ (fun hx => ?_); rotate_left; clear_value x; rotate_right)
    | ((try lift_lets); intro x; clear_value x) | with_reducible apply OutKeeps.next
    | with_reducible apply State.passTo_keeps (hm.of rfl) | with_reducible apply State.run_keeps (hm.of rfl)
    | with_reducible apply State.setSeq_keeps (hm.of rfl) | split | unfold x | dsimp only | with_reducible refine Keeps.upd ?_

theorem State.captureStop_keeps (hm : Sub 524290 pm) (hk : Keeps pm sk s) : Keeps pm sk (State.captureStop s) := by
  unfold State.captureStop
  repeat' first
    | with_reducible assumption | refine fun t (ht : Keeps pm sk t) => ?_ | refine fun _ t (ht : Keeps pm sk t) => ?_
    | ((try lift_lets); intro x; refine Keeps.cut (pm := pm) (sk := sk) (x := x) ?_ (fun hx => ?_); rotate_left; clear_value x; rotate_right)
    | ((try lift_lets); intro x; clear_value x) | with_reducible apply State.setB_keeps (hm.of rfl)
    | with_reducible apply State.setSeq_keeps (hm.of rfl) | with_reducible refine Keeps.foldl ?_ _ (fun t y ht => ?_)
    | with_reducible refine Keeps.foldl2 ?_ _ (fun t y ht => ?_) | split | unfold x | dsimp only | with_reducible refine Keeps.upd ?_

theorem execEcapTransition_keeps (hm : Sub 1072130 pm) (hk : Keeps pm sk s) (i : Nat) (et : Nat) (prev : Nat) (code : Nat) : OutKeeps pm sk (execEcapTransition i et prev code s) := by
  unfold execEcapTransition
  repeat' first
    | with_reducible assumption | refine fun t (ht : Keeps pm sk t) => ?_ | refine fun _ t (ht : Keeps pm sk t) => ?_
    | ((try lift_lets); intro x; refine Keeps.cut (pm := pm) (sk := sk) (x := x) ?_ (fun hx => ?_); rotate_left; clear_value x; rotate_right)
    | ((try lift_lets); intro x; refine Keeps.cutG (pm := pm) (sk := sk) (x := x) (fun a ha => ?_) (fun hx => ?_))
    | ((try lift_lets); intro x; refine Keeps.cutH (pm := pm) (sk := sk) (x := x) (fun a b ha => ?_) (fun hx => ?_))
    | ((try lift_lets); intro x; refine Keeps.cutF2 (pm := pm) (sk := sk) (x := x) (fun a b => ?_) (fun hx => ?_))
    | ((try lift_lets); intro x; refine Keeps.cutF (pm := pm) (sk := sk) (x := x) (fun a => ?_) (fun hx => ?_))
    | ((try lift_lets); intro x; clear_value x) | with_reducible apply OutKeeps.next
    | with_reducible apply State.incSat_keeps (hm.of rfl) | with_reducible apply State.occur_keeps (hm.of rfl) | split | unfold x
    | dsimp only | with_reducible refine Keeps.upd ?_

theorem execEcapRecordWritten_keeps (hm : Sub 35150855 pm) (hk : Keeps pm sk s) (i : Nat) : OutKeeps pm sk (execEcapRecordWritten i s) := by
  unfold execEcapRecordWritten
  repeat' first
    | with_reducible assumption | refine fun t (ht : Keeps pm sk t) => ?_ | refine fun _ t (ht : Keeps pm sk t) => ?_
    | ((try lift_lets); intro x; refine Keeps.cut (pm := pm) (sk := sk) (x := x) ?_ (fun hx => ?_); rotate_left; clear_value x; rotate_right)
    | ((try lift_lets); intro x; refine Keeps.cutG (pm := pm) (sk := sk) (x := x) (fun a ha => ?_) (fun hx => ?_))
    | ((try lift_lets); intro x; refine Keeps.cutH (pm := pm) (sk := sk) (x := x) (fun a b ha => ?_) (fun hx => ?_))
    | ((try lift_lets); intro x; refine Keeps.cutF2 (pm := pm) (sk := sk) (x := x) (fun a b => ?_) (fun hx => ?_))
    | ((try lift_lets); intro x; refine Keeps.cutF (pm := pm) (sk := sk) (x := x) (fun a => ?_) (fun hx => ?_))
    | ((try lift_lets); intro x; clear_value x) | with_reducible exact OptKeeps.none | with_reducible apply OptKeeps.some
    | with_reducible refine OptKeeps.bind ?_ (fun t ht => ?_) | with_reducible refine OptKeeps.map ?_ (fun t ht => ?_)
    | with_reducible apply OptKeeps.getD | with_reducible refine OptKeeps.of (by assumption) ?_
    | with_reducible refine OptKeeps.foldl _ ?_ (fun t x ht => ?_) | with_reducible apply OutKeeps.next
    | with_reducible apply State.incSat_keeps (hm.of rfl) | with_reducible apply State.occur_keeps (hm.of rfl)
    | with_reducible apply State.paced_keeps (hm.of rfl) | with_reducible apply State.passTo_keeps (hm.of rfl)
    | with_reducible apply State.ringPush_keeps (hm.of rfl) | split | unfold x | dsimp only | with_reducible refine Keeps.upd ?_

theorem State.clearWords_keeps (hm : Sub 2 pm) (hk : Keeps pm sk s) (p : Nat) (lo : Nat) (hi : Nat) : Keeps pm sk (State.clearWords s p lo hi) := by
  unfold State.clearWords
  repeat' first
    | with_reducible assumption | refine fun t (ht : Keeps pm sk t) => ?_ | refine fun _ t (ht : Keeps pm sk t) => ?_
    | with_reducible apply State.setReg_keeps (hm.of rfl) | with_reducible refine Keeps.foldl ?_ _ (fun t y ht => ?_)
    | with_reducible refine Keeps.foldl2 ?_ _ (fun t y ht => ?_) | dsimp only

theorem State.cmpClear_keeps (hm : Sub 1104898 pm) (hk : Keeps pm sk s) (h : Nat) (cause : Nat) : Keeps pm sk (State.cmpClear s h cause) := by
  unfold State.cmpClear
  repeat' first
    | with_reducible assumption | refine fun t (ht : Keeps pm sk t) => ?_ | refine fun _ t (ht : Keeps pm sk t) => ?_
    | ((try lift_lets); intro x; refine Keeps.cut (pm := pm) (sk := sk) (x := x) ?_ (fun hx => ?_); rotate_left; clear_value x; rotate_right)
    | ((try lift_lets); intro x; clear_value x) | with_reducible apply State.clearWords_keeps (hm.of rfl)
    | with_reducible apply State.resync_keeps (hm.of rfl) | with_reducible apply State.ringThresh_keeps (hm.of rfl)
    | with_reducible apply State.setReg_keeps (hm.of rfl) | with_reducible refine Keeps.foldl ?_ _ (fun t y ht => ?_)
    | with_reducible refine Keeps.foldl2 ?_ _ (fun t y ht => ?_) | split | unfold x | dsimp only | with_reducible refine Keeps.upd ?_

theorem State.srstEnd_keeps (hm : Sub 2 pm) (hk : Keeps pm sk s) (p : Nat) : Keeps pm sk (State.srstEnd s p) := by
  unfold State.srstEnd
  repeat' first
    | with_reducible assumption | with_reducible apply State.setB_keeps (hm.of rfl) | dsimp only

theorem execCmpSrstApply_keeps (hm : Sub 1105090 pm) (hk : Keeps pm sk s) (h : Nat) : OutKeeps pm sk (execCmpSrstApply h s) := by
  unfold execCmpSrstApply
  repeat' first
    | with_reducible assumption
    | ((try lift_lets); intro x; refine Keeps.cut (pm := pm) (sk := sk) (x := x) ?_ (fun hx => ?_); rotate_left; clear_value x; rotate_right)
    | ((try lift_lets); intro x; clear_value x) | with_reducible apply OutKeeps.next
    | with_reducible apply State.cmpClear_keeps (hm.of rfl) | with_reducible apply State.softReset_keeps (hm.of rfl)
    | with_reducible apply State.srstEnd_keeps (hm.of rfl) | split | unfold x | dsimp only

theorem State.sigClear_keeps (hm : Sub 56322 pm) (hk : Keeps pm sk s) (d : Nat) (cause : Nat) : Keeps pm sk (State.sigClear s d cause) := by
  unfold State.sigClear
  repeat' first
    | with_reducible assumption | refine fun t (ht : Keeps pm sk t) => ?_ | refine fun _ t (ht : Keeps pm sk t) => ?_
    | ((try lift_lets); intro x; refine Keeps.cut (pm := pm) (sk := sk) (x := x) ?_ (fun hx => ?_); rotate_left; clear_value x; rotate_right)
    | ((try lift_lets); intro x; clear_value x) | with_reducible apply State.clearWords_keeps (hm.of rfl)
    | with_reducible apply State.resync_keeps (hm.of rfl) | with_reducible apply State.setReg_keeps (hm.of rfl) | unfold x | dsimp only

theorem execSigSrstApply_keeps (hm : Sub 56514 pm) (hk : Keeps pm sk s) (d : Nat) : OutKeeps pm sk (execSigSrstApply d s) := by
  unfold execSigSrstApply
  repeat' first
    | with_reducible assumption
    | ((try lift_lets); intro x; refine Keeps.cut (pm := pm) (sk := sk) (x := x) ?_ (fun hx => ?_); rotate_left; clear_value x; rotate_right)
    | ((try lift_lets); intro x; clear_value x) | with_reducible apply OutKeeps.next
    | with_reducible apply State.sigClear_keeps (hm.of rfl) | with_reducible apply State.softReset_keeps (hm.of rfl)
    | with_reducible apply State.srstEnd_keeps (hm.of rfl) | split | unfold x | dsimp only

end Sys2Proof.Machine
end

