-- ==== Sys2Proof/Laws/KeepsTasks.lean ====
section
/-! SUPPORT. What each definition of the flow executor, the check units and time measurement keeps. -/

namespace Sys2Proof.Machine

set_option Elab.async false
set_option linter.all false

variable {pm : Nat} {sk s : State}

theorem State.setFlow_keeps (hm : Sub 2097152 pm) (hk : Keeps pm sk s) (f : Flow) : Keeps pm sk (State.setFlow s f) := by
  unfold State.setFlow
  repeat' first
    | with_reducible assumption | dsimp only | with_reducible refine Keeps.upd ?_

theorem State.dlogFull_keeps (hm : Sub 23554 pm) (hk : Keeps pm sk s) : Keeps pm sk (State.dlogFull s) := by
  unfold State.dlogFull
  repeat' first
    | with_reducible assumption | with_reducible apply State.setLive_keeps (hm.of rfl) | dsimp only

theorem State.dlogLost_keeps (hm : Sub 2120706 pm) (hk : Keeps pm sk s) (seqno : Nat) : Keeps pm sk (State.dlogLost s seqno) := by
  unfold State.dlogLost
  repeat' first
    | with_reducible assumption
    | ((try lift_lets); intro x; refine Keeps.cut (pm := pm) (sk := sk) (x := x) ?_ (fun hx => ?_); rotate_left; clear_value x; rotate_right)
    | ((try lift_lets); intro x; clear_value x) | with_reducible apply State.inc64_keeps (hm.of rfl)
    | with_reducible apply State.occur_keeps (hm.of rfl) | with_reducible apply State.setFlow_keeps (hm.of rfl) | split | unfold x
    | dsimp only | with_reducible refine Keeps.upd ?_

theorem State.dlogPut_keeps (hm : Sub 2120706 pm) (hk : Keeps pm sk s) (kind : Nat) (st : Nat) (ins : Nat) (body : List Word) : Keeps pm sk (State.dlogPut s kind st ins body) := by
  unfold State.dlogPut
  repeat' first
    | with_reducible assumption | refine fun t (ht : Keeps pm sk t) => ?_ | refine fun _ t (ht : Keeps pm sk t) => ?_
    | ((try lift_lets); intro x; refine Keeps.cut (pm := pm) (sk := sk) (x := x) ?_ (fun hx => ?_); rotate_left; clear_value x; rotate_right)
    | ((try lift_lets); intro x; refine Keeps.cut2 (pm := pm) (sk := sk) (x := x) ?_ (fun hx => ?_); rotate_left; clear_value x; rotate_right)
    | ((try lift_lets); intro x; refine Keeps.cut3 (pm := pm) (sk := sk) (x := x) ?_ (fun hx => ?_); rotate_left; clear_value x; rotate_right)
    | ((try lift_lets); intro x; clear_value x) | with_reducible apply State.dlogFull_keeps (hm.of rfl)
    | with_reducible apply State.dlogLost_keeps (hm.of rfl) | with_reducible apply State.setFlow_keeps (hm.of rfl) | split | unfold x
    | dsimp only | with_reducible refine Keeps.upd ?_

theorem State.dlogOne_keeps (hm : Sub 36199431 pm) (hk : Keeps pm sk s) (r : List Word) : OptKeeps pm sk (State.dlogOne s r) := by
  unfold State.dlogOne
  repeat' first
    | with_reducible assumption | refine fun t (ht : Keeps pm sk t) => ?_ | refine fun _ t (ht : Keeps pm sk t) => ?_
    | with_reducible exact OptKeeps.none | with_reducible apply OptKeeps.some | with_reducible refine OptKeeps.bind ?_ (fun t ht => ?_)
    | with_reducible refine OptKeeps.map ?_ (fun t ht => ?_) | with_reducible apply OptKeeps.getD
    | with_reducible refine OptKeeps.of (by assumption) ?_ | with_reducible refine OptKeeps.foldl _ ?_ (fun t x ht => ?_)
    | with_reducible apply State.passTo_keeps (hm.of rfl) | with_reducible apply State.ringPush_keeps (hm.of rfl)
    | with_reducible apply State.setFlow_keeps (hm.of rfl) | dsimp only | with_reducible refine Keeps.upd ?_

theorem execDlogRecordWritten_keeps (hm : Sub 36199431 pm) (hk : Keeps pm sk s) : OutKeeps pm sk (execDlogRecordWritten s) := by
  unfold execDlogRecordWritten
  repeat' first
    | with_reducible assumption | refine fun t (ht : Keeps pm sk t) => ?_ | refine fun _ t (ht : Keeps pm sk t) => ?_
    | ((try lift_lets); intro x; refine Keeps.cut (pm := pm) (sk := sk) (x := x) ?_ (fun hx => ?_); rotate_left; clear_value x; rotate_right)
    | ((try lift_lets); intro x; clear_value x) | with_reducible exact OptKeeps.none | with_reducible apply OptKeeps.some
    | with_reducible refine OptKeeps.bind ?_ (fun t ht => ?_) | with_reducible refine OptKeeps.map ?_ (fun t ht => ?_)
    | with_reducible apply OptKeeps.getD | with_reducible refine OptKeeps.of (by assumption) ?_
    | with_reducible refine OptKeeps.foldl _ ?_ (fun t x ht => ?_) | with_reducible apply OutKeeps.next
    | with_reducible apply State.dlogFull_keeps (hm.of rfl) | with_reducible apply State.dlogLost_keeps (hm.of rfl)
    | with_reducible apply State.dlogOne_keeps (hm.of rfl) | with_reducible apply State.passTo_keeps (hm.of rfl)
    | with_reducible apply State.setFlow_keeps (hm.of rfl) | split | unfold x | dsimp only | with_reducible refine Keeps.upd ?_

theorem State.cardEntry_keeps (hm : Sub 2120706 pm) (hk : Keeps pm sk s) (q : Nat) (result : Nat) (st : Nat) : Keeps pm sk (State.cardEntry s q result st) := by
  unfold State.cardEntry
  repeat' first
    | with_reducible assumption | refine fun t (ht : Keeps pm sk t) => ?_ | refine fun _ t (ht : Keeps pm sk t) => ?_
    | ((try lift_lets); intro x; refine Keeps.cut (pm := pm) (sk := sk) (x := x) ?_ (fun hx => ?_); rotate_left; clear_value x; rotate_right)
    | ((try lift_lets); intro x; refine Keeps.cut2 (pm := pm) (sk := sk) (x := x) ?_ (fun hx => ?_); rotate_left; clear_value x; rotate_right)
    | ((try lift_lets); intro x; refine Keeps.cut3 (pm := pm) (sk := sk) (x := x) ?_ (fun hx => ?_); rotate_left; clear_value x; rotate_right)
    | ((try lift_lets); intro x; clear_value x) | with_reducible apply State.dlogPut_keeps (hm.of rfl)
    | with_reducible apply State.incWrap_keeps (hm.of rfl) | with_reducible apply State.setB_keeps (hm.of rfl)
    | with_reducible apply State.setF_keeps (hm.of rfl) | with_reducible apply State.setReg_keeps (hm.of rfl)
    | with_reducible apply State.setReg64_keeps (hm.of rfl) | split | unfold x | dsimp only

theorem State.cardEntries_keeps (hm : Sub 2120706 pm) (hk : Keeps pm sk s) (q : Nat) (result : Nat) : Keeps pm sk (State.cardEntries s q result) := by
  unfold State.cardEntries
  repeat' first
    | with_reducible assumption | refine fun t (ht : Keeps pm sk t) => ?_ | refine fun _ t (ht : Keeps pm sk t) => ?_
    | with_reducible apply State.cardEntry_keeps (hm.of rfl) | with_reducible refine Keeps.foldl ?_ _ (fun t y ht => ?_)
    | with_reducible refine Keeps.foldl2 ?_ _ (fun t y ht => ?_) | dsimp only

theorem State.stepEnd_keeps (hm : Sub 2317330 pm) (hk : Keeps pm sk s) (result : Nat) (outcome : Nat) (m : Option Nat) : Keeps pm sk (State.stepEnd s result outcome m) := by
  unfold State.stepEnd
  repeat' first
    | with_reducible assumption
    | ((try lift_lets); intro x; refine Keeps.cut (pm := pm) (sk := sk) (x := x) ?_ (fun hx => ?_); rotate_left; clear_value x; rotate_right)
    | ((try lift_lets); intro x; clear_value x) | with_reducible apply State.endRun_keeps (hm.of rfl)
    | with_reducible apply State.occur_keeps (hm.of rfl) | with_reducible apply State.setB_keeps (hm.of rfl)
    | with_reducible apply State.setF_keeps (hm.of rfl) | with_reducible apply State.setFlow_keeps (hm.of rfl)
    | with_reducible apply State.setReg_keeps (hm.of rfl) | unfold x | dsimp only | with_reducible refine Keeps.upd ?_

theorem State.badNode_keeps (hm : Sub 2317330 pm) (hk : Keeps pm sk s) (cause : Nat) (node : Nat) (m : Option Nat) : Keeps pm sk (State.badNode s cause node m) := by
  unfold State.badNode
  repeat' first
    | with_reducible assumption
    | ((try lift_lets); intro x; refine Keeps.cut (pm := pm) (sk := sk) (x := x) ?_ (fun hx => ?_); rotate_left; clear_value x; rotate_right)
    | ((try lift_lets); intro x; clear_value x) | with_reducible apply State.occur_keeps (hm.of rfl)
    | with_reducible apply State.setReg_keeps (hm.of rfl) | with_reducible apply State.stepEnd_keeps (hm.of rfl) | split | unfold x
    | dsimp only

theorem State.flowBegin_keeps (hm : Sub 2317330 pm) (hk : Keeps pm sk s) (node : Nat) : Keeps pm sk (State.flowBegin s node) := by
  unfold State.flowBegin
  repeat' first
    | with_reducible assumption | refine fun t (ht : Keeps pm sk t) => ?_ | refine fun _ t (ht : Keeps pm sk t) => ?_
    | ((try lift_lets); intro x; refine Keeps.cut (pm := pm) (sk := sk) (x := x) ?_ (fun hx => ?_); rotate_left; clear_value x; rotate_right)
    | ((try lift_lets); intro x; refine Keeps.cut2 (pm := pm) (sk := sk) (x := x) ?_ (fun hx => ?_); rotate_left; clear_value x; rotate_right)
    | ((try lift_lets); intro x; refine Keeps.cut3 (pm := pm) (sk := sk) (x := x) ?_ (fun hx => ?_); rotate_left; clear_value x; rotate_right)
    | ((try lift_lets); intro x; clear_value x) | with_reducible apply State.badNode_keeps (hm.of rfl)
    | with_reducible apply State.looseRun_keeps (hm.of rfl) | with_reducible apply State.setB_keeps (hm.of rfl)
    | with_reducible apply State.setF_keeps (hm.of rfl) | with_reducible apply State.setFlow_keeps (hm.of rfl)
    | with_reducible apply State.setReg_keeps (hm.of rfl) | with_reducible refine Keeps.foldl ?_ _ (fun t y ht => ?_)
    | with_reducible refine Keeps.foldl2 ?_ _ (fun t y ht => ?_) | split | unfold x | dsimp only | with_reducible refine Keeps.upd ?_

theorem State.waitStart_keeps (hm : Sub 65536 pm) (hk : Keeps pm sk s) (cls : Nat) (unit : Nat) (energy : Nat) : Keeps pm sk (State.waitStart s cls unit energy) := by
  unfold State.waitStart
  repeat' first
    | with_reducible assumption | dsimp only | with_reducible refine Keeps.upd ?_

theorem State.withdraw_keeps (hm : Sub 65536 pm) (hk : Keeps pm sk s) (cls : Nat) (unit : Nat) : Keeps pm sk (State.withdraw s cls unit) := by
  unfold State.withdraw
  repeat' first
    | with_reducible assumption | refine fun t (ht : Keeps pm sk t) => ?_ | refine fun _ t (ht : Keeps pm sk t) => ?_ | dsimp only
    | with_reducible refine Keeps.upd ?_

theorem execFlowStepStart_keeps (hm : Sub 89354 pm) (hk : Keeps pm sk s) : OutKeeps pm sk (execFlowStepStart s) := by
  unfold execFlowStepStart
  repeat' first
    | with_reducible assumption | refine fun t (ht : Keeps pm sk t) => ?_ | refine fun _ t (ht : Keeps pm sk t) => ?_
    | with_reducible apply OutKeeps.next | with_reducible apply State.denyStart_keeps (hm.of rfl)
    | with_reducible apply State.hostWrite_keeps (hm.of rfl) | with_reducible apply State.waitStart_keeps (hm.of rfl) | split
    | dsimp only

theorem State.flowAbort_keeps (hm : Sub 2317330 pm) (hk : Keeps pm sk s) : Keeps pm sk (State.flowAbort s) := by
  unfold State.flowAbort
  repeat' first
    | with_reducible assumption | with_reducible apply State.occur_keeps (hm.of rfl) | with_reducible apply State.setF_keeps (hm.of rfl)
    | with_reducible apply State.stepEnd_keeps (hm.of rfl) | with_reducible apply State.withdraw_keeps (hm.of rfl) | split | dsimp only

theorem execFlowStepAbort_keeps (hm : Sub 2317594 pm) (hk : Keeps pm sk s) : OutKeeps pm sk (execFlowStepAbort s) := by
  unfold execFlowStepAbort
  repeat' first
    | with_reducible assumption | refine fun t (ht : Keeps pm sk t) => ?_ | refine fun _ t (ht : Keeps pm sk t) => ?_
    | with_reducible apply OutKeeps.next | with_reducible apply State.flowAbort_keeps (hm.of rfl)
    | with_reducible apply State.hostWrite_keeps (hm.of rfl) | dsimp only

theorem State.putEnable_keeps (hm : Sub 2 pm) (hk : Keeps pm sk s) (st : Nat) (b : Bool) : Keeps pm sk (State.putEnable s st b) := by
  unfold State.putEnable
  repeat' first
    | with_reducible assumption | with_reducible apply State.setB_keeps (hm.of rfl) | split | dsimp only

theorem State.siteEnable_keeps (hm : Sub 2097154 pm) (hk : Keeps pm sk s) (st : Nat) (b : Bool) : Keeps pm sk (State.siteEnable s st b) := by
  unfold State.siteEnable
  repeat' first
    | with_reducible assumption | with_reducible apply State.putEnable_keeps (hm.of rfl)
    | with_reducible apply State.setFlow_keeps (hm.of rfl) | split | dsimp only | with_reducible refine Keeps.upd ?_

theorem State.enableAgain_keeps (hm : Sub 2 pm) (hk : Keeps pm sk s) : Keeps pm sk (State.enableAgain s) := by
  unfold State.enableAgain
  repeat' first
    | with_reducible assumption | refine fun t (ht : Keeps pm sk t) => ?_ | refine fun _ t (ht : Keeps pm sk t) => ?_
    | with_reducible apply State.putEnable_keeps (hm.of rfl) | with_reducible refine Keeps.foldl ?_ _ (fun t y ht => ?_)
    | with_reducible refine Keeps.foldl2 ?_ _ (fun t y ht => ?_) | split | dsimp only

theorem State.issuePost_keeps (hm : Sub 2097152 pm) (hk : Keeps pm sk s) (w : Word) : Keeps pm sk (State.issuePost s w) := by
  unfold State.issuePost
  repeat' first
    | with_reducible assumption | with_reducible apply State.setFlow_keeps (hm.of rfl) | split | dsimp only
    | with_reducible refine Keeps.upd ?_

theorem State.freeSlot_keeps (hm : Sub 2 pm) (hk : Keeps pm sk s) (i : Nat) : Keeps pm sk (State.freeSlot s i) := by
  unfold State.freeSlot
  repeat' first
    | with_reducible assumption | with_reducible apply State.setReg_keeps (hm.of rfl)
    | with_reducible apply State.setReg64_keeps (hm.of rfl) | dsimp only

theorem State.closeSlot_keeps (hm : Sub 36199427 pm) (hk : Keeps pm sk s) (i : Nat) : Keeps pm sk (State.closeSlot s i) := by
  unfold State.closeSlot
  repeat' first
    | with_reducible assumption | refine fun t (ht : Keeps pm sk t) => ?_ | refine fun _ t (ht : Keeps pm sk t) => ?_
    | ((try lift_lets); intro x; refine Keeps.cut (pm := pm) (sk := sk) (x := x) ?_ (fun hx => ?_); rotate_left; clear_value x; rotate_right)
    | ((try lift_lets); intro x; clear_value x) | with_reducible apply State.dlogPut_keeps (hm.of rfl)
    | with_reducible apply State.freeSlot_keeps (hm.of rfl) | with_reducible apply State.occur_keeps (hm.of rfl)
    | with_reducible apply State.pass_keeps (hm.of rfl) | with_reducible apply State.setFlow_keeps (hm.of rfl) | split | unfold x
    | dsimp only | with_reducible refine Keeps.upd ?_

theorem State.stepRead_keeps (hm : Sub 36199427 pm) (hk : Keeps pm sk s) : OptKeeps pm sk (State.stepRead s) := by
  unfold State.stepRead
  repeat' first
    | with_reducible assumption | refine fun t (ht : Keeps pm sk t) => ?_ | refine fun _ t (ht : Keeps pm sk t) => ?_
    | with_reducible exact OptKeeps.none | with_reducible apply OptKeeps.some | with_reducible refine OptKeeps.bind ?_ (fun t ht => ?_)
    | with_reducible refine OptKeeps.map ?_ (fun t ht => ?_) | with_reducible apply OptKeeps.getD
    | with_reducible refine OptKeeps.of (by assumption) ?_ | with_reducible refine OptKeeps.foldl _ ?_ (fun t x ht => ?_)
    | with_reducible apply State.portEach_keeps (hm.of rfl) | with_reducible apply State.setFlow_keeps (hm.of rfl) | split | dsimp only
    | with_reducible refine Keeps.upd ?_

theorem execFlowOpenCommit_keeps (hm : Sub 36396051 pm) (hk : Keeps pm sk s) : OutKeeps pm sk (execFlowOpenCommit s) := by
  unfold execFlowOpenCommit
  repeat' first
    | with_reducible assumption | refine fun t (ht : Keeps pm sk t) => ?_ | refine fun _ t (ht : Keeps pm sk t) => ?_
    | ((try lift_lets); intro x; refine Keeps.cut (pm := pm) (sk := sk) (x := x) ?_ (fun hx => ?_); rotate_left; clear_value x; rotate_right)
    | ((try lift_lets); intro x; clear_value x) | with_reducible exact OptKeeps.none | with_reducible apply OptKeeps.some
    | with_reducible refine OptKeeps.bind ?_ (fun t ht => ?_) | with_reducible refine OptKeeps.map ?_ (fun t ht => ?_)
    | with_reducible apply OptKeeps.getD | with_reducible refine OptKeeps.of (by assumption) ?_
    | with_reducible refine OptKeeps.foldl _ ?_ (fun t x ht => ?_) | with_reducible apply OutKeeps.next
    | with_reducible apply State.closeSlot_keeps (hm.of rfl) | with_reducible apply State.dlogPut_keeps (hm.of rfl)
    | with_reducible apply State.issuePost_keeps (hm.of rfl) | with_reducible apply State.occur_keeps (hm.of rfl)
    | with_reducible apply State.setB_keeps (hm.of rfl) | with_reducible apply State.setFlow_keeps (hm.of rfl)
    | with_reducible apply State.setReg_keeps (hm.of rfl) | with_reducible apply State.setReg64_keeps (hm.of rfl)
    | with_reducible apply State.siteEnable_keeps (hm.of rfl) | with_reducible apply State.stepEnd_keeps (hm.of rfl)
    | with_reducible apply State.stepRead_keeps (hm.of rfl) | with_reducible refine Keeps.foldl ?_ _ (fun t y ht => ?_)
    | with_reducible refine Keeps.foldl2 ?_ _ (fun t y ht => ?_) | split | unfold x | dsimp only | with_reducible refine Keeps.upd ?_

theorem execFlowLimitCommit_keeps (hm : Sub 36396051 pm) (hk : Keeps pm sk s) : OutKeeps pm sk (execFlowLimitCommit s) := by
  unfold execFlowLimitCommit
  repeat' first
    | with_reducible assumption | refine fun t (ht : Keeps pm sk t) => ?_ | refine fun _ t (ht : Keeps pm sk t) => ?_
    | ((try lift_lets); intro x; refine Keeps.cut (pm := pm) (sk := sk) (x := x) ?_ (fun hx => ?_); rotate_left; clear_value x; rotate_right)
    | ((try lift_lets); intro x; refine Keeps.cut2 (pm := pm) (sk := sk) (x := x) ?_ (fun hx => ?_); rotate_left; clear_value x; rotate_right)
    | ((try lift_lets); intro x; refine Keeps.cut3 (pm := pm) (sk := sk) (x := x) ?_ (fun hx => ?_); rotate_left; clear_value x; rotate_right)
    | ((try lift_lets); intro x; clear_value x) | with_reducible exact OptKeeps.none | with_reducible apply OptKeeps.some
    | with_reducible refine OptKeeps.bind ?_ (fun t ht => ?_) | with_reducible refine OptKeeps.map ?_ (fun t ht => ?_)
    | with_reducible apply OptKeeps.getD | with_reducible refine OptKeeps.of (by assumption) ?_
    | with_reducible refine OptKeeps.foldl _ ?_ (fun t x ht => ?_) | with_reducible apply OutKeeps.next
    | with_reducible apply State.badNode_keeps (hm.of rfl) | with_reducible apply State.dlogPut_keeps (hm.of rfl)
    | with_reducible apply State.incWrap_keeps (hm.of rfl) | with_reducible apply State.issuePost_keeps (hm.of rfl)
    | with_reducible apply State.pass_keeps (hm.of rfl) | with_reducible apply State.setB_keeps (hm.of rfl)
    | with_reducible apply State.setF_keeps (hm.of rfl) | with_reducible apply State.siteEnable_keeps (hm.of rfl)
    | with_reducible apply State.stepEnd_keeps (hm.of rfl) | with_reducible apply State.stepRead_keeps (hm.of rfl)
    | with_reducible refine Keeps.foldl ?_ _ (fun t y ht => ?_) | with_reducible refine Keeps.foldl2 ?_ _ (fun t y ht => ?_) | split
    | unfold x | dsimp only

theorem execFlowBinCommit_keeps (hm : Sub 36396051 pm) (hk : Keeps pm sk s) : OutKeeps pm sk (execFlowBinCommit s) := by
  unfold execFlowBinCommit
  repeat' first
    | with_reducible assumption | refine fun t (ht : Keeps pm sk t) => ?_ | refine fun _ t (ht : Keeps pm sk t) => ?_
    | ((try lift_lets); intro x; refine Keeps.cut (pm := pm) (sk := sk) (x := x) ?_ (fun hx => ?_); rotate_left; clear_value x; rotate_right)
    | ((try lift_lets); intro x; refine Keeps.cut2 (pm := pm) (sk := sk) (x := x) ?_ (fun hx => ?_); rotate_left; clear_value x; rotate_right)
    | ((try lift_lets); intro x; refine Keeps.cut3 (pm := pm) (sk := sk) (x := x) ?_ (fun hx => ?_); rotate_left; clear_value x; rotate_right)
    | ((try lift_lets); intro x; clear_value x) | with_reducible exact OptKeeps.none | with_reducible apply OptKeeps.some
    | with_reducible refine OptKeeps.bind ?_ (fun t ht => ?_) | with_reducible refine OptKeeps.map ?_ (fun t ht => ?_)
    | with_reducible apply OptKeeps.getD | with_reducible refine OptKeeps.of (by assumption) ?_
    | with_reducible refine OptKeeps.foldl _ ?_ (fun t x ht => ?_) | with_reducible apply OutKeeps.next
    | with_reducible apply State.closeSlot_keeps (hm.of rfl) | with_reducible apply State.dlogPut_keeps (hm.of rfl)
    | with_reducible apply State.incWrap_keeps (hm.of rfl) | with_reducible apply State.issuePost_keeps (hm.of rfl)
    | with_reducible apply State.occur_keeps (hm.of rfl) | with_reducible apply State.setB_keeps (hm.of rfl)
    | with_reducible apply State.setFlow_keeps (hm.of rfl) | with_reducible apply State.setReg_keeps (hm.of rfl)
    | with_reducible apply State.setTime4_keeps (hm.of rfl) | with_reducible apply State.siteEnable_keeps (hm.of rfl)
    | with_reducible apply State.stepEnd_keeps (hm.of rfl) | with_reducible apply State.stepRead_keeps (hm.of rfl)
    | with_reducible refine Keeps.foldl ?_ _ (fun t y ht => ?_) | with_reducible refine Keeps.foldl2 ?_ _ (fun t y ht => ?_) | split
    | unfold x | dsimp only | with_reducible refine Keeps.upd ?_

theorem State.setPost_keeps (hm : Sub 2097152 pm) (hk : Keeps pm sk s) (p : Option Word) : Keeps pm sk (State.setPost s p) := by
  unfold State.setPost
  repeat' first
    | with_reducible assumption | with_reducible apply State.setFlow_keeps (hm.of rfl) | dsimp only | with_reducible refine Keeps.upd ?_

theorem State.postIn_keeps (hm : Sub 2251778 pm) (hk : Keeps pm sk s) (w : Word) : Keeps pm sk (s.postIn w) := by
  have ha := State.addTask_both (hm.of rfl) hk 10 (fld w 11 0) (fld w 27 26) 1 true
  unfold State.postIn
  dsimp only
  split
  · exact State.armTask_keeps (hm.of rfl) hk _ _ _ _
  · split
    · next t h => exact ha.2 t h
    · exact State.setPost_keeps (hm.of rfl) ha.1 _
  · exact State.cmdFail_keeps (hm.of rfl) hk _ _ _ _

theorem execFlowPost_keeps (hm : Sub 36330499 pm) (hk : Keeps pm sk s) : OutKeeps pm sk (execFlowPost s) := by
  unfold execFlowPost
  repeat' first
    | with_reducible assumption | with_reducible apply OutKeeps.next | with_reducible apply State.matchDone_keeps (hm.of rfl)
    | with_reducible apply State.matchOpen_keeps (hm.of rfl) | with_reducible apply State.passTo_keeps (hm.of rfl)
    | with_reducible apply State.postIn_keeps (hm.of rfl) | with_reducible apply State.setPost_keeps (hm.of rfl) | split | dsimp only

theorem execHandlerSiteStep_keeps (hm : Sub 36199427 pm) (hk : Keeps pm sk s) : OutKeeps pm sk (execHandlerSiteStep s) := by
  unfold execHandlerSiteStep
  repeat' first
    | with_reducible assumption | refine fun t (ht : Keeps pm sk t) => ?_ | refine fun _ t (ht : Keeps pm sk t) => ?_
    | ((try lift_lets); intro x; refine Keeps.cut (pm := pm) (sk := sk) (x := x) ?_ (fun hx => ?_); rotate_left; clear_value x; rotate_right)
    | ((try lift_lets); intro x; clear_value x) | with_reducible apply OutKeeps.next
    | with_reducible apply State.freeSlot_keeps (hm.of rfl) | with_reducible apply State.occur_keeps (hm.of rfl)
    | with_reducible apply State.passTo_keeps (hm.of rfl) | with_reducible apply State.setFlow_keeps (hm.of rfl)
    | with_reducible refine Keeps.foldl ?_ _ (fun t y ht => ?_) | with_reducible refine Keeps.foldl2 ?_ _ (fun t y ht => ?_) | split
    | unfold x | dsimp only | with_reducible refine Keeps.upd ?_

theorem State.cardsClear_keeps (hm : Sub 56322 pm) (hk : Keeps pm sk s) (h : Nat) (cause : Nat) : Keeps pm sk (State.cardsClear s h cause) := by
  unfold State.cardsClear
  repeat' first
    | with_reducible assumption
    | ((try lift_lets); intro x; refine Keeps.cut (pm := pm) (sk := sk) (x := x) ?_ (fun hx => ?_); rotate_left; clear_value x; rotate_right)
    | ((try lift_lets); intro x; clear_value x) | with_reducible apply State.clearWords_keeps (hm.of rfl)
    | with_reducible apply State.resync_keeps (hm.of rfl) | unfold x | dsimp only

theorem State.flowClear_keeps (hm : Sub 2153474 pm) (hk : Keeps pm sk s) (cause : Nat) : Keeps pm sk (State.flowClear s cause) := by
  unfold State.flowClear
  repeat' first
    | with_reducible assumption | refine fun t (ht : Keeps pm sk t) => ?_ | refine fun _ t (ht : Keeps pm sk t) => ?_
    | ((try lift_lets); intro x; refine Keeps.cut (pm := pm) (sk := sk) (x := x) ?_ (fun hx => ?_); rotate_left; clear_value x; rotate_right)
    | ((try lift_lets); intro x; clear_value x) | with_reducible apply State.dlogFull_keeps (hm.of rfl)
    | with_reducible apply State.freeSlot_keeps (hm.of rfl) | with_reducible apply State.resync_keeps (hm.of rfl)
    | with_reducible apply State.ringThresh_keeps (hm.of rfl) | with_reducible apply State.setFlow_keeps (hm.of rfl)
    | with_reducible apply State.setReg_keeps (hm.of rfl) | with_reducible refine Keeps.foldl ?_ _ (fun t y ht => ?_)
    | with_reducible refine Keeps.foldl2 ?_ _ (fun t y ht => ?_) | unfold x | dsimp only | with_reducible refine Keeps.upd ?_

theorem State.setChkRun_keeps (hm : Sub 8388610 pm) (hk : Keeps pm sk s) (n : Nat) (r : ChkRun) : Keeps pm sk (State.setChkRun s n r) := by
  unfold State.setChkRun
  repeat' first
    | with_reducible assumption | refine fun t (ht : Keeps pm sk t) => ?_ | refine fun _ t (ht : Keeps pm sk t) => ?_
    | ((try lift_lets); intro x; refine Keeps.cut (pm := pm) (sk := sk) (x := x) ?_ (fun hx => ?_); rotate_left; clear_value x; rotate_right)
    | ((try lift_lets); intro x; clear_value x) | with_reducible apply State.setB_keeps (hm.of rfl) | unfold x | dsimp only
    | with_reducible refine Keeps.upd ?_

theorem State.chkFold_keeps (hm : Sub 2 pm) (hk : Keeps pm sk s) (n : Nat) (l : List Byte) : Keeps pm sk (State.chkFold s n l) := by
  unfold State.chkFold
  repeat' first
    | with_reducible assumption
    | ((try lift_lets); intro x; refine Keeps.cut (pm := pm) (sk := sk) (x := x) ?_ (fun hx => ?_); rotate_left; clear_value x; rotate_right)
    | ((try lift_lets); intro x; clear_value x) | with_reducible apply State.setReg64_keeps (hm.of rfl) | unfold x | dsimp only

theorem State.chkRefuse_keeps (hm : Sub 23554 pm) (hk : Keeps pm sk s) (n : Nat) : Keeps pm sk (State.chkRefuse s n) := by
  unfold State.chkRefuse
  repeat' first
    | with_reducible assumption | with_reducible apply State.incSat_keeps (hm.of rfl)
    | with_reducible apply State.occur_keeps (hm.of rfl) | dsimp only

theorem State.chkCompare_keeps (hm : Sub 23554 pm) (hk : Keeps pm sk s) (n : Nat) : Keeps pm sk (State.chkCompare s n) := by
  unfold State.chkCompare
  repeat' first
    | with_reducible assumption
    | ((try lift_lets); intro x; refine Keeps.cut (pm := pm) (sk := sk) (x := x) ?_ (fun hx => ?_); rotate_left; clear_value x; rotate_right)
    | ((try lift_lets); intro x; clear_value x) | with_reducible apply State.occur_keeps (hm.of rfl)
    | with_reducible apply State.setB_keeps (hm.of rfl) | with_reducible apply State.setReg64_keeps (hm.of rfl) | split | unfold x
    | dsimp only

theorem State.chkFeed_keeps (hm : Sub 23554 pm) (hk : Keeps pm sk s) (n : Nat) (k : Nat) (v : Word) : Keeps pm sk (State.chkFeed s n k v) := by
  unfold State.chkFeed
  repeat' first
    | with_reducible assumption | with_reducible apply State.chkFold_keeps (hm.of rfl)
    | with_reducible apply State.chkRefuse_keeps (hm.of rfl) | split | dsimp only

theorem chkFeedOp_keeps (hm : Sub 23818 pm) (hk : Keeps pm sk s) (n : Nat) (o : Nat) (k : Nat) (v : Word) : Keeps pm sk (chkFeedOp n o k v s) := by
  unfold chkFeedOp
  repeat' first
    | with_reducible assumption | refine fun t (ht : Keeps pm sk t) => ?_ | refine fun _ t (ht : Keeps pm sk t) => ?_
    | with_reducible apply State.chkFeed_keeps (hm.of rfl) | with_reducible apply State.hostWrite_keeps (hm.of rfl) | split | dsimp only

theorem execChkFeedB_keeps (hm : Sub 23818 pm) (hk : Keeps pm sk s) (n : Nat) (v : Word) : OutKeeps pm sk (execChkFeedB n v s) := by
  unfold execChkFeedB
  repeat' first
    | with_reducible assumption | with_reducible apply OutKeeps.next | with_reducible apply chkFeedOp_keeps (hm.of rfl) | dsimp only

theorem execChkFeedH_keeps (hm : Sub 23818 pm) (hk : Keeps pm sk s) (n : Nat) (v : Word) : OutKeeps pm sk (execChkFeedH n v s) := by
  unfold execChkFeedH
  repeat' first
    | with_reducible assumption | with_reducible apply OutKeeps.next | with_reducible apply chkFeedOp_keeps (hm.of rfl) | dsimp only

theorem execChkFeedW_keeps (hm : Sub 23818 pm) (hk : Keeps pm sk s) (n : Nat) (v : Word) : OutKeeps pm sk (execChkFeedW n v s) := by
  unfold execChkFeedW
  repeat' first
    | with_reducible assumption | with_reducible apply OutKeeps.next | with_reducible apply chkFeedOp_keeps (hm.of rfl) | dsimp only

theorem State.chkBegin_keeps (hm : Sub 8388610 pm) (hk : Keeps pm sk s) (n : Nat) : Keeps pm sk (State.chkBegin s n) := by
  unfold State.chkBegin
  repeat' first
    | with_reducible assumption | with_reducible apply State.setB_keeps (hm.of rfl)
    | with_reducible apply State.setChkRun_keeps (hm.of rfl) | dsimp only | with_reducible refine Keeps.upd ?_

theorem State.chkEnd_keeps (hm : Sub 8608786 pm) (hk : Keeps pm sk s) (n : Nat) (r : Nat) (outcome : Nat) (noop : Bool) (m : Option Nat) : Keeps pm sk (State.chkEnd s n r outcome noop m) := by
  unfold State.chkEnd
  repeat' first
    | with_reducible assumption
    | ((try lift_lets); intro x; refine Keeps.cut (pm := pm) (sk := sk) (x := x) ?_ (fun hx => ?_); rotate_left; clear_value x; rotate_right)
    | ((try lift_lets); intro x; clear_value x) | with_reducible apply State.endRun_keeps (hm.of rfl)
    | with_reducible apply State.occur_keeps (hm.of rfl) | with_reducible apply State.setChkRun_keeps (hm.of rfl)
    | with_reducible apply State.setF_keeps (hm.of rfl) | unfold x | dsimp only | with_reducible refine Keeps.upd ?_

theorem State.chkAbort_keeps (hm : Sub 8608786 pm) (hk : Keeps pm sk s) (n : Nat) : Keeps pm sk (State.chkAbort s n) := by
  unfold State.chkAbort
  repeat' first
    | with_reducible assumption | with_reducible apply State.chkEnd_keeps (hm.of rfl) | with_reducible apply State.setF_keeps (hm.of rfl)
    | with_reducible apply State.withdraw_keeps (hm.of rfl) | split | dsimp only

theorem State.chkFinish_keeps (hm : Sub 8608786 pm) (hk : Keeps pm sk s) (n : Nat) (m : Option Nat) : Keeps pm sk (State.chkFinish s n m) := by
  unfold State.chkFinish
  repeat' first
    | with_reducible assumption | with_reducible apply State.chkCompare_keeps (hm.of rfl)
    | with_reducible apply State.chkEnd_keeps (hm.of rfl) | split | dsimp only

theorem State.chkStart_keeps (hm : Sub 42687507 pm) (hk : Keeps pm sk s) (n : Nat) : Keeps pm sk (State.chkStart s n) := by
  unfold State.chkStart
  repeat' first
    | with_reducible assumption
    | ((try lift_lets); intro x; refine Keeps.cut (pm := pm) (sk := sk) (x := x) ?_ (fun hx => ?_); rotate_left; clear_value x; rotate_right)
    | ((try lift_lets); intro x; clear_value x) | with_reducible apply State.chkBegin_keeps (hm.of rfl)
    | with_reducible apply State.chkFinish_keeps (hm.of rfl) | with_reducible apply State.denyStart_keeps (hm.of rfl)
    | with_reducible apply State.pass_keeps (hm.of rfl) | with_reducible apply State.waitStart_keeps (hm.of rfl) | split | unfold x
    | dsimp only

theorem State.chkCtrl_keeps (hm : Sub 42687507 pm) (hk : Keeps pm sk s) (n : Nat) (v : Word) : Keeps pm sk (State.chkCtrl s n v) := by
  unfold State.chkCtrl
  repeat' first
    | with_reducible assumption
    | ((try lift_lets); intro x; refine Keeps.cut (pm := pm) (sk := sk) (x := x) ?_ (fun hx => ?_); rotate_left; clear_value x; rotate_right)
    | ((try lift_lets); intro x; clear_value x) | with_reducible apply State.chkAbort_keeps (hm.of rfl)
    | with_reducible apply State.chkCompare_keeps (hm.of rfl) | with_reducible apply State.chkRefuse_keeps (hm.of rfl)
    | with_reducible apply State.chkStart_keeps (hm.of rfl) | with_reducible apply State.setReg64_keeps (hm.of rfl) | split | unfold x
    | dsimp only

theorem chkCtrlOp_keeps (hm : Sub 42687771 pm) (hk : Keeps pm sk s) (n : Nat) (v : Word) (p : Bool) : Keeps pm sk (chkCtrlOp n v p s) := by
  unfold chkCtrlOp
  repeat' first
    | with_reducible assumption | refine fun t (ht : Keeps pm sk t) => ?_ | refine fun _ t (ht : Keeps pm sk t) => ?_
    | with_reducible apply State.chkCtrl_keeps (hm.of rfl) | with_reducible apply State.hostWrite_keeps (hm.of rfl) | split | dsimp only

theorem execChkLoadInit_keeps (hm : Sub 42687771 pm) (hk : Keeps pm sk s) (n : Nat) (v : Word) : OutKeeps pm sk (execChkLoadInit n v s) := by
  unfold execChkLoadInit
  repeat' first
    | with_reducible assumption | with_reducible apply OutKeeps.next | with_reducible apply chkCtrlOp_keeps (hm.of rfl) | dsimp only

theorem execChkCheck_keeps (hm : Sub 42687771 pm) (hk : Keeps pm sk s) (n : Nat) (v : Word) : OutKeeps pm sk (execChkCheck n v s) := by
  unfold execChkCheck
  repeat' first
    | with_reducible assumption | with_reducible apply OutKeeps.next | with_reducible apply chkCtrlOp_keeps (hm.of rfl) | dsimp only

theorem execChkStart_keeps (hm : Sub 42687771 pm) (hk : Keeps pm sk s) (n : Nat) (v : Word) : OutKeeps pm sk (execChkStart n v s) := by
  unfold execChkStart
  repeat' first
    | with_reducible assumption | with_reducible apply OutKeeps.next | with_reducible apply chkCtrlOp_keeps (hm.of rfl) | dsimp only

theorem execChkAbort_keeps (hm : Sub 42687771 pm) (hk : Keeps pm sk s) (n : Nat) (v : Word) : OutKeeps pm sk (execChkAbort n v s) := by
  unfold execChkAbort
  repeat' first
    | with_reducible assumption | with_reducible apply OutKeeps.next | with_reducible apply chkCtrlOp_keeps (hm.of rfl) | dsimp only

theorem execChkRunCommit_keeps (hm : Sub 42687507 pm) (hk : Keeps pm sk s) (n : Nat) (m : Nat) : OutKeeps pm sk (execChkRunCommit n m s) := by
  unfold execChkRunCommit
  repeat' first
    | with_reducible assumption | refine fun t (ht : Keeps pm sk t) => ?_ | refine fun _ t (ht : Keeps pm sk t) => ?_
    | ((try lift_lets); intro x; refine Keeps.cut (pm := pm) (sk := sk) (x := x) ?_ (fun hx => ?_); rotate_left; clear_value x; rotate_right)
    | ((try lift_lets); intro x; clear_value x) | with_reducible exact OptKeeps.none | with_reducible apply OptKeeps.some
    | with_reducible refine OptKeeps.bind ?_ (fun t ht => ?_) | with_reducible refine OptKeeps.map ?_ (fun t ht => ?_)
    | with_reducible apply OptKeeps.getD | with_reducible refine OptKeeps.of (by assumption) ?_
    | with_reducible refine OptKeeps.foldl _ ?_ (fun t x ht => ?_) | with_reducible apply OutKeeps.next
    | with_reducible apply State.chkFinish_keeps (hm.of rfl) | with_reducible apply State.chkFold_keeps (hm.of rfl)
    | with_reducible apply State.passTo_keeps (hm.of rfl) | with_reducible apply State.portRun_keeps (hm.of rfl)
    | with_reducible apply State.setB_keeps (hm.of rfl) | split | unfold x | dsimp only

theorem State.chkRegWrite_keeps (hm : Sub 23682 pm) (hk : Keeps pm sk s) (req : Nat) (n : Nat) (o : Nat) (v : Word) : Keeps pm sk (State.chkRegWrite s req n o v) := by
  unfold State.chkRegWrite
  repeat' first
    | with_reducible assumption
    | ((try lift_lets); intro x; refine Keeps.cut (pm := pm) (sk := sk) (x := x) ?_ (fun hx => ?_); rotate_left; clear_value x; rotate_right)
    | ((try lift_lets); intro x; refine Keeps.cut2 (pm := pm) (sk := sk) (x := x) ?_ (fun hx => ?_); rotate_left; clear_value x; rotate_right)
    | ((try lift_lets); intro x; refine Keeps.cut3 (pm := pm) (sk := sk) (x := x) ?_ (fun hx => ?_); rotate_left; clear_value x; rotate_right)
    | ((try lift_lets); intro x; clear_value x) | with_reducible apply State.chkRefuse_keeps (hm.of rfl)
    | with_reducible apply State.commit64_keeps (hm.of rfl) | with_reducible apply State.setReg64_keeps (hm.of rfl)
    | with_reducible apply State.setStaged_keeps (hm.of rfl) | with_reducible apply State.take64_keeps (hm.of rfl)
    | with_reducible apply State.writeMasked_keeps (hm.of rfl) | split | unfold x | dsimp only

theorem execChkRegWrite_keeps (hm : Sub 23946 pm) (hk : Keeps pm sk s) (req : Nat) (addr : Nat) (v : Word) : OutKeeps pm sk (execChkRegWrite req addr v s) := by
  unfold execChkRegWrite
  repeat' first
    | with_reducible assumption | refine fun t (ht : Keeps pm sk t) => ?_ | refine fun _ t (ht : Keeps pm sk t) => ?_
    | with_reducible apply OutKeeps.next | with_reducible apply State.chkRegWrite_keeps (hm.of rfl)
    | with_reducible apply State.hostWrite_keeps (hm.of rfl) | split | dsimp only

theorem State.tbStart_keeps (hm : Sub 512 pm) (hk : Keeps pm sk s) (b : Nat) (v : Int) : Keeps pm sk (State.tbStart s b v) := by
  unfold State.tbStart
  repeat' first
    | with_reducible assumption | with_reducible apply State.setTb_keeps (hm.of rfl) | dsimp only | with_reducible refine Keeps.upd ?_

theorem State.tbMove_keeps (hm : Sub 514 pm) (hk : Keeps pm sk s) (b : Nat) (e : Int) (rho : Int) : Keeps pm sk (State.tbMove s b e rho) := by
  unfold State.tbMove
  repeat' first
    | with_reducible assumption
    | ((try lift_lets); intro x; refine Keeps.cut (pm := pm) (sk := sk) (x := x) ?_ (fun hx => ?_); rotate_left; clear_value x; rotate_right)
    | ((try lift_lets); intro x; clear_value x) | with_reducible apply State.setReg_keeps (hm.of rfl)
    | with_reducible apply State.setTb_keeps (hm.of rfl) | unfold x | dsimp only | with_reducible refine Keeps.upd ?_

theorem State.tbStepped_keeps (hm : Sub 24066 pm) (hk : Keeps pm sk s) (b : Nat) : Keeps pm sk (State.tbStepped s b) := by
  unfold State.tbStepped
  repeat' first
    | with_reducible assumption | refine fun t (ht : Keeps pm sk t) => ?_ | refine fun _ t (ht : Keeps pm sk t) => ?_
    | ((try lift_lets); intro x; refine Keeps.cut (pm := pm) (sk := sk) (x := x) ?_ (fun hx => ?_); rotate_left; clear_value x; rotate_right)
    | ((try lift_lets); intro x; refine Keeps.cutG (pm := pm) (sk := sk) (x := x) (fun a ha => ?_) (fun hx => ?_))
    | ((try lift_lets); intro x; refine Keeps.cutH (pm := pm) (sk := sk) (x := x) (fun a b ha => ?_) (fun hx => ?_))
    | ((try lift_lets); intro x; refine Keeps.cutF2 (pm := pm) (sk := sk) (x := x) (fun a b => ?_) (fun hx => ?_))
    | ((try lift_lets); intro x; refine Keeps.cutF (pm := pm) (sk := sk) (x := x) (fun a => ?_) (fun hx => ?_))
    | ((try lift_lets); intro x; clear_value x) | with_reducible apply State.occur_keeps (hm.of rfl)
    | with_reducible apply State.setTb_keeps (hm.of rfl) | with_reducible refine Keeps.foldl ?_ _ (fun t y ht => ?_)
    | with_reducible refine Keeps.foldl2 ?_ _ (fun t y ht => ?_) | split | unfold x | dsimp only | with_reducible refine Keeps.upd ?_

theorem State.tbErr_keeps (hm : Sub 2 pm) (hk : Keeps pm sk s) (b : Nat) (e : Int) : Keeps pm sk (State.tbErr s b e) := by
  unfold State.tbErr
  repeat' first
    | with_reducible assumption | with_reducible apply State.setReg_keeps (hm.of rfl) | dsimp only

theorem State.servo_keeps (hm : Sub 24066 pm) (hk : Keeps pm sk s) (b : Nat) (e : Int) (force : Bool) (interval : Nat) : Keeps pm sk (State.servo s b e force interval) := by
  unfold State.servo
  repeat' first
    | with_reducible assumption
    | ((try lift_lets); intro x; refine Keeps.cut (pm := pm) (sk := sk) (x := x) ?_ (fun hx => ?_); rotate_left; clear_value x; rotate_right)
    | ((try lift_lets); intro x; clear_value x) | with_reducible apply State.tbErr_keeps (hm.of rfl)
    | with_reducible apply State.tbMove_keeps (hm.of rfl) | with_reducible apply State.tbStepped_keeps (hm.of rfl) | split | unfold x
    | dsimp only

theorem State.holdLive_keeps (hm : Sub 23554 pm) (hk : Keeps pm sk s) : Keeps pm sk (State.holdLive s) := by
  unfold State.holdLive
  repeat' first
    | with_reducible assumption | refine fun t (ht : Keeps pm sk t) => ?_ | refine fun _ t (ht : Keeps pm sk t) => ?_
    | with_reducible apply State.setLive_keeps (hm.of rfl) | with_reducible refine Keeps.foldl ?_ _ (fun t y ht => ?_)
    | with_reducible refine Keeps.foldl2 ?_ _ (fun t y ht => ?_) | dsimp only

theorem State.holdEnter_keeps (hm : Sub 24066 pm) (hk : Keeps pm sk s) (b : Nat) : Keeps pm sk (State.holdEnter s b) := by
  unfold State.holdEnter
  repeat' first
    | with_reducible assumption
    | ((try lift_lets); intro x; refine Keeps.cut (pm := pm) (sk := sk) (x := x) ?_ (fun hx => ?_); rotate_left; clear_value x; rotate_right)
    | ((try lift_lets); intro x; clear_value x) | with_reducible apply State.holdLive_keeps (hm.of rfl)
    | with_reducible apply State.setTb_keeps (hm.of rfl) | split | unfold x | dsimp only | with_reducible refine Keeps.upd ?_

theorem State.holdExit_keeps (hm : Sub 24066 pm) (hk : Keeps pm sk s) (b : Nat) : Keeps pm sk (State.holdExit s b) := by
  unfold State.holdExit
  repeat' first
    | with_reducible assumption
    | ((try lift_lets); intro x; refine Keeps.cut (pm := pm) (sk := sk) (x := x) ?_ (fun hx => ?_); rotate_left; clear_value x; rotate_right)
    | ((try lift_lets); intro x; clear_value x) | with_reducible apply State.holdLive_keeps (hm.of rfl)
    | with_reducible apply State.setReg_keeps (hm.of rfl) | with_reducible apply State.setTb_keeps (hm.of rfl) | split | unfold x
    | dsimp only | with_reducible refine Keeps.upd ?_

theorem State.tb0Change_keeps (hm : Sub 134241794 pm) (hk : Keeps pm sk s) : Keeps pm sk (State.tb0Change s) := by
  unfold State.tb0Change
  repeat' first
    | with_reducible assumption | with_reducible apply State.holdEnter_keeps (hm.of rfl) | dsimp only
    | with_reducible refine Keeps.upd ?_

theorem State.setTk_keeps (hm : Sub 268435456 pm) (hk : Keeps pm sk s) (k : TimeKeep) : Keeps pm sk (State.setTk s k) := by
  unfold State.setTk
  repeat' first
    | with_reducible assumption | dsimp only | with_reducible refine Keeps.upd ?_

theorem State.phaseLost_keeps (hm : Sub 268459522 pm) (hk : Keeps pm sk s) (b : Nat) : Keeps pm sk (State.phaseLost s b) := by
  unfold State.phaseLost
  repeat' first
    | with_reducible assumption | refine fun t (ht : Keeps pm sk t) => ?_ | refine fun _ t (ht : Keeps pm sk t) => ?_
    | ((try lift_lets); intro x; refine Keeps.cut (pm := pm) (sk := sk) (x := x) ?_ (fun hx => ?_); rotate_left; clear_value x; rotate_right)
    | ((try lift_lets); intro x; clear_value x) | with_reducible apply State.holdEnter_keeps (hm.of rfl)
    | with_reducible apply State.setTk_keeps (hm.of rfl) | split | unfold x | dsimp only | with_reducible refine Keeps.upd ?_

theorem State.phaseUse_keeps (hm : Sub 268459522 pm) (hk : Keeps pm sk s) (b : Nat) (t0 : Nat) (stop : Nat) (gate : Nat) (value : Int) (period : Nat) : Keeps pm sk (State.phaseUse s b t0 stop gate value period) := by
  unfold State.phaseUse
  repeat' first
    | with_reducible assumption | refine fun t (ht : Keeps pm sk t) => ?_ | refine fun _ t (ht : Keeps pm sk t) => ?_
    | ((try lift_lets); intro x; refine Keeps.cut (pm := pm) (sk := sk) (x := x) ?_ (fun hx => ?_); rotate_left; clear_value x; rotate_right)
    | ((try lift_lets); intro x; clear_value x) | with_reducible apply State.holdExit_keeps (hm.of rfl)
    | with_reducible apply State.setTk_keeps (hm.of rfl) | with_reducible apply State.tbMove_keeps (hm.of rfl)
    | with_reducible apply State.tbStart_keeps (hm.of rfl) | with_reducible apply State.tbStepped_keeps (hm.of rfl) | split | unfold x
    | dsimp only | with_reducible refine Keeps.upd ?_

theorem State.phaseGate_keeps (hm : Sub 268459522 pm) (hk : Keeps pm sk s) (e : Nat) (t0 : Nat) (stop : Nat) (gate : Nat) (value : Option Int) (period : Nat) : Keeps pm sk (State.phaseGate s e t0 stop gate value period) := by
  unfold State.phaseGate
  repeat' first
    | with_reducible assumption | refine fun t (ht : Keeps pm sk t) => ?_ | refine fun _ t (ht : Keeps pm sk t) => ?_
    | with_reducible apply State.phaseLost_keeps (hm.of rfl) | with_reducible apply State.phaseUse_keeps (hm.of rfl)
    | with_reducible refine Keeps.foldl ?_ _ (fun t y ht => ?_) | with_reducible refine Keeps.foldl2 ?_ _ (fun t y ht => ?_) | split
    | dsimp only

theorem State.setTdc_keeps (hm : Sub 4194306 pm) (hk : Keeps pm sk s) (e : Nat) (x : Tdc) : Keeps pm sk (State.setTdc s e x) := by
  unfold State.setTdc
  repeat' first
    | with_reducible assumption | refine fun t (ht : Keeps pm sk t) => ?_ | refine fun _ t (ht : Keeps pm sk t) => ?_
    | ((try lift_lets); intro x; refine Keeps.cut (pm := pm) (sk := sk) (x := x) ?_ (fun hx => ?_); rotate_left; clear_value x; rotate_right)
    | ((try lift_lets); intro x; clear_value x) | with_reducible apply State.setB_keeps (hm.of rfl)
    | with_reducible apply State.setF_keeps (hm.of rfl) | unfold x | dsimp only | with_reducible refine Keeps.upd ?_

theorem State.tdcRecord_keeps (hm : Sub 4194306 pm) (hk : Keeps pm sk s) (e : Nat) (input : Nat) (value : Nat) (aux : Nat) (coarse : Bool) (hold : Bool) (warm : Bool) (coincident : Bool) (ovf : Bool) (valid : Bool) : Keeps pm sk (State.tdcRecord s e input value aux coarse hold warm coincident ovf valid) := by
  unfold State.tdcRecord
  repeat' first
    | with_reducible assumption
    | ((try lift_lets); intro x; refine Keeps.cut (pm := pm) (sk := sk) (x := x) ?_ (fun hx => ?_); rotate_left; clear_value x; rotate_right)
    | ((try lift_lets); intro x; clear_value x) | with_reducible apply State.setTdc_keeps (hm.of rfl) | unfold x | dsimp only
    | with_reducible refine Keeps.upd ?_

theorem State.tdcEnd_keeps (hm : Sub 4414482 pm) (hk : Keeps pm sk s) (e : Nat) (result : Nat) (outcome : Nat) (m : Option Nat) : Keeps pm sk (State.tdcEnd s e result outcome m) := by
  unfold State.tdcEnd
  repeat' first
    | with_reducible assumption
    | ((try lift_lets); intro x; refine Keeps.cut (pm := pm) (sk := sk) (x := x) ?_ (fun hx => ?_); rotate_left; clear_value x; rotate_right)
    | ((try lift_lets); intro x; clear_value x) | with_reducible apply State.endRun_keeps (hm.of rfl)
    | with_reducible apply State.occur_keeps (hm.of rfl) | with_reducible apply State.setF_keeps (hm.of rfl)
    | with_reducible apply State.setTdc_keeps (hm.of rfl) | split | unfold x | dsimp only | with_reducible refine Keeps.upd ?_

theorem State.tdcPair_keeps (hm : Sub 4194306 pm) (hk : Keeps pm sk s) (e : Nat) (k : Nat) (a : TdcEdge) (b : TdcEdge) : Keeps pm sk (State.tdcPair s e k a b) := by
  unfold State.tdcPair
  repeat' first
    | with_reducible assumption
    | ((try lift_lets); intro x; refine Keeps.cut (pm := pm) (sk := sk) (x := x) ?_ (fun hx => ?_); rotate_left; clear_value x; rotate_right)
    | ((try lift_lets); intro x; clear_value x) | with_reducible apply State.tdcRecord_keeps (hm.of rfl) | split | unfold x | dsimp only

theorem State.tdcTake_keeps (hm : Sub 4195330 pm) (hk : Keeps pm sk s) (e : Nat) (a : TdcEdge) {t : State} (ht : s.tdcTake e a = some t) :
    Keeps pm sk t := by
  have h1 (x : Tdc) : Keeps pm sk (s.setTdc e x) := State.setTdc_keeps (hm.of rfl) hk e x
  unfold State.tdcTake at ht
  dsimp only at ht
  split at ht
  · cases ht; exact State.tdcRecord_keeps (hm.of rfl) (h1 _) _ _ _ _ _ _ _ _ _ _
  · split at ht
    · split at ht
      · cases ht; exact State.incSat_keeps (hm.of rfl) (h1 _) _ _
      · split at ht
        · cases ht; exact State.incSat_keeps (hm.of rfl) (h1 _) _ _
        · cases ht; exact State.tdcRecord_keeps (hm.of rfl) (h1 _) _ _ _ _ _ _ _ _ _ _
    · split at ht
      · cases ht; exact State.incSat_keeps (hm.of rfl) hk _ _
      · cases ht; exact h1 _
  all_goals (repeat' split at ht) <;> first
    | cases ht; done
    | cases ht
  repeat' first
    | with_reducible assumption | refine fun t (ht : Keeps pm sk t) => ?_ | refine fun _ t (ht : Keeps pm sk t) => ?_
    | ((try lift_lets); intro x; refine Keeps.cut (pm := pm) (sk := sk) (x := x) ?_ (fun hx => ?_); rotate_left; clear_value x; rotate_right)
    | ((try lift_lets); intro x; refine Keeps.cut2 (pm := pm) (sk := sk) (x := x) ?_ (fun hx => ?_); rotate_left; clear_value x; rotate_right)
    | ((try lift_lets); intro x; refine Keeps.cut3 (pm := pm) (sk := sk) (x := x) ?_ (fun hx => ?_); rotate_left; clear_value x; rotate_right)
    | ((try lift_lets); intro x; refine Keeps.cutG (pm := pm) (sk := sk) (x := x) (fun a ha => ?_) (fun hx => ?_))
    | ((try lift_lets); intro x; refine Keeps.cutH (pm := pm) (sk := sk) (x := x) (fun a b ha => ?_) (fun hx => ?_))
    | ((try lift_lets); intro x; refine Keeps.cutF2 (pm := pm) (sk := sk) (x := x) (fun a b => ?_) (fun hx => ?_))
    | ((try lift_lets); intro x; refine Keeps.cutF (pm := pm) (sk := sk) (x := x) (fun a => ?_) (fun hx => ?_))
    | ((try lift_lets); intro x; clear_value x) | with_reducible apply State.tdcRecord_keeps (hm.of rfl)
    | with_reducible apply State.incSat_keeps (hm.of rfl) | with_reducible apply State.setTdc_keeps (hm.of rfl)
    | with_reducible apply State.tdcPair_keeps (hm.of rfl) | with_reducible refine Keeps.foldl ?_ _ (fun t y ht => ?_)
    | with_reducible refine Keeps.foldl2 ?_ _ (fun t y ht => ?_) | split | unfold x | dsimp only | with_reducible refine Keeps.upd ?_

theorem State.tdcDrain_keeps (hm : Sub 38296579 pm) (hk : Keeps pm sk s) (e : Nat) (upTo : Option Nat) (n : Nat) :
    Keeps pm sk (s.tdcDrain e upTo n) := by
  induction n generalizing s with
  | zero => exact hk
  | succ n ih =>
    unfold State.tdcDrain
    dsimp only
    split
    · exact hk
    · split
      · exact hk
      · have hp (c : Nat) : Keeps pm sk (if upTo.isNone = true then s.passTo c else s) := by
          split
          · exact State.passTo_keeps (hm.of rfl) hk _
          · exact hk
        split
        · next h => exact ih (State.tdcTake_keeps (hm.of rfl) (State.setTdc_keeps (hm.of rfl) (hp _) _ _) _ _ h)
        · exact hp _

theorem State.tdcFlush_keeps (hm : Sub 38296579 pm) (hk : Keeps pm sk s) (e : Nat) : Keeps pm sk (State.tdcFlush s e) := by
  unfold State.tdcFlush
  repeat' first
    | with_reducible assumption | with_reducible apply State.tdcDrain_keeps (hm.of rfl) | dsimp only

theorem State.tdcResume_keeps (hm : Sub 4194306 pm) (hk : Keeps pm sk s) (e : Nat) : Keeps pm sk (State.tdcResume s e) := by
  unfold State.tdcResume
  repeat' first
    | with_reducible assumption | with_reducible apply State.setTdc_keeps (hm.of rfl) | dsimp only | with_reducible refine Keeps.upd ?_

theorem State.tdcDetect_keeps (hm : Sub 38296579 pm) (hk : Keeps pm sk s) (e : Nat) (isB : Bool) (et : Nat) :
    Keeps pm sk (s.tdcDetect e isB et) := by
  unfold State.tdcDetect
  extract_lets x last u v y a
  have hv : Keeps pm sk v := State.tdcDrain_keeps (hm.of rfl) (State.setTdc_keeps (hm.of rfl) hk _ _) _ _ _
  clear_value v
  split
  · exact State.incSat_keeps (hm.of rfl) (State.setTdc_keeps (hm.of rfl) hk _ _) _ _
  · split
    · exact State.occur_keeps (hm.of rfl) (State.incSat_keeps (hm.of rfl) (State.incSat_keeps (hm.of rfl) hv _ _) _ _) _
    · exact State.setTdc_keeps (hm.of rfl) hv _ _

theorem State.fcEdge_keeps (hm : Sub 4194304 pm) (hk : Keeps pm sk s) (src : Nat) (et : Nat) : Keeps pm sk (State.fcEdge s src et) := by
  unfold State.fcEdge
  repeat' first
    | with_reducible assumption | refine fun t (ht : Keeps pm sk t) => ?_ | refine fun _ t (ht : Keeps pm sk t) => ?_
    | ((try lift_lets); intro x; refine Keeps.cut (pm := pm) (sk := sk) (x := x) ?_ (fun hx => ?_); rotate_left; clear_value x; rotate_right)
    | ((try lift_lets); intro x; clear_value x) | with_reducible refine Keeps.foldl ?_ _ (fun t y ht => ?_)
    | with_reducible refine Keeps.foldl2 ?_ _ (fun t y ht => ?_) | split | unfold x | dsimp only | with_reducible refine Keeps.upd ?_

theorem execTdcInputEdge_keeps (hm : Sub 38296579 pm) (hk : Keeps pm sk s) (src : Nat) (et : Nat) (rising : Bool) : OutKeeps pm sk (execTdcInputEdge src et rising s) := by
  unfold execTdcInputEdge
  repeat' first
    | with_reducible assumption | refine fun t (ht : Keeps pm sk t) => ?_ | refine fun _ t (ht : Keeps pm sk t) => ?_
    | ((try lift_lets); intro x; refine Keeps.cut (pm := pm) (sk := sk) (x := x) ?_ (fun hx => ?_); rotate_left; clear_value x; rotate_right)
    | ((try lift_lets); intro x; clear_value x) | with_reducible apply OutKeeps.next
    | with_reducible apply State.fcEdge_keeps (hm.of rfl) | with_reducible apply State.passTo_keeps (hm.of rfl)
    | with_reducible apply State.tdcDetect_keeps (hm.of rfl) | with_reducible refine Keeps.foldl ?_ _ (fun t y ht => ?_)
    | with_reducible refine Keeps.foldl2 ?_ _ (fun t y ht => ?_) | split | unfold x | dsimp only

theorem State.tdcBegin_keeps (hm : Sub 4194306 pm) (hk : Keeps pm sk s) (e : Nat) : Keeps pm sk (State.tdcBegin s e) := by
  unfold State.tdcBegin
  repeat' first
    | with_reducible assumption
    | ((try lift_lets); intro x; refine Keeps.cut (pm := pm) (sk := sk) (x := x) ?_ (fun hx => ?_); rotate_left; clear_value x; rotate_right)
    | ((try lift_lets); intro x; clear_value x) | with_reducible apply State.setTdc_keeps (hm.of rfl) | split | unfold x | dsimp only
    | with_reducible refine Keeps.upd ?_

theorem State.tdcStart_keeps (hm : Sub 4414482 pm) (hk : Keeps pm sk s) (e : Nat) : Keeps pm sk (State.tdcStart s e) := by
  unfold State.tdcStart
  repeat' first
    | with_reducible assumption
    | ((try lift_lets); intro x; refine Keeps.cut (pm := pm) (sk := sk) (x := x) ?_ (fun hx => ?_); rotate_left; clear_value x; rotate_right)
    | ((try lift_lets); intro x; clear_value x) | with_reducible apply State.endRun_keeps (hm.of rfl)
    | with_reducible apply State.occur_keeps (hm.of rfl) | with_reducible apply State.setF_keeps (hm.of rfl)
    | with_reducible apply State.setReg_keeps (hm.of rfl) | with_reducible apply State.setTdc_keeps (hm.of rfl) | split | unfold x
    | dsimp only | with_reducible refine Keeps.upd ?_

theorem State.tdcStop_keeps (hm : Sub 4414482 pm) (hk : Keeps pm sk s) (e : Nat) : Keeps pm sk (State.tdcStop s e) := by
  unfold State.tdcStop
  repeat' first
    | with_reducible assumption
    | ((try lift_lets); intro x; refine Keeps.cut (pm := pm) (sk := sk) (x := x) ?_ (fun hx => ?_); rotate_left; clear_value x; rotate_right)
    | ((try lift_lets); intro x; clear_value x) | with_reducible apply State.setTdc_keeps (hm.of rfl)
    | with_reducible apply State.tdcEnd_keeps (hm.of rfl) | split | unfold x | dsimp only | with_reducible refine Keeps.upd ?_

theorem State.tdcAbort_keeps (hm : Sub 4414482 pm) (hk : Keeps pm sk s) (e : Nat) : Keeps pm sk (State.tdcAbort s e) := by
  unfold State.tdcAbort
  repeat' first
    | with_reducible assumption
    | ((try lift_lets); intro x; refine Keeps.cut (pm := pm) (sk := sk) (x := x) ?_ (fun hx => ?_); rotate_left; clear_value x; rotate_right)
    | ((try lift_lets); intro x; clear_value x) | with_reducible apply State.setF_keeps (hm.of rfl)
    | with_reducible apply State.setTdc_keeps (hm.of rfl) | with_reducible apply State.tdcEnd_keeps (hm.of rfl)
    | with_reducible apply State.withdraw_keeps (hm.of rfl) | split | unfold x | dsimp only | with_reducible refine Keeps.upd ?_

theorem State.tdcCtrl_keeps (hm : Sub 4414482 pm) (hk : Keeps pm sk s) (e : Nat) (v : Word) : Keeps pm sk (State.tdcCtrl s e v) := by
  unfold State.tdcCtrl
  repeat' first
    | with_reducible assumption
    | ((try lift_lets); intro x; refine Keeps.cut (pm := pm) (sk := sk) (x := x) ?_ (fun hx => ?_); rotate_left; clear_value x; rotate_right)
    | ((try lift_lets); intro x; clear_value x) | with_reducible apply State.denyStart_keeps (hm.of rfl)
    | with_reducible apply State.tdcAbort_keeps (hm.of rfl) | with_reducible apply State.tdcStart_keeps (hm.of rfl)
    | with_reducible apply State.tdcStop_keeps (hm.of rfl) | with_reducible apply State.waitStart_keeps (hm.of rfl) | split | unfold x
    | dsimp only

theorem execTdcStart_keeps (hm : Sub 4414746 pm) (hk : Keeps pm sk s) (e : Nat) (v : Word) : OutKeeps pm sk (execTdcStart e v s) := by
  unfold execTdcStart
  repeat' first
    | with_reducible assumption | refine fun t (ht : Keeps pm sk t) => ?_ | refine fun _ t (ht : Keeps pm sk t) => ?_
    | with_reducible apply OutKeeps.next | with_reducible apply State.hostWrite_keeps (hm.of rfl)
    | with_reducible apply State.tdcCtrl_keeps (hm.of rfl) | split | dsimp only

theorem execTdcStop_keeps (hm : Sub 4414746 pm) (hk : Keeps pm sk s) (e : Nat) (v : Word) : OutKeeps pm sk (execTdcStop e v s) := by
  unfold execTdcStop
  repeat' first
    | with_reducible assumption | refine fun t (ht : Keeps pm sk t) => ?_ | refine fun _ t (ht : Keeps pm sk t) => ?_
    | with_reducible apply OutKeeps.next | with_reducible apply State.hostWrite_keeps (hm.of rfl)
    | with_reducible apply State.tdcCtrl_keeps (hm.of rfl) | split | dsimp only

theorem execTdcAbort_keeps (hm : Sub 4414746 pm) (hk : Keeps pm sk s) (e : Nat) (v : Word) : OutKeeps pm sk (execTdcAbort e v s) := by
  unfold execTdcAbort
  repeat' first
    | with_reducible assumption | refine fun t (ht : Keeps pm sk t) => ?_ | refine fun _ t (ht : Keeps pm sk t) => ?_
    | with_reducible apply OutKeeps.next | with_reducible apply State.hostWrite_keeps (hm.of rfl)
    | with_reducible apply State.tdcCtrl_keeps (hm.of rfl) | split | dsimp only

theorem State.tdcSlot_keeps (hm : Sub 38296579 pm) (hk : Keeps pm sk s) : Keeps pm sk (State.tdcSlot s) := by
  unfold State.tdcSlot
  repeat' first
    | with_reducible assumption
    | ((try lift_lets); intro x; refine Keeps.cut (pm := pm) (sk := sk) (x := x) ?_ (fun hx => ?_); rotate_left; clear_value x; rotate_right)
    | ((try lift_lets); intro x; clear_value x) | with_reducible apply State.pass_keeps (hm.of rfl) | split | unfold x | dsimp only
    | with_reducible refine Keeps.upd ?_

theorem State.tdcCommit_keeps (hm : Sub 38493203 pm) (hk : Keeps pm sk s) (e : Nat) (m : Nat) : Keeps pm sk (State.tdcCommit s e m) := by
  unfold State.tdcCommit
  repeat' first
    | with_reducible assumption
    | ((try lift_lets); intro x; refine Keeps.cut (pm := pm) (sk := sk) (x := x) ?_ (fun hx => ?_); rotate_left; clear_value x; rotate_right)
    | ((try lift_lets); intro x; clear_value x) | with_reducible apply State.incSat_keeps (hm.of rfl)
    | with_reducible apply State.tdcDrain_keeps (hm.of rfl) | with_reducible apply State.tdcEnd_keeps (hm.of rfl)
    | with_reducible apply State.tdcResume_keeps (hm.of rfl) | split | unfold x | dsimp only

theorem execTdcRecordWritten_keeps (hm : Sub 40590359 pm) (hk : Keeps pm sk s) (e : Nat) (m : Nat) : OutKeeps pm sk (execTdcRecordWritten e m s) := by
  unfold execTdcRecordWritten
  repeat' first
    | with_reducible assumption | refine fun t (ht : Keeps pm sk t) => ?_ | refine fun _ t (ht : Keeps pm sk t) => ?_
    | ((try lift_lets); intro x; refine Keeps.cut (pm := pm) (sk := sk) (x := x) ?_ (fun hx => ?_); rotate_left; clear_value x; rotate_right)
    | ((try lift_lets); intro x; clear_value x) | with_reducible exact OptKeeps.none | with_reducible apply OptKeeps.some
    | with_reducible refine OptKeeps.bind ?_ (fun t ht => ?_) | with_reducible refine OptKeeps.map ?_ (fun t ht => ?_)
    | with_reducible apply OptKeeps.getD | with_reducible refine OptKeeps.of (by assumption) ?_
    | with_reducible refine OptKeeps.foldl _ ?_ (fun t x ht => ?_) | with_reducible apply OutKeeps.next
    | with_reducible apply State.incSat_keeps (hm.of rfl) | with_reducible apply State.ringPush_keeps (hm.of rfl)
    | with_reducible apply State.setFlow_keeps (hm.of rfl) | with_reducible apply State.setReg_keeps (hm.of rfl)
    | with_reducible apply State.setTdc_keeps (hm.of rfl) | with_reducible apply State.tdcCommit_keeps (hm.of rfl)
    | with_reducible apply State.tdcFlush_keeps (hm.of rfl) | with_reducible apply State.tdcSlot_keeps (hm.of rfl) | split | unfold x
    | dsimp only | with_reducible refine Keeps.upd ?_

theorem execTdcGateEnd_keeps (hm : Sub 306732563 pm) (hk : Keeps pm sk s) (e : Nat) : OutKeeps pm sk (execTdcGateEnd e s) := by
  unfold execTdcGateEnd
  repeat' first
    | with_reducible assumption
    | ((try lift_lets); intro x; refine Keeps.cut (pm := pm) (sk := sk) (x := x) ?_ (fun hx => ?_); rotate_left; clear_value x; rotate_right)
    | ((try lift_lets); intro x; refine Keeps.cut2 (pm := pm) (sk := sk) (x := x) ?_ (fun hx => ?_); rotate_left; clear_value x; rotate_right)
    | ((try lift_lets); intro x; refine Keeps.cut3 (pm := pm) (sk := sk) (x := x) ?_ (fun hx => ?_); rotate_left; clear_value x; rotate_right)
    | ((try lift_lets); intro x; clear_value x) | with_reducible apply OutKeeps.next
    | with_reducible apply State.freshNat_keeps (hm.of rfl) | with_reducible apply State.passTo_keeps (hm.of rfl)
    | with_reducible apply State.phaseGate_keeps (hm.of rfl) | with_reducible apply State.setTdc_keeps (hm.of rfl)
    | with_reducible apply State.tdcFlush_keeps (hm.of rfl) | with_reducible apply State.tdcRecord_keeps (hm.of rfl)
    | with_reducible apply State.tdcResume_keeps (hm.of rfl) | split | unfold x | dsimp only

theorem execTdcTimeout_keeps (hm : Sub 38296595 pm) (hk : Keeps pm sk s) (e : Nat) : OutKeeps pm sk (execTdcTimeout e s) := by
  unfold execTdcTimeout
  repeat' first
    | with_reducible assumption
    | ((try lift_lets); intro x; refine Keeps.cut (pm := pm) (sk := sk) (x := x) ?_ (fun hx => ?_); rotate_left; clear_value x; rotate_right)
    | ((try lift_lets); intro x; refine Keeps.cut2 (pm := pm) (sk := sk) (x := x) ?_ (fun hx => ?_); rotate_left; clear_value x; rotate_right)
    | ((try lift_lets); intro x; refine Keeps.cut3 (pm := pm) (sk := sk) (x := x) ?_ (fun hx => ?_); rotate_left; clear_value x; rotate_right)
    | ((try lift_lets); intro x; clear_value x) | with_reducible apply OutKeeps.next
    | with_reducible apply State.freshNat_keeps (hm.of rfl) | with_reducible apply State.passTo_keeps (hm.of rfl)
    | with_reducible apply State.setTdc_keeps (hm.of rfl) | with_reducible apply State.tdcFlush_keeps (hm.of rfl)
    | with_reducible apply State.tdcRecord_keeps (hm.of rfl) | split | unfold x | dsimp only | with_reducible refine Keeps.upd ?_

theorem execCoarseCountWrap_keeps (hm : Sub 34102275 pm) (hk : Keeps pm sk s) : OutKeeps pm sk (execCoarseCountWrap s) := by
  unfold execCoarseCountWrap
  repeat' first
    | with_reducible assumption | with_reducible apply OutKeeps.next | with_reducible apply State.occur_keeps (hm.of rfl)
    | with_reducible apply State.passTo_keeps (hm.of rfl) | dsimp only

theorem execOcxoWarmReached_keeps (hm : Sub 23554 pm) (hk : Keeps pm sk s) : OutKeeps pm sk (execOcxoWarmReached s) := by
  unfold execOcxoWarmReached
  repeat' first
    | with_reducible assumption | with_reducible apply OutKeeps.next | with_reducible apply State.setB_keeps (hm.of rfl)
    | with_reducible apply State.setLive_keeps (hm.of rfl) | dsimp only

theorem execOcxoRegulationLost_keeps (hm : Sub 23554 pm) (hk : Keeps pm sk s) : OutKeeps pm sk (execOcxoRegulationLost s) := by
  unfold execOcxoRegulationLost
  repeat' first
    | with_reducible assumption | with_reducible apply OutKeeps.next | with_reducible apply State.setB_keeps (hm.of rfl)
    | with_reducible apply State.setLive_keeps (hm.of rfl) | dsimp only

theorem execRefSelWrite_keeps (hm : Sub 4218122 pm) (hk : Keeps pm sk s) (v : Word) : OutKeeps pm sk (execRefSelWrite v s) := by
  unfold execRefSelWrite
  repeat' first
    | with_reducible assumption | refine fun t (ht : Keeps pm sk t) => ?_ | refine fun _ t (ht : Keeps pm sk t) => ?_
    | ((try lift_lets); intro x; refine Keeps.cut (pm := pm) (sk := sk) (x := x) ?_ (fun hx => ?_); rotate_left; clear_value x; rotate_right)
    | ((try lift_lets); intro x; clear_value x) | with_reducible apply OutKeeps.next
    | with_reducible apply State.hostWrite_keeps (hm.of rfl) | with_reducible apply State.writeMasked_keeps (hm.of rfl) | split
    | unfold x | dsimp only | with_reducible refine Keeps.upd ?_

theorem execRefSwitchApply_keeps (hm : Sub 138436354 pm) (hk : Keeps pm sk s) : OutKeeps pm sk (execRefSwitchApply s) := by
  unfold execRefSwitchApply
  repeat' first
    | with_reducible assumption | refine fun t (ht : Keeps pm sk t) => ?_ | refine fun _ t (ht : Keeps pm sk t) => ?_
    | ((try lift_lets); intro x; refine Keeps.cut (pm := pm) (sk := sk) (x := x) ?_ (fun hx => ?_); rotate_left; clear_value x; rotate_right)
    | ((try lift_lets); intro x; clear_value x) | with_reducible apply OutKeeps.next | with_reducible apply State.setB_keeps (hm.of rfl)
    | with_reducible apply State.tb0Change_keeps (hm.of rfl) | split | unfold x | dsimp only | with_reducible refine Keeps.upd ?_

theorem execRefSwitchDone_keeps (hm : Sub 38296579 pm) (hk : Keeps pm sk s) : OutKeeps pm sk (execRefSwitchDone s) := by
  unfold execRefSwitchDone
  repeat' first
    | with_reducible assumption | refine fun t (ht : Keeps pm sk t) => ?_ | refine fun _ t (ht : Keeps pm sk t) => ?_
    | ((try lift_lets); intro x; refine Keeps.cut (pm := pm) (sk := sk) (x := x) ?_ (fun hx => ?_); rotate_left; clear_value x; rotate_right)
    | ((try lift_lets); intro x; clear_value x) | with_reducible apply OutKeeps.next | with_reducible apply State.occur_keeps (hm.of rfl)
    | with_reducible apply State.passTo_keeps (hm.of rfl) | with_reducible apply State.setB_keeps (hm.of rfl)
    | with_reducible apply State.tdcBegin_keeps (hm.of rfl) | with_reducible refine Keeps.foldl ?_ _ (fun t y ht => ?_)
    | with_reducible refine Keeps.foldl2 ?_ _ (fun t y ht => ?_) | split | unfold x | dsimp only | with_reducible refine Keeps.upd ?_

theorem execRefInDetected_keeps (hm : Sub 2 pm) (hk : Keeps pm sk s) : OutKeeps pm sk (execRefInDetected s) := by
  unfold execRefInDetected
  repeat' first
    | with_reducible assumption | with_reducible apply OutKeeps.next | with_reducible apply State.setB_keeps (hm.of rfl) | dsimp only

theorem execRefInLoss_keeps (hm : Sub 134242050 pm) (hk : Keeps pm sk s) : OutKeeps pm sk (execRefInLoss s) := by
  unfold execRefInLoss
  repeat' first
    | with_reducible assumption
    | ((try lift_lets); intro x; refine Keeps.cut (pm := pm) (sk := sk) (x := x) ?_ (fun hx => ?_); rotate_left; clear_value x; rotate_right)
    | ((try lift_lets); intro x; clear_value x) | with_reducible apply OutKeeps.next | with_reducible apply State.occur_keeps (hm.of rfl)
    | with_reducible apply State.setB_keeps (hm.of rfl) | with_reducible apply State.tb0Change_keeps (hm.of rfl) | split | unfold x
    | dsimp only | with_reducible refine Keeps.upd ?_

theorem execFcGateEnd_keeps (hm : Sub 38296579 pm) (hk : Keeps pm sk s) (i : Nat) : OutKeeps pm sk (execFcGateEnd i s) := by
  unfold execFcGateEnd
  repeat' first
    | with_reducible assumption | refine fun t (ht : Keeps pm sk t) => ?_ | refine fun _ t (ht : Keeps pm sk t) => ?_
    | ((try lift_lets); intro x; refine Keeps.cut (pm := pm) (sk := sk) (x := x) ?_ (fun hx => ?_); rotate_left; clear_value x; rotate_right)
    | ((try lift_lets); intro x; clear_value x) | with_reducible apply OutKeeps.next | with_reducible apply State.occur_keeps (hm.of rfl)
    | with_reducible apply State.passTo_keeps (hm.of rfl) | with_reducible apply State.setReg_keeps (hm.of rfl) | split | unfold x
    | dsimp only | with_reducible refine Keeps.upd ?_

theorem State.fcRestart_keeps (hm : Sub 4194304 pm) (hk : Keeps pm sk s) : Keeps pm sk (State.fcRestart s) := by
  unfold State.fcRestart
  repeat' first
    | with_reducible assumption | refine fun t (ht : Keeps pm sk t) => ?_ | refine fun _ t (ht : Keeps pm sk t) => ?_
    | with_reducible refine Keeps.foldl ?_ _ (fun t y ht => ?_) | with_reducible refine Keeps.foldl2 ?_ _ (fun t y ht => ?_) | dsimp only
    | with_reducible refine Keeps.upd ?_

theorem State.fcResume_keeps (hm : Sub 4194304 pm) (hk : Keeps pm sk s) (old : State) : Keeps pm sk (State.fcResume s old) := by
  unfold State.fcResume
  repeat' first
    | with_reducible assumption | with_reducible apply State.fcRestart_keeps (hm.of rfl) | split | dsimp only

theorem execFcConfigWrite_keeps (hm : Sub 4218122 pm) (hk : Keeps pm sk s) (req : Nat) (addr : Nat) (v : Word) : OutKeeps pm sk (execFcConfigWrite req addr v s) := by
  unfold execFcConfigWrite
  repeat' first
    | with_reducible assumption | refine fun t (ht : Keeps pm sk t) => ?_ | refine fun _ t (ht : Keeps pm sk t) => ?_
    | ((try lift_lets); intro x; refine Keeps.cut (pm := pm) (sk := sk) (x := x) ?_ (fun hx => ?_); rotate_left; clear_value x; rotate_right)
    | ((try lift_lets); intro x; clear_value x) | with_reducible apply OutKeeps.next
    | with_reducible apply State.fcRestart_keeps (hm.of rfl) | with_reducible apply State.hostWrite_keeps (hm.of rfl)
    | with_reducible apply State.writeMasked_keeps (hm.of rfl) | split | unfold x | dsimp only

end Sys2Proof.Machine
end

