-- ==== Sys2Proof/Laws/KeepsStores.lean ====
section
/-! SUPPORT. What each definition of the memory stores, calibration, the host side, the sequencers, the Bursar and the Corridor keeps. -/

namespace Sys2Proof.Machine

set_option Elab.async false
set_option linter.all false

variable {pm : Nat} {sk s : State}

theorem execMapMaskCommit_keeps (hm : Sub 286090 pm) (hk : Keeps pm sk s) (req : Nat) (near : Bool) (k : Nat) (v : Word) : OutKeeps pm sk (execMapMaskCommit req near k v s) := by
  unfold execMapMaskCommit
  repeat' first
    | with_reducible assumption | refine fun t (ht : Keeps pm sk t) => ?_ | refine fun _ t (ht : Keeps pm sk t) => ?_
    | ((try lift_lets); intro x; refine Keeps.cut (pm := pm) (sk := sk) (x := x) ?_ (fun hx => ?_); rotate_left; clear_value x; rotate_right)
    | ((try lift_lets); intro x; refine Keeps.cut2 (pm := pm) (sk := sk) (x := x) ?_ (fun hx => ?_); rotate_left; clear_value x; rotate_right)
    | ((try lift_lets); intro x; refine Keeps.cut3 (pm := pm) (sk := sk) (x := x) ?_ (fun hx => ?_); rotate_left; clear_value x; rotate_right)
    | ((try lift_lets); intro x; clear_value x) | with_reducible apply OutKeeps.next
    | with_reducible apply State.hostWrite_keeps (hm.of rfl) | with_reducible apply State.setB_keeps (hm.of rfl)
    | with_reducible apply State.stageWord_keeps (hm.of rfl) | with_reducible apply State.take64_keeps (hm.of rfl) | split | unfold x
    | dsimp only

theorem State.setCelState_keeps (hm : Sub 2 pm) (hk : Keeps pm sk s) (c : Nat) (v : Nat) : Keeps pm sk (State.setCelState s c v) := by
  unfold State.setCelState
  repeat' first
    | with_reducible assumption | with_reducible apply State.setF_keeps (hm.of rfl) | dsimp only

theorem State.setMemQueue_keeps (hm : Sub 33554434 pm) (hk : Keeps pm sk s) (l : List MemReq) : Keeps pm sk (State.setMemQueue s l) := by
  unfold State.setMemQueue
  repeat' first
    | with_reducible assumption | refine fun t (ht : Keeps pm sk t) => ?_ | refine fun _ t (ht : Keeps pm sk t) => ?_
    | with_reducible apply State.setB_keeps (hm.of rfl) | with_reducible refine Keeps.foldl ?_ _ (fun t y ht => ?_)
    | with_reducible refine Keeps.foldl2 ?_ _ (fun t y ht => ?_) | dsimp only | with_reducible refine Keeps.upd ?_

theorem State.drainStart_keeps (hm : Sub 33554432 pm) (hk : Keeps pm sk s) (r : MemReq) : Keeps pm sk (State.drainStart s r) := by
  unfold State.drainStart
  repeat' first
    | with_reducible assumption | refine fun t (ht : Keeps pm sk t) => ?_ | refine fun _ t (ht : Keeps pm sk t) => ?_
    | ((try lift_lets); intro x; refine Keeps.cut (pm := pm) (sk := sk) (x := x) ?_ (fun hx => ?_); rotate_left; clear_value x; rotate_right)
    | ((try lift_lets); intro x; clear_value x) | split | unfold x | dsimp only | with_reducible refine Keeps.upd ?_

theorem State.storeReq_keeps (hm : Sub 34078724 pm) (hk : Keeps pm sk s) (r : MemReq) : Keeps pm sk (State.storeReq s r) := by
  unfold State.storeReq
  repeat' first
    | with_reducible assumption | with_reducible apply State.hostMemWrite_keeps (hm.of rfl)
    | with_reducible apply State.writeBytes_keeps (hm.of rfl) | split | dsimp only

theorem State.unspoil_keeps (hm : Sub 33554432 pm) (hk : Keeps pm sk s) (a : Nat) : Keeps pm sk (State.unspoil s a) := by
  unfold State.unspoil
  repeat' first
    | with_reducible assumption | refine fun t (ht : Keeps pm sk t) => ?_ | refine fun _ t (ht : Keeps pm sk t) => ?_ | dsimp only
    | with_reducible refine Keeps.upd ?_

theorem State.queueWrite_keeps (hm : Sub 33554434 pm) (hk : Keeps pm sk s) (r : MemReq) : Keeps pm sk (State.queueWrite s r) := by
  unfold State.queueWrite
  repeat' first
    | with_reducible assumption | refine fun t (ht : Keeps pm sk t) => ?_ | refine fun _ t (ht : Keeps pm sk t) => ?_
    | ((try lift_lets); intro x; refine Keeps.cut (pm := pm) (sk := sk) (x := x) ?_ (fun hx => ?_); rotate_left; clear_value x; rotate_right)
    | ((try lift_lets); intro x; clear_value x) | with_reducible apply State.drainStart_keeps (hm.of rfl)
    | with_reducible apply State.setMemQueue_keeps (hm.of rfl) | with_reducible apply State.unspoil_keeps (hm.of rfl) | split | unfold x
    | dsimp only | with_reducible refine Keeps.upd ?_

theorem State.admitReq_keeps (hm : Sub 34102278 pm) (hk : Keeps pm sk s) (r : MemReq) : Keeps pm sk (State.admitReq s r) := by
  unfold State.admitReq
  repeat' first
    | with_reducible assumption | refine fun t (ht : Keeps pm sk t) => ?_ | refine fun _ t (ht : Keeps pm sk t) => ?_
    | ((try lift_lets); intro x; refine Keeps.cut (pm := pm) (sk := sk) (x := x) ?_ (fun hx => ?_); rotate_left; clear_value x; rotate_right)
    | ((try lift_lets); intro x; clear_value x) | with_reducible apply State.incSat_keeps (hm.of rfl)
    | with_reducible apply State.occur_keeps (hm.of rfl) | with_reducible apply State.portTake_keeps (hm.of rfl)
    | with_reducible apply State.queueWrite_keeps (hm.of rfl) | with_reducible apply State.setMemQueue_keeps (hm.of rfl)
    | with_reducible apply State.storeReq_keeps (hm.of rfl) | split | unfold x | dsimp only | with_reducible refine Keeps.upd ?_

theorem State.admitAll_keeps (hm : Sub 34102278 pm) (hk : Keeps pm sk s) (n : Nat) : Keeps pm sk (State.admitAll n s) := by
  induction n generalizing s with
  | zero => exact hk
  | succ n ih =>
    unfold State.admitAll
    split
    · exact hk
    · exact ih (State.admitReq_keeps (hm.of rfl) hk _)

theorem State.takeIn_keeps (hm : Sub 34102278 pm) (hk : Keeps pm sk s) : Keeps pm sk s.takeIn := State.admitAll_keeps (hm.of rfl) hk _

theorem execRegCfgWrite_keeps (hm : Sub 34102542 pm) (hk : Keeps pm sk s) (near : Bool) (p : Nat) (v : Word) : OutKeeps pm sk (execRegCfgWrite near p v s) := by
  unfold execRegCfgWrite
  repeat' first
    | with_reducible assumption | refine fun t (ht : Keeps pm sk t) => ?_ | refine fun _ t (ht : Keeps pm sk t) => ?_
    | with_reducible apply OutKeeps.next | with_reducible apply State.budget_keeps (hm.of rfl)
    | with_reducible apply State.hostWrite_keeps (hm.of rfl) | with_reducible apply State.setBucket_keeps (hm.of rfl)
    | with_reducible apply State.takeIn_keeps (hm.of rfl) | with_reducible apply State.writeMasked_keeps (hm.of rfl) | split | dsimp only

theorem execMapApply_keeps (hm : Sub 34364422 pm) (hk : Keeps pm sk s) (near : Bool) : OutKeeps pm sk (execMapApply near s) := by
  unfold execMapApply
  apply OutKeeps.next
  dsimp only
  have h1 := Keeps.foldl hk (s.stagedIn (celBase (storeCtl near))) fun t a ht => State.dropForce_keeps (hm.of rfl) ht a
  generalize (s.stagedIn (celBase (storeCtl near))).foldl (fun s a => s.dropForce a) s = t at h1 ⊢
  have hw : Tab.wf memDefault (s.mem.foldl (fun l c =>
      Tab.set memDefault l (if inStore near c.1 then movedAddr s t near c.1 else c.1) c.2) []) = true := by
    generalize s.mem = l
    have gen (l : List (Nat × Byte)) (r : Tab Byte) (hr : Tab.wf memDefault r = true) : Tab.wf memDefault (l.foldl (fun l c =>
        Tab.set memDefault l (if inStore near c.1 then movedAddr s t near c.1 else c.1) c.2) r) = true := by
      induction l generalizing r with
      | nil => exact hr
      | cons c l ih => exact ih _ (Tab.wf_set memDefault _ _ hr)
    exact gen l [] rfl
  split
  · refine State.takeIn_keeps (hm.of rfl) (State.occur_keeps (hm.of rfl) (State.setB_keeps (hm.of rfl) ?_ _ _ _) _)
    exact Keeps.updMem h1 hw
  · exact hk

theorem execPortRequest_keeps (hm : Sub 34102278 pm) (hk : Keeps pm sk s) (port : Nat) (addr : Nat) (write : Bool) (off : Nat) (data : List Byte) : OutKeeps pm sk (execPortRequest port addr write off data s) := by
  unfold execPortRequest
  repeat' first
    | with_reducible assumption
    | ((try lift_lets); intro x; refine Keeps.cut (pm := pm) (sk := sk) (x := x) ?_ (fun hx => ?_); rotate_left; clear_value x; rotate_right)
    | ((try lift_lets); intro x; clear_value x) | with_reducible apply OutKeeps.next
    | with_reducible apply State.portMark_keeps (hm.of rfl) | with_reducible apply State.takeIn_keeps (hm.of rfl) | split | unfold x
    | dsimp only | with_reducible refine Keeps.upd ?_

theorem State.holdOn_keeps (hm : Sub 33554432 pm) (hk : Keeps pm sk s) (r : MemReq) : Keeps pm sk (State.holdOn s r) := by
  unfold State.holdOn
  repeat' first
    | with_reducible assumption | refine fun t (ht : Keeps pm sk t) => ?_ | refine fun _ t (ht : Keeps pm sk t) => ?_ | split
    | dsimp only | with_reducible refine Keeps.upd ?_

theorem execMemoryIssue_keeps (hm : Sub 34102278 pm) (hk : Keeps pm sk s) (c : Nat) (u : Nat) (ecc : Nat) : OutKeeps pm sk (execMemoryIssue c u ecc s) := by
  unfold execMemoryIssue
  repeat' first
    | with_reducible assumption | refine fun t (ht : Keeps pm sk t) => ?_ | refine fun _ t (ht : Keeps pm sk t) => ?_
    | ((try lift_lets); intro x; refine Keeps.cut (pm := pm) (sk := sk) (x := x) ?_ (fun hx => ?_); rotate_left; clear_value x; rotate_right)
    | ((try lift_lets); intro x; refine Keeps.cut2 (pm := pm) (sk := sk) (x := x) ?_ (fun hx => ?_); rotate_left; clear_value x; rotate_right)
    | ((try lift_lets); intro x; refine Keeps.cut3 (pm := pm) (sk := sk) (x := x) ?_ (fun hx => ?_); rotate_left; clear_value x; rotate_right)
    | ((try lift_lets); intro x; clear_value x) | with_reducible apply OutKeeps.next
    | with_reducible apply State.checked_keeps (hm.of rfl) | with_reducible apply State.holdOn_keeps (hm.of rfl)
    | with_reducible apply State.setMemQueue_keeps (hm.of rfl) | with_reducible apply State.takeIn_keeps (hm.of rfl) | split | unfold x
    | dsimp only | with_reducible refine Keeps.upd ?_

theorem execMemoryReadComplete_keeps (hm : Sub 33577986 pm) (hk : Keeps pm sk s) (c : Nat) (u : Nat) (ecc : Nat) : OutKeeps pm sk (execMemoryReadComplete c u ecc s) := by
  unfold execMemoryReadComplete
  repeat' first
    | with_reducible assumption | refine fun t (ht : Keeps pm sk t) => ?_ | refine fun _ t (ht : Keeps pm sk t) => ?_
    | ((try lift_lets); intro x; refine Keeps.cut (pm := pm) (sk := sk) (x := x) ?_ (fun hx => ?_); rotate_left; clear_value x; rotate_right)
    | ((try lift_lets); intro x; refine Keeps.cut2 (pm := pm) (sk := sk) (x := x) ?_ (fun hx => ?_); rotate_left; clear_value x; rotate_right)
    | ((try lift_lets); intro x; refine Keeps.cut3 (pm := pm) (sk := sk) (x := x) ?_ (fun hx => ?_); rotate_left; clear_value x; rotate_right)
    | ((try lift_lets); intro x; clear_value x) | with_reducible apply OutKeeps.next
    | with_reducible apply State.checked_keeps (hm.of rfl) | with_reducible apply State.holdOn_keeps (hm.of rfl)
    | with_reducible apply State.setMemQueue_keeps (hm.of rfl) | split | unfold x | dsimp only | with_reducible refine Keeps.upd ?_

theorem execScrubAccess_keeps (hm : Sub 33577986 pm) (hk : Keeps pm sk s) (c : Nat) (a : Nat) (ecc : Nat) : OutKeeps pm sk (execScrubAccess c a ecc s) := by
  unfold execScrubAccess
  repeat' first
    | with_reducible assumption | refine fun t (ht : Keeps pm sk t) => ?_ | refine fun _ t (ht : Keeps pm sk t) => ?_
    | ((try lift_lets); intro x; refine Keeps.cut (pm := pm) (sk := sk) (x := x) ?_ (fun hx => ?_); rotate_left; clear_value x; rotate_right)
    | ((try lift_lets); intro x; refine Keeps.cut2 (pm := pm) (sk := sk) (x := x) ?_ (fun hx => ?_); rotate_left; clear_value x; rotate_right)
    | ((try lift_lets); intro x; refine Keeps.cut3 (pm := pm) (sk := sk) (x := x) ?_ (fun hx => ?_); rotate_left; clear_value x; rotate_right)
    | ((try lift_lets); intro x; clear_value x) | with_reducible apply OutKeeps.next
    | with_reducible apply State.checked_keeps (hm.of rfl) | split | unfold x | dsimp only | with_reducible refine Keeps.upd ?_

theorem State.setOwed_keeps (hm : Sub 33554434 pm) (hk : Keeps pm sk s) (c : Nat) (k : Nat) (v : Int) : Keeps pm sk (State.setOwed s c k v) := by
  unfold State.setOwed
  repeat' first
    | with_reducible assumption | refine fun t (ht : Keeps pm sk t) => ?_ | refine fun _ t (ht : Keeps pm sk t) => ?_
    | ((try lift_lets); intro x; refine Keeps.cut (pm := pm) (sk := sk) (x := x) ?_ (fun hx => ?_); rotate_left; clear_value x; rotate_right)
    | ((try lift_lets); intro x; clear_value x) | with_reducible apply State.setF_keeps (hm.of rfl) | split | unfold x | dsimp only
    | with_reducible refine Keeps.upd ?_

theorem State.closeRank_keeps (hm : Sub 33554432 pm) (hk : Keeps pm sk s) (k : Nat) : Keeps pm sk (State.closeRank s k) := by
  unfold State.closeRank
  repeat' first
    | with_reducible assumption | refine fun t (ht : Keeps pm sk t) => ?_ | refine fun _ t (ht : Keeps pm sk t) => ?_ | dsimp only
    | with_reducible refine Keeps.upd ?_

theorem execTrefiTick_keeps (hm : Sub 34102275 pm) (hk : Keeps pm sk s) (c : Nat) (u : Nat) (r : Nat) : OutKeeps pm sk (execTrefiTick c u r s) := by
  unfold execTrefiTick
  repeat' first
    | with_reducible assumption | refine fun t (ht : Keeps pm sk t) => ?_ | refine fun _ t (ht : Keeps pm sk t) => ?_
    | ((try lift_lets); intro x; refine Keeps.cut (pm := pm) (sk := sk) (x := x) ?_ (fun hx => ?_); rotate_left; clear_value x; rotate_right)
    | ((try lift_lets); intro x; clear_value x) | with_reducible apply OutKeeps.next
    | with_reducible apply State.closeRank_keeps (hm.of rfl) | with_reducible apply State.incSat_keeps (hm.of rfl)
    | with_reducible apply State.occur_keeps (hm.of rfl) | with_reducible apply State.passTo_keeps (hm.of rfl)
    | with_reducible apply State.setOwed_keeps (hm.of rfl) | split | unfold x | dsimp only | with_reducible refine Keeps.upd ?_

theorem State.closeBank_keeps (hm : Sub 33554432 pm) (hk : Keeps pm sk s) (c : Nat) (k : Nat) (b : Nat) : Keeps pm sk (State.closeBank s c k b) := by
  unfold State.closeBank
  repeat' first
    | with_reducible assumption | refine fun t (ht : Keeps pm sk t) => ?_ | refine fun _ t (ht : Keeps pm sk t) => ?_ | dsimp only
    | with_reducible refine Keeps.upd ?_

theorem State.sweepBank_keeps (hm : Sub 33554434 pm) (hk : Keeps pm sk s) (c : Nat) (k : Nat) (b : Nat) : Keeps pm sk (State.sweepBank s c k b) := by
  unfold State.sweepBank
  repeat' first
    | with_reducible assumption | refine fun t (ht : Keeps pm sk t) => ?_ | refine fun _ t (ht : Keeps pm sk t) => ?_
    | ((try lift_lets); intro x; refine Keeps.cut (pm := pm) (sk := sk) (x := x) ?_ (fun hx => ?_); rotate_left; clear_value x; rotate_right)
    | ((try lift_lets); intro x; clear_value x) | with_reducible apply State.closeBank_keeps (hm.of rfl)
    | with_reducible apply State.setOwed_keeps (hm.of rfl) | split | unfold x | dsimp only | with_reducible refine Keeps.upd ?_

theorem execRefreshComplete_keeps (hm : Sub 34102275 pm) (hk : Keeps pm sk s) (c : Nat) (u : Nat) (r : Nat) (bank : Option Nat) : OutKeeps pm sk (execRefreshComplete c u r bank s) := by
  unfold execRefreshComplete
  repeat' first
    | with_reducible assumption | refine fun t (ht : Keeps pm sk t) => ?_ | refine fun _ t (ht : Keeps pm sk t) => ?_
    | ((try lift_lets); intro x; refine Keeps.cut (pm := pm) (sk := sk) (x := x) ?_ (fun hx => ?_); rotate_left; clear_value x; rotate_right)
    | ((try lift_lets); intro x; clear_value x) | with_reducible apply OutKeeps.next
    | with_reducible apply State.closeRank_keeps (hm.of rfl) | with_reducible apply State.passTo_keeps (hm.of rfl)
    | with_reducible apply State.setOwed_keeps (hm.of rfl) | with_reducible apply State.sweepBank_keeps (hm.of rfl) | split | unfold x
    | dsimp only | with_reducible refine Keeps.upd ?_

theorem execRealtimeHoldEnd_keeps (hm : Sub 34102275 pm) (hk : Keeps pm sk s) (c : Nat) (u : Nat) (r : Nat) : OutKeeps pm sk (execRealtimeHoldEnd c u r s) := by
  unfold execRealtimeHoldEnd
  repeat' first
    | with_reducible assumption | refine fun t (ht : Keeps pm sk t) => ?_ | refine fun _ t (ht : Keeps pm sk t) => ?_
    | ((try lift_lets); intro x; refine Keeps.cut (pm := pm) (sk := sk) (x := x) ?_ (fun hx => ?_); rotate_left; clear_value x; rotate_right)
    | ((try lift_lets); intro x; clear_value x) | with_reducible apply OutKeeps.next
    | with_reducible apply State.passTo_keeps (hm.of rfl) | split | unfold x | dsimp only | with_reducible refine Keeps.upd ?_

theorem execDramTempPoll_keeps (hm : Sub 34102275 pm) (hk : Keeps pm sk s) (c : Nat) (t0 : Int) (t1 : Int) : OutKeeps pm sk (execDramTempPoll c t0 t1 s) := by
  unfold execDramTempPoll
  repeat' first
    | with_reducible assumption | refine fun t (ht : Keeps pm sk t) => ?_ | refine fun _ t (ht : Keeps pm sk t) => ?_
    | ((try lift_lets); intro x; refine Keeps.cut (pm := pm) (sk := sk) (x := x) ?_ (fun hx => ?_); rotate_left; clear_value x; rotate_right)
    | ((try lift_lets); intro x; clear_value x) | with_reducible apply OutKeeps.next
    | with_reducible apply State.passTo_keeps (hm.of rfl) | with_reducible apply State.setB_keeps (hm.of rfl)
    | with_reducible apply State.setLive_keeps (hm.of rfl) | with_reducible apply State.setReg_keeps (hm.of rfl) | split | unfold x
    | dsimp only | with_reducible refine Keeps.upd ?_

theorem State.selfRefreshIn_keeps (hm : Sub 33554434 pm) (hk : Keeps pm sk s) (c : Nat) : Keeps pm sk (State.selfRefreshIn s c) := by
  unfold State.selfRefreshIn
  repeat' first
    | with_reducible assumption | refine fun t (ht : Keeps pm sk t) => ?_ | refine fun _ t (ht : Keeps pm sk t) => ?_
    | with_reducible apply State.closeRank_keeps (hm.of rfl) | with_reducible apply State.setCelState_keeps (hm.of rfl)
    | with_reducible refine Keeps.foldl ?_ _ (fun t y ht => ?_) | with_reducible refine Keeps.foldl2 ?_ _ (fun t y ht => ?_) | dsimp only

theorem State.selfRefreshAll_keeps (hm : Sub 33554434 pm) (hk : Keeps pm sk s) : Keeps pm sk (State.selfRefreshAll s) := by
  unfold State.selfRefreshAll
  repeat' first
    | with_reducible assumption | refine fun t (ht : Keeps pm sk t) => ?_ | refine fun _ t (ht : Keeps pm sk t) => ?_
    | ((try lift_lets); intro x; refine Keeps.cut (pm := pm) (sk := sk) (x := x) ?_ (fun hx => ?_); rotate_left; clear_value x; rotate_right)
    | ((try lift_lets); intro x; clear_value x) | with_reducible apply State.selfRefreshIn_keeps (hm.of rfl)
    | with_reducible apply State.setMemQueue_keeps (hm.of rfl) | with_reducible apply State.setOwed_keeps (hm.of rfl)
    | with_reducible refine Keeps.foldl ?_ _ (fun t y ht => ?_) | with_reducible refine Keeps.foldl2 ?_ _ (fun t y ht => ?_) | split
    | unfold x | dsimp only

theorem execSelfRefreshEntry_keeps (hm : Sub 33554434 pm) (hk : Keeps pm sk s) (c : Nat) : OutKeeps pm sk (execSelfRefreshEntry c s) := by
  unfold execSelfRefreshEntry
  repeat' first
    | with_reducible assumption | refine fun t (ht : Keeps pm sk t) => ?_ | refine fun _ t (ht : Keeps pm sk t) => ?_
    | with_reducible apply OutKeeps.next | with_reducible apply State.selfRefreshIn_keeps (hm.of rfl) | split | dsimp only

theorem State.selfRefreshOut_keeps (hm : Sub 34102278 pm) (hk : Keeps pm sk s) (c : Nat) : Keeps pm sk (State.selfRefreshOut s c) := by
  unfold State.selfRefreshOut
  repeat' first
    | with_reducible assumption | refine fun t (ht : Keeps pm sk t) => ?_ | refine fun _ t (ht : Keeps pm sk t) => ?_
    | ((try lift_lets); intro x; refine Keeps.cut (pm := pm) (sk := sk) (x := x) ?_ (fun hx => ?_); rotate_left; clear_value x; rotate_right)
    | ((try lift_lets); intro x; refine Keeps.cut2 (pm := pm) (sk := sk) (x := x) ?_ (fun hx => ?_); rotate_left; clear_value x; rotate_right)
    | ((try lift_lets); intro x; refine Keeps.cut3 (pm := pm) (sk := sk) (x := x) ?_ (fun hx => ?_); rotate_left; clear_value x; rotate_right)
    | ((try lift_lets); intro x; clear_value x) | with_reducible apply State.setCelState_keeps (hm.of rfl)
    | with_reducible apply State.setOwed_keeps (hm.of rfl) | with_reducible apply State.takeIn_keeps (hm.of rfl)
    | with_reducible refine Keeps.foldl ?_ _ (fun t y ht => ?_) | with_reducible refine Keeps.foldl2 ?_ _ (fun t y ht => ?_) | unfold x
    | dsimp only | with_reducible refine Keeps.upd ?_

theorem execSelfRefreshExit_keeps (hm : Sub 34102278 pm) (hk : Keeps pm sk s) (c : Nat) : OutKeeps pm sk (execSelfRefreshExit c s) := by
  unfold execSelfRefreshExit
  repeat' first
    | with_reducible assumption | with_reducible apply OutKeeps.next | with_reducible apply State.selfRefreshOut_keeps (hm.of rfl)
    | split | dsimp only

theorem State.selfRefreshEnd_keeps (hm : Sub 34102278 pm) (hk : Keeps pm sk s) : Keeps pm sk (State.selfRefreshEnd s) := by
  unfold State.selfRefreshEnd
  repeat' first
    | with_reducible assumption | refine fun t (ht : Keeps pm sk t) => ?_ | refine fun _ t (ht : Keeps pm sk t) => ?_
    | with_reducible apply State.selfRefreshOut_keeps (hm.of rfl) | with_reducible refine Keeps.foldl ?_ _ (fun t y ht => ?_)
    | with_reducible refine Keeps.foldl2 ?_ _ (fun t y ht => ?_) | split | dsimp only

theorem State.mapDefaults_keeps (hm : Sub 262146 pm) (hk : Keeps pm sk s) : Keeps pm sk (State.mapDefaults s) := by
  unfold State.mapDefaults
  repeat' first
    | with_reducible assumption | refine fun t (ht : Keeps pm sk t) => ?_ | refine fun _ t (ht : Keeps pm sk t) => ?_
    | ((try lift_lets); intro x; refine Keeps.cut (pm := pm) (sk := sk) (x := x) ?_ (fun hx => ?_); rotate_left; clear_value x; rotate_right)
    | ((try lift_lets); intro x; clear_value x) | with_reducible apply State.dropForce_keeps (hm.of rfl)
    | with_reducible apply State.setReg64_keeps (hm.of rfl) | with_reducible refine Keeps.foldl ?_ _ (fun t y ht => ?_)
    | with_reducible refine Keeps.foldl2 ?_ _ (fun t y ht => ?_) | unfold x | dsimp only

theorem State.trainEnd_keeps (hm : Sub 33840130 pm) (hk : Keeps pm sk s) : Keeps pm sk (State.trainEnd s) := by
  unfold State.trainEnd
  repeat' first
    | with_reducible assumption | refine fun t (ht : Keeps pm sk t) => ?_ | refine fun _ t (ht : Keeps pm sk t) => ?_
    | ((try lift_lets); intro x; refine Keeps.cut (pm := pm) (sk := sk) (x := x) ?_ (fun hx => ?_); rotate_left; clear_value x; rotate_right)
    | ((try lift_lets); intro x; clear_value x) | with_reducible apply State.budget_keeps (hm.of rfl)
    | with_reducible apply State.mapDefaults_keeps (hm.of rfl) | with_reducible apply State.setCelState_keeps (hm.of rfl)
    | with_reducible apply State.setF_keeps (hm.of rfl) | with_reducible apply State.setReg_keeps (hm.of rfl)
    | with_reducible refine Keeps.foldl ?_ _ (fun t y ht => ?_) | with_reducible refine Keeps.foldl2 ?_ _ (fun t y ht => ?_) | split
    | unfold x | dsimp only | with_reducible refine Keeps.upd ?_

theorem execMemTrainingDone_keeps (hm : Sub 33840130 pm) (hk : Keeps pm sk s) (c : Nat) (geom : Word) (registered : Bool) (result : Nat) (ms : Nat) (repaired : Nat) (spd : Nat) (trfc : Nat) (fenced : List Nat) : OutKeeps pm sk (execMemTrainingDone c geom registered result ms repaired spd trfc fenced s) := by
  unfold execMemTrainingDone
  repeat' first
    | with_reducible assumption | refine fun t (ht : Keeps pm sk t) => ?_ | refine fun _ t (ht : Keeps pm sk t) => ?_
    | ((try lift_lets); intro x; refine Keeps.cut (pm := pm) (sk := sk) (x := x) ?_ (fun hx => ?_); rotate_left; clear_value x; rotate_right)
    | ((try lift_lets); intro x; clear_value x) | with_reducible apply OutKeeps.next | with_reducible apply State.occur_keeps (hm.of rfl)
    | with_reducible apply State.setCelState_keeps (hm.of rfl) | with_reducible apply State.setReg_keeps (hm.of rfl)
    | with_reducible apply State.trainEnd_keeps (hm.of rfl) | split | unfold x | dsimp only | with_reducible refine Keeps.upd ?_

theorem State.celReset_keeps (hm : Sub 33554434 pm) (hk : Keeps pm sk s) (c : Nat) : Keeps pm sk (State.celReset s c) := by
  unfold State.celReset
  repeat' first
    | with_reducible assumption | refine fun t (ht : Keeps pm sk t) => ?_ | refine fun _ t (ht : Keeps pm sk t) => ?_
    | ((try lift_lets); intro x; refine Keeps.cut (pm := pm) (sk := sk) (x := x) ?_ (fun hx => ?_); rotate_left; clear_value x; rotate_right)
    | ((try lift_lets); intro x; clear_value x) | with_reducible apply State.setBucket_keeps (hm.of rfl)
    | with_reducible apply State.setReg_keeps (hm.of rfl) | with_reducible apply State.setReg64_keeps (hm.of rfl)
    | with_reducible refine Keeps.foldl ?_ _ (fun t y ht => ?_) | with_reducible refine Keeps.foldl2 ?_ _ (fun t y ht => ?_) | split
    | unfold x | dsimp only

theorem State.setCal_keeps (hm : Sub 16777216 pm) (hk : Keeps pm sk s) (c : Calib) : Keeps pm sk (State.setCal s c) := by
  unfold State.setCal
  repeat' first
    | with_reducible assumption | dsimp only | with_reducible refine Keeps.upd ?_

theorem State.calState_keeps (hm : Sub 2 pm) (hk : Keeps pm sk s) (st : Nat) : Keeps pm sk (State.calState s st) := by
  unfold State.calState
  repeat' first
    | with_reducible assumption | with_reducible apply State.setB_keeps (hm.of rfl) | with_reducible apply State.setF_keeps (hm.of rfl)
    | dsimp only

theorem State.calTake_keeps (hm : Sub 4194306 pm) (hk : Keeps pm sk s) (besides : Nat) : Keeps pm sk (State.calTake s besides) := by
  unfold State.calTake
  repeat' first
    | with_reducible assumption | refine fun t (ht : Keeps pm sk t) => ?_ | refine fun _ t (ht : Keeps pm sk t) => ?_
    | ((try lift_lets); intro x; refine Keeps.cut (pm := pm) (sk := sk) (x := x) ?_ (fun hx => ?_); rotate_left; clear_value x; rotate_right)
    | ((try lift_lets); intro x; clear_value x) | with_reducible apply State.setTdc_keeps (hm.of rfl)
    | with_reducible refine Keeps.foldl ?_ _ (fun t y ht => ?_) | with_reducible refine Keeps.foldl2 ?_ _ (fun t y ht => ?_) | split
    | unfold x | dsimp only | with_reducible refine Keeps.upd ?_

theorem State.calReturn_keeps (hm : Sub 4194306 pm) (hk : Keeps pm sk s) (e : Nat) : Keeps pm sk (State.calReturn s e) := by
  unfold State.calReturn
  repeat' first
    | with_reducible assumption
    | ((try lift_lets); intro x; refine Keeps.cut (pm := pm) (sk := sk) (x := x) ?_ (fun hx => ?_); rotate_left; clear_value x; rotate_right)
    | ((try lift_lets); intro x; clear_value x) | with_reducible apply State.setTdc_keeps (hm.of rfl)
    | with_reducible apply State.tdcBegin_keeps (hm.of rfl) | split | unfold x | dsimp only | with_reducible refine Keeps.upd ?_

theorem State.calEnd_keeps (hm : Sub 21191698 pm) (hk : Keeps pm sk s) (result : Nat) (outcome : Nat) (m : Option Nat) : Keeps pm sk (State.calEnd s result outcome m) := by
  unfold State.calEnd
  repeat' first
    | with_reducible assumption | refine fun t (ht : Keeps pm sk t) => ?_ | refine fun _ t (ht : Keeps pm sk t) => ?_
    | ((try lift_lets); intro x; refine Keeps.cut (pm := pm) (sk := sk) (x := x) ?_ (fun hx => ?_); rotate_left; clear_value x; rotate_right)
    | ((try lift_lets); intro x; clear_value x) | with_reducible apply State.calReturn_keeps (hm.of rfl)
    | with_reducible apply State.calState_keeps (hm.of rfl) | with_reducible apply State.endRun_keeps (hm.of rfl)
    | with_reducible apply State.occur_keeps (hm.of rfl) | with_reducible apply State.setCal_keeps (hm.of rfl)
    | with_reducible apply State.setF_keeps (hm.of rfl) | with_reducible refine Keeps.foldl ?_ _ (fun t y ht => ?_)
    | with_reducible refine Keeps.foldl2 ?_ _ (fun t y ht => ?_) | unfold x | dsimp only | with_reducible refine Keeps.upd ?_

theorem State.calAccept_keeps (hm : Sub 50879491 pm) (hk : Keeps pm sk s) (code : Nat) (trigger : Nat) (slot : Nat) : Keeps pm sk (State.calAccept s code trigger slot) := by
  unfold State.calAccept
  repeat' first
    | with_reducible assumption
    | ((try lift_lets); intro x; refine Keeps.cut (pm := pm) (sk := sk) (x := x) ?_ (fun hx => ?_); rotate_left; clear_value x; rotate_right)
    | ((try lift_lets); intro x; clear_value x) | with_reducible apply State.calState_keeps (hm.of rfl)
    | with_reducible apply State.portDone_keeps (hm.of rfl) | with_reducible apply State.setCal_keeps (hm.of rfl)
    | with_reducible apply State.setReg_keeps (hm.of rfl) | with_reducible apply State.trigger_keeps (hm.of rfl) | split | unfold x
    | dsimp only | with_reducible refine Keeps.upd ?_

theorem State.calBegin_keeps (hm : Sub 20971522 pm) (hk : Keeps pm sk s) : Keeps pm sk (State.calBegin s) := by
  unfold State.calBegin
  repeat' first
    | with_reducible assumption | with_reducible apply State.calState_keeps (hm.of rfl)
    | with_reducible apply State.calTake_keeps (hm.of rfl) | with_reducible apply State.setCal_keeps (hm.of rfl) | split | dsimp only
    | with_reducible refine Keeps.upd ?_

theorem State.calStart_keeps (hm : Sub 55270419 pm) (hk : Keeps pm sk s) (code : Nat) (trigger : Nat) (admitted : Bool) : Keeps pm sk (State.calStart s code trigger admitted) := by
  unfold State.calStart
  repeat' first
    | with_reducible assumption
    | ((try lift_lets); intro x; refine Keeps.cut (pm := pm) (sk := sk) (x := x) ?_ (fun hx => ?_); rotate_left; clear_value x; rotate_right)
    | ((try lift_lets); intro x; refine Keeps.cutG (pm := pm) (sk := sk) (x := x) (fun a ha => ?_) (fun hx => ?_))
    | ((try lift_lets); intro x; refine Keeps.cutH (pm := pm) (sk := sk) (x := x) (fun a b ha => ?_) (fun hx => ?_))
    | ((try lift_lets); intro x; refine Keeps.cutF2 (pm := pm) (sk := sk) (x := x) (fun a b => ?_) (fun hx => ?_))
    | ((try lift_lets); intro x; refine Keeps.cutF (pm := pm) (sk := sk) (x := x) (fun a => ?_) (fun hx => ?_))
    | ((try lift_lets); intro x; clear_value x) | with_reducible apply State.calAccept_keeps (hm.of rfl)
    | with_reducible apply State.calBegin_keeps (hm.of rfl) | with_reducible apply State.calEnd_keeps (hm.of rfl)
    | with_reducible apply State.setReg_keeps (hm.of rfl) | with_reducible apply State.trigger_keeps (hm.of rfl) | split | unfold x
    | dsimp only

theorem execItemStart_keeps (hm : Sub 55270683 pm) (hk : Keeps pm sk s) : OutKeeps pm sk (execItemStart s) := by
  unfold execItemStart
  repeat' first
    | with_reducible assumption | refine fun t (ht : Keeps pm sk t) => ?_ | refine fun _ t (ht : Keeps pm sk t) => ?_
    | ((try lift_lets); intro x; refine Keeps.cut (pm := pm) (sk := sk) (x := x) ?_ (fun hx => ?_); rotate_left; clear_value x; rotate_right)
    | ((try lift_lets); intro x; clear_value x) | with_reducible apply OutKeeps.next
    | with_reducible apply State.calStart_keeps (hm.of rfl) | with_reducible apply State.denyStart_keeps (hm.of rfl)
    | with_reducible apply State.hostWrite_keeps (hm.of rfl) | with_reducible apply State.waitStart_keeps (hm.of rfl) | split | unfold x
    | dsimp only

theorem State.calAbort_keeps (hm : Sub 21191698 pm) (hk : Keeps pm sk s) : Keeps pm sk (State.calAbort s) := by
  unfold State.calAbort
  repeat' first
    | with_reducible assumption | with_reducible apply State.calEnd_keeps (hm.of rfl) | with_reducible apply State.setF_keeps (hm.of rfl)
    | with_reducible apply State.withdraw_keeps (hm.of rfl) | split | dsimp only

theorem execItemAbort_keeps (hm : Sub 21191962 pm) (hk : Keeps pm sk s) : OutKeeps pm sk (execItemAbort s) := by
  unfold execItemAbort
  repeat' first
    | with_reducible assumption | refine fun t (ht : Keeps pm sk t) => ?_ | refine fun _ t (ht : Keeps pm sk t) => ?_
    | with_reducible apply OutKeeps.next | with_reducible apply State.calAbort_keeps (hm.of rfl)
    | with_reducible apply State.hostWrite_keeps (hm.of rfl) | dsimp only

theorem execCalEngineRelease_keeps (hm : Sub 4194306 pm) (hk : Keeps pm sk s) (e : Nat) : OutKeeps pm sk (execCalEngineRelease e s) := by
  unfold execCalEngineRelease
  repeat' first
    | with_reducible assumption | with_reducible apply OutKeeps.next | with_reducible apply State.calReturn_keeps (hm.of rfl)
    | with_reducible apply State.calTake_keeps (hm.of rfl) | split | dsimp only

theorem State.writeCentres_keeps (hm : Sub 33554436 pm) (hk : Keeps pm sk s) (a : Nat) (j : Nat) : Keeps pm sk (State.writeCentres s a j) := by
  unfold State.writeCentres
  repeat' first
    | with_reducible assumption | refine fun t (ht : Keeps pm sk t) => ?_ | refine fun _ t (ht : Keeps pm sk t) => ?_
    | ((try lift_lets); intro x; refine Keeps.cut (pm := pm) (sk := sk) (x := x) ?_ (fun hx => ?_); rotate_left; clear_value x; rotate_right)
    | ((try lift_lets); intro x; clear_value x) | with_reducible apply State.writeBytes_keeps (hm.of rfl) | unfold x | dsimp only

theorem State.writeOffset_keeps (hm : Sub 34603012 pm) (hk : Keeps pm sk s) (it : CalItem) (q : Nat) (trip : Int) (low : Bool) : Keeps pm sk (State.writeOffset s it q trip low) := by
  unfold State.writeOffset
  repeat' first
    | with_reducible assumption
    | ((try lift_lets); intro x; refine Keeps.cut (pm := pm) (sk := sk) (x := x) ?_ (fun hx => ?_); rotate_left; clear_value x; rotate_right)
    | ((try lift_lets); intro x; clear_value x) | with_reducible apply State.writeLE_keeps (hm.of rfl) | split | unfold x | dsimp only

theorem State.writeVintage_keeps (hm : Sub 35150855 pm) (hk : Keeps pm sk s) (it : CalItem) (id : Nat) (meas : List (Nat × List Byte)) (trips : List (Nat × Int × Bool)) : Keeps pm sk (State.writeVintage s it id meas trips) := by
  unfold State.writeVintage
  repeat' first
    | with_reducible assumption | refine fun t (ht : Keeps pm sk t) => ?_ | refine fun _ t (ht : Keeps pm sk t) => ?_
    | ((try lift_lets); intro x; refine Keeps.cut (pm := pm) (sk := sk) (x := x) ?_ (fun hx => ?_); rotate_left; clear_value x; rotate_right)
    | ((try lift_lets); intro x; refine Keeps.cut2 (pm := pm) (sk := sk) (x := x) ?_ (fun hx => ?_); rotate_left; clear_value x; rotate_right)
    | ((try lift_lets); intro x; refine Keeps.cut3 (pm := pm) (sk := sk) (x := x) ?_ (fun hx => ?_); rotate_left; clear_value x; rotate_right)
    | ((try lift_lets); intro x; refine Keeps.cutG (pm := pm) (sk := sk) (x := x) (fun a ha => ?_) (fun hx => ?_))
    | ((try lift_lets); intro x; refine Keeps.cutH (pm := pm) (sk := sk) (x := x) (fun a b ha => ?_) (fun hx => ?_))
    | ((try lift_lets); intro x; refine Keeps.cutF2 (pm := pm) (sk := sk) (x := x) (fun a b => ?_) (fun hx => ?_))
    | ((try lift_lets); intro x; refine Keeps.cutF (pm := pm) (sk := sk) (x := x) (fun a => ?_) (fun hx => ?_))
    | ((try lift_lets); intro x; clear_value x) | with_reducible apply State.portDone_keeps (hm.of rfl)
    | with_reducible apply State.trigger_keeps (hm.of rfl) | with_reducible apply State.writeBytes_keeps (hm.of rfl)
    | with_reducible apply State.writeCentres_keeps (hm.of rfl) | with_reducible apply State.writeOffset_keeps (hm.of rfl)
    | with_reducible apply State.writeWords_keeps (hm.of rfl) | with_reducible refine Keeps.foldl ?_ _ (fun t y ht => ?_)
    | with_reducible refine Keeps.foldl2 ?_ _ (fun t y ht => ?_) | split | unfold x | dsimp only

theorem State.installNewest_keeps (hm : Sub 2 pm) (hk : Keeps pm sk s) (i : Nat) (id : Nat) (temp : Nat) : Keeps pm sk (State.installNewest s i id temp) := by
  unfold State.installNewest
  repeat' first
    | with_reducible assumption
    | ((try lift_lets); intro x; refine Keeps.cut (pm := pm) (sk := sk) (x := x) ?_ (fun hx => ?_); rotate_left; clear_value x; rotate_right)
    | ((try lift_lets); intro x; clear_value x) | with_reducible apply State.setF_keeps (hm.of rfl)
    | with_reducible apply State.setReg_keeps (hm.of rfl) | unfold x | dsimp only

theorem execItemCommit_keeps (hm : Sub 56318999 pm) (hk : Keeps pm sk s) (meas : List (Nat × List Byte)) (trips : List (Nat × Int × Bool)) (m : Nat) : OutKeeps pm sk (execItemCommit meas trips m s) := by
  unfold execItemCommit
  repeat' first
    | with_reducible assumption
    | ((try lift_lets); intro x; refine Keeps.cut (pm := pm) (sk := sk) (x := x) ?_ (fun hx => ?_); rotate_left; clear_value x; rotate_right)
    | ((try lift_lets); intro x; clear_value x) | with_reducible apply OutKeeps.next
    | with_reducible apply State.calEnd_keeps (hm.of rfl) | with_reducible apply State.installNewest_keeps (hm.of rfl)
    | with_reducible apply State.occur_keeps (hm.of rfl) | with_reducible apply State.setCal_keeps (hm.of rfl)
    | with_reducible apply State.writeVintage_keeps (hm.of rfl) | split | unfold x | dsimp only | with_reducible refine Keeps.upd ?_

theorem execDeskAdoptVintage_keeps (hm : Sub 16800770 pm) (hk : Keeps pm sk s) (d : Nat) : OutKeeps pm sk (execDeskAdoptVintage d s) := by
  unfold execDeskAdoptVintage
  repeat' first
    | with_reducible assumption | refine fun t (ht : Keeps pm sk t) => ?_ | refine fun _ t (ht : Keeps pm sk t) => ?_
    | ((try lift_lets); intro x; refine Keeps.cut (pm := pm) (sk := sk) (x := x) ?_ (fun hx => ?_); rotate_left; clear_value x; rotate_right)
    | ((try lift_lets); intro x; clear_value x) | with_reducible apply OutKeeps.next | with_reducible apply State.occur_keeps (hm.of rfl)
    | with_reducible apply State.setCal_keeps (hm.of rfl) | split | unfold x | dsimp only | with_reducible refine Keeps.upd ?_

theorem execSlotFlagsWrite_keeps (hm : Sub 23818 pm) (hk : Keeps pm sk s) (i : Nat) (v : Word) : OutKeeps pm sk (execSlotFlagsWrite i v s) := by
  unfold execSlotFlagsWrite
  repeat' first
    | with_reducible assumption | refine fun t (ht : Keeps pm sk t) => ?_ | refine fun _ t (ht : Keeps pm sk t) => ?_
    | with_reducible apply OutKeeps.next | with_reducible apply State.hostWrite_keeps (hm.of rfl)
    | with_reducible apply State.writeMasked_keeps (hm.of rfl) | split | dsimp only

theorem execVintageFlashSave_keeps (hm : Sub 16785408 pm) (hk : Keeps pm sk s) (i : Nat) : OutKeeps pm sk (execVintageFlashSave i s) := by
  unfold execVintageFlashSave
  repeat' first
    | with_reducible assumption | refine fun t (ht : Keeps pm sk t) => ?_ | refine fun _ t (ht : Keeps pm sk t) => ?_
    | ((try lift_lets); intro x; refine Keeps.cut (pm := pm) (sk := sk) (x := x) ?_ (fun hx => ?_); rotate_left; clear_value x; rotate_right)
    | ((try lift_lets); intro x; refine Keeps.cut2 (pm := pm) (sk := sk) (x := x) ?_ (fun hx => ?_); rotate_left; clear_value x; rotate_right)
    | ((try lift_lets); intro x; refine Keeps.cut3 (pm := pm) (sk := sk) (x := x) ?_ (fun hx => ?_); rotate_left; clear_value x; rotate_right)
    | ((try lift_lets); intro x; clear_value x) | with_reducible apply OutKeeps.next
    | with_reducible apply State.flashPut_keeps (hm.of rfl) | with_reducible apply State.setCal_keeps (hm.of rfl) | split | unfold x
    | dsimp only | with_reducible refine Keeps.upd ?_

theorem State.calBoot_keeps (hm : Sub 51928071 pm) (hk : Keeps pm sk s) (meas : List (Nat × List Byte)) : Keeps pm sk (State.calBoot s meas) := by
  unfold State.calBoot
  repeat' first
    | with_reducible assumption | refine fun t (ht : Keeps pm sk t) => ?_ | refine fun _ t (ht : Keeps pm sk t) => ?_
    | ((try lift_lets); intro x; refine Keeps.cut (pm := pm) (sk := sk) (x := x) ?_ (fun hx => ?_); rotate_left; clear_value x; rotate_right)
    | ((try lift_lets); intro x; refine Keeps.cut2 (pm := pm) (sk := sk) (x := x) ?_ (fun hx => ?_); rotate_left; clear_value x; rotate_right)
    | ((try lift_lets); intro x; refine Keeps.cut3 (pm := pm) (sk := sk) (x := x) ?_ (fun hx => ?_); rotate_left; clear_value x; rotate_right)
    | ((try lift_lets); intro x; clear_value x) | with_reducible apply State.installNewest_keeps (hm.of rfl)
    | with_reducible apply State.occur_keeps (hm.of rfl) | with_reducible apply State.setCal_keeps (hm.of rfl)
    | with_reducible apply State.setReg_keeps (hm.of rfl) | with_reducible apply State.trigger_keeps (hm.of rfl)
    | with_reducible apply State.writeBytes_keeps (hm.of rfl) | with_reducible apply State.writeVintage_keeps (hm.of rfl)
    | with_reducible refine Keeps.foldl ?_ _ (fun t y ht => ?_) | with_reducible refine Keeps.foldl2 ?_ _ (fun t y ht => ?_) | split
    | unfold x | dsimp only | with_reducible refine Keeps.upd ?_

theorem State.calTemp_keeps (hm : Sub 16866306 pm) (hk : Keeps pm sk s) (v : Word) : Keeps pm sk (State.calTemp s v) := by
  unfold State.calTemp
  repeat' first
    | with_reducible assumption
    | ((try lift_lets); intro x; refine Keeps.cut (pm := pm) (sk := sk) (x := x) ?_ (fun hx => ?_); rotate_left; clear_value x; rotate_right)
    | ((try lift_lets); intro x; clear_value x) | with_reducible apply State.occur_keeps (hm.of rfl)
    | with_reducible apply State.setCal_keeps (hm.of rfl) | with_reducible apply State.setReg_keeps (hm.of rfl)
    | with_reducible apply State.waitStart_keeps (hm.of rfl) | split | unfold x | dsimp only | with_reducible refine Keeps.upd ?_

theorem State.setHost_keeps (hm : Sub 8192 pm) (hk : Keeps pm sk s) (h : HostLink) : Keeps pm sk (State.setHost s h) := by
  unfold State.setHost
  repeat' first
    | with_reducible assumption | dsimp only | with_reducible refine Keeps.upd ?_

theorem State.bar2Do_keeps (hm : Sub 34110727 pm) (hk : Keeps pm sk s) (a : Nat) (write : Bool) (data : List (Option Byte)) (len : Nat) : Keeps pm sk (State.bar2Do s a write data len) := by
  unfold State.bar2Do
  repeat' first
    | with_reducible assumption | refine fun t (ht : Keeps pm sk t) => ?_ | refine fun _ t (ht : Keeps pm sk t) => ?_
    | ((try lift_lets); intro x; refine Keeps.cut (pm := pm) (sk := sk) (x := x) ?_ (fun hx => ?_); rotate_left; clear_value x; rotate_right)
    | ((try lift_lets); intro x; refine Keeps.cut2 (pm := pm) (sk := sk) (x := x) ?_ (fun hx => ?_); rotate_left; clear_value x; rotate_right)
    | ((try lift_lets); intro x; refine Keeps.cut3 (pm := pm) (sk := sk) (x := x) ?_ (fun hx => ?_); rotate_left; clear_value x; rotate_right)
    | ((try lift_lets); intro x; clear_value x) | with_reducible exact OptKeeps.none | with_reducible apply OptKeeps.some
    | with_reducible refine OptKeeps.bind ?_ (fun t ht => ?_) | with_reducible refine OptKeeps.map ?_ (fun t ht => ?_)
    | with_reducible apply OptKeeps.getD | with_reducible refine OptKeeps.of (by assumption) ?_
    | with_reducible refine OptKeeps.foldl _ ?_ (fun t x ht => ?_) | with_reducible apply State.bar2_keeps (hm.of rfl)
    | with_reducible apply State.hostMemWrite_keeps (hm.of rfl) | with_reducible apply State.portEach_keeps (hm.of rfl)
    | with_reducible apply State.setHost_keeps (hm.of rfl) | with_reducible refine Keeps.foldl ?_ _ (fun t y ht => ?_)
    | with_reducible refine Keeps.foldl2 ?_ _ (fun t y ht => ?_) | split | unfold x | dsimp only | with_reducible refine Keeps.upd ?_

theorem State.bar2_keeps (hm : Sub 34110727 pm) (hk : Keeps pm sk s) (off : Nat) (write : Bool) (data : List (Option Byte)) (len : Nat) : Keeps pm sk (State.bar2 s off write data len) := by
  unfold State.bar2
  repeat' first
    | with_reducible assumption
    | ((try lift_lets); intro x; refine Keeps.cut (pm := pm) (sk := sk) (x := x) ?_ (fun hx => ?_); rotate_left; clear_value x; rotate_right)
    | ((try lift_lets); intro x; refine Keeps.cutG (pm := pm) (sk := sk) (x := x) (fun a ha => ?_) (fun hx => ?_))
    | ((try lift_lets); intro x; refine Keeps.cutH (pm := pm) (sk := sk) (x := x) (fun a b ha => ?_) (fun hx => ?_))
    | ((try lift_lets); intro x; refine Keeps.cutF2 (pm := pm) (sk := sk) (x := x) (fun a b => ?_) (fun hx => ?_))
    | ((try lift_lets); intro x; refine Keeps.cutF (pm := pm) (sk := sk) (x := x) (fun a => ?_) (fun hx => ?_))
    | ((try lift_lets); intro x; clear_value x) | with_reducible apply State.bar2Do_keeps (hm.of rfl)
    | with_reducible apply State.deny_keeps (hm.of rfl) | with_reducible apply State.setHost_keeps (hm.of rfl)
    | with_reducible apply State.wake_keeps (hm.of rfl) | split | unfold x | dsimp only | with_reducible refine Keeps.upd ?_

theorem execBar2Access_keeps (hm : Sub 34110727 pm) (hk : Keeps pm sk s) (off : Nat) (write : Bool) (data : List (Option Byte)) (len : Nat) : OutKeeps pm sk (execBar2Access off write data len s) := by
  unfold execBar2Access
  repeat' first
    | with_reducible assumption | with_reducible apply OutKeeps.next | with_reducible apply State.bar2_keeps (hm.of rfl) | split
    | dsimp only

theorem State.hlkBusy_keeps (hm : Sub 2 pm) (hk : Keeps pm sk s) : Keeps pm sk (State.hlkBusy s) := by
  unfold State.hlkBusy
  repeat' first
    | with_reducible assumption | refine fun t (ht : Keeps pm sk t) => ?_ | refine fun _ t (ht : Keeps pm sk t) => ?_
    | with_reducible apply State.setB_keeps (hm.of rfl) | dsimp only

theorem State.setDma_keeps (hm : Sub 8194 pm) (hk : Keeps pm sk s) (c : Nat) (x : DmaChan) : Keeps pm sk (State.setDma s c x) := by
  unfold State.setDma
  repeat' first
    | with_reducible assumption | refine fun t (ht : Keeps pm sk t) => ?_ | refine fun _ t (ht : Keeps pm sk t) => ?_
    | with_reducible apply State.hlkBusy_keeps (hm.of rfl) | with_reducible apply State.setB_keeps (hm.of rfl)
    | with_reducible apply State.setHost_keeps (hm.of rfl) | dsimp only | with_reducible refine Keeps.upd ?_

theorem State.dmaEnd_keeps (hm : Sub 228370 pm) (hk : Keeps pm sk s) (c : Nat) (result : Nat) : Keeps pm sk (State.dmaEnd s c result) := by
  unfold State.dmaEnd
  repeat' first
    | with_reducible assumption
    | ((try lift_lets); intro x; refine Keeps.cut (pm := pm) (sk := sk) (x := x) ?_ (fun hx => ?_); rotate_left; clear_value x; rotate_right)
    | ((try lift_lets); intro x; clear_value x) | with_reducible apply State.endRun_keeps (hm.of rfl)
    | with_reducible apply State.occur_keeps (hm.of rfl) | with_reducible apply State.setDma_keeps (hm.of rfl)
    | with_reducible apply State.setF_keeps (hm.of rfl) | split | unfold x | dsimp only | with_reducible refine Keeps.upd ?_

theorem State.dmaSet_keeps (hm : Sub 8194 pm) (hk : Keeps pm sk s) (c : Nat) (addr : Nat) (st : Nat) (task : Bool) : Keeps pm sk (State.dmaSet s c addr st task) := by
  unfold State.dmaSet
  repeat' first
    | with_reducible assumption
    | ((try lift_lets); intro x; refine Keeps.cut (pm := pm) (sk := sk) (x := x) ?_ (fun hx => ?_); rotate_left; clear_value x; rotate_right)
    | ((try lift_lets); intro x; clear_value x) | with_reducible apply State.setDma_keeps (hm.of rfl)
    | with_reducible apply State.setF_keeps (hm.of rfl) | with_reducible apply State.setReg_keeps (hm.of rfl)
    | with_reducible apply State.setReg64_keeps (hm.of rfl) | unfold x | dsimp only | with_reducible refine Keeps.upd ?_

theorem execDmaCtrlStart_keeps (hm : Sub 97546 pm) (hk : Keeps pm sk s) (c : Nat) : OutKeeps pm sk (execDmaCtrlStart c s) := by
  unfold execDmaCtrlStart
  repeat' first
    | with_reducible assumption | refine fun t (ht : Keeps pm sk t) => ?_ | refine fun _ t (ht : Keeps pm sk t) => ?_
    | with_reducible apply OutKeeps.next | with_reducible apply State.denyStart_keeps (hm.of rfl)
    | with_reducible apply State.dmaSet_keeps (hm.of rfl) | with_reducible apply State.hostWrite_keeps (hm.of rfl)
    | with_reducible apply State.waitStart_keeps (hm.of rfl) | split | dsimp only

theorem State.dmaBegin_keeps (hm : Sub 8194 pm) (hk : Keeps pm sk s) (c : Nat) : Keeps pm sk (State.dmaBegin s c) := by
  unfold State.dmaBegin
  repeat' first
    | with_reducible assumption | with_reducible apply State.setDma_keeps (hm.of rfl) | split | dsimp only
    | with_reducible refine Keeps.upd ?_

theorem State.freshBytes_keeps (hm : Sub 16 pm) (hk : Keeps pm sk s) (n : Nat) : Keeps pm sk (State.freshBytes s n).2 := by
  unfold State.freshBytes
  repeat' first
    | with_reducible assumption | refine fun t (ht : Keeps pm sk t) => ?_ | refine fun _ t (ht : Keeps pm sk t) => ?_ | dsimp only
    | with_reducible refine Keeps.upd ?_

theorem State.dmaSpoil_keeps (hm : Sub 34078740 pm) (hk : Keeps pm sk s) (c : Nat) : Keeps pm sk (State.dmaSpoil s c) := by
  unfold State.dmaSpoil
  repeat' first
    | with_reducible assumption
    | ((try lift_lets); intro x; refine Keeps.cut (pm := pm) (sk := sk) (x := x) ?_ (fun hx => ?_); rotate_left; clear_value x; rotate_right)
    | ((try lift_lets); intro x; refine Keeps.cut2 (pm := pm) (sk := sk) (x := x) ?_ (fun hx => ?_); rotate_left; clear_value x; rotate_right)
    | ((try lift_lets); intro x; refine Keeps.cut3 (pm := pm) (sk := sk) (x := x) ?_ (fun hx => ?_); rotate_left; clear_value x; rotate_right)
    | ((try lift_lets); intro x; clear_value x) | with_reducible apply State.freshBytes_keeps (hm.of rfl)
    | with_reducible apply State.hostMemWrite_keeps (hm.of rfl) | split | unfold x | dsimp only

theorem State.dmaAbort_keeps (hm : Sub 34307094 pm) (hk : Keeps pm sk s) (c : Nat) : Keeps pm sk (State.dmaAbort s c) := by
  unfold State.dmaAbort
  repeat' first
    | with_reducible assumption | with_reducible apply State.dmaEnd_keeps (hm.of rfl)
    | with_reducible apply State.dmaSpoil_keeps (hm.of rfl) | with_reducible apply State.setF_keeps (hm.of rfl)
    | with_reducible apply State.withdraw_keeps (hm.of rfl) | split | dsimp only

theorem State.dmaTaskAbort_keeps (hm : Sub 34307094 pm) (hk : Keeps pm sk s) (c : Nat) : Keeps pm sk (State.dmaTaskAbort s c) := by
  unfold State.dmaTaskAbort
  repeat' first
    | with_reducible assumption | refine fun t (ht : Keeps pm sk t) => ?_ | refine fun _ t (ht : Keeps pm sk t) => ?_
    | with_reducible apply State.dmaAbort_keeps (hm.of rfl) | with_reducible apply State.endRun_keeps (hm.of rfl) | split | dsimp only
    | with_reducible refine Keeps.upd ?_

theorem execDmaCtrlAbort_keeps (hm : Sub 34307358 pm) (hk : Keeps pm sk s) (c : Nat) : OutKeeps pm sk (execDmaCtrlAbort c s) := by
  unfold execDmaCtrlAbort
  repeat' first
    | with_reducible assumption | refine fun t (ht : Keeps pm sk t) => ?_ | refine fun _ t (ht : Keeps pm sk t) => ?_
    | with_reducible apply OutKeeps.next | with_reducible apply State.dmaAbort_keeps (hm.of rfl)
    | with_reducible apply State.hostWrite_keeps (hm.of rfl) | split | dsimp only

theorem execHostReadCompletion_keeps (hm : Sub 8194 pm) (hk : Keeps pm sk s) (c : Nat) (bytes : List Byte) : OutKeeps pm sk (execHostReadCompletion c bytes s) := by
  unfold execHostReadCompletion
  repeat' first
    | with_reducible assumption
    | ((try lift_lets); intro x; refine Keeps.cut (pm := pm) (sk := sk) (x := x) ?_ (fun hx => ?_); rotate_left; clear_value x; rotate_right)
    | ((try lift_lets); intro x; clear_value x) | with_reducible apply OutKeeps.next
    | with_reducible apply State.setDma_keeps (hm.of rfl) | split | unfold x | dsimp only | with_reducible refine Keeps.upd ?_

theorem State.dmaShare_keeps (hm : Sub 8192 pm) (hk : Keeps pm sk s) (c : Nat) (n : Nat) : Keeps pm sk (State.dmaShare s c n) := by
  unfold State.dmaShare
  repeat' first
    | with_reducible assumption
    | ((try lift_lets); intro x; refine Keeps.cut (pm := pm) (sk := sk) (x := x) ?_ (fun hx => ?_); rotate_left; clear_value x; rotate_right)
    | ((try lift_lets); intro x; clear_value x) | with_reducible apply State.setHost_keeps (hm.of rfl) | split | unfold x | dsimp only
    | with_reducible refine Keeps.upd ?_

theorem execDmaHostCompletionError_keeps (hm : Sub 228370 pm) (hk : Keeps pm sk s) (c : Nat) : OutKeeps pm sk (execDmaHostCompletionError c s) := by
  unfold execDmaHostCompletionError
  repeat' first
    | with_reducible assumption | with_reducible apply OutKeeps.next | with_reducible apply State.dmaEnd_keeps (hm.of rfl) | split
    | dsimp only

theorem execPcieCompletionTimeout_keeps (hm : Sub 34307091 pm) (hk : Keeps pm sk s) (c : Nat) : OutKeeps pm sk (execPcieCompletionTimeout c s) := by
  unfold execPcieCompletionTimeout
  repeat' first
    | with_reducible assumption
    | ((try lift_lets); intro x; refine Keeps.cut (pm := pm) (sk := sk) (x := x) ?_ (fun hx => ?_); rotate_left; clear_value x; rotate_right)
    | ((try lift_lets); intro x; clear_value x) | with_reducible apply OutKeeps.next
    | with_reducible apply State.dmaEnd_keeps (hm.of rfl) | with_reducible apply State.passTo_keeps (hm.of rfl) | split | unfold x
    | dsimp only

theorem State.dmaAbortForbidden_keeps (hm : Sub 34307094 pm) (hk : Keeps pm sk s) : Keeps pm sk (State.dmaAbortForbidden s) := by
  unfold State.dmaAbortForbidden
  repeat' first
    | with_reducible assumption | refine fun t (ht : Keeps pm sk t) => ?_ | refine fun _ t (ht : Keeps pm sk t) => ?_
    | with_reducible apply State.dmaTaskAbort_keeps (hm.of rfl) | with_reducible refine Keeps.foldl ?_ _ (fun t y ht => ?_)
    | with_reducible refine Keeps.foldl2 ?_ _ (fun t y ht => ?_) | split | dsimp only

theorem State.dmaAbortAll_keeps (hm : Sub 34307094 pm) (hk : Keeps pm sk s) : Keeps pm sk (State.dmaAbortAll s) := by
  unfold State.dmaAbortAll
  repeat' first
    | with_reducible assumption | refine fun t (ht : Keeps pm sk t) => ?_ | refine fun _ t (ht : Keeps pm sk t) => ?_
    | with_reducible apply State.dmaAbort_keeps (hm.of rfl) | with_reducible refine Keeps.foldl ?_ _ (fun t y ht => ?_)
    | with_reducible refine Keeps.foldl2 ?_ _ (fun t y ht => ?_) | split | dsimp only

theorem State.hlkReset_keeps (hm : Sub 34307286 pm) (hk : Keeps pm sk s) : Keeps pm sk s.hlkReset := by
  unfold State.hlkReset
  have h := State.dmaAbortAll_keeps (hm.of rfl) hk
  generalize s.dmaAbortAll = t at h ⊢
  dsimp only
  refine State.hlkBusy_keeps (hm.of rfl) (State.setB_keeps (hm.of rfl) (State.dropStaging_keeps (hm.of rfl) ?_ _) _ _ _)
  exact Keeps.upd (Keeps.filterRegs (hm.of rfl) h _)

theorem execPcieFlr_keeps (hm : Sub 34307286 pm) (hk : Keeps pm sk s) : OutKeeps pm sk (execPcieFlr s) := by
  unfold execPcieFlr
  repeat' first
    | with_reducible assumption | with_reducible apply OutKeeps.next | with_reducible apply State.hlkReset_keeps (hm.of rfl) | dsimp only

theorem execPcieD3hotEntry_keeps (hm : Sub 34307286 pm) (hk : Keeps pm sk s) : OutKeeps pm sk (execPcieD3hotEntry s) := by
  unfold execPcieD3hotEntry
  repeat' first
    | with_reducible assumption | with_reducible apply OutKeeps.next | with_reducible apply State.hlkReset_keeps (hm.of rfl)
    | with_reducible apply State.setHost_keeps (hm.of rfl) | dsimp only | with_reducible refine Keeps.upd ?_

theorem execPcieD0Entry_keeps (hm : Sub 8192 pm) (hk : Keeps pm sk s) : OutKeeps pm sk (execPcieD0Entry s) := by
  unfold execPcieD0Entry
  repeat' first
    | with_reducible assumption | with_reducible apply OutKeeps.next | with_reducible apply State.setHost_keeps (hm.of rfl) | dsimp only
    | with_reducible refine Keeps.upd ?_

theorem execPcieLinkChange_keeps (hm : Sub 23554 pm) (hk : Keeps pm sk s) (up : Bool) (l1 : Bool) (width : Nat) (speed : Nat) : OutKeeps pm sk (execPcieLinkChange up l1 width speed s) := by
  unfold execPcieLinkChange
  repeat' first
    | with_reducible assumption
    | ((try lift_lets); intro x; refine Keeps.cut (pm := pm) (sk := sk) (x := x) ?_ (fun hx => ?_); rotate_left; clear_value x; rotate_right)
    | ((try lift_lets); intro x; clear_value x) | with_reducible apply OutKeeps.next | with_reducible apply State.occur_keeps (hm.of rfl)
    | with_reducible apply State.setF_keeps (hm.of rfl) | with_reducible apply State.setReg_keeps (hm.of rfl) | split | unfold x
    | dsimp only

theorem State.msixFlush_keeps (hm : Sub 2048 pm) (hk : Keeps pm sk s) (v : Nat) : Keeps pm sk (State.msixFlush s v) := by
  unfold State.msixFlush
  repeat' first
    | with_reducible assumption | refine fun t (ht : Keeps pm sk t) => ?_ | refine fun _ t (ht : Keeps pm sk t) => ?_
    | with_reducible apply State.msixSend_keeps (hm.of rfl) | split | dsimp only | with_reducible refine Keeps.upd ?_

theorem execMsixUnmask_keeps (hm : Sub 2048 pm) (hk : Keeps pm sk s) (vector : Option Nat) : OutKeeps pm sk (execMsixUnmask vector s) := by
  unfold execMsixUnmask
  repeat' first
    | with_reducible assumption | refine fun t (ht : Keeps pm sk t) => ?_ | refine fun _ t (ht : Keeps pm sk t) => ?_
    | with_reducible apply OutKeeps.next | with_reducible apply State.msixFlush_keeps (hm.of rfl)
    | with_reducible refine Keeps.foldl ?_ _ (fun t y ht => ?_) | with_reducible refine Keeps.foldl2 ?_ _ (fun t y ht => ?_) | split
    | dsimp only | with_reducible refine Keeps.upd ?_

theorem State.flashEnd_keeps (hm : Sub 31746 pm) (hk : Keeps pm sk s) (result : Nat) : Keeps pm sk (State.flashEnd s result) := by
  unfold State.flashEnd
  repeat' first
    | with_reducible assumption | with_reducible apply State.hlkBusy_keeps (hm.of rfl)
    | with_reducible apply State.occur_keeps (hm.of rfl) | with_reducible apply State.setHost_keeps (hm.of rfl)
    | with_reducible apply State.setReg_keeps (hm.of rfl) | dsimp only | with_reducible refine Keeps.upd ?_

theorem State.flashGo_keeps (hm : Sub 31746 pm) (hk : Keeps pm sk s) (op : Nat) (len : Nat) : Keeps pm sk (State.flashGo s op len) := by
  unfold State.flashGo
  repeat' first
    | with_reducible assumption | refine fun t (ht : Keeps pm sk t) => ?_ | refine fun _ t (ht : Keeps pm sk t) => ?_
    | ((try lift_lets); intro x; refine Keeps.cut (pm := pm) (sk := sk) (x := x) ?_ (fun hx => ?_); rotate_left; clear_value x; rotate_right)
    | ((try lift_lets); intro x; clear_value x) | with_reducible apply State.denyStart_keeps (hm.of rfl)
    | with_reducible apply State.flashEnd_keeps (hm.of rfl) | with_reducible apply State.hlkBusy_keeps (hm.of rfl)
    | with_reducible apply State.setHost_keeps (hm.of rfl) | with_reducible apply State.setReg_keeps (hm.of rfl) | split | unfold x
    | dsimp only | with_reducible refine Keeps.upd ?_

theorem State.flashCmd_keeps (hm : Sub 32010 pm) (hk : Keeps pm sk s) (op : Nat) (len : Nat) : Keeps pm sk (State.flashCmd s op len) := by
  unfold State.flashCmd
  repeat' first
    | with_reducible assumption | refine fun t (ht : Keeps pm sk t) => ?_ | refine fun _ t (ht : Keeps pm sk t) => ?_
    | with_reducible apply State.flashGo_keeps (hm.of rfl) | with_reducible apply State.hostWrite_keeps (hm.of rfl) | dsimp only

theorem execFlashRead_keeps (hm : Sub 32010 pm) (hk : Keeps pm sk s) (len : Nat) : OutKeeps pm sk (execFlashRead len s) := by
  unfold execFlashRead
  repeat' first
    | with_reducible assumption | with_reducible apply OutKeeps.next | with_reducible apply State.flashCmd_keeps (hm.of rfl) | dsimp only

theorem execFlashProgram_keeps (hm : Sub 32010 pm) (hk : Keeps pm sk s) (len : Nat) : OutKeeps pm sk (execFlashProgram len s) := by
  unfold execFlashProgram
  repeat' first
    | with_reducible assumption | with_reducible apply OutKeeps.next | with_reducible apply State.flashCmd_keeps (hm.of rfl) | dsimp only

theorem execFlashErase_keeps (hm : Sub 32010 pm) (hk : Keeps pm sk s) (len : Nat) : OutKeeps pm sk (execFlashErase len s) := by
  unfold execFlashErase
  repeat' first
    | with_reducible assumption | with_reducible apply OutKeeps.next | with_reducible apply State.flashCmd_keeps (hm.of rfl) | dsimp only

theorem State.setFlBuf_keeps (hm : Sub 2 pm) (hk : Keeps pm sk s) (i : Nat) (b : Byte) : Keeps pm sk (State.setFlBuf s i b) := by
  unfold State.setFlBuf
  repeat' first
    | with_reducible assumption | with_reducible apply State.setF_keeps (hm.of rfl) | dsimp only

theorem State.flashErase_keeps (hm : Sub 8192 pm) (hk : Keeps pm sk s) (a : Nat) : Keeps pm sk (State.flashErase s a) := by
  unfold State.flashErase
  repeat' first
    | with_reducible assumption | refine fun t (ht : Keeps pm sk t) => ?_ | refine fun _ t (ht : Keeps pm sk t) => ?_
    | with_reducible apply State.setHost_keeps (hm.of rfl) | dsimp only | with_reducible refine Keeps.upd ?_

theorem execFlashOpEnd_keeps (hm : Sub 31762 pm) (hk : Keeps pm sk s) (good : Bool) : OutKeeps pm sk (execFlashOpEnd good s) := by
  unfold execFlashOpEnd
  repeat' first
    | with_reducible assumption | refine fun t (ht : Keeps pm sk t) => ?_ | refine fun _ t (ht : Keeps pm sk t) => ?_
    | ((try lift_lets); intro x; refine Keeps.cut (pm := pm) (sk := sk) (x := x) ?_ (fun hx => ?_); rotate_left; clear_value x; rotate_right)
    | ((try lift_lets); intro x; refine Keeps.cut2 (pm := pm) (sk := sk) (x := x) ?_ (fun hx => ?_); rotate_left; clear_value x; rotate_right)
    | ((try lift_lets); intro x; refine Keeps.cut3 (pm := pm) (sk := sk) (x := x) ?_ (fun hx => ?_); rotate_left; clear_value x; rotate_right)
    | ((try lift_lets); intro x; clear_value x) | with_reducible apply OutKeeps.next
    | with_reducible apply State.flashEnd_keeps (hm.of rfl) | with_reducible apply State.flashErase_keeps (hm.of rfl)
    | with_reducible apply State.flashPut_keeps (hm.of rfl) | with_reducible apply State.freshBytes_keeps (hm.of rfl)
    | with_reducible apply State.setFlBuf_keeps (hm.of rfl) | with_reducible refine Keeps.foldl ?_ _ (fun t y ht => ?_)
    | with_reducible refine Keeps.foldl2 ?_ _ (fun t y ht => ?_) | split | unfold x | dsimp only

theorem State.seqState_keeps (hm : Sub 524290 pm) (hk : Keeps pm sk s) (q : Nat) (st : Nat) : Keeps pm sk (State.seqState s q st) := by
  unfold State.seqState
  repeat' first
    | with_reducible assumption
    | ((try lift_lets); intro x; refine Keeps.cut (pm := pm) (sk := sk) (x := x) ?_ (fun hx => ?_); rotate_left; clear_value x; rotate_right)
    | ((try lift_lets); intro x; clear_value x) | with_reducible apply State.setB_keeps (hm.of rfl)
    | with_reducible apply State.setF_keeps (hm.of rfl) | with_reducible apply State.setSeq_keeps (hm.of rfl) | unfold x | dsimp only
    | with_reducible refine Keeps.upd ?_

theorem State.jumpDrop_keeps (hm : Sub 23554 pm) (hk : Keeps pm sk s) (q : Nat) : Keeps pm sk (State.jumpDrop s q) := by
  unfold State.jumpDrop
  repeat' first
    | with_reducible assumption | with_reducible apply State.incSat_keeps (hm.of rfl)
    | with_reducible apply State.occur_keeps (hm.of rfl) | dsimp only

theorem State.slotDrop_keeps (hm : Sub 547842 pm) (hk : Keeps pm sk s) (q : Nat) (outcome : Nat) : Keeps pm sk (State.slotDrop s q outcome) := by
  unfold State.slotDrop
  repeat' first
    | with_reducible assumption
    | ((try lift_lets); intro x; refine Keeps.cut (pm := pm) (sk := sk) (x := x) ?_ (fun hx => ?_); rotate_left; clear_value x; rotate_right)
    | ((try lift_lets); intro x; clear_value x) | with_reducible apply State.jumpDrop_keeps (hm.of rfl)
    | with_reducible apply State.setB_keeps (hm.of rfl) | with_reducible apply State.setF_keeps (hm.of rfl)
    | with_reducible apply State.setSeq_keeps (hm.of rfl) | split | unfold x | dsimp only | with_reducible refine Keeps.upd ?_

theorem State.descErr_keeps (hm : Sub 23554 pm) (hk : Keeps pm sk s) (q : Nat) (cause : Nat) (i : Nat) : Keeps pm sk (State.descErr s q cause i) := by
  unfold State.descErr
  repeat' first
    | with_reducible assumption
    | ((try lift_lets); intro x; refine Keeps.cut (pm := pm) (sk := sk) (x := x) ?_ (fun hx => ?_); rotate_left; clear_value x; rotate_right)
    | ((try lift_lets); intro x; clear_value x) | with_reducible apply State.occur_keeps (hm.of rfl)
    | with_reducible apply State.setReg_keeps (hm.of rfl) | split | unfold x | dsimp only

theorem State.burstEnd_keeps (hm : Sub 2841746 pm) (hk : Keeps pm sk s) (q : Nat) (result : Nat) (m : Option Nat) : Keeps pm sk (State.burstEnd s q result m) := by
  unfold State.burstEnd
  repeat' first
    | with_reducible assumption
    | ((try lift_lets); intro x; refine Keeps.cut (pm := pm) (sk := sk) (x := x) ?_ (fun hx => ?_); rotate_left; clear_value x; rotate_right)
    | ((try lift_lets); intro x; clear_value x) | with_reducible apply State.cardEntries_keeps (hm.of rfl)
    | with_reducible apply State.endRun_keeps (hm.of rfl) | with_reducible apply State.occur_keeps (hm.of rfl)
    | with_reducible apply State.retainAll_keeps (hm.of rfl) | with_reducible apply State.seqState_keeps (hm.of rfl)
    | with_reducible apply State.setF_keeps (hm.of rfl) | unfold x | dsimp only

theorem State.endNoOutput_keeps (hm : Sub 3890322 pm) (hk : Keeps pm sk s) (q : Nat) (result : Nat) : Keeps pm sk (State.endNoOutput s q result) := by
  unfold State.endNoOutput
  repeat' first
    | with_reducible assumption
    | ((try lift_lets); intro x; refine Keeps.cut (pm := pm) (sk := sk) (x := x) ?_ (fun hx => ?_); rotate_left; clear_value x; rotate_right)
    | ((try lift_lets); intro x; clear_value x) | with_reducible apply State.burstEnd_keeps (hm.of rfl)
    | with_reducible apply State.withdraw_keeps (hm.of rfl) | split | unfold x | dsimp only | with_reducible refine Keeps.upd ?_

theorem State.underrunRec_keeps (hm : Sub 23554 pm) (hk : Keeps pm sk s) (q : Nat) (cause : Nat) (desk : Nat) (seg : Nat) (voff : Nat) (at0 : Nat) : Keeps pm sk (State.underrunRec s q cause desk seg voff at0) := by
  unfold State.underrunRec
  repeat' first
    | with_reducible assumption | refine fun t (ht : Keeps pm sk t) => ?_ | refine fun _ t (ht : Keeps pm sk t) => ?_
    | ((try lift_lets); intro x; refine Keeps.cut (pm := pm) (sk := sk) (x := x) ?_ (fun hx => ?_); rotate_left; clear_value x; rotate_right)
    | ((try lift_lets); intro x; refine Keeps.cut2 (pm := pm) (sk := sk) (x := x) ?_ (fun hx => ?_); rotate_left; clear_value x; rotate_right)
    | ((try lift_lets); intro x; refine Keeps.cut3 (pm := pm) (sk := sk) (x := x) ?_ (fun hx => ?_); rotate_left; clear_value x; rotate_right)
    | ((try lift_lets); intro x; clear_value x) | with_reducible apply State.occur_keeps (hm.of rfl)
    | with_reducible apply State.setReg_keeps (hm.of rfl) | with_reducible refine Keeps.foldl ?_ _ (fun t y ht => ?_)
    | with_reducible refine Keeps.foldl2 ?_ _ (fun t y ht => ?_) | unfold x | dsimp only

theorem State.seqAdmit_keeps (hm : Sub 34102275 pm) (hk : Keeps pm sk s) (q : Nat) (start : Nat) (bell : Bool) : Keeps pm sk (State.seqAdmit s q start bell) := by
  unfold State.seqAdmit
  repeat' first
    | with_reducible assumption | refine fun t (ht : Keeps pm sk t) => ?_ | refine fun _ t (ht : Keeps pm sk t) => ?_
    | ((try lift_lets); intro x; refine Keeps.cut (pm := pm) (sk := sk) (x := x) ?_ (fun hx => ?_); rotate_left; clear_value x; rotate_right)
    | ((try lift_lets); intro x; refine Keeps.cut2 (pm := pm) (sk := sk) (x := x) ?_ (fun hx => ?_); rotate_left; clear_value x; rotate_right)
    | ((try lift_lets); intro x; refine Keeps.cut3 (pm := pm) (sk := sk) (x := x) ?_ (fun hx => ?_); rotate_left; clear_value x; rotate_right)
    | ((try lift_lets); intro x; clear_value x) | with_reducible apply State.incWrap_keeps (hm.of rfl)
    | with_reducible apply State.looseRun_keeps (hm.of rfl) | with_reducible apply State.run_keeps (hm.of rfl)
    | with_reducible apply State.seqState_keeps (hm.of rfl) | with_reducible apply State.setB_keeps (hm.of rfl)
    | with_reducible apply State.setCtx_keeps (hm.of rfl) | with_reducible apply State.setReg_keeps (hm.of rfl)
    | with_reducible apply State.setReg64_keeps (hm.of rfl) | with_reducible apply State.setSeq_keeps (hm.of rfl)
    | with_reducible apply State.showFill_keeps (hm.of rfl) | with_reducible apply State.sigAdmit_keeps (hm.of rfl)
    | with_reducible apply State.siteReset_keeps (hm.of rfl) | with_reducible refine Keeps.foldl ?_ _ (fun t y ht => ?_)
    | with_reducible refine Keeps.foldl2 ?_ _ (fun t y ht => ?_) | split | unfold x | dsimp only | with_reducible refine Keeps.upd ?_

theorem State.seqWalk_keeps (hm : Sub 547842 pm) (hk : Keeps pm sk s) (q : Nat) : Keeps pm sk (State.seqWalk s q) := by
  unfold State.seqWalk
  repeat' first
    | with_reducible assumption | refine fun t (ht : Keeps pm sk t) => ?_ | refine fun _ t (ht : Keeps pm sk t) => ?_
    | ((try lift_lets); intro x; refine Keeps.cut (pm := pm) (sk := sk) (x := x) ?_ (fun hx => ?_); rotate_left; clear_value x; rotate_right)
    | ((try lift_lets); intro x; clear_value x) | with_reducible apply State.looseRun_keeps (hm.of rfl)
    | with_reducible apply State.setSeq_keeps (hm.of rfl) | with_reducible refine Keeps.foldl ?_ _ (fun t y ht => ?_)
    | with_reducible refine Keeps.foldl2 ?_ _ (fun t y ht => ?_) | unfold x | dsimp only | with_reducible refine Keeps.upd ?_

theorem State.seqStart_keeps (hm : Sub 37444755 pm) (hk : Keeps pm sk s) (q : Nat) (start : Nat) (bell : Bool) (direct : Bool) : Keeps pm sk (State.seqStart s q start bell direct) := by
  unfold State.seqStart
  repeat' first
    | with_reducible assumption | refine fun t (ht : Keeps pm sk t) => ?_ | refine fun _ t (ht : Keeps pm sk t) => ?_
    | ((try lift_lets); intro x; refine Keeps.cut (pm := pm) (sk := sk) (x := x) ?_ (fun hx => ?_); rotate_left; clear_value x; rotate_right)
    | ((try lift_lets); intro x; clear_value x) | with_reducible apply State.absorbAll_keeps (hm.of rfl)
    | with_reducible apply State.descErr_keeps (hm.of rfl) | with_reducible apply State.endNoOutput_keeps (hm.of rfl)
    | with_reducible apply State.seqAdmit_keeps (hm.of rfl) | with_reducible apply State.seqWalk_keeps (hm.of rfl)
    | with_reducible apply State.underrunRec_keeps (hm.of rfl) | with_reducible apply State.waitStart_keeps (hm.of rfl) | split
    | unfold x | dsimp only

theorem State.jumpStat_keeps (hm : Sub 2 pm) (hk : Keeps pm sk s) (q : Nat) (src : Nat) (entry : Nat) (outcome : Nat) : Keeps pm sk (State.jumpStat s q src entry outcome) := by
  unfold State.jumpStat
  repeat' first
    | with_reducible assumption | with_reducible apply State.setReg_keeps (hm.of rfl) | dsimp only

theorem State.jumpTake_keeps (hm : Sub 547842 pm) (hk : Keeps pm sk s) (q : Nat) (entry : Nat) (src : Nat) : Keeps pm sk (State.jumpTake s q entry src) := by
  unfold State.jumpTake
  repeat' first
    | with_reducible assumption
    | ((try lift_lets); intro x; refine Keeps.cut (pm := pm) (sk := sk) (x := x) ?_ (fun hx => ?_); rotate_left; clear_value x; rotate_right)
    | ((try lift_lets); intro x; clear_value x) | with_reducible apply State.incSat_keeps (hm.of rfl)
    | with_reducible apply State.jumpDrop_keeps (hm.of rfl) | with_reducible apply State.jumpStat_keeps (hm.of rfl)
    | with_reducible apply State.occur_keeps (hm.of rfl) | with_reducible apply State.repath_keeps (hm.of rfl)
    | with_reducible apply State.setSeq_keeps (hm.of rfl) | split | unfold x | dsimp only | with_reducible refine Keeps.upd ?_

theorem State.jumpSwap_keeps (hm : Sub 547842 pm) (hk : Keeps pm sk s) (q : Nat) (entry : Nat) (e : Nat) : Keeps pm sk (State.jumpSwap s q entry e) := by
  unfold State.jumpSwap
  repeat' first
    | with_reducible assumption | refine fun t (ht : Keeps pm sk t) => ?_ | refine fun _ t (ht : Keeps pm sk t) => ?_
    | ((try lift_lets); intro x; refine Keeps.cut (pm := pm) (sk := sk) (x := x) ?_ (fun hx => ?_); rotate_left; clear_value x; rotate_right)
    | ((try lift_lets); intro x; clear_value x) | with_reducible apply State.jumpDrop_keeps (hm.of rfl)
    | with_reducible apply State.jumpStat_keeps (hm.of rfl) | with_reducible apply State.repath_keeps (hm.of rfl)
    | with_reducible apply State.setSeq_keeps (hm.of rfl) | unfold x | dsimp only | with_reducible refine Keeps.upd ?_

theorem State.jumpRequest_keeps (hm : Sub 547842 pm) (hk : Keeps pm sk s) (q : Nat) (entry : Nat) (src : Nat) : Keeps pm sk (State.jumpRequest s q entry src) := by
  unfold State.jumpRequest
  repeat' first
    | with_reducible assumption | refine fun t (ht : Keeps pm sk t) => ?_ | refine fun _ t (ht : Keeps pm sk t) => ?_
    | ((try lift_lets); intro x; refine Keeps.cut (pm := pm) (sk := sk) (x := x) ?_ (fun hx => ?_); rotate_left; clear_value x; rotate_right)
    | ((try lift_lets); intro x; refine Keeps.cut2 (pm := pm) (sk := sk) (x := x) ?_ (fun hx => ?_); rotate_left; clear_value x; rotate_right)
    | ((try lift_lets); intro x; refine Keeps.cut3 (pm := pm) (sk := sk) (x := x) ?_ (fun hx => ?_); rotate_left; clear_value x; rotate_right)
    | ((try lift_lets); intro x; refine Keeps.cutG (pm := pm) (sk := sk) (x := x) (fun a ha => ?_) (fun hx => ?_))
    | ((try lift_lets); intro x; refine Keeps.cutH (pm := pm) (sk := sk) (x := x) (fun a b ha => ?_) (fun hx => ?_))
    | ((try lift_lets); intro x; refine Keeps.cutF2 (pm := pm) (sk := sk) (x := x) (fun a b => ?_) (fun hx => ?_))
    | ((try lift_lets); intro x; refine Keeps.cutF (pm := pm) (sk := sk) (x := x) (fun a => ?_) (fun hx => ?_))
    | ((try lift_lets); intro x; clear_value x) | with_reducible apply State.jumpDrop_keeps (hm.of rfl)
    | with_reducible apply State.jumpStat_keeps (hm.of rfl) | with_reducible apply State.jumpSwap_keeps (hm.of rfl)
    | with_reducible apply State.jumpTake_keeps (hm.of rfl) | split | unfold x | dsimp only

theorem execJmpReqWrite_keeps (hm : Sub 548106 pm) (hk : Keeps pm sk s) (q : Nat) (v : Word) : OutKeeps pm sk (execJmpReqWrite q v s) := by
  unfold execJmpReqWrite
  repeat' first
    | with_reducible assumption | refine fun t (ht : Keeps pm sk t) => ?_ | refine fun _ t (ht : Keeps pm sk t) => ?_
    | with_reducible apply OutKeeps.next | with_reducible apply State.hostWrite_keeps (hm.of rfl)
    | with_reducible apply State.jumpRequest_keeps (hm.of rfl) | split | dsimp only

theorem State.jumpPulse_keeps (hm : Sub 547842 pm) (hk : Keeps pm sk s) (q : Nat) : Keeps pm sk (State.jumpPulse s q) := by
  unfold State.jumpPulse
  repeat' first
    | with_reducible assumption | with_reducible apply State.jumpRequest_keeps (hm.of rfl) | dsimp only

theorem State.waitPulse_keeps (hm : Sub 525314 pm) (hk : Keeps pm sk s) (q : Nat) : Keeps pm sk (State.waitPulse s q) := by
  unfold State.waitPulse
  repeat' first
    | with_reducible assumption
    | ((try lift_lets); intro x; refine Keeps.cut (pm := pm) (sk := sk) (x := x) ?_ (fun hx => ?_); rotate_left; clear_value x; rotate_right)
    | ((try lift_lets); intro x; clear_value x) | with_reducible apply State.incSat_keeps (hm.of rfl)
    | with_reducible apply State.setReg_keeps (hm.of rfl) | with_reducible apply State.setSeq_keeps (hm.of rfl) | split | unfold x
    | dsimp only | with_reducible refine Keeps.upd ?_

theorem State.settleEdges_keeps (hm : Sub 786432 pm) (hk : Keeps pm sk s) (r : OutAcc) : Keeps pm sk (State.settleEdges s r) := by
  unfold State.settleEdges
  repeat' first
    | with_reducible assumption | refine fun t (ht : Keeps pm sk t) => ?_ | refine fun _ t (ht : Keeps pm sk t) => ?_
    | ((try lift_lets); intro x; refine Keeps.cut (pm := pm) (sk := sk) (x := x) ?_ (fun hx => ?_); rotate_left; clear_value x; rotate_right)
    | ((try lift_lets); intro x; refine Keeps.cut2 (pm := pm) (sk := sk) (x := x) ?_ (fun hx => ?_); rotate_left; clear_value x; rotate_right)
    | ((try lift_lets); intro x; refine Keeps.cut3 (pm := pm) (sk := sk) (x := x) ?_ (fun hx => ?_); rotate_left; clear_value x; rotate_right)
    | ((try lift_lets); intro x; clear_value x) | with_reducible apply State.setDrops_keeps (hm.of rfl)
    | with_reducible apply State.setEdges_keeps (hm.of rfl) | with_reducible refine Keeps.foldl ?_ _ (fun t y ht => ?_)
    | with_reducible refine Keeps.foldl2 ?_ _ (fun t y ht => ?_) | unfold x | dsimp only

theorem State.idleGranule_keeps (hm : Sub 809986 pm) (hk : Keeps pm sk s) (q : Nat) (d : Desc) : Keeps pm sk (State.idleGranule s q d) := by
  unfold State.idleGranule
  repeat' first
    | with_reducible assumption | refine fun t (ht : Keeps pm sk t) => ?_ | refine fun _ t (ht : Keeps pm sk t) => ?_
    | ((try lift_lets); intro x; refine Keeps.cut (pm := pm) (sk := sk) (x := x) ?_ (fun hx => ?_); rotate_left; clear_value x; rotate_right)
    | ((try lift_lets); intro x; clear_value x) | with_reducible apply State.occur_keeps (hm.of rfl)
    | with_reducible apply State.setSeq_keeps (hm.of rfl) | with_reducible apply State.settleEdges_keeps (hm.of rfl) | split | unfold x
    | dsimp only | with_reducible refine Keeps.upd ?_

theorem State.underrun_keeps (hm : Sub 547842 pm) (hk : Keeps pm sk s) (q : Nat) (cause : Nat) (desk : Nat) : Keeps pm sk (State.underrun s q cause desk) := by
  unfold State.underrun
  repeat' first
    | with_reducible assumption
    | ((try lift_lets); intro x; refine Keeps.cut (pm := pm) (sk := sk) (x := x) ?_ (fun hx => ?_); rotate_left; clear_value x; rotate_right)
    | ((try lift_lets); intro x; clear_value x) | with_reducible apply State.setSeq_keeps (hm.of rfl)
    | with_reducible apply State.slotDrop_keeps (hm.of rfl) | with_reducible apply State.underrunRec_keeps (hm.of rfl) | unfold x
    | dsimp only | with_reducible refine Keeps.upd ?_

theorem State.outputGranule_keeps (hm : Sub 809986 pm) (hk : Keeps pm sk s) (q : Nat) (d : Desc) : Keeps pm sk (State.outputGranule s q d) := by
  unfold State.outputGranule
  repeat' first
    | with_reducible assumption | refine fun t (ht : Keeps pm sk t) => ?_ | refine fun _ t (ht : Keeps pm sk t) => ?_
    | ((try lift_lets); intro x; refine Keeps.cut (pm := pm) (sk := sk) (x := x) ?_ (fun hx => ?_); rotate_left; clear_value x; rotate_right)
    | ((try lift_lets); intro x; refine Keeps.cutG (pm := pm) (sk := sk) (x := x) (fun a ha => ?_) (fun hx => ?_))
    | ((try lift_lets); intro x; refine Keeps.cutH (pm := pm) (sk := sk) (x := x) (fun a b ha => ?_) (fun hx => ?_))
    | ((try lift_lets); intro x; refine Keeps.cutF2 (pm := pm) (sk := sk) (x := x) (fun a b => ?_) (fun hx => ?_))
    | ((try lift_lets); intro x; refine Keeps.cutF (pm := pm) (sk := sk) (x := x) (fun a => ?_) (fun hx => ?_))
    | ((try lift_lets); intro x; clear_value x) | with_reducible apply State.occur_keeps (hm.of rfl)
    | with_reducible apply State.setReg64_keeps (hm.of rfl) | with_reducible apply State.setSeq_keeps (hm.of rfl)
    | with_reducible apply State.setSlice_keeps (hm.of rfl) | with_reducible apply State.settleEdges_keeps (hm.of rfl)
    | with_reducible refine Keeps.foldl ?_ _ (fun t y ht => ?_) | with_reducible refine Keeps.foldl2 ?_ _ (fun t y ht => ?_) | split
    | unfold x | dsimp only | with_reducible refine Keeps.upd ?_

theorem State.missing_keeps (hm : Sub 547842 pm) (hk : Keeps pm sk s) (q : Nat) (cause : Nat) (desk : Nat) : Keeps pm sk (State.missing s q cause desk) := by
  unfold State.missing
  repeat' first
    | with_reducible assumption
    | ((try lift_lets); intro x; refine Keeps.cut (pm := pm) (sk := sk) (x := x) ?_ (fun hx => ?_); rotate_left; clear_value x; rotate_right)
    | ((try lift_lets); intro x; clear_value x) | with_reducible apply State.setB_keeps (hm.of rfl)
    | with_reducible apply State.underrun_keeps (hm.of rfl) | split | unfold x | dsimp only

theorem State.judgeNext_keeps (hm : Sub 809986 pm) (hk : Keeps pm sk s) (q : Nat) : Keeps pm sk (State.judgeNext s q) := by
  unfold State.judgeNext
  repeat' first
    | with_reducible assumption | refine fun t (ht : Keeps pm sk t) => ?_ | refine fun _ t (ht : Keeps pm sk t) => ?_
    | ((try lift_lets); intro x; refine Keeps.cut (pm := pm) (sk := sk) (x := x) ?_ (fun hx => ?_); rotate_left; clear_value x; rotate_right)
    | ((try lift_lets); intro x; refine Keeps.cut2 (pm := pm) (sk := sk) (x := x) ?_ (fun hx => ?_); rotate_left; clear_value x; rotate_right)
    | ((try lift_lets); intro x; refine Keeps.cut3 (pm := pm) (sk := sk) (x := x) ?_ (fun hx => ?_); rotate_left; clear_value x; rotate_right)
    | ((try lift_lets); intro x; refine Keeps.cutG (pm := pm) (sk := sk) (x := x) (fun a ha => ?_) (fun hx => ?_))
    | ((try lift_lets); intro x; refine Keeps.cutH (pm := pm) (sk := sk) (x := x) (fun a b ha => ?_) (fun hx => ?_))
    | ((try lift_lets); intro x; refine Keeps.cutF2 (pm := pm) (sk := sk) (x := x) (fun a b => ?_) (fun hx => ?_))
    | ((try lift_lets); intro x; refine Keeps.cutF (pm := pm) (sk := sk) (x := x) (fun a => ?_) (fun hx => ?_))
    | ((try lift_lets); intro x; clear_value x) | with_reducible apply State.absorbAll_keeps (hm.of rfl)
    | with_reducible apply State.idleGranule_keeps (hm.of rfl) | with_reducible apply State.missing_keeps (hm.of rfl)
    | with_reducible apply State.outputGranule_keeps (hm.of rfl) | with_reducible apply State.setSeq_keeps (hm.of rfl) | split | unfold x
    | dsimp only | with_reducible refine Keeps.upd ?_

theorem execGranuleJudge_keeps (hm : Sub 268435351 pm) (hk : Keeps pm sk s) (q : Nat) : OutKeeps pm sk (execGranuleJudge q s) := by
  unfold execGranuleJudge
  repeat' first
    | with_reducible assumption | refine fun t (ht : Keeps pm sk t) => ?_ | refine fun _ t (ht : Keeps pm sk t) => ?_
    | ((try lift_lets); intro x; refine Keeps.cut (pm := pm) (sk := sk) (x := x) ?_ (fun hx => ?_); rotate_left; clear_value x; rotate_right)
    | ((try lift_lets); intro x; refine Keeps.cutG (pm := pm) (sk := sk) (x := x) (fun a ha => ?_) (fun hx => ?_))
    | ((try lift_lets); intro x; refine Keeps.cutH (pm := pm) (sk := sk) (x := x) (fun a b ha => ?_) (fun hx => ?_))
    | ((try lift_lets); intro x; refine Keeps.cutF2 (pm := pm) (sk := sk) (x := x) (fun a b => ?_) (fun hx => ?_))
    | ((try lift_lets); intro x; refine Keeps.cutF (pm := pm) (sk := sk) (x := x) (fun a => ?_) (fun hx => ?_))
    | ((try lift_lets); intro x; clear_value x) | with_reducible apply OutKeeps.next
    | with_reducible apply State.judgeNext_keeps (hm.of rfl) | with_reducible apply State.passTo_keeps (hm.of rfl)
    | with_reducible apply State.setSeq_keeps (hm.of rfl) | with_reducible apply State.shed_keeps (hm.of rfl) | split | unfold x
    | dsimp only | with_reducible refine Keeps.upd ?_

theorem State.decideSucc_keeps (hm : Sub 547842 pm) (hk : Keeps pm sk s) (q : Nat) (o : EndOut) : Keeps pm sk (State.decideSucc s q o) := by
  unfold State.decideSucc
  repeat' first
    | with_reducible assumption | refine fun t (ht : Keeps pm sk t) => ?_ | refine fun _ t (ht : Keeps pm sk t) => ?_
    | ((try lift_lets); intro x; refine Keeps.cut (pm := pm) (sk := sk) (x := x) ?_ (fun hx => ?_); rotate_left; clear_value x; rotate_right)
    | ((try lift_lets); intro x; refine Keeps.cutG (pm := pm) (sk := sk) (x := x) (fun a ha => ?_) (fun hx => ?_))
    | ((try lift_lets); intro x; refine Keeps.cutH (pm := pm) (sk := sk) (x := x) (fun a b ha => ?_) (fun hx => ?_))
    | ((try lift_lets); intro x; refine Keeps.cutF2 (pm := pm) (sk := sk) (x := x) (fun a b => ?_) (fun hx => ?_))
    | ((try lift_lets); intro x; refine Keeps.cutF (pm := pm) (sk := sk) (x := x) (fun a => ?_) (fun hx => ?_))
    | ((try lift_lets); intro x; clear_value x) | with_reducible apply State.descErr_keeps (hm.of rfl)
    | with_reducible apply State.setSeq_keeps (hm.of rfl) | split | unfold x | dsimp only | with_reducible refine Keeps.upd ?_

theorem State.decideRepeat_keeps (hm : Sub 547842 pm) (hk : Keeps pm sk s) (q : Nat) (cp : Nat) (d : Desc) : Keeps pm sk (State.decideRepeat s q cp d).2 := by
  unfold State.decideRepeat
  repeat' first
    | with_reducible assumption | refine fun t (ht : Keeps pm sk t) => ?_ | refine fun _ t (ht : Keeps pm sk t) => ?_
    | ((try lift_lets); intro x; refine Keeps.cut (pm := pm) (sk := sk) (x := x) ?_ (fun hx => ?_); rotate_left; clear_value x; rotate_right)
    | ((try lift_lets); intro x; refine Keeps.cut2 (pm := pm) (sk := sk) (x := x) ?_ (fun hx => ?_); rotate_left; clear_value x; rotate_right)
    | ((try lift_lets); intro x; refine Keeps.cut3 (pm := pm) (sk := sk) (x := x) ?_ (fun hx => ?_); rotate_left; clear_value x; rotate_right)
    | ((try lift_lets); intro x; clear_value x) | with_reducible apply State.occur_keeps (hm.of rfl)
    | with_reducible apply State.setReg_keeps (hm.of rfl) | with_reducible apply State.setSeq_keeps (hm.of rfl) | split | unfold x
    | dsimp only | with_reducible refine Keeps.upd ?_

theorem State.commitPoint_keeps (hm : Sub 547970 pm) (hk : Keeps pm sk s) (q : Nat) (cp : Nat) (d : Desc) : Keeps pm sk (State.commitPoint s q cp d) := by
  unfold State.commitPoint
  repeat' first
    | with_reducible assumption | refine fun t (ht : Keeps pm sk t) => ?_ | refine fun _ t (ht : Keeps pm sk t) => ?_
    | ((try lift_lets); intro x; refine Keeps.cut (pm := pm) (sk := sk) (x := x) ?_ (fun hx => ?_); rotate_left; clear_value x; rotate_right)
    | ((try lift_lets); intro x; refine Keeps.cut2 (pm := pm) (sk := sk) (x := x) ?_ (fun hx => ?_); rotate_left; clear_value x; rotate_right)
    | ((try lift_lets); intro x; refine Keeps.cut3 (pm := pm) (sk := sk) (x := x) ?_ (fun hx => ?_); rotate_left; clear_value x; rotate_right)
    | ((try lift_lets); intro x; refine Keeps.cutG (pm := pm) (sk := sk) (x := x) (fun a ha => ?_) (fun hx => ?_))
    | ((try lift_lets); intro x; refine Keeps.cutH (pm := pm) (sk := sk) (x := x) (fun a b ha => ?_) (fun hx => ?_))
    | ((try lift_lets); intro x; refine Keeps.cutF2 (pm := pm) (sk := sk) (x := x) (fun a b => ?_) (fun hx => ?_))
    | ((try lift_lets); intro x; refine Keeps.cutF (pm := pm) (sk := sk) (x := x) (fun a => ?_) (fun hx => ?_))
    | ((try lift_lets); intro x; clear_value x) | with_reducible apply State.decideRepeat_keeps (hm.of rfl)
    | with_reducible apply State.decideSucc_keeps (hm.of rfl) | with_reducible apply State.descErr_keeps (hm.of rfl)
    | with_reducible apply State.repath_keeps (hm.of rfl) | with_reducible apply State.setB_keeps (hm.of rfl)
    | with_reducible apply State.setCtx_keeps (hm.of rfl) | with_reducible apply State.setSeq_keeps (hm.of rfl)
    | with_reducible apply State.slotDrop_keeps (hm.of rfl) | with_reducible apply State.stageLeave_keeps (hm.of rfl) | split | unfold x
    | dsimp only | with_reducible refine Keeps.upd ?_

theorem State.commitDue_keeps (hm : Sub 547970 pm) (hk : Keeps pm sk s) (q : Nat) : Keeps pm sk (State.commitDue s q) := by
  unfold State.commitDue
  repeat' first
    | with_reducible assumption
    | ((try lift_lets); intro x; refine Keeps.cut (pm := pm) (sk := sk) (x := x) ?_ (fun hx => ?_); rotate_left; clear_value x; rotate_right)
    | ((try lift_lets); intro x; clear_value x) | with_reducible apply State.commitPoint_keeps (hm.of rfl) | split | unfold x
    | dsimp only

theorem State.abortRun_keeps (hm : Sub 786434 pm) (hk : Keeps pm sk s) (q : Nat) : Keeps pm sk (State.abortRun s q) := by
  unfold State.abortRun
  repeat' first
    | with_reducible assumption | refine fun t (ht : Keeps pm sk t) => ?_ | refine fun _ t (ht : Keeps pm sk t) => ?_
    | ((try lift_lets); intro x; refine Keeps.cut (pm := pm) (sk := sk) (x := x) ?_ (fun hx => ?_); rotate_left; clear_value x; rotate_right)
    | ((try lift_lets); intro x; refine Keeps.cut2 (pm := pm) (sk := sk) (x := x) ?_ (fun hx => ?_); rotate_left; clear_value x; rotate_right)
    | ((try lift_lets); intro x; refine Keeps.cut3 (pm := pm) (sk := sk) (x := x) ?_ (fun hx => ?_); rotate_left; clear_value x; rotate_right)
    | ((try lift_lets); intro x; refine Keeps.cutG (pm := pm) (sk := sk) (x := x) (fun a ha => ?_) (fun hx => ?_))
    | ((try lift_lets); intro x; refine Keeps.cutH (pm := pm) (sk := sk) (x := x) (fun a b ha => ?_) (fun hx => ?_))
    | ((try lift_lets); intro x; refine Keeps.cutF2 (pm := pm) (sk := sk) (x := x) (fun a b => ?_) (fun hx => ?_))
    | ((try lift_lets); intro x; refine Keeps.cutF (pm := pm) (sk := sk) (x := x) (fun a => ?_) (fun hx => ?_))
    | ((try lift_lets); intro x; clear_value x) | with_reducible apply State.setDrops_keeps (hm.of rfl)
    | with_reducible apply State.setEdges_keeps (hm.of rfl) | with_reducible apply State.setReg64_keeps (hm.of rfl)
    | with_reducible apply State.setSeq_keeps (hm.of rfl) | with_reducible refine Keeps.foldl ?_ _ (fun t y ht => ?_)
    | with_reducible refine Keeps.foldl2 ?_ _ (fun t y ht => ?_) | split | unfold x | dsimp only | with_reducible refine Keeps.upd ?_

theorem State.seqAbort_keeps (hm : Sub 4152466 pm) (hk : Keeps pm sk s) (q : Nat) : Keeps pm sk (State.seqAbort s q) := by
  unfold State.seqAbort
  repeat' first
    | with_reducible assumption
    | ((try lift_lets); intro x; refine Keeps.cut (pm := pm) (sk := sk) (x := x) ?_ (fun hx => ?_); rotate_left; clear_value x; rotate_right)
    | ((try lift_lets); intro x; refine Keeps.cutG (pm := pm) (sk := sk) (x := x) (fun a ha => ?_) (fun hx => ?_))
    | ((try lift_lets); intro x; refine Keeps.cutH (pm := pm) (sk := sk) (x := x) (fun a b ha => ?_) (fun hx => ?_))
    | ((try lift_lets); intro x; refine Keeps.cutF2 (pm := pm) (sk := sk) (x := x) (fun a b => ?_) (fun hx => ?_))
    | ((try lift_lets); intro x; refine Keeps.cutF (pm := pm) (sk := sk) (x := x) (fun a => ?_) (fun hx => ?_))
    | ((try lift_lets); intro x; clear_value x) | with_reducible apply State.abortRun_keeps (hm.of rfl)
    | with_reducible apply State.commitDue_keeps (hm.of rfl) | with_reducible apply State.endNoOutput_keeps (hm.of rfl)
    | with_reducible apply State.setB_keeps (hm.of rfl) | split | unfold x | dsimp only

theorem State.seqShed_keeps (hm : Sub 268435351 pm) (hk : Keeps pm sk s) (q : Nat) : Keeps pm sk (State.seqShed s q) := by
  unfold State.seqShed
  repeat' first
    | with_reducible assumption
    | ((try lift_lets); intro x; refine Keeps.cut (pm := pm) (sk := sk) (x := x) ?_ (fun hx => ?_); rotate_left; clear_value x; rotate_right)
    | ((try lift_lets); intro x; clear_value x) | with_reducible apply State.endNoOutput_keeps (hm.of rfl)
    | with_reducible apply State.setSeq_keeps (hm.of rfl) | with_reducible apply State.shed_keeps (hm.of rfl) | split | unfold x
    | dsimp only | with_reducible refine Keeps.upd ?_

theorem State.seqStop_keeps (hm : Sub 3890322 pm) (hk : Keeps pm sk s) (q : Nat) : Keeps pm sk (State.seqStop s q) := by
  unfold State.seqStop
  repeat' first
    | with_reducible assumption
    | ((try lift_lets); intro x; refine Keeps.cut (pm := pm) (sk := sk) (x := x) ?_ (fun hx => ?_); rotate_left; clear_value x; rotate_right)
    | ((try lift_lets); intro x; clear_value x) | with_reducible apply State.endNoOutput_keeps (hm.of rfl)
    | with_reducible apply State.setSeq_keeps (hm.of rfl) | split | unfold x | dsimp only | with_reducible refine Keeps.upd ?_

theorem State.burstCtrl_keeps (hm : Sub 37706899 pm) (hk : Keeps pm sk s) (q : Nat) (v : Word) : Keeps pm sk (State.burstCtrl s q v) := by
  unfold State.burstCtrl
  repeat' first
    | with_reducible assumption
    | ((try lift_lets); intro x; refine Keeps.cut (pm := pm) (sk := sk) (x := x) ?_ (fun hx => ?_); rotate_left; clear_value x; rotate_right)
    | ((try lift_lets); intro x; clear_value x) | with_reducible apply State.denyStart_keeps (hm.of rfl)
    | with_reducible apply State.seqAbort_keeps (hm.of rfl) | with_reducible apply State.seqStart_keeps (hm.of rfl)
    | with_reducible apply State.seqStop_keeps (hm.of rfl) | with_reducible apply State.writeMasked_keeps (hm.of rfl) | split | unfold x
    | dsimp only

theorem execBurstCtrlStart_keeps (hm : Sub 37707163 pm) (hk : Keeps pm sk s) (q : Nat) (v : Word) : OutKeeps pm sk (execBurstCtrlStart q v s) := by
  unfold execBurstCtrlStart
  repeat' first
    | with_reducible assumption | refine fun t (ht : Keeps pm sk t) => ?_ | refine fun _ t (ht : Keeps pm sk t) => ?_
    | with_reducible apply OutKeeps.next | with_reducible apply State.burstCtrl_keeps (hm.of rfl)
    | with_reducible apply State.hostWrite_keeps (hm.of rfl) | split | dsimp only

theorem execBurstCtrlStop_keeps (hm : Sub 37707163 pm) (hk : Keeps pm sk s) (q : Nat) (v : Word) : OutKeeps pm sk (execBurstCtrlStop q v s) := by
  unfold execBurstCtrlStop
  repeat' first
    | with_reducible assumption | refine fun t (ht : Keeps pm sk t) => ?_ | refine fun _ t (ht : Keeps pm sk t) => ?_
    | with_reducible apply OutKeeps.next | with_reducible apply State.burstCtrl_keeps (hm.of rfl)
    | with_reducible apply State.hostWrite_keeps (hm.of rfl) | split | dsimp only

theorem execBurstCtrlAbort_keeps (hm : Sub 37707163 pm) (hk : Keeps pm sk s) (q : Nat) (v : Word) : OutKeeps pm sk (execBurstCtrlAbort q v s) := by
  unfold execBurstCtrlAbort
  repeat' first
    | with_reducible assumption | refine fun t (ht : Keeps pm sk t) => ?_ | refine fun _ t (ht : Keeps pm sk t) => ?_
    | with_reducible apply OutKeeps.next | with_reducible apply State.burstCtrl_keeps (hm.of rfl)
    | with_reducible apply State.hostWrite_keeps (hm.of rfl) | split | dsimp only

theorem execBurstAdmissionComplete_keeps (hm : Sub 524290 pm) (hk : Keeps pm sk s) (q : Nat) : OutKeeps pm sk (execBurstAdmissionComplete q s) := by
  unfold execBurstAdmissionComplete
  repeat' first
    | with_reducible assumption | refine fun t (ht : Keeps pm sk t) => ?_ | refine fun _ t (ht : Keeps pm sk t) => ?_
    | ((try lift_lets); intro x; refine Keeps.cut (pm := pm) (sk := sk) (x := x) ?_ (fun hx => ?_); rotate_left; clear_value x; rotate_right)
    | ((try lift_lets); intro x; clear_value x) | with_reducible apply OutKeeps.next
    | with_reducible apply State.seqState_keeps (hm.of rfl) | with_reducible apply State.setSeq_keeps (hm.of rfl) | split | unfold x
    | dsimp only | with_reducible refine Keeps.upd ?_

theorem execBurstSReached_keeps (hm : Sub 34364419 pm) (hk : Keeps pm sk s) (q : Nat) : OutKeeps pm sk (execBurstSReached q s) := by
  unfold execBurstSReached
  repeat' first
    | with_reducible assumption | refine fun t (ht : Keeps pm sk t) => ?_ | refine fun _ t (ht : Keeps pm sk t) => ?_
    | ((try lift_lets); intro x; refine Keeps.cut (pm := pm) (sk := sk) (x := x) ?_ (fun hx => ?_); rotate_left; clear_value x; rotate_right)
    | ((try lift_lets); intro x; refine Keeps.cut2 (pm := pm) (sk := sk) (x := x) ?_ (fun hx => ?_); rotate_left; clear_value x; rotate_right)
    | ((try lift_lets); intro x; refine Keeps.cut3 (pm := pm) (sk := sk) (x := x) ?_ (fun hx => ?_); rotate_left; clear_value x; rotate_right)
    | ((try lift_lets); intro x; clear_value x) | with_reducible apply OutKeeps.next | with_reducible apply State.occur_keeps (hm.of rfl)
    | with_reducible apply State.passTo_keeps (hm.of rfl) | with_reducible apply State.seqState_keeps (hm.of rfl)
    | with_reducible apply State.setEdges_keeps (hm.of rfl) | with_reducible apply State.setSeq_keeps (hm.of rfl)
    | with_reducible refine Keeps.foldl ?_ _ (fun t y ht => ?_) | with_reducible refine Keeps.foldl2 ?_ _ (fun t y ht => ?_) | split
    | unfold x | dsimp only | with_reducible refine Keeps.upd ?_

theorem execSegmentStart_keeps (hm : Sub 547842 pm) (hk : Keeps pm sk s) (q : Nat) : OutKeeps pm sk (execSegmentStart q s) := by
  unfold execSegmentStart
  repeat' first
    | with_reducible assumption | refine fun t (ht : Keeps pm sk t) => ?_ | refine fun _ t (ht : Keeps pm sk t) => ?_
    | ((try lift_lets); intro x; refine Keeps.cut (pm := pm) (sk := sk) (x := x) ?_ (fun hx => ?_); rotate_left; clear_value x; rotate_right)
    | ((try lift_lets); intro x; clear_value x) | with_reducible apply OutKeeps.next
    | with_reducible apply State.incSat_keeps (hm.of rfl) | with_reducible apply State.occur_keeps (hm.of rfl)
    | with_reducible apply State.setReg_keeps (hm.of rfl) | with_reducible apply State.setSeq_keeps (hm.of rfl)
    | with_reducible apply State.trigPulse_keeps (hm.of rfl) | with_reducible refine Keeps.foldl ?_ _ (fun t y ht => ?_)
    | with_reducible refine Keeps.foldl2 ?_ _ (fun t y ht => ?_) | split | unfold x | dsimp only | with_reducible refine Keeps.upd ?_

theorem execCommitPoint_keeps (hm : Sub 34102403 pm) (hk : Keeps pm sk s) (q : Nat) : OutKeeps pm sk (execCommitPoint q s) := by
  unfold execCommitPoint
  repeat' first
    | with_reducible assumption
    | ((try lift_lets); intro x; refine Keeps.cut (pm := pm) (sk := sk) (x := x) ?_ (fun hx => ?_); rotate_left; clear_value x; rotate_right)
    | ((try lift_lets); intro x; clear_value x) | with_reducible apply OutKeeps.next
    | with_reducible apply State.commitPoint_keeps (hm.of rfl) | with_reducible apply State.passTo_keeps (hm.of rfl) | split | unfold x
    | dsimp only

theorem execDescriptorArrival_keeps (hm : Sub 34102275 pm) (hk : Keeps pm sk s) (q : Nat) (i : Nat) : OutKeeps pm sk (execDescriptorArrival q i s) := by
  unfold execDescriptorArrival
  repeat' first
    | with_reducible assumption | refine fun t (ht : Keeps pm sk t) => ?_ | refine fun _ t (ht : Keeps pm sk t) => ?_
    | ((try lift_lets); intro x; refine Keeps.cut (pm := pm) (sk := sk) (x := x) ?_ (fun hx => ?_); rotate_left; clear_value x; rotate_right)
    | ((try lift_lets); intro x; clear_value x) | with_reducible exact OptKeeps.none | with_reducible apply OptKeeps.some
    | with_reducible refine OptKeeps.bind ?_ (fun t ht => ?_) | with_reducible refine OptKeeps.map ?_ (fun t ht => ?_)
    | with_reducible apply OptKeeps.getD | with_reducible refine OptKeeps.of (by assumption) ?_
    | with_reducible refine OptKeeps.foldl _ ?_ (fun t x ht => ?_) | with_reducible apply OutKeeps.next
    | with_reducible apply State.absorbAll_keeps (hm.of rfl) | with_reducible apply State.descErr_keeps (hm.of rfl)
    | with_reducible apply State.portRun_keeps (hm.of rfl) | with_reducible apply State.setSeq_keeps (hm.of rfl) | split | unfold x
    | dsimp only | with_reducible refine Keeps.upd ?_

theorem execParkPoint_keeps (hm : Sub 35412995 pm) (hk : Keeps pm sk s) (q : Nat) : OutKeeps pm sk (execParkPoint q s) := by
  unfold execParkPoint
  repeat' first
    | with_reducible assumption | refine fun t (ht : Keeps pm sk t) => ?_ | refine fun _ t (ht : Keeps pm sk t) => ?_
    | ((try lift_lets); intro x; refine Keeps.cut (pm := pm) (sk := sk) (x := x) ?_ (fun hx => ?_); rotate_left; clear_value x; rotate_right)
    | ((try lift_lets); intro x; clear_value x) | with_reducible apply OutKeeps.next
    | with_reducible apply State.captureFlush_keeps (hm.of rfl) | with_reducible apply State.parkChannel_keeps (hm.of rfl)
    | with_reducible apply State.passTo_keeps (hm.of rfl) | with_reducible apply State.seqState_keeps (hm.of rfl)
    | with_reducible apply State.setB_keeps (hm.of rfl) | with_reducible apply State.setSeq_keeps (hm.of rfl)
    | with_reducible apply State.sigPartial_keeps (hm.of rfl) | with_reducible apply State.slotDrop_keeps (hm.of rfl)
    | with_reducible refine Keeps.foldl ?_ _ (fun t y ht => ?_) | with_reducible refine Keeps.foldl2 ?_ _ (fun t y ht => ?_) | split
    | unfold x | dsimp only | with_reducible refine Keeps.upd ?_

theorem execParkComplete_keeps (hm : Sub 36396179 pm) (hk : Keeps pm sk s) (q : Nat) (m : Nat) : OutKeeps pm sk (execParkComplete q m s) := by
  unfold execParkComplete
  repeat' first
    | with_reducible assumption
    | ((try lift_lets); intro x; refine Keeps.cut (pm := pm) (sk := sk) (x := x) ?_ (fun hx => ?_); rotate_left; clear_value x; rotate_right)
    | ((try lift_lets); intro x; clear_value x) | with_reducible apply OutKeeps.next
    | with_reducible apply State.burstEnd_keeps (hm.of rfl) | with_reducible apply State.passTo_keeps (hm.of rfl) | split | unfold x
    | dsimp only

theorem State.setBur_keeps (hm : Sub 65536 pm) (hk : Keeps pm sk s) (b : Bursar) : Keeps pm sk (State.setBur s b) := by
  unfold State.setBur
  repeat' first
    | with_reducible assumption | dsimp only | with_reducible refine Keeps.upd ?_

theorem State.burValues_keeps (hm : Sub 89090 pm) (hk : Keeps pm sk s) : Keeps pm sk (State.burValues s) := by
  unfold State.burValues
  repeat' first
    | with_reducible assumption
    | ((try lift_lets); intro x; refine Keeps.cut (pm := pm) (sk := sk) (x := x) ?_ (fun hx => ?_); rotate_left; clear_value x; rotate_right)
    | ((try lift_lets); intro x; clear_value x) | with_reducible apply State.setBur_keeps (hm.of rfl)
    | with_reducible apply State.setLive_keeps (hm.of rfl) | split | unfold x | dsimp only | with_reducible refine Keeps.upd ?_

theorem execBursarInterval_keeps (hm : Sub 34167843 pm) (hk : Keeps pm sk s) : OutKeeps pm sk (execBursarInterval s) := by
  unfold execBursarInterval
  repeat' first
    | with_reducible assumption
    | ((try lift_lets); intro x; refine Keeps.cut (pm := pm) (sk := sk) (x := x) ?_ (fun hx => ?_); rotate_left; clear_value x; rotate_right)
    | ((try lift_lets); intro x; clear_value x) | with_reducible apply OutKeeps.next
    | with_reducible apply State.burValues_keeps (hm.of rfl) | with_reducible apply State.setBur_keeps (hm.of rfl)
    | with_reducible apply State.toGrid_keeps (hm.of rfl) | split | unfold x | dsimp only | with_reducible refine Keeps.upd ?_

theorem State.burFill_keeps (hm : Sub 65536 pm) (hk : Keeps pm sk s) : Keeps pm sk (State.burFill s) := by
  unfold State.burFill
  repeat' first
    | with_reducible assumption | refine fun t (ht : Keeps pm sk t) => ?_ | refine fun _ t (ht : Keeps pm sk t) => ?_
    | with_reducible apply State.setBur_keeps (hm.of rfl) | dsimp only | with_reducible refine Keeps.upd ?_

theorem State.burReset_keeps (hm : Sub 121858 pm) (hk : Keeps pm sk s) (cause : Nat) : Keeps pm sk (State.burReset s cause) := by
  unfold State.burReset
  repeat' first
    | with_reducible assumption | with_reducible apply State.burFill_keeps (hm.of rfl)
    | with_reducible apply State.resync_keeps (hm.of rfl) | dsimp only

theorem State.heat_keeps (hm : Sub 268435351 pm) (hk : Keeps pm sk s) : Keeps pm sk (State.heat s) := by
  unfold State.heat
  repeat' first
    | with_reducible assumption | refine fun t (ht : Keeps pm sk t) => ?_ | refine fun _ t (ht : Keeps pm sk t) => ?_
    | ((try lift_lets); intro x; refine Keeps.cut (pm := pm) (sk := sk) (x := x) ?_ (fun hx => ?_); rotate_left; clear_value x; rotate_right)
    | ((try lift_lets); intro x; clear_value x) | with_reducible apply State.incSat_keeps (hm.of rfl)
    | with_reducible apply State.seqShed_keeps (hm.of rfl) | with_reducible apply State.setBur_keeps (hm.of rfl)
    | with_reducible apply State.setLive_keeps (hm.of rfl) | with_reducible apply State.setReg_keeps (hm.of rfl)
    | with_reducible refine Keeps.foldl ?_ _ (fun t y ht => ?_) | with_reducible refine Keeps.foldl2 ?_ _ (fun t y ht => ?_) | split
    | unfold x | dsimp only | with_reducible refine Keeps.upd ?_

theorem State.takeReadings_keeps (hm : Sub 2 pm) (hk : Keeps pm sk s) (l : List (Nat × Nat)) : Keeps pm sk (State.takeReadings s l) := by
  unfold State.takeReadings
  repeat' first
    | with_reducible assumption | refine fun t (ht : Keeps pm sk t) => ?_ | refine fun _ t (ht : Keeps pm sk t) => ?_
    | with_reducible apply State.setReg_keeps (hm.of rfl) | with_reducible refine Keeps.foldl ?_ _ (fun t y ht => ?_)
    | with_reducible refine Keeps.foldl2 ?_ _ (fun t y ht => ?_) | split | dsimp only

theorem State.hostStale_keeps (hm : Sub 268435351 pm) (hk : Keeps pm sk s) (stale : Bool) : Keeps pm sk (State.hostStale s stale) := by
  unfold State.hostStale
  repeat' first
    | with_reducible assumption | refine fun t (ht : Keeps pm sk t) => ?_ | refine fun _ t (ht : Keeps pm sk t) => ?_
    | with_reducible apply State.heat_keeps (hm.of rfl) | with_reducible apply State.setB_keeps (hm.of rfl)
    | with_reducible refine Keeps.foldl ?_ _ (fun t y ht => ?_) | with_reducible refine Keeps.foldl2 ?_ _ (fun t y ht => ?_) | split
    | dsimp only

theorem State.tempNow_keeps (hm : Sub 16 pm) (hk : Keeps pm sk s) : Keeps pm sk (State.tempNow s).2 := by
  unfold State.tempNow
  repeat' first
    | with_reducible assumption | refine fun t (ht : Keeps pm sk t) => ?_ | refine fun _ t (ht : Keeps pm sk t) => ?_
    | ((try lift_lets); intro x; refine Keeps.cut (pm := pm) (sk := sk) (x := x) ?_ (fun hx => ?_); rotate_left; clear_value x; rotate_right)
    | ((try lift_lets); intro x; refine Keeps.cut2 (pm := pm) (sk := sk) (x := x) ?_ (fun hx => ?_); rotate_left; clear_value x; rotate_right)
    | ((try lift_lets); intro x; refine Keeps.cut3 (pm := pm) (sk := sk) (x := x) ?_ (fun hx => ?_); rotate_left; clear_value x; rotate_right)
    | ((try lift_lets); intro x; clear_value x) | with_reducible apply State.freshNat_keeps (hm.of rfl)
    | with_reducible refine Keeps.foldl ?_ _ (fun t y ht => ?_) | with_reducible refine Keeps.foldl2 ?_ _ (fun t y ht => ?_) | split
    | unfold x | dsimp only

theorem execSensorSample_keeps (hm : Sub 268435383 pm) (hk : Keeps pm sk s) (readings : List (Nat × Nat)) (coreMv : Nat) (core10mA : Nat) (fieldP : Nat) : OutKeeps pm sk (execSensorSample readings coreMv core10mA fieldP s) := by
  unfold execSensorSample
  repeat' first
    | with_reducible assumption | refine fun t (ht : Keeps pm sk t) => ?_ | refine fun _ t (ht : Keeps pm sk t) => ?_
    | ((try lift_lets); intro x; refine Keeps.cut (pm := pm) (sk := sk) (x := x) ?_ (fun hx => ?_); rotate_left; clear_value x; rotate_right)
    | ((try lift_lets); intro x; refine Keeps.cut2 (pm := pm) (sk := sk) (x := x) ?_ (fun hx => ?_); rotate_left; clear_value x; rotate_right)
    | ((try lift_lets); intro x; refine Keeps.cut3 (pm := pm) (sk := sk) (x := x) ?_ (fun hx => ?_); rotate_left; clear_value x; rotate_right)
    | ((try lift_lets); intro x; clear_value x) | with_reducible apply OutKeeps.next
    | with_reducible apply State.calTemp_keeps (hm.of rfl) | with_reducible apply State.heat_keeps (hm.of rfl)
    | with_reducible apply State.setReg_keeps (hm.of rfl) | with_reducible apply State.takeReadings_keeps (hm.of rfl)
    | with_reducible apply State.tempNow_keeps (hm.of rfl) | with_reducible apply State.toGrid_keeps (hm.of rfl) | split | unfold x
    | dsimp only

theorem execThermalTargetStep_keeps (hm : Sub 34167843 pm) (hk : Keeps pm sk s) : OutKeeps pm sk (execThermalTargetStep s) := by
  unfold execThermalTargetStep
  repeat' first
    | with_reducible assumption
    | ((try lift_lets); intro x; refine Keeps.cut (pm := pm) (sk := sk) (x := x) ?_ (fun hx => ?_); rotate_left; clear_value x; rotate_right)
    | ((try lift_lets); intro x; clear_value x) | with_reducible apply OutKeeps.next
    | with_reducible apply State.setBur_keeps (hm.of rfl) | with_reducible apply State.toGrid_keeps (hm.of rfl) | split | unfold x
    | dsimp only | with_reducible refine Keeps.upd ?_

theorem State.startUnit_keeps (hm : Sub 66804883 pm) (hk : Keeps pm sk s) (t : Task) : Keeps pm sk (State.startUnit s t) := by
  unfold State.startUnit
  repeat' first
    | with_reducible assumption
    | ((try lift_lets); intro x; refine Keeps.cut (pm := pm) (sk := sk) (x := x) ?_ (fun hx => ?_); rotate_left; clear_value x; rotate_right)
    | ((try lift_lets); intro x; clear_value x) | with_reducible apply State.calStart_keeps (hm.of rfl)
    | with_reducible apply State.chkBegin_keeps (hm.of rfl) | with_reducible apply State.endRun_keeps (hm.of rfl)
    | with_reducible apply State.flowBegin_keeps (hm.of rfl) | with_reducible apply State.seqStart_keeps (hm.of rfl)
    | with_reducible apply State.tdcBegin_keeps (hm.of rfl) | with_reducible apply State.tdcStart_keeps (hm.of rfl) | split | unfold x
    | dsimp only | with_reducible refine Keeps.upd ?_

theorem State.dispatch_keeps (hm : Sub 66804883 pm) (hk : Keeps pm sk s) (i : Nat) : Keeps pm sk (State.dispatch s i) := by
  unfold State.dispatch
  repeat' first
    | with_reducible assumption | refine fun t (ht : Keeps pm sk t) => ?_ | refine fun _ t (ht : Keeps pm sk t) => ?_
    | ((try lift_lets); intro x; refine Keeps.cut (pm := pm) (sk := sk) (x := x) ?_ (fun hx => ?_); rotate_left; clear_value x; rotate_right)
    | ((try lift_lets); intro x; clear_value x) | with_reducible apply State.inc64_keeps (hm.of rfl)
    | with_reducible apply State.setTask_keeps (hm.of rfl) | with_reducible apply State.startUnit_keeps (hm.of rfl) | split | unfold x
    | dsimp only | with_reducible refine Keeps.upd ?_

theorem State.beginDirect_keeps (hm : Sub 65764371 pm) (hk : Keeps pm sk s) (w : Wait) : Keeps pm sk (State.beginDirect s w) := by
  unfold State.beginDirect
  repeat' first
    | with_reducible assumption | with_reducible apply State.calBegin_keeps (hm.of rfl)
    | with_reducible apply State.calStart_keeps (hm.of rfl) | with_reducible apply State.chkBegin_keeps (hm.of rfl)
    | with_reducible apply State.dmaBegin_keeps (hm.of rfl) | with_reducible apply State.flowBegin_keeps (hm.of rfl)
    | with_reducible apply State.tdcBegin_keeps (hm.of rfl) | split | dsimp only

theorem State.admitWait_keeps (hm : Sub 66813075 pm) (hk : Keeps pm sk s) (w : Wait) : Keeps pm sk (State.admitWait s w) := by
  unfold State.admitWait
  repeat' first
    | with_reducible assumption
    | ((try lift_lets); intro x; refine Keeps.cut (pm := pm) (sk := sk) (x := x) ?_ (fun hx => ?_); rotate_left; clear_value x; rotate_right)
    | ((try lift_lets); intro x; clear_value x) | with_reducible apply State.beginDirect_keeps (hm.of rfl)
    | with_reducible apply State.dispatch_keeps (hm.of rfl) | with_reducible apply State.incWrap_keeps (hm.of rfl)
    | with_reducible apply State.run_keeps (hm.of rfl) | with_reducible apply State.setBur_keeps (hm.of rfl)
    | with_reducible apply State.setCal_keeps (hm.of rfl) | split | unfold x | dsimp only | with_reducible refine Keeps.upd ?_

theorem State.dropAuto_keeps (hm : Sub 16842752 pm) (hk : Keeps pm sk s) : Keeps pm sk (State.dropAuto s) := by
  unfold State.dropAuto
  repeat' first
    | with_reducible assumption | refine fun t (ht : Keeps pm sk t) => ?_ | refine fun _ t (ht : Keeps pm sk t) => ?_
    | with_reducible apply State.setBur_keeps (hm.of rfl) | with_reducible apply State.setCal_keeps (hm.of rfl) | split | dsimp only
    | with_reducible refine Keeps.upd ?_

theorem State.nextReady_keeps (hm : Sub 34102275 pm) (hk : Keeps pm sk s) : Keeps pm sk (State.nextReady s) := by
  unfold State.nextReady
  repeat' first
    | with_reducible assumption | refine fun t (ht : Keeps pm sk t) => ?_ | refine fun _ t (ht : Keeps pm sk t) => ?_
    | with_reducible apply State.pass_keeps (hm.of rfl) | split | dsimp only

theorem State.bursarCycle_keeps (hm : Sub 66813075 pm) (hk : Keeps pm sk s) : Keeps pm sk (State.bursarCycle s).2 := by
  unfold State.bursarCycle
  repeat' first
    | with_reducible assumption
    | ((try lift_lets); intro x; refine Keeps.cut (pm := pm) (sk := sk) (x := x) ?_ (fun hx => ?_); rotate_left; clear_value x; rotate_right)
    | ((try lift_lets); intro x; refine Keeps.cut2 (pm := pm) (sk := sk) (x := x) ?_ (fun hx => ?_); rotate_left; clear_value x; rotate_right)
    | ((try lift_lets); intro x; refine Keeps.cut3 (pm := pm) (sk := sk) (x := x) ?_ (fun hx => ?_); rotate_left; clear_value x; rotate_right)
    | ((try lift_lets); intro x; clear_value x) | with_reducible apply State.admitWait_keeps (hm.of rfl)
    | with_reducible apply State.dropAuto_keeps (hm.of rfl) | with_reducible apply State.nextReady_keeps (hm.of rfl)
    | with_reducible apply State.passTo_keeps (hm.of rfl) | with_reducible apply State.setBur_keeps (hm.of rfl)
    | with_reducible apply State.setLive_keeps (hm.of rfl) | split | unfold x | dsimp only | with_reducible refine Keeps.upd ?_

theorem execBursarAdmit_keeps (hm : Sub 66813075 pm) (hk : Keeps pm sk s) : OutKeeps pm sk (execBursarAdmit s) := by
  unfold execBursarAdmit
  repeat' first
    | with_reducible assumption | with_reducible apply OutKeeps.next | with_reducible apply State.bursarCycle_keeps (hm.of rfl) | split
    | dsimp only

theorem execTaskDispatch_keeps (hm : Sub 66813075 pm) (hk : Keeps pm sk s) : OutKeeps pm sk (execTaskDispatch s) := by
  unfold execTaskDispatch
  repeat' first
    | with_reducible assumption | refine fun t (ht : Keeps pm sk t) => ?_ | refine fun _ t (ht : Keeps pm sk t) => ?_
    | ((try lift_lets); intro x; refine Keeps.cut (pm := pm) (sk := sk) (x := x) ?_ (fun hx => ?_); rotate_left; clear_value x; rotate_right)
    | ((try lift_lets); intro x; refine Keeps.cut2 (pm := pm) (sk := sk) (x := x) ?_ (fun hx => ?_); rotate_left; clear_value x; rotate_right)
    | ((try lift_lets); intro x; refine Keeps.cut3 (pm := pm) (sk := sk) (x := x) ?_ (fun hx => ?_); rotate_left; clear_value x; rotate_right)
    | ((try lift_lets); intro x; clear_value x) | with_reducible apply OutKeeps.next
    | with_reducible apply State.bursarCycle_keeps (hm.of rfl) | with_reducible apply State.dispatch_keeps (hm.of rfl)
    | with_reducible apply State.setBur_keeps (hm.of rfl) | split | unfold x | dsimp only | with_reducible refine Keeps.upd ?_

theorem State.abortUnit_keeps (hm : Sub 67075222 pm) (hk : Keeps pm sk s) (t : Task) : Keeps pm sk (State.abortUnit t s) := by
  unfold State.abortUnit
  repeat' first
    | with_reducible assumption
    | ((try lift_lets); intro x; refine Keeps.cut (pm := pm) (sk := sk) (x := x) ?_ (fun hx => ?_); rotate_left; clear_value x; rotate_right)
    | ((try lift_lets); intro x; clear_value x) | with_reducible apply State.calAbort_keeps (hm.of rfl)
    | with_reducible apply State.chkAbort_keeps (hm.of rfl) | with_reducible apply State.dmaTaskAbort_keeps (hm.of rfl)
    | with_reducible apply State.flowAbort_keeps (hm.of rfl) | with_reducible apply State.seqAbort_keeps (hm.of rfl)
    | with_reducible apply State.tdcAbort_keeps (hm.of rfl) | split | unfold x | dsimp only

theorem execTaskAbort_keeps (hm : Sub 67075486 pm) (hk : Keeps pm sk s) : OutKeeps pm sk (execTaskAbort s) := by
  unfold execTaskAbort
  repeat' first
    | with_reducible assumption | refine fun t (ht : Keeps pm sk t) => ?_ | refine fun _ t (ht : Keeps pm sk t) => ?_
    | with_reducible apply OutKeeps.next | with_reducible apply State.abortTask_keeps (hm.of rfl)
    | with_reducible apply State.abortUnit_keeps (hm.of rfl) | with_reducible apply State.taskCmd_keeps (hm.of rfl) | dsimp only

theorem execArrivalApply_keeps (hm : Sub 67075223 pm) (hk : Keeps pm sk s) : OutKeeps pm sk (execArrivalApply s) := by
  unfold execArrivalApply
  repeat' first
    | with_reducible assumption | refine fun t (ht : Keeps pm sk t) => ?_ | refine fun _ t (ht : Keeps pm sk t) => ?_
    | with_reducible apply OutKeeps.next | with_reducible apply State.abortUnit_keeps (hm.of rfl)
    | with_reducible apply State.matchCycle_keeps (hm.of rfl) | split | dsimp only

theorem State.setCor_keeps (hm : Sub 16384 pm) (hk : Keeps pm sk s) (c : Corridor) : Keeps pm sk (State.setCor s c) := by
  unfold State.setCor
  repeat' first
    | with_reducible assumption | dsimp only | with_reducible refine Keeps.upd ?_

theorem State.routePulse_keeps (hm : Sub 16384 pm) (hk : Keeps pm sk s) (p : Pulse) : Keeps pm sk (State.routePulse s p) := by
  unfold State.routePulse
  repeat' first
    | with_reducible assumption | refine fun t (ht : Keeps pm sk t) => ?_ | refine fun _ t (ht : Keeps pm sk t) => ?_
    | ((try lift_lets); intro x; refine Keeps.cut (pm := pm) (sk := sk) (x := x) ?_ (fun hx => ?_); rotate_left; clear_value x; rotate_right)
    | ((try lift_lets); intro x; clear_value x) | with_reducible apply State.setCor_keeps (hm.of rfl) | split | unfold x | dsimp only
    | with_reducible refine Keeps.upd ?_

theorem State.routeDue_keeps (hm : Sub 16384 pm) (hk : Keeps pm sk s) : Keeps pm sk (State.routeDue s) := by
  unfold State.routeDue
  repeat' first
    | with_reducible assumption | refine fun t (ht : Keeps pm sk t) => ?_ | refine fun _ t (ht : Keeps pm sk t) => ?_
    | with_reducible apply State.routePulse_keeps (hm.of rfl) | with_reducible refine Keeps.foldl ?_ _ (fun t y ht => ?_)
    | with_reducible refine Keeps.foldl2 ?_ _ (fun t y ht => ?_) | split | dsimp only

theorem execCorridorPulseArrive_keeps (hm : Sub 34102275 pm) (hk : Keeps pm sk s) : OutKeeps pm sk (execCorridorPulseArrive s) := by
  unfold execCorridorPulseArrive
  repeat' first
    | with_reducible assumption | refine fun t (ht : Keeps pm sk t) => ?_ | refine fun _ t (ht : Keeps pm sk t) => ?_
    | with_reducible apply OutKeeps.next | with_reducible apply State.passTo_keeps (hm.of rfl)
    | with_reducible apply State.routePulse_keeps (hm.of rfl) | split | dsimp only

theorem State.refusePulse_keeps (hm : Sub 2 pm) (hk : Keeps pm sk s) : Keeps pm sk (State.refusePulse s) := by
  unfold State.refusePulse
  repeat' first
    | with_reducible assumption | with_reducible apply State.inc64_keeps (hm.of rfl) | dsimp only

theorem State.gateInput_keeps (hm : Sub 23554 pm) (hk : Keeps pm sk s) (i : Nat) (g : Nat) : Keeps pm sk (State.gateInput s i g) := by
  unfold State.gateInput
  repeat' first
    | with_reducible assumption
    | ((try lift_lets); intro x; refine Keeps.cut (pm := pm) (sk := sk) (x := x) ?_ (fun hx => ?_); rotate_left; clear_value x; rotate_right)
    | ((try lift_lets); intro x; clear_value x) | with_reducible apply State.incSat_keeps (hm.of rfl)
    | with_reducible apply State.occur_keeps (hm.of rfl) | with_reducible apply State.refusePulse_keeps (hm.of rfl)
    | with_reducible apply State.setReg_keeps (hm.of rfl) | split | unfold x | dsimp only

theorem State.gpeDrive_keeps (hm : Sub 2 pm) (hk : Keeps pm sk s) (k : Nat) (b : Bool) : Keeps pm sk (State.gpeDrive s k b) := by
  unfold State.gpeDrive
  repeat' first
    | with_reducible assumption | with_reducible apply State.setB_keeps (hm.of rfl) | dsimp only

theorem State.gpeUntil_keeps (hm : Sub 16384 pm) (hk : Keeps pm sk s) (k : Nat) (c : Nat) : Keeps pm sk (State.gpeUntil s k c) := by
  unfold State.gpeUntil
  repeat' first
    | with_reducible assumption | refine fun t (ht : Keeps pm sk t) => ?_ | refine fun _ t (ht : Keeps pm sk t) => ?_
    | with_reducible apply State.setCor_keeps (hm.of rfl) | dsimp only | with_reducible refine Keeps.upd ?_

theorem State.gpePulse_keeps (hm : Sub 16386 pm) (hk : Keeps pm sk s) (k : Nat) : Keeps pm sk (State.gpePulse s k) := by
  unfold State.gpePulse
  repeat' first
    | with_reducible assumption | with_reducible apply State.gpeDrive_keeps (hm.of rfl)
    | with_reducible apply State.gpeUntil_keeps (hm.of rfl) | split | dsimp only

theorem execGpeOutPulseEnd_keeps (hm : Sub 34102275 pm) (hk : Keeps pm sk s) (k : Nat) : OutKeeps pm sk (execGpeOutPulseEnd k s) := by
  unfold execGpeOutPulseEnd
  repeat' first
    | with_reducible assumption | refine fun t (ht : Keeps pm sk t) => ?_ | refine fun _ t (ht : Keeps pm sk t) => ?_
    | ((try lift_lets); intro x; refine Keeps.cut (pm := pm) (sk := sk) (x := x) ?_ (fun hx => ?_); rotate_left; clear_value x; rotate_right)
    | ((try lift_lets); intro x; clear_value x) | with_reducible apply OutKeeps.next
    | with_reducible apply State.gpeDrive_keeps (hm.of rfl) | with_reducible apply State.gpeUntil_keeps (hm.of rfl)
    | with_reducible apply State.passTo_keeps (hm.of rfl) | split | unfold x | dsimp only

theorem State.gpeModes_keeps (hm : Sub 16386 pm) (hk : Keeps pm sk s) (v : Word) : Keeps pm sk (State.gpeModes s v) := by
  unfold State.gpeModes
  repeat' first
    | with_reducible assumption | refine fun t (ht : Keeps pm sk t) => ?_ | refine fun _ t (ht : Keeps pm sk t) => ?_
    | ((try lift_lets); intro x; refine Keeps.cut (pm := pm) (sk := sk) (x := x) ?_ (fun hx => ?_); rotate_left; clear_value x; rotate_right)
    | ((try lift_lets); intro x; clear_value x) | with_reducible apply State.gpeDrive_keeps (hm.of rfl)
    | with_reducible apply State.gpeUntil_keeps (hm.of rfl) | with_reducible apply State.setReg_keeps (hm.of rfl)
    | with_reducible refine Keeps.foldl ?_ _ (fun t y ht => ?_) | with_reducible refine Keeps.foldl2 ?_ _ (fun t y ht => ?_) | split
    | unfold x | dsimp only

theorem execGpeOutModeWrite_keeps (hm : Sub 23818 pm) (hk : Keeps pm sk s) (v : Word) : OutKeeps pm sk (execGpeOutModeWrite v s) := by
  unfold execGpeOutModeWrite
  repeat' first
    | with_reducible assumption | refine fun t (ht : Keeps pm sk t) => ?_ | refine fun _ t (ht : Keeps pm sk t) => ?_
    | with_reducible apply OutKeeps.next | with_reducible apply State.gpeModes_keeps (hm.of rfl)
    | with_reducible apply State.hostWrite_keeps (hm.of rfl) | split | dsimp only

theorem State.gpeSoftware_keeps (hm : Sub 2 pm) (hk : Keeps pm sk s) : Keeps pm sk (State.gpeSoftware s) := by
  unfold State.gpeSoftware
  repeat' first
    | with_reducible assumption | refine fun t (ht : Keeps pm sk t) => ?_ | refine fun _ t (ht : Keeps pm sk t) => ?_
    | with_reducible apply State.gpeDrive_keeps (hm.of rfl) | with_reducible refine Keeps.foldl ?_ _ (fun t y ht => ?_)
    | with_reducible refine Keeps.foldl2 ?_ _ (fun t y ht => ?_) | dsimp only

theorem State.exportPulse_keeps (hm : Sub 1026 pm) (hk : Keeps pm sk s) (c : Nat) : Keeps pm sk (State.exportPulse s c).2 := by
  unfold State.exportPulse
  repeat' first
    | with_reducible assumption
    | ((try lift_lets); intro x; refine Keeps.cut (pm := pm) (sk := sk) (x := x) ?_ (fun hx => ?_); rotate_left; clear_value x; rotate_right)
    | ((try lift_lets); intro x; clear_value x) | with_reducible apply State.incSat_keeps (hm.of rfl) | split | unfold x | dsimp only

theorem State.wakePulse_keeps (hm : Sub 256 pm) (hk : Keeps pm sk s) : Keeps pm sk (State.wakePulse s) := by
  unfold State.wakePulse
  repeat' first
    | with_reducible assumption | with_reducible apply State.wake_keeps (hm.of rfl) | split | dsimp only

theorem State.consume_keeps (hm : Sub 548098 pm) (hk : Keeps pm sk s) (i : Nat) : Keeps pm sk (State.consume s i).2 := by
  unfold State.consume
  repeat' first
    | with_reducible assumption | with_reducible apply State.exportPulse_keeps (hm.of rfl)
    | with_reducible apply State.gpePulse_keeps (hm.of rfl) | with_reducible apply State.jumpPulse_keeps (hm.of rfl)
    | with_reducible apply State.portPulse_keeps (hm.of rfl) | with_reducible apply State.trigPulse_keeps (hm.of rfl)
    | with_reducible apply State.trigger_keeps (hm.of rfl) | with_reducible apply State.waitPulse_keeps (hm.of rfl)
    | with_reducible apply State.wakePulse_keeps (hm.of rfl) | split | dsimp only

theorem execConsumerPulse_keeps (hm : Sub 34102531 pm) (hk : Keeps pm sk s) (i : Nat) : OutKeeps pm sk (execConsumerPulse i s) := by
  unfold execConsumerPulse
  repeat' first
    | with_reducible assumption | refine fun t (ht : Keeps pm sk t) => ?_ | refine fun _ t (ht : Keeps pm sk t) => ?_
    | ((try lift_lets); intro x; refine Keeps.cut (pm := pm) (sk := sk) (x := x) ?_ (fun hx => ?_); rotate_left; clear_value x; rotate_right)
    | ((try lift_lets); intro x; refine Keeps.cut2 (pm := pm) (sk := sk) (x := x) ?_ (fun hx => ?_); rotate_left; clear_value x; rotate_right)
    | ((try lift_lets); intro x; refine Keeps.cut3 (pm := pm) (sk := sk) (x := x) ?_ (fun hx => ?_); rotate_left; clear_value x; rotate_right)
    | ((try lift_lets); intro x; clear_value x) | with_reducible apply OutKeeps.next
    | with_reducible apply State.consume_keeps (hm.of rfl) | with_reducible apply State.gateInput_keeps (hm.of rfl)
    | with_reducible apply State.inc64_keeps (hm.of rfl) | with_reducible apply State.passTo_keeps (hm.of rfl)
    | with_reducible apply State.refusePulse_keeps (hm.of rfl) | with_reducible apply State.setCor_keeps (hm.of rfl) | split | unfold x
    | dsimp only | with_reducible refine Keeps.upd ?_

theorem execStormWindowBoundary_keeps (hm : Sub 34102307 pm) (hk : Keeps pm sk s) : OutKeeps pm sk (execStormWindowBoundary s) := by
  unfold execStormWindowBoundary
  repeat' first
    | with_reducible assumption
    | ((try lift_lets); intro x; refine Keeps.cut (pm := pm) (sk := sk) (x := x) ?_ (fun hx => ?_); rotate_left; clear_value x; rotate_right)
    | ((try lift_lets); intro x; clear_value x) | with_reducible apply OutKeeps.next
    | with_reducible apply State.setCor_keeps (hm.of rfl) | with_reducible apply State.toGrid_keeps (hm.of rfl) | split | unfold x
    | dsimp only | with_reducible refine Keeps.upd ?_

theorem execSelectorWrite_keeps (hm : Sub 23818 pm) (hk : Keeps pm sk s) (i : Nat) (v : Word) : OutKeeps pm sk (execSelectorWrite i v s) := by
  unfold execSelectorWrite
  repeat' first
    | with_reducible assumption | refine fun t (ht : Keeps pm sk t) => ?_ | refine fun _ t (ht : Keeps pm sk t) => ?_
    | ((try lift_lets); intro x; refine Keeps.cut (pm := pm) (sk := sk) (x := x) ?_ (fun hx => ?_); rotate_left; clear_value x; rotate_right)
    | ((try lift_lets); intro x; clear_value x) | with_reducible apply OutKeeps.next
    | with_reducible apply State.hostWrite_keeps (hm.of rfl) | with_reducible apply State.routeDue_keeps (hm.of rfl)
    | with_reducible apply State.setCor_keeps (hm.of rfl) | with_reducible apply State.setReg_keeps (hm.of rfl) | split | unfold x
    | dsimp only | with_reducible refine Keeps.upd ?_

theorem execGpeInEdge_keeps (hm : Sub 23554 pm) (hk : Keeps pm sk s) (k : Nat) (rising : Bool) : OutKeeps pm sk (execGpeInEdge k rising s) := by
  unfold execGpeInEdge
  repeat' first
    | with_reducible assumption
    | ((try lift_lets); intro x; refine Keeps.cut (pm := pm) (sk := sk) (x := x) ?_ (fun hx => ?_); rotate_left; clear_value x; rotate_right)
    | ((try lift_lets); intro x; clear_value x) | with_reducible apply OutKeeps.next | with_reducible apply State.occur_keeps (hm.of rfl)
    | with_reducible apply State.setB_keeps (hm.of rfl) | split | unfold x | dsimp only

theorem execGpeInRecessEdge_keeps (hm : Sub 17666 pm) (hk : Keeps pm sk s) (k : Nat) (rising : Bool) : OutKeeps pm sk (execGpeInRecessEdge k rising s) := by
  unfold execGpeInRecessEdge
  repeat' first
    | with_reducible assumption
    | ((try lift_lets); intro x; refine Keeps.cut (pm := pm) (sk := sk) (x := x) ?_ (fun hx => ?_); rotate_left; clear_value x; rotate_right)
    | ((try lift_lets); intro x; clear_value x) | with_reducible apply OutKeeps.next
    | with_reducible apply State.incSat_keeps (hm.of rfl) | with_reducible apply State.setB_keeps (hm.of rfl)
    | with_reducible apply State.setCor_keeps (hm.of rfl) | with_reducible apply State.wake_keeps (hm.of rfl) | split | unfold x
    | dsimp only | with_reducible refine Keeps.upd ?_

theorem State.selReset_keeps (hm : Sub 2 pm) (hk : Keeps pm sk s) : Keeps pm sk (State.selReset s) := by
  unfold State.selReset
  repeat' first
    | with_reducible assumption | refine fun t (ht : Keeps pm sk t) => ?_ | refine fun _ t (ht : Keeps pm sk t) => ?_
    | with_reducible apply State.setReg_keeps (hm.of rfl) | with_reducible refine Keeps.foldl ?_ _ (fun t y ht => ?_)
    | with_reducible refine Keeps.foldl2 ?_ _ (fun t y ht => ?_) | split | dsimp only

theorem State.corReset_keeps (hm : Sub 16386 pm) (hk : Keeps pm sk s) : Keeps pm sk (State.corReset s) := by
  unfold State.corReset
  repeat' first
    | with_reducible assumption
    | ((try lift_lets); intro x; refine Keeps.cut (pm := pm) (sk := sk) (x := x) ?_ (fun hx => ?_); rotate_left; clear_value x; rotate_right)
    | ((try lift_lets); intro x; clear_value x) | with_reducible apply State.gpeModes_keeps (hm.of rfl)
    | with_reducible apply State.gpeSoftware_keeps (hm.of rfl) | with_reducible apply State.setCor_keeps (hm.of rfl)
    | with_reducible apply State.setReg_keeps (hm.of rfl) | unfold x | dsimp only | with_reducible refine Keeps.upd ?_

theorem State.corStop_keeps (hm : Sub 56322 pm) (hk : Keeps pm sk s) (records : Bool) : Keeps pm sk (State.corStop s records) := by
  unfold State.corStop
  repeat' first
    | with_reducible assumption
    | ((try lift_lets); intro x; refine Keeps.cut (pm := pm) (sk := sk) (x := x) ?_ (fun hx => ?_); rotate_left; clear_value x; rotate_right)
    | ((try lift_lets); intro x; clear_value x) | with_reducible apply State.inc64_keeps (hm.of rfl)
    | with_reducible apply State.resync_keeps (hm.of rfl) | with_reducible apply State.selReset_keeps (hm.of rfl)
    | with_reducible apply State.setCor_keeps (hm.of rfl) | with_reducible apply State.setReg_keeps (hm.of rfl)
    | with_reducible apply State.setReg64_keeps (hm.of rfl) | split | unfold x | dsimp only | with_reducible refine Keeps.upd ?_

end Sys2Proof.Machine
end

