-- ==== Sys2Proof/Laws/KeepsRing.lean ====
section
/-! SUPPORT. What each definition of the links, the ring and the time bases keeps. -/

namespace Sys2Proof.Machine

set_option Elab.async false
set_option linter.all false

variable {pm : Nat} {sk s : State}

theorem State.setLanes_keeps (hm : Sub 67108864 pm) (hk : Keeps pm sk s) (x : Lanes) : Keeps pm sk (State.setLanes s x) := by
  unfold State.setLanes
  repeat' first
    | with_reducible assumption | dsimp only | with_reducible refine Keeps.upd ?_

theorem State.setLane_keeps (hm : Sub 67108864 pm) (hk : Keeps pm sk s) (n : Nat) (x : Lane) : Keeps pm sk (State.setLane s n x) := by
  unfold State.setLane
  repeat' first
    | with_reducible assumption | refine fun t (ht : Keeps pm sk t) => ?_ | refine fun _ t (ht : Keeps pm sk t) => ?_
    | with_reducible apply State.setLanes_keeps (hm.of rfl) | dsimp only | with_reducible refine Keeps.upd ?_

theorem State.setLink_keeps (hm : Sub 67108864 pm) (hk : Keeps pm sk s) (l : Nat) (x : Link) : Keeps pm sk (State.setLink s l x) := by
  unfold State.setLink
  repeat' first
    | with_reducible assumption | refine fun t (ht : Keeps pm sk t) => ?_ | refine fun _ t (ht : Keeps pm sk t) => ?_
    | with_reducible apply State.setLanes_keeps (hm.of rfl) | dsimp only | with_reducible refine Keeps.upd ?_

theorem State.linkOccur_keeps (hm : Sub 23554 pm) (hk : Keeps pm sk s) (l : Nat) (b : Nat) : Keeps pm sk (State.linkOccur s l b) := by
  unfold State.linkOccur
  repeat' first
    | with_reducible assumption | with_reducible apply State.occur_keeps (hm.of rfl) | split | dsimp only

theorem State.linkCount_keeps (hm : Sub 1026 pm) (hk : Keeps pm sk s) (l : Nat) (off : Nat) (k : Nat) : Keeps pm sk (State.linkCount s l off k) := by
  unfold State.linkCount
  repeat' first
    | with_reducible assumption | with_reducible apply State.incSat_keeps (hm.of rfl) | split | dsimp only

theorem State.frozenLive_keeps (hm : Sub 23554 pm) (hk : Keeps pm sk s) (l : Nat) : Keeps pm sk (State.frozenLive s l) := by
  unfold State.frozenLive
  repeat' first
    | with_reducible assumption | refine fun t (ht : Keeps pm sk t) => ?_ | refine fun _ t (ht : Keeps pm sk t) => ?_
    | with_reducible apply State.setLive_keeps (hm.of rfl) | split | dsimp only

theorem State.takeMap_keeps (hm : Sub 67132418 pm) (hk : Keeps pm sk s) (l : Nat) (w : Nat) : Keeps pm sk (State.takeMap s l w) := by
  unfold State.takeMap
  repeat' first
    | with_reducible assumption | refine fun t (ht : Keeps pm sk t) => ?_ | refine fun _ t (ht : Keeps pm sk t) => ?_
    | ((try lift_lets); intro x; refine Keeps.cut (pm := pm) (sk := sk) (x := x) ?_ (fun hx => ?_); rotate_left; clear_value x; rotate_right)
    | ((try lift_lets); intro x; clear_value x) | with_reducible apply State.frozenLive_keeps (hm.of rfl)
    | with_reducible apply State.setLane_keeps (hm.of rfl) | with_reducible apply State.setLink_keeps (hm.of rfl)
    | with_reducible refine Keeps.foldl ?_ _ (fun t y ht => ?_) | with_reducible refine Keeps.foldl2 ?_ _ (fun t y ht => ?_) | split
    | unfold x | dsimp only | with_reducible refine Keeps.upd ?_

theorem State.setRing_keeps (hm : Sub 134217728 pm) (hk : Keeps pm sk s) (r : Ring) : Keeps pm sk (State.setRing s r) := by
  unfold State.setRing
  repeat' first
    | with_reducible assumption | dsimp only | with_reducible refine Keeps.upd ?_

theorem State.setPort_keeps (hm : Sub 134217728 pm) (hk : Keeps pm sk s) (p : Nat) (x : RingPort) : Keeps pm sk (State.setPort s p x) := by
  unfold State.setPort
  repeat' first
    | with_reducible assumption | refine fun t (ht : Keeps pm sk t) => ?_ | refine fun _ t (ht : Keeps pm sk t) => ?_
    | with_reducible apply State.setRing_keeps (hm.of rfl) | dsimp only | with_reducible refine Keeps.upd ?_

theorem State.sendFrame_keeps (hm : Sub 67108864 pm) (hk : Keeps pm sk s) (l : Nat) (cls : Nat) (mk : (Nat → Nat) → List Byte) : Keeps pm sk (State.sendFrame s l cls mk) := by
  unfold State.sendFrame
  repeat' first
    | with_reducible assumption | refine fun t (ht : Keeps pm sk t) => ?_ | refine fun _ t (ht : Keeps pm sk t) => ?_
    | ((try lift_lets); intro x; refine Keeps.cut (pm := pm) (sk := sk) (x := x) ?_ (fun hx => ?_); rotate_left; clear_value x; rotate_right)
    | ((try lift_lets); intro x; refine Keeps.cutG (pm := pm) (sk := sk) (x := x) (fun a ha => ?_) (fun hx => ?_))
    | ((try lift_lets); intro x; refine Keeps.cutH (pm := pm) (sk := sk) (x := x) (fun a b ha => ?_) (fun hx => ?_))
    | ((try lift_lets); intro x; refine Keeps.cutF2 (pm := pm) (sk := sk) (x := x) (fun a b => ?_) (fun hx => ?_))
    | ((try lift_lets); intro x; refine Keeps.cutF (pm := pm) (sk := sk) (x := x) (fun a => ?_) (fun hx => ?_))
    | ((try lift_lets); intro x; clear_value x) | with_reducible apply State.setLink_keeps (hm.of rfl)
    | with_reducible refine Keeps.foldl ?_ _ (fun t y ht => ?_) | with_reducible refine Keeps.foldl2 ?_ _ (fun t y ht => ?_) | split
    | unfold x | dsimp only | with_reducible refine Keeps.upd ?_

theorem State.owe_keeps (hm : Sub 67108864 pm) (hk : Keeps pm sk s) (l : Nat) (cls : Nat) : Keeps pm sk (State.owe s l cls) := by
  unfold State.owe
  repeat' first
    | with_reducible assumption | refine fun t (ht : Keeps pm sk t) => ?_ | refine fun _ t (ht : Keeps pm sk t) => ?_
    | ((try lift_lets); intro x; refine Keeps.cut (pm := pm) (sk := sk) (x := x) ?_ (fun hx => ?_); rotate_left; clear_value x; rotate_right)
    | ((try lift_lets); intro x; clear_value x) | with_reducible apply State.setLink_keeps (hm.of rfl) | split | unfold x | dsimp only
    | with_reducible refine Keeps.upd ?_

theorem State.copyDone_keeps (hm : Sub 67108864 pm) (hk : Keeps pm sk s) (l : Nat) (d : Int) : Keeps pm sk (State.copyDone s l d) := by
  unfold State.copyDone
  repeat' first
    | with_reducible assumption
    | ((try lift_lets); intro x; refine Keeps.cut (pm := pm) (sk := sk) (x := x) ?_ (fun hx => ?_); rotate_left; clear_value x; rotate_right)
    | ((try lift_lets); intro x; clear_value x) | with_reducible apply State.owe_keeps (hm.of rfl)
    | with_reducible apply State.setLink_keeps (hm.of rfl) | split | unfold x | dsimp only | with_reducible refine Keeps.upd ?_

theorem State.forwarded_keeps (hm : Sub 67108864 pm) (hk : Keeps pm sk s) (q : Nat) (f : RFrame) : Keeps pm sk (State.forwarded s q f) := by
  unfold State.forwarded
  repeat' first
    | with_reducible assumption | with_reducible apply State.copyDone_keeps (hm.of rfl)
    | with_reducible apply State.owe_keeps (hm.of rfl) | split | dsimp only

theorem State.ringPump_keeps (hm : Sub 201326592 pm) (hk : Keeps pm sk s) : Keeps pm sk s.ringPump := by
  unfold State.ringPump
  dsimp only
  refine State.setRing_keeps (hm.of rfl) ?_ _
  refine Keeps.foldl1 (r := (s, [])) hk _ fun r f h => ?_
  iterate 6 try any_goals first
    | with_reducible assumption
    | split
    | with_reducible apply State.forwarded_keeps (hm.of rfl)
    | with_reducible apply State.sendFrame_keeps (hm.of rfl)

theorem State.ringQueue_keeps (hm : Sub 201326592 pm) (hk : Keeps pm sk s) (f : RFrame) : Keeps pm sk (State.ringQueue s f) := by
  unfold State.ringQueue
  repeat' first
    | with_reducible assumption | with_reducible apply State.ringPump_keeps (hm.of rfl)
    | with_reducible apply State.setRing_keeps (hm.of rfl) | dsimp only | with_reducible refine Keeps.upd ?_

theorem State.ringEmit_keeps (hm : Sub 201326592 pm) (hk : Keeps pm sk s) (cls : Nat) (typ : Nat) (dest : Nat) (data : List Byte) (always : Bool) : Keeps pm sk (State.ringEmit s cls typ dest data always) := by
  unfold State.ringEmit
  repeat' first
    | with_reducible assumption | refine fun t (ht : Keeps pm sk t) => ?_ | refine fun _ t (ht : Keeps pm sk t) => ?_
    | ((try lift_lets); intro x; refine Keeps.cut (pm := pm) (sk := sk) (x := x) ?_ (fun hx => ?_); rotate_left; clear_value x; rotate_right)
    | ((try lift_lets); intro x; clear_value x) | with_reducible apply State.ringQueue_keeps (hm.of rfl)
    | with_reducible apply State.setRing_keeps (hm.of rfl) | split | unfold x | dsimp only | with_reducible refine Keeps.upd ?_

theorem State.satBack_keeps (hm : Sub 2 pm) (hk : Keeps pm sk s) (host : Bool) (c : Nat) (n : Nat) : Keeps pm sk (State.satBack s host c n) := by
  unfold State.satBack
  repeat' first
    | with_reducible assumption | with_reducible apply State.setF_keeps (hm.of rfl) | dsimp only

theorem State.satSend_keeps (hm : Sub 67108866 pm) (hk : Keeps pm sk s) (host : Bool) (m : SatMsg) : Keeps pm sk (State.satSend s host m) := by
  unfold State.satSend
  repeat' first
    | with_reducible assumption | refine fun t (ht : Keeps pm sk t) => ?_ | refine fun _ t (ht : Keeps pm sk t) => ?_
    | ((try lift_lets); intro x; refine Keeps.cut (pm := pm) (sk := sk) (x := x) ?_ (fun hx => ?_); rotate_left; clear_value x; rotate_right)
    | ((try lift_lets); intro x; clear_value x) | with_reducible apply State.owe_keeps (hm.of rfl)
    | with_reducible apply State.sendFrame_keeps (hm.of rfl) | with_reducible apply State.setF_keeps (hm.of rfl) | unfold x | dsimp only
    | with_reducible refine Keeps.upd ?_

theorem State.hostResync_keeps (hm : Sub 32768 pm) (hk : Keeps pm sk s) (cause : Nat) (kind : Nat) (page : Nat) (sub : Nat) (amount : Int) : Keeps pm sk (State.hostResync s cause kind page sub amount) := by
  unfold State.hostResync
  repeat' first
    | with_reducible assumption | split | dsimp only | with_reducible refine Keeps.upd ?_

theorem State.rollBusy_keeps (hm : Sub 2 pm) (hk : Keeps pm sk s) (b : Bool) : Keeps pm sk (State.rollBusy s b) := by
  unfold State.rollBusy
  repeat' first
    | with_reducible assumption | with_reducible apply State.setB_keeps (hm.of rfl) | dsimp only

theorem State.portLive_keeps (hm : Sub 23554 pm) (hk : Keeps pm sk s) : Keeps pm sk (State.portLive s) := by
  unfold State.portLive
  repeat' first
    | with_reducible assumption | with_reducible apply State.setLive_keeps (hm.of rfl) | dsimp only

theorem State.ringState_keeps (hm : Sub 134241282 pm) (hk : Keeps pm sk s) (st : Nat) : Keeps pm sk (State.ringState s st) := by
  unfold State.ringState
  repeat' first
    | with_reducible assumption | with_reducible apply State.setLive_keeps (hm.of rfl)
    | with_reducible apply State.setRing_keeps (hm.of rfl) | dsimp only | with_reducible refine Keeps.upd ?_

theorem State.hopChange_keeps (hm : Sub 134241794 pm) (hk : Keeps pm sk s) : Keeps pm sk (State.hopChange s) := by
  unfold State.hopChange
  repeat' first
    | with_reducible assumption | with_reducible apply State.setRing_keeps (hm.of rfl)
    | with_reducible apply State.tb0Change_keeps (hm.of rfl) | split | dsimp only | with_reducible refine Keeps.upd ?_

theorem State.formPort_keeps (hm : Sub 167796227 pm) (hk : Keeps pm sk s) (p : Nat) (order : List (Nat × Nat)) (span : Bool) : Keeps pm sk (State.formPort s p order span) := by
  unfold State.formPort
  repeat' first
    | with_reducible assumption | refine fun t (ht : Keeps pm sk t) => ?_ | refine fun _ t (ht : Keeps pm sk t) => ?_
    | ((try lift_lets); intro x; refine Keeps.cut (pm := pm) (sk := sk) (x := x) ?_ (fun hx => ?_); rotate_left; clear_value x; rotate_right)
    | ((try lift_lets); intro x; refine Keeps.cut2 (pm := pm) (sk := sk) (x := x) ?_ (fun hx => ?_); rotate_left; clear_value x; rotate_right)
    | ((try lift_lets); intro x; refine Keeps.cut3 (pm := pm) (sk := sk) (x := x) ?_ (fun hx => ?_); rotate_left; clear_value x; rotate_right)
    | ((try lift_lets); intro x; clear_value x) | with_reducible apply State.hopChange_keeps (hm.of rfl)
    | with_reducible apply State.occur_keeps (hm.of rfl) | with_reducible apply State.run_keeps (hm.of rfl)
    | with_reducible apply State.setPort_keeps (hm.of rfl) | with_reducible apply State.setReg_keeps (hm.of rfl) | split | unfold x
    | dsimp only | with_reducible refine Keeps.upd ?_

theorem State.applyFormed_keeps (hm : Sub 167796227 pm) (hk : Keeps pm sk s) (wrapped : Bool) (split : Bool) (order : List (Nat × Nat)) (spanE : Bool) (spanW : Bool) : Keeps pm sk (State.applyFormed s wrapped split order spanE spanW) := by
  unfold State.applyFormed
  repeat' first
    | with_reducible assumption
    | ((try lift_lets); intro x; refine Keeps.cut (pm := pm) (sk := sk) (x := x) ?_ (fun hx => ?_); rotate_left; clear_value x; rotate_right)
    | ((try lift_lets); intro x; refine Keeps.cut2 (pm := pm) (sk := sk) (x := x) ?_ (fun hx => ?_); rotate_left; clear_value x; rotate_right)
    | ((try lift_lets); intro x; refine Keeps.cut3 (pm := pm) (sk := sk) (x := x) ?_ (fun hx => ?_); rotate_left; clear_value x; rotate_right)
    | ((try lift_lets); intro x; clear_value x) | with_reducible apply State.formPort_keeps (hm.of rfl)
    | with_reducible apply State.hopChange_keeps (hm.of rfl) | with_reducible apply State.incWrap_keeps (hm.of rfl)
    | with_reducible apply State.occur_keeps (hm.of rfl) | with_reducible apply State.portLive_keeps (hm.of rfl)
    | with_reducible apply State.ringState_keeps (hm.of rfl) | with_reducible apply State.rollBusy_keeps (hm.of rfl)
    | with_reducible apply State.setReg_keeps (hm.of rfl) | with_reducible apply State.setRing_keeps (hm.of rfl)
    | with_reducible apply State.tbStart_keeps (hm.of rfl) | split | unfold x | dsimp only | with_reducible refine Keeps.upd ?_

theorem State.takeMaster_keeps (hm : Sub 134217728 pm) (hk : Keeps pm sk s) : Keeps pm sk (State.takeMaster s) := by
  unfold State.takeMaster
  repeat' first
    | with_reducible assumption | refine fun t (ht : Keeps pm sk t) => ?_ | refine fun _ t (ht : Keeps pm sk t) => ?_
    | with_reducible apply State.setRing_keeps (hm.of rfl) | split | dsimp only | with_reducible refine Keeps.upd ?_

theorem State.formOne_keeps (hm : Sub 167796227 pm) (hk : Keeps pm sk s) : Keeps pm sk (State.formOne s) := by
  unfold State.formOne
  repeat' first
    | with_reducible assumption | with_reducible apply State.applyFormed_keeps (hm.of rfl)
    | with_reducible apply State.takeMaster_keeps (hm.of rfl) | dsimp only

theorem State.sendTime_keeps (hm : Sub 134217728 pm) (hk : Keeps pm sk s) (p : Nat) (et : Nat) (mk : Nat → List Byte) : Keeps pm sk (State.sendTime s p et mk).2 := by
  unfold State.sendTime
  repeat' first
    | with_reducible assumption
    | ((try lift_lets); intro x; refine Keeps.cut (pm := pm) (sk := sk) (x := x) ?_ (fun hx => ?_); rotate_left; clear_value x; rotate_right)
    | ((try lift_lets); intro x; clear_value x) | with_reducible apply State.setPort_keeps (hm.of rfl) | unfold x | dsimp only
    | with_reducible refine Keeps.upd ?_

theorem State.sendDreq_keeps (hm : Sub 134217728 pm) (hk : Keeps pm sk s) (p : Nat) : Keeps pm sk (State.sendDreq s p) := by
  unfold State.sendDreq
  repeat' first
    | with_reducible assumption | refine fun t (ht : Keeps pm sk t) => ?_ | refine fun _ t (ht : Keeps pm sk t) => ?_
    | ((try lift_lets); intro x; refine Keeps.cut (pm := pm) (sk := sk) (x := x) ?_ (fun hx => ?_); rotate_left; clear_value x; rotate_right)
    | ((try lift_lets); intro x; refine Keeps.cut2 (pm := pm) (sk := sk) (x := x) ?_ (fun hx => ?_); rotate_left; clear_value x; rotate_right)
    | ((try lift_lets); intro x; refine Keeps.cut3 (pm := pm) (sk := sk) (x := x) ?_ (fun hx => ?_); rotate_left; clear_value x; rotate_right)
    | ((try lift_lets); intro x; clear_value x) | with_reducible apply State.sendTime_keeps (hm.of rfl)
    | with_reducible apply State.setPort_keeps (hm.of rfl) | unfold x | dsimp only | with_reducible refine Keeps.upd ?_

theorem State.exchangeStart_keeps (hm : Sub 201326592 pm) (hk : Keeps pm sk s) : Keeps pm sk (State.exchangeStart s) := by
  unfold State.exchangeStart
  repeat' first
    | with_reducible assumption | refine fun t (ht : Keeps pm sk t) => ?_ | refine fun _ t (ht : Keeps pm sk t) => ?_
    | ((try lift_lets); intro x; refine Keeps.cut (pm := pm) (sk := sk) (x := x) ?_ (fun hx => ?_); rotate_left; clear_value x; rotate_right)
    | ((try lift_lets); intro x; clear_value x) | with_reducible apply State.ringQueue_keeps (hm.of rfl)
    | with_reducible apply State.sendDreq_keeps (hm.of rfl) | with_reducible apply State.setPort_keeps (hm.of rfl)
    | with_reducible apply State.setRing_keeps (hm.of rfl) | with_reducible refine Keeps.foldl ?_ _ (fun t y ht => ?_)
    | with_reducible refine Keeps.foldl2 ?_ _ (fun t y ht => ?_) | split | unfold x | dsimp only | with_reducible refine Keeps.upd ?_

theorem State.rollStart_keeps (hm : Sub 234905091 pm) (hk : Keeps pm sk s) : Keeps pm sk (State.rollStart s) := by
  unfold State.rollStart
  repeat' first
    | with_reducible assumption
    | ((try lift_lets); intro x; refine Keeps.cut (pm := pm) (sk := sk) (x := x) ?_ (fun hx => ?_); rotate_left; clear_value x; rotate_right)
    | ((try lift_lets); intro x; refine Keeps.cutG (pm := pm) (sk := sk) (x := x) (fun a ha => ?_) (fun hx => ?_))
    | ((try lift_lets); intro x; refine Keeps.cutH (pm := pm) (sk := sk) (x := x) (fun a b ha => ?_) (fun hx => ?_))
    | ((try lift_lets); intro x; refine Keeps.cutF2 (pm := pm) (sk := sk) (x := x) (fun a b => ?_) (fun hx => ?_))
    | ((try lift_lets); intro x; refine Keeps.cutF (pm := pm) (sk := sk) (x := x) (fun a => ?_) (fun hx => ?_))
    | ((try lift_lets); intro x; clear_value x) | with_reducible apply State.exchangeStart_keeps (hm.of rfl)
    | with_reducible apply State.formOne_keeps (hm.of rfl) | with_reducible apply State.ringQueue_keeps (hm.of rfl)
    | with_reducible apply State.rollBusy_keeps (hm.of rfl) | with_reducible apply State.setRing_keeps (hm.of rfl)
    | with_reducible apply State.takeMaster_keeps (hm.of rfl) | split | unfold x | dsimp only | with_reducible refine Keeps.upd ?_

theorem State.rollRequest_keeps (hm : Sub 234905091 pm) (hk : Keeps pm sk s) : Keeps pm sk (State.rollRequest s) := by
  unfold State.rollRequest
  repeat' first
    | with_reducible assumption
    | ((try lift_lets); intro x; refine Keeps.cut (pm := pm) (sk := sk) (x := x) ?_ (fun hx => ?_); rotate_left; clear_value x; rotate_right)
    | ((try lift_lets); intro x; clear_value x) | with_reducible apply State.ringEmit_keeps (hm.of rfl)
    | with_reducible apply State.rollStart_keeps (hm.of rfl) | split | unfold x | dsimp only

theorem State.portChanged_keeps (hm : Sub 234905091 pm) (hk : Keeps pm sk s) (p : Nat) : Keeps pm sk (State.portChanged s p) := by
  unfold State.portChanged
  repeat' first
    | with_reducible assumption
    | ((try lift_lets); intro x; refine Keeps.cut (pm := pm) (sk := sk) (x := x) ?_ (fun hx => ?_); rotate_left; clear_value x; rotate_right)
    | ((try lift_lets); intro x; clear_value x) | with_reducible apply State.hopChange_keeps (hm.of rfl)
    | with_reducible apply State.portLive_keeps (hm.of rfl) | with_reducible apply State.rollRequest_keeps (hm.of rfl)
    | with_reducible apply State.setPort_keeps (hm.of rfl) | with_reducible apply State.setRing_keeps (hm.of rfl) | unfold x | dsimp only
    | with_reducible refine Keeps.upd ?_

theorem State.sendState_keeps (hm : Sub 201326592 pm) (hk : Keeps pm sk s) : Keeps pm sk (State.sendState s) := by
  unfold State.sendState
  repeat' first
    | with_reducible assumption | with_reducible apply State.ringEmit_keeps (hm.of rfl) | split | dsimp only

theorem State.auditSend_keeps (hm : Sub 67108864 pm) (hk : Keeps pm sk s) (l : Nat) (striped : Bool) : Keeps pm sk (State.auditSend s l striped) := by
  unfold State.auditSend
  repeat' first
    | with_reducible assumption
    | ((try lift_lets); intro x; refine Keeps.cut (pm := pm) (sk := sk) (x := x) ?_ (fun hx => ?_); rotate_left; clear_value x; rotate_right)
    | ((try lift_lets); intro x; clear_value x) | with_reducible apply State.setLink_keeps (hm.of rfl) | split | unfold x | dsimp only
    | with_reducible refine Keeps.upd ?_

theorem State.linkJudge_keeps (hm : Sub 234905091 pm) (hk : Keeps pm sk s) (l : Nat) (was : Bool) : Keeps pm sk (State.linkJudge s l was) := by
  unfold State.linkJudge
  repeat' first
    | with_reducible assumption
    | ((try lift_lets); intro x; refine Keeps.cut (pm := pm) (sk := sk) (x := x) ?_ (fun hx => ?_); rotate_left; clear_value x; rotate_right)
    | ((try lift_lets); intro x; clear_value x) | with_reducible apply State.auditSend_keeps (hm.of rfl)
    | with_reducible apply State.portChanged_keeps (hm.of rfl) | with_reducible apply State.setLink_keeps (hm.of rfl)
    | with_reducible apply State.setLive_keeps (hm.of rfl) | split | unfold x | dsimp only | with_reducible refine Keeps.upd ?_

theorem State.restripe_keeps (hm : Sub 67108864 pm) (hk : Keeps pm sk s) (l : Nat) (cause : Nat) (dir : Nat) (lane : Nat) (old : Nat) : Keeps pm sk (State.restripe s l cause dir lane old) := by
  unfold State.restripe
  repeat' first
    | with_reducible assumption
    | ((try lift_lets); intro x; refine Keeps.cut (pm := pm) (sk := sk) (x := x) ?_ (fun hx => ?_); rotate_left; clear_value x; rotate_right)
    | ((try lift_lets); intro x; clear_value x) | with_reducible apply State.auditSend_keeps (hm.of rfl)
    | with_reducible apply State.setLink_keeps (hm.of rfl) | unfold x | dsimp only | with_reducible refine Keeps.upd ?_

theorem State.rxChange_keeps (hm : Sub 234905091 pm) (hk : Keeps pm sk s) (l : Nat) (cause : Nat) (lane : Nat) (cap : Nat) : Keeps pm sk (State.rxChange s l cause lane cap) := by
  unfold State.rxChange
  repeat' first
    | with_reducible assumption
    | ((try lift_lets); intro x; refine Keeps.cut (pm := pm) (sk := sk) (x := x) ?_ (fun hx => ?_); rotate_left; clear_value x; rotate_right)
    | ((try lift_lets); intro x; clear_value x) | with_reducible apply State.auditSend_keeps (hm.of rfl)
    | with_reducible apply State.linkJudge_keeps (hm.of rfl) | with_reducible apply State.restripe_keeps (hm.of rfl)
    | with_reducible apply State.setLink_keeps (hm.of rfl) | with_reducible apply State.takeMap_keeps (hm.of rfl) | split | unfold x
    | dsimp only | with_reducible refine Keeps.upd ?_

theorem State.laneAsk_keeps (hm : Sub 67108880 pm) (hk : Keeps pm sk s) (n : Nat) (w : Nat) : Keeps pm sk (State.laneAsk s n w) := by
  unfold State.laneAsk
  repeat' first
    | with_reducible assumption
    | ((try lift_lets); intro x; refine Keeps.cut (pm := pm) (sk := sk) (x := x) ?_ (fun hx => ?_); rotate_left; clear_value x; rotate_right)
    | ((try lift_lets); intro x; refine Keeps.cut2 (pm := pm) (sk := sk) (x := x) ?_ (fun hx => ?_); rotate_left; clear_value x; rotate_right)
    | ((try lift_lets); intro x; refine Keeps.cut3 (pm := pm) (sk := sk) (x := x) ?_ (fun hx => ?_); rotate_left; clear_value x; rotate_right)
    | ((try lift_lets); intro x; clear_value x) | with_reducible apply State.freshNat_keeps (hm.of rfl)
    | with_reducible apply State.setLane_keeps (hm.of rfl) | split | unfold x | dsimp only | with_reducible refine Keeps.upd ?_

theorem State.trainStart_keeps (hm : Sub 67108880 pm) (hk : Keeps pm sk s) (n : Nat) : Keeps pm sk (State.trainStart s n) := by
  unfold State.trainStart
  repeat' first
    | with_reducible assumption | with_reducible apply State.laneAsk_keeps (hm.of rfl)
    | with_reducible apply State.setLane_keeps (hm.of rfl) | dsimp only | with_reducible refine Keeps.upd ?_

theorem State.laneDead_keeps (hm : Sub 67132418 pm) (hk : Keeps pm sk s) (n : Nat) : Keeps pm sk (State.laneDead s n) := by
  unfold State.laneDead
  repeat' first
    | with_reducible assumption | with_reducible apply State.linkOccur_keeps (hm.of rfl)
    | with_reducible apply State.setLane_keeps (hm.of rfl) | dsimp only | with_reducible refine Keeps.upd ?_

theorem execLaneDetect_keeps (hm : Sub 67108880 pm) (hk : Keeps pm sk s) (n : Nat) : OutKeeps pm sk (execLaneDetect n s) := by
  unfold execLaneDetect
  repeat' first
    | with_reducible assumption | with_reducible apply OutKeeps.next | with_reducible apply State.trainStart_keeps (hm.of rfl) | split
    | dsimp only

theorem execTsReceived_keeps (hm : Sub 67108864 pm) (hk : Keeps pm sk s) (n : Nat) (set : List Byte) : OutKeeps pm sk (execTsReceived n set s) := by
  unfold execTsReceived
  repeat' first
    | with_reducible assumption
    | ((try lift_lets); intro x; refine Keeps.cut (pm := pm) (sk := sk) (x := x) ?_ (fun hx => ?_); rotate_left; clear_value x; rotate_right)
    | ((try lift_lets); intro x; refine Keeps.cut2 (pm := pm) (sk := sk) (x := x) ?_ (fun hx => ?_); rotate_left; clear_value x; rotate_right)
    | ((try lift_lets); intro x; refine Keeps.cut3 (pm := pm) (sk := sk) (x := x) ?_ (fun hx => ?_); rotate_left; clear_value x; rotate_right)
    | ((try lift_lets); intro x; clear_value x) | with_reducible apply OutKeeps.next
    | with_reducible apply State.setLane_keeps (hm.of rfl) | split | unfold x | dsimp only | with_reducible refine Keeps.upd ?_

theorem execTrainTrialEnd_keeps (hm : Sub 101211155 pm) (hk : Keeps pm sk s) (n : Nat) (w : Nat) (h : Nat) : OutKeeps pm sk (execTrainTrialEnd n w h s) := by
  unfold execTrainTrialEnd
  repeat' first
    | with_reducible assumption
    | ((try lift_lets); intro x; refine Keeps.cut (pm := pm) (sk := sk) (x := x) ?_ (fun hx => ?_); rotate_left; clear_value x; rotate_right)
    | ((try lift_lets); intro x; clear_value x) | with_reducible apply OutKeeps.next
    | with_reducible apply State.laneAsk_keeps (hm.of rfl) | with_reducible apply State.laneDead_keeps (hm.of rfl)
    | with_reducible apply State.passTo_keeps (hm.of rfl) | with_reducible apply State.setLane_keeps (hm.of rfl) | split | unfold x
    | dsimp only | with_reducible refine Keeps.upd ?_

theorem execLaneSymbolLock_keeps (hm : Sub 67108864 pm) (hk : Keeps pm sk s) (n : Nat) : OutKeeps pm sk (execLaneSymbolLock n s) := by
  unfold execLaneSymbolLock
  repeat' first
    | with_reducible assumption
    | ((try lift_lets); intro x; refine Keeps.cut (pm := pm) (sk := sk) (x := x) ?_ (fun hx => ?_); rotate_left; clear_value x; rotate_right)
    | ((try lift_lets); intro x; clear_value x) | with_reducible apply OutKeeps.next
    | with_reducible apply State.setLane_keeps (hm.of rfl) | split | unfold x | dsimp only | with_reducible refine Keeps.upd ?_

theorem execLockTimeout_keeps (hm : Sub 101211155 pm) (hk : Keeps pm sk s) (n : Nat) : OutKeeps pm sk (execLockTimeout n s) := by
  unfold execLockTimeout
  repeat' first
    | with_reducible assumption
    | ((try lift_lets); intro x; refine Keeps.cut (pm := pm) (sk := sk) (x := x) ?_ (fun hx => ?_); rotate_left; clear_value x; rotate_right)
    | ((try lift_lets); intro x; clear_value x) | with_reducible apply OutKeeps.next
    | with_reducible apply State.laneAsk_keeps (hm.of rfl) | with_reducible apply State.laneDead_keeps (hm.of rfl)
    | with_reducible apply State.passTo_keeps (hm.of rfl) | with_reducible apply State.setLane_keeps (hm.of rfl) | split | unfold x
    | dsimp only | with_reducible refine Keeps.upd ?_

theorem execSleepLockTimeout_keeps (hm : Sub 101211155 pm) (hk : Keeps pm sk s) (n : Nat) : OutKeeps pm sk (execSleepLockTimeout n s) := by
  unfold execSleepLockTimeout
  repeat' first
    | with_reducible assumption | with_reducible apply OutKeeps.next | with_reducible apply State.passTo_keeps (hm.of rfl)
    | with_reducible apply State.trainStart_keeps (hm.of rfl) | split | dsimp only

theorem State.capsIn_keeps (hm : Sub 234905091 pm) (hk : Keeps pm sk s) (n : Nat) (c : CapsSet) (skew : Nat) : Keeps pm sk (State.capsIn s n c skew) := by
  unfold State.capsIn
  repeat' first
    | with_reducible assumption
    | ((try lift_lets); intro x; refine Keeps.cut (pm := pm) (sk := sk) (x := x) ?_ (fun hx => ?_); rotate_left; clear_value x; rotate_right)
    | ((try lift_lets); intro x; clear_value x) | with_reducible apply State.linkOccur_keeps (hm.of rfl)
    | with_reducible apply State.rxChange_keeps (hm.of rfl) | with_reducible apply State.setLane_keeps (hm.of rfl)
    | with_reducible apply State.setLink_keeps (hm.of rfl) | split | unfold x | dsimp only | with_reducible refine Keeps.upd ?_

theorem execCapsReceived_keeps (hm : Sub 234905091 pm) (hk : Keeps pm sk s) (n : Nat) (set : List Byte) (skew : Nat) : OutKeeps pm sk (execCapsReceived n set skew s) := by
  unfold execCapsReceived
  repeat' first
    | with_reducible assumption | with_reducible apply OutKeeps.next | with_reducible apply State.capsIn_keeps (hm.of rfl) | split
    | dsimp only

theorem execWidenTimerExpire_keeps (hm : Sub 235429379 pm) (hk : Keeps pm sk s) (l : Nat) : OutKeeps pm sk (execWidenTimerExpire l s) := by
  unfold execWidenTimerExpire
  repeat' first
    | with_reducible assumption | refine fun t (ht : Keeps pm sk t) => ?_ | refine fun _ t (ht : Keeps pm sk t) => ?_
    | ((try lift_lets); intro x; refine Keeps.cut (pm := pm) (sk := sk) (x := x) ?_ (fun hx => ?_); rotate_left; clear_value x; rotate_right)
    | ((try lift_lets); intro x; clear_value x) | with_reducible apply OutKeeps.next
    | with_reducible apply State.passTo_keeps (hm.of rfl) | with_reducible apply State.rxChange_keeps (hm.of rfl) | split | unfold x
    | dsimp only

theorem execLaneLockLoss_keeps (hm : Sub 234905107 pm) (hk : Keeps pm sk s) (n : Nat) (violations : Nat) : OutKeeps pm sk (execLaneLockLoss n violations s) := by
  unfold execLaneLockLoss
  repeat' first
    | with_reducible assumption | refine fun t (ht : Keeps pm sk t) => ?_ | refine fun _ t (ht : Keeps pm sk t) => ?_
    | ((try lift_lets); intro x; refine Keeps.cut (pm := pm) (sk := sk) (x := x) ?_ (fun hx => ?_); rotate_left; clear_value x; rotate_right)
    | ((try lift_lets); intro x; clear_value x) | with_reducible apply OutKeeps.next
    | with_reducible apply State.incSat_keeps (hm.of rfl) | with_reducible apply State.laneDead_keeps (hm.of rfl)
    | with_reducible apply State.linkCount_keeps (hm.of rfl) | with_reducible apply State.linkOccur_keeps (hm.of rfl)
    | with_reducible apply State.rxChange_keeps (hm.of rfl) | with_reducible apply State.setLane_keeps (hm.of rfl)
    | with_reducible apply State.trainStart_keeps (hm.of rfl) | split | unfold x | dsimp only | with_reducible refine Keeps.upd ?_

theorem execStripeReceived_keeps (hm : Sub 234905107 pm) (hk : Keeps pm sk s) (l : Nat) (set : List Byte) : OutKeeps pm sk (execStripeReceived l set s) := by
  unfold execStripeReceived
  repeat' first
    | with_reducible assumption | refine fun t (ht : Keeps pm sk t) => ?_ | refine fun _ t (ht : Keeps pm sk t) => ?_
    | ((try lift_lets); intro x; refine Keeps.cut (pm := pm) (sk := sk) (x := x) ?_ (fun hx => ?_); rotate_left; clear_value x; rotate_right)
    | ((try lift_lets); intro x; refine Keeps.cut2 (pm := pm) (sk := sk) (x := x) ?_ (fun hx => ?_); rotate_left; clear_value x; rotate_right)
    | ((try lift_lets); intro x; refine Keeps.cut3 (pm := pm) (sk := sk) (x := x) ?_ (fun hx => ?_); rotate_left; clear_value x; rotate_right)
    | ((try lift_lets); intro x; clear_value x) | with_reducible apply OutKeeps.next
    | with_reducible apply State.freshNat_keeps (hm.of rfl) | with_reducible apply State.linkCount_keeps (hm.of rfl)
    | with_reducible apply State.linkJudge_keeps (hm.of rfl) | with_reducible apply State.restripe_keeps (hm.of rfl)
    | with_reducible apply State.setLink_keeps (hm.of rfl) | split | unfold x | dsimp only | with_reducible refine Keeps.upd ?_

theorem State.auditIn_keeps (hm : Sub 201382930 pm) (hk : Keeps pm sk s) (l : Nat) (a : AuditSet) : Keeps pm sk (State.auditIn s l a) := by
  unfold State.auditIn
  repeat' first
    | with_reducible assumption | refine fun t (ht : Keeps pm sk t) => ?_ | refine fun _ t (ht : Keeps pm sk t) => ?_
    | ((try lift_lets); intro x; refine Keeps.cut (pm := pm) (sk := sk) (x := x) ?_ (fun hx => ?_); rotate_left; clear_value x; rotate_right)
    | ((try lift_lets); intro x; refine Keeps.cut2 (pm := pm) (sk := sk) (x := x) ?_ (fun hx => ?_); rotate_left; clear_value x; rotate_right)
    | ((try lift_lets); intro x; refine Keeps.cut3 (pm := pm) (sk := sk) (x := x) ?_ (fun hx => ?_); rotate_left; clear_value x; rotate_right)
    | ((try lift_lets); intro x; clear_value x) | with_reducible apply State.hostResync_keeps (hm.of rfl)
    | with_reducible apply State.resync_keeps (hm.of rfl) | with_reducible apply State.ringPump_keeps (hm.of rfl)
    | with_reducible apply State.setF_keeps (hm.of rfl) | with_reducible apply State.setLink_keeps (hm.of rfl) | split | unfold x
    | dsimp only | with_reducible refine Keeps.upd ?_

theorem execAuditReceived_keeps (hm : Sub 201382930 pm) (hk : Keeps pm sk s) (l : Nat) (set : List Byte) : OutKeeps pm sk (execAuditReceived l set s) := by
  unfold execAuditReceived
  repeat' first
    | with_reducible assumption | with_reducible apply OutKeeps.next | with_reducible apply State.auditIn_keeps (hm.of rfl) | split
    | dsimp only

theorem execAuditTimeout_keeps (hm : Sub 101211139 pm) (hk : Keeps pm sk s) (l : Nat) : OutKeeps pm sk (execAuditTimeout l s) := by
  unfold execAuditTimeout
  repeat' first
    | with_reducible assumption
    | ((try lift_lets); intro x; refine Keeps.cut (pm := pm) (sk := sk) (x := x) ?_ (fun hx => ?_); rotate_left; clear_value x; rotate_right)
    | ((try lift_lets); intro x; clear_value x) | with_reducible apply OutKeeps.next
    | with_reducible apply State.auditSend_keeps (hm.of rfl) | with_reducible apply State.passTo_keeps (hm.of rfl) | split | unfold x
    | dsimp only

theorem execRestripeComplete_keeps (hm : Sub 234905091 pm) (hk : Keeps pm sk s) (l : Nat) (skews : List (Nat × Nat)) : OutKeeps pm sk (execRestripeComplete l skews s) := by
  unfold execRestripeComplete
  repeat' first
    | with_reducible assumption | refine fun t (ht : Keeps pm sk t) => ?_ | refine fun _ t (ht : Keeps pm sk t) => ?_
    | ((try lift_lets); intro x; refine Keeps.cut (pm := pm) (sk := sk) (x := x) ?_ (fun hx => ?_); rotate_left; clear_value x; rotate_right)
    | ((try lift_lets); intro x; refine Keeps.cut2 (pm := pm) (sk := sk) (x := x) ?_ (fun hx => ?_); rotate_left; clear_value x; rotate_right)
    | ((try lift_lets); intro x; refine Keeps.cut3 (pm := pm) (sk := sk) (x := x) ?_ (fun hx => ?_); rotate_left; clear_value x; rotate_right)
    | ((try lift_lets); intro x; clear_value x) | with_reducible apply OutKeeps.next
    | with_reducible apply State.linkCount_keeps (hm.of rfl) | with_reducible apply State.linkOccur_keeps (hm.of rfl)
    | with_reducible apply State.occur_keeps (hm.of rfl) | with_reducible apply State.portChanged_keeps (hm.of rfl)
    | with_reducible apply State.ringPump_keeps (hm.of rfl) | with_reducible apply State.rxChange_keeps (hm.of rfl)
    | with_reducible apply State.setLane_keeps (hm.of rfl) | with_reducible apply State.setLink_keeps (hm.of rfl)
    | with_reducible apply State.setReg_keeps (hm.of rfl) | with_reducible refine Keeps.foldl ?_ _ (fun t y ht => ?_)
    | with_reducible refine Keeps.foldl2 ?_ _ (fun t y ht => ?_) | split | unfold x | dsimp only | with_reducible refine Keeps.upd ?_

theorem State.creditsIn_keeps (hm : Sub 201326594 pm) (hk : Keeps pm sk s) (l : Nat) (body : List Byte) : Keeps pm sk (State.creditsIn s l body) := by
  unfold State.creditsIn
  repeat' first
    | with_reducible assumption | refine fun t (ht : Keeps pm sk t) => ?_ | refine fun _ t (ht : Keeps pm sk t) => ?_
    | ((try lift_lets); intro x; refine Keeps.cut (pm := pm) (sk := sk) (x := x) ?_ (fun hx => ?_); rotate_left; clear_value x; rotate_right)
    | ((try lift_lets); intro x; refine Keeps.cut2 (pm := pm) (sk := sk) (x := x) ?_ (fun hx => ?_); rotate_left; clear_value x; rotate_right)
    | ((try lift_lets); intro x; refine Keeps.cut3 (pm := pm) (sk := sk) (x := x) ?_ (fun hx => ?_); rotate_left; clear_value x; rotate_right)
    | ((try lift_lets); intro x; refine Keeps.cutG (pm := pm) (sk := sk) (x := x) (fun a ha => ?_) (fun hx => ?_))
    | ((try lift_lets); intro x; refine Keeps.cutH (pm := pm) (sk := sk) (x := x) (fun a b ha => ?_) (fun hx => ?_))
    | ((try lift_lets); intro x; refine Keeps.cutF2 (pm := pm) (sk := sk) (x := x) (fun a b => ?_) (fun hx => ?_))
    | ((try lift_lets); intro x; refine Keeps.cutF (pm := pm) (sk := sk) (x := x) (fun a => ?_) (fun hx => ?_))
    | ((try lift_lets); intro x; clear_value x) | with_reducible apply State.ringPump_keeps (hm.of rfl)
    | with_reducible apply State.satBack_keeps (hm.of rfl) | with_reducible apply State.setLink_keeps (hm.of rfl)
    | with_reducible refine Keeps.foldl ?_ _ (fun t y ht => ?_) | with_reducible refine Keeps.foldl2 ?_ _ (fun t y ht => ?_) | split
    | unfold x | dsimp only | with_reducible refine Keeps.upd ?_

theorem execLaneFrameReceived_keeps (hm : Sub 201350146 pm) (hk : Keeps pm sk s) (l : Nat) (sof : List Byte) (lanes : List (List Byte)) (eof : List Byte) : OutKeeps pm sk (execLaneFrameReceived l sof lanes eof s) := by
  unfold execLaneFrameReceived
  repeat' first
    | with_reducible assumption | refine fun t (ht : Keeps pm sk t) => ?_ | refine fun _ t (ht : Keeps pm sk t) => ?_
    | ((try lift_lets); intro x; refine Keeps.cut (pm := pm) (sk := sk) (x := x) ?_ (fun hx => ?_); rotate_left; clear_value x; rotate_right)
    | ((try lift_lets); intro x; clear_value x) | with_reducible apply OutKeeps.next
    | with_reducible apply State.creditsIn_keeps (hm.of rfl) | with_reducible apply State.frozenLive_keeps (hm.of rfl)
    | with_reducible apply State.setLane_keeps (hm.of rfl) | with_reducible apply State.setLink_keeps (hm.of rfl)
    | with_reducible refine Keeps.foldl ?_ _ (fun t y ht => ?_) | with_reducible refine Keeps.foldl2 ?_ _ (fun t y ht => ?_) | split
    | unfold x | dsimp only | with_reducible refine Keeps.upd ?_

theorem State.replayStart_keeps (hm : Sub 67132418 pm) (hk : Keeps pm sk s) (l : Nat) : Keeps pm sk (State.replayStart s l) := by
  unfold State.replayStart
  repeat' first
    | with_reducible assumption | with_reducible apply State.linkCount_keeps (hm.of rfl)
    | with_reducible apply State.linkOccur_keeps (hm.of rfl) | with_reducible apply State.setLink_keeps (hm.of rfl) | dsimp only
    | with_reducible refine Keeps.upd ?_

theorem execAckReceived_keeps (hm : Sub 201350146 pm) (hk : Keeps pm sk s) (l : Nat) (set : List Byte) : OutKeeps pm sk (execAckReceived l set s) := by
  unfold execAckReceived
  repeat' first
    | with_reducible assumption | refine fun t (ht : Keeps pm sk t) => ?_ | refine fun _ t (ht : Keeps pm sk t) => ?_
    | ((try lift_lets); intro x; refine Keeps.cut (pm := pm) (sk := sk) (x := x) ?_ (fun hx => ?_); rotate_left; clear_value x; rotate_right)
    | ((try lift_lets); intro x; refine Keeps.cut2 (pm := pm) (sk := sk) (x := x) ?_ (fun hx => ?_); rotate_left; clear_value x; rotate_right)
    | ((try lift_lets); intro x; refine Keeps.cut3 (pm := pm) (sk := sk) (x := x) ?_ (fun hx => ?_); rotate_left; clear_value x; rotate_right)
    | ((try lift_lets); intro x; clear_value x) | with_reducible apply OutKeeps.next
    | with_reducible apply State.replayStart_keeps (hm.of rfl) | with_reducible apply State.ringPump_keeps (hm.of rfl)
    | with_reducible apply State.setLink_keeps (hm.of rfl) | split | unfold x | dsimp only | with_reducible refine Keeps.upd ?_

theorem execReplayTimeout_keeps (hm : Sub 101211139 pm) (hk : Keeps pm sk s) (l : Nat) : OutKeeps pm sk (execReplayTimeout l s) := by
  unfold execReplayTimeout
  repeat' first
    | with_reducible assumption | with_reducible apply OutKeeps.next | with_reducible apply State.passTo_keeps (hm.of rfl)
    | with_reducible apply State.replayStart_keeps (hm.of rfl) | split | dsimp only

theorem execFillerDue_keeps (hm : Sub 101211139 pm) (hk : Keeps pm sk s) (l : Nat) : OutKeeps pm sk (execFillerDue l s) := by
  unfold execFillerDue
  repeat' first
    | with_reducible assumption | refine fun t (ht : Keeps pm sk t) => ?_ | refine fun _ t (ht : Keeps pm sk t) => ?_
    | ((try lift_lets); intro x; refine Keeps.cut (pm := pm) (sk := sk) (x := x) ?_ (fun hx => ?_); rotate_left; clear_value x; rotate_right)
    | ((try lift_lets); intro x; clear_value x) | with_reducible apply OutKeeps.next
    | with_reducible apply State.passTo_keeps (hm.of rfl) | with_reducible apply State.setLane_keeps (hm.of rfl)
    | with_reducible apply State.setLink_keeps (hm.of rfl) | with_reducible refine Keeps.foldl ?_ _ (fun t y ht => ?_)
    | with_reducible refine Keeps.foldl2 ?_ _ (fun t y ht => ?_) | split | unfold x | dsimp only | with_reducible refine Keeps.upd ?_

theorem State.laneFreeze_keeps (hm : Sub 67132418 pm) (hk : Keeps pm sk s) (n : Nat) : Keeps pm sk (State.laneFreeze s n) := by
  unfold State.laneFreeze
  repeat' first
    | with_reducible assumption
    | ((try lift_lets); intro x; refine Keeps.cut (pm := pm) (sk := sk) (x := x) ?_ (fun hx => ?_); rotate_left; clear_value x; rotate_right)
    | ((try lift_lets); intro x; clear_value x) | with_reducible apply State.frozenLive_keeps (hm.of rfl)
    | with_reducible apply State.setLane_keeps (hm.of rfl) | split | unfold x | dsimp only | with_reducible refine Keeps.upd ?_

theorem execIdleSetReceived_keeps (hm : Sub 67132418 pm) (hk : Keeps pm sk s) (n : Nat) : OutKeeps pm sk (execIdleSetReceived n s) := by
  unfold execIdleSetReceived
  repeat' first
    | with_reducible assumption
    | ((try lift_lets); intro x; refine Keeps.cut (pm := pm) (sk := sk) (x := x) ?_ (fun hx => ?_); rotate_left; clear_value x; rotate_right)
    | ((try lift_lets); intro x; clear_value x) | with_reducible apply OutKeeps.next
    | with_reducible apply State.laneFreeze_keeps (hm.of rfl) | with_reducible apply State.setLane_keeps (hm.of rfl) | split | unfold x
    | dsimp only | with_reducible refine Keeps.upd ?_

theorem execFillerReceived_keeps (hm : Sub 67132418 pm) (hk : Keeps pm sk s) (n : Nat) : OutKeeps pm sk (execFillerReceived n s) := by
  unfold execFillerReceived
  repeat' first
    | with_reducible assumption
    | ((try lift_lets); intro x; refine Keeps.cut (pm := pm) (sk := sk) (x := x) ?_ (fun hx => ?_); rotate_left; clear_value x; rotate_right)
    | ((try lift_lets); intro x; clear_value x) | with_reducible apply OutKeeps.next
    | with_reducible apply State.frozenLive_keeps (hm.of rfl) | with_reducible apply State.setLane_keeps (hm.of rfl) | split | unfold x
    | dsimp only | with_reducible refine Keeps.upd ?_

theorem execLaneFreeze_keeps (hm : Sub 67132418 pm) (hk : Keeps pm sk s) (n : Nat) : OutKeeps pm sk (execLaneFreeze n s) := by
  unfold execLaneFreeze
  repeat' first
    | with_reducible assumption | with_reducible apply OutKeeps.next | with_reducible apply State.laneFreeze_keeps (hm.of rfl) | split
    | dsimp only

theorem State.linkInit_keeps (hm : Sub 234905091 pm) (hk : Keeps pm sk s) (l : Nat) (kind : Nat) (major : Nat) (minor : Nat) : Keeps pm sk (State.linkInit s l kind major minor) := by
  unfold State.linkInit
  repeat' first
    | with_reducible assumption | refine fun t (ht : Keeps pm sk t) => ?_ | refine fun _ t (ht : Keeps pm sk t) => ?_
    | ((try lift_lets); intro x; refine Keeps.cut (pm := pm) (sk := sk) (x := x) ?_ (fun hx => ?_); rotate_left; clear_value x; rotate_right)
    | ((try lift_lets); intro x; clear_value x) | with_reducible apply State.frozenLive_keeps (hm.of rfl)
    | with_reducible apply State.linkJudge_keeps (hm.of rfl) | with_reducible apply State.setLane_keeps (hm.of rfl)
    | with_reducible apply State.setLink_keeps (hm.of rfl) | with_reducible refine Keeps.foldl ?_ _ (fun t y ht => ?_)
    | with_reducible refine Keeps.foldl2 ?_ _ (fun t y ht => ?_) | split | unfold x | dsimp only | with_reducible refine Keeps.upd ?_

theorem State.satchelInit_keeps (hm : Sub 234905091 pm) (hk : Keeps pm sk s) : Keeps pm sk (State.satchelInit s) := by
  unfold State.satchelInit
  repeat' first
    | with_reducible assumption
    | ((try lift_lets); intro x; refine Keeps.cut (pm := pm) (sk := sk) (x := x) ?_ (fun hx => ?_); rotate_left; clear_value x; rotate_right)
    | ((try lift_lets); intro x; clear_value x) | with_reducible apply State.linkInit_keeps (hm.of rfl) | unfold x | dsimp only

theorem State.ringLanesInit_keeps (hm : Sub 234905091 pm) (hk : Keeps pm sk s) : Keeps pm sk (State.ringLanesInit s) := by
  unfold State.ringLanesInit
  repeat' first
    | with_reducible assumption
    | ((try lift_lets); intro x; refine Keeps.cut (pm := pm) (sk := sk) (x := x) ?_ (fun hx => ?_); rotate_left; clear_value x; rotate_right)
    | ((try lift_lets); intro x; clear_value x) | with_reducible apply State.linkInit_keeps (hm.of rfl) | unfold x | dsimp only

theorem State.linkHold_keeps (hm : Sub 234905091 pm) (hk : Keeps pm sk s) (l : Nat) : Keeps pm sk (State.linkHold s l) := by
  unfold State.linkHold
  repeat' first
    | with_reducible assumption | refine fun t (ht : Keeps pm sk t) => ?_ | refine fun _ t (ht : Keeps pm sk t) => ?_
    | ((try lift_lets); intro x; refine Keeps.cut (pm := pm) (sk := sk) (x := x) ?_ (fun hx => ?_); rotate_left; clear_value x; rotate_right)
    | ((try lift_lets); intro x; clear_value x) | with_reducible apply State.linkJudge_keeps (hm.of rfl)
    | with_reducible apply State.setLane_keeps (hm.of rfl) | with_reducible apply State.setLink_keeps (hm.of rfl)
    | with_reducible refine Keeps.foldl ?_ _ (fun t y ht => ?_) | with_reducible refine Keeps.foldl2 ?_ _ (fun t y ht => ?_) | unfold x
    | dsimp only | with_reducible refine Keeps.upd ?_

theorem State.lanesSleep_keeps (hm : Sub 234905091 pm) (hk : Keeps pm sk s) : Keeps pm sk (State.lanesSleep s) := by
  unfold State.lanesSleep
  repeat' first
    | with_reducible assumption | refine fun t (ht : Keeps pm sk t) => ?_ | refine fun _ t (ht : Keeps pm sk t) => ?_
    | ((try lift_lets); intro x; refine Keeps.cut (pm := pm) (sk := sk) (x := x) ?_ (fun hx => ?_); rotate_left; clear_value x; rotate_right)
    | ((try lift_lets); intro x; clear_value x) | with_reducible apply State.rxChange_keeps (hm.of rfl)
    | with_reducible apply State.setLane_keeps (hm.of rfl) | with_reducible refine Keeps.foldl ?_ _ (fun t y ht => ?_)
    | with_reducible refine Keeps.foldl2 ?_ _ (fun t y ht => ?_) | split | unfold x | dsimp only | with_reducible refine Keeps.upd ?_

theorem State.lanesWake_keeps (hm : Sub 67108864 pm) (hk : Keeps pm sk s) : Keeps pm sk (State.lanesWake s) := by
  unfold State.lanesWake
  repeat' first
    | with_reducible assumption | refine fun t (ht : Keeps pm sk t) => ?_ | refine fun _ t (ht : Keeps pm sk t) => ?_
    | ((try lift_lets); intro x; refine Keeps.cut (pm := pm) (sk := sk) (x := x) ?_ (fun hx => ?_); rotate_left; clear_value x; rotate_right)
    | ((try lift_lets); intro x; clear_value x) | with_reducible apply State.setLane_keeps (hm.of rfl)
    | with_reducible refine Keeps.foldl ?_ _ (fun t y ht => ?_) | with_reducible refine Keeps.foldl2 ?_ _ (fun t y ht => ?_) | split
    | unfold x | dsimp only | with_reducible refine Keeps.upd ?_

theorem State.ringLanesDrop_keeps (hm : Sub 234905091 pm) (hk : Keeps pm sk s) : Keeps pm sk (State.ringLanesDrop s) := by
  unfold State.ringLanesDrop
  repeat' first
    | with_reducible assumption | refine fun t (ht : Keeps pm sk t) => ?_ | refine fun _ t (ht : Keeps pm sk t) => ?_
    | ((try lift_lets); intro x; refine Keeps.cut (pm := pm) (sk := sk) (x := x) ?_ (fun hx => ?_); rotate_left; clear_value x; rotate_right)
    | ((try lift_lets); intro x; clear_value x) | with_reducible apply State.frozenLive_keeps (hm.of rfl)
    | with_reducible apply State.linkJudge_keeps (hm.of rfl) | with_reducible apply State.setLane_keeps (hm.of rfl)
    | with_reducible apply State.setLink_keeps (hm.of rfl) | with_reducible refine Keeps.foldl ?_ _ (fun t y ht => ?_)
    | with_reducible refine Keeps.foldl2 ?_ _ (fun t y ht => ?_) | split | unfold x | dsimp only | with_reducible refine Keeps.upd ?_

theorem State.laneOut_keeps (hm : Sub 234905107 pm) (hk : Keeps pm sk s) (n : Nat) (st : Nat) (cause : Nat) : Keeps pm sk (State.laneOut s n st cause) := by
  unfold State.laneOut
  repeat' first
    | with_reducible assumption
    | ((try lift_lets); intro x; refine Keeps.cut (pm := pm) (sk := sk) (x := x) ?_ (fun hx => ?_); rotate_left; clear_value x; rotate_right)
    | ((try lift_lets); intro x; clear_value x) | with_reducible apply State.rxChange_keeps (hm.of rfl)
    | with_reducible apply State.setLane_keeps (hm.of rfl) | with_reducible apply State.trainStart_keeps (hm.of rfl) | split | unfold x
    | dsimp only | with_reducible refine Keeps.upd ?_

theorem State.laneCtrl_keeps (hm : Sub 234905107 pm) (hk : Keeps pm sk s) (n : Nat) (v : Word) : Keeps pm sk (State.laneCtrl s n v) := by
  unfold State.laneCtrl
  repeat' first
    | with_reducible assumption
    | ((try lift_lets); intro x; refine Keeps.cut (pm := pm) (sk := sk) (x := x) ?_ (fun hx => ?_); rotate_left; clear_value x; rotate_right)
    | ((try lift_lets); intro x; clear_value x) | with_reducible apply State.laneOut_keeps (hm.of rfl)
    | with_reducible apply State.setB_keeps (hm.of rfl) | with_reducible apply State.setLane_keeps (hm.of rfl) | split | unfold x
    | dsimp only | with_reducible refine Keeps.upd ?_

theorem execLaneDisableWrite_keeps (hm : Sub 234905371 pm) (hk : Keeps pm sk s) (req : Nat) (n : Nat) (v : Word) : OutKeeps pm sk (execLaneDisableWrite req n v s) := by
  unfold execLaneDisableWrite
  repeat' first
    | with_reducible assumption | refine fun t (ht : Keeps pm sk t) => ?_ | refine fun _ t (ht : Keeps pm sk t) => ?_
    | with_reducible apply OutKeeps.next | with_reducible apply State.hostWrite_keeps (hm.of rfl)
    | with_reducible apply State.laneCtrl_keeps (hm.of rfl) | split | dsimp only

theorem execLaneRetrainWrite_keeps (hm : Sub 234905371 pm) (hk : Keeps pm sk s) (req : Nat) (n : Nat) (v : Word) : OutKeeps pm sk (execLaneRetrainWrite req n v s) := by
  unfold execLaneRetrainWrite
  repeat' first
    | with_reducible assumption | refine fun t (ht : Keeps pm sk t) => ?_ | refine fun _ t (ht : Keeps pm sk t) => ?_
    | with_reducible apply OutKeeps.next | with_reducible apply State.hostWrite_keeps (hm.of rfl)
    | with_reducible apply State.laneCtrl_keeps (hm.of rfl) | split | dsimp only

theorem State.diagEnd_keeps (hm : Sub 67132418 pm) (hk : Keeps pm sk s) (n : Nat) (r : Nat) : Keeps pm sk (State.diagEnd s n r) := by
  unfold State.diagEnd
  repeat' first
    | with_reducible assumption | with_reducible apply State.linkOccur_keeps (hm.of rfl)
    | with_reducible apply State.setB_keeps (hm.of rfl) | with_reducible apply State.setLane_keeps (hm.of rfl)
    | with_reducible apply State.setReg_keeps (hm.of rfl) | dsimp only | with_reducible refine Keeps.upd ?_

theorem State.diagAbort_keeps (hm : Sub 67132418 pm) (hk : Keeps pm sk s) (n : Nat) : Keeps pm sk (State.diagAbort s n) := by
  unfold State.diagAbort
  repeat' first
    | with_reducible assumption | with_reducible apply State.diagEnd_keeps (hm.of rfl)
    | with_reducible apply State.linkOccur_keeps (hm.of rfl) | with_reducible apply State.setReg_keeps (hm.of rfl) | split | dsimp only

theorem State.diagCtrl_keeps (hm : Sub 67132418 pm) (hk : Keeps pm sk s) (n : Nat) (v : Word) : Keeps pm sk (State.diagCtrl s n v) := by
  unfold State.diagCtrl
  repeat' first
    | with_reducible assumption
    | ((try lift_lets); intro x; refine Keeps.cut (pm := pm) (sk := sk) (x := x) ?_ (fun hx => ?_); rotate_left; clear_value x; rotate_right)
    | ((try lift_lets); intro x; clear_value x) | with_reducible apply State.denyStart_keeps (hm.of rfl)
    | with_reducible apply State.diagAbort_keeps (hm.of rfl) | with_reducible apply State.diagEnd_keeps (hm.of rfl)
    | with_reducible apply State.setB_keeps (hm.of rfl) | with_reducible apply State.setLane_keeps (hm.of rfl)
    | with_reducible apply State.setReg_keeps (hm.of rfl) | with_reducible apply State.writeMasked_keeps (hm.of rfl) | split | unfold x
    | dsimp only | with_reducible refine Keeps.upd ?_

theorem execDiagStart_keeps (hm : Sub 67132682 pm) (hk : Keeps pm sk s) (n : Nat) (v : Word) : OutKeeps pm sk (execDiagStart n v s) := by
  unfold execDiagStart
  repeat' first
    | with_reducible assumption | refine fun t (ht : Keeps pm sk t) => ?_ | refine fun _ t (ht : Keeps pm sk t) => ?_
    | with_reducible apply OutKeeps.next | with_reducible apply State.diagCtrl_keeps (hm.of rfl)
    | with_reducible apply State.hostWrite_keeps (hm.of rfl) | split | dsimp only

theorem execDiagAbort_keeps (hm : Sub 67132682 pm) (hk : Keeps pm sk s) (n : Nat) (v : Word) : OutKeeps pm sk (execDiagAbort n v s) := by
  unfold execDiagAbort
  repeat' first
    | with_reducible assumption | refine fun t (ht : Keeps pm sk t) => ?_ | refine fun _ t (ht : Keeps pm sk t) => ?_
    | with_reducible apply OutKeeps.next | with_reducible apply State.diagCtrl_keeps (hm.of rfl)
    | with_reducible apply State.hostWrite_keeps (hm.of rfl) | split | dsimp only

theorem execDiagComplete_keeps (hm : Sub 101211139 pm) (hk : Keeps pm sk s) (n : Nat) (errors : Nat) : OutKeeps pm sk (execDiagComplete n errors s) := by
  unfold execDiagComplete
  repeat' first
    | with_reducible assumption
    | ((try lift_lets); intro x; refine Keeps.cut (pm := pm) (sk := sk) (x := x) ?_ (fun hx => ?_); rotate_left; clear_value x; rotate_right)
    | ((try lift_lets); intro x; clear_value x) | with_reducible apply OutKeeps.next
    | with_reducible apply State.diagEnd_keeps (hm.of rfl) | with_reducible apply State.passTo_keeps (hm.of rfl)
    | with_reducible apply State.setReg64_keeps (hm.of rfl) | split | unfold x | dsimp only

theorem State.laneReset_keeps (hm : Sub 67132418 pm) (hk : Keeps pm sk s) (n : Nat) : Keeps pm sk (State.laneReset s n) := by
  unfold State.laneReset
  repeat' first
    | with_reducible assumption
    | ((try lift_lets); intro x; refine Keeps.cut (pm := pm) (sk := sk) (x := x) ?_ (fun hx => ?_); rotate_left; clear_value x; rotate_right)
    | ((try lift_lets); intro x; clear_value x) | with_reducible apply State.diagAbort_keeps (hm.of rfl)
    | with_reducible apply State.setReg_keeps (hm.of rfl) | with_reducible apply State.setReg64_keeps (hm.of rfl) | unfold x | dsimp only

theorem State.linkReset_keeps (hm : Sub 2 pm) (hk : Keeps pm sk s) (l : Nat) : Keeps pm sk (State.linkReset s l) := by
  unfold State.linkReset
  repeat' first
    | with_reducible assumption | refine fun t (ht : Keeps pm sk t) => ?_ | refine fun _ t (ht : Keeps pm sk t) => ?_
    | with_reducible apply State.setReg_keeps (hm.of rfl) | with_reducible refine Keeps.foldl ?_ _ (fun t y ht => ?_)
    | with_reducible refine Keeps.foldl2 ?_ _ (fun t y ht => ?_) | dsimp only

theorem State.undelivered_keeps (hm : Sub 1026 pm) (hk : Keeps pm sk s) : Keeps pm sk (State.undelivered s) := by
  unfold State.undelivered
  repeat' first
    | with_reducible assumption | with_reducible apply State.incSat_keeps (hm.of rfl) | dsimp only

theorem execRingFrameForward_keeps (hm : Sub 201327618 pm) (hk : Keeps pm sk s) (p : Nat) (body : List Byte) : OutKeeps pm sk (execRingFrameForward p body s) := by
  unfold execRingFrameForward
  repeat' first
    | with_reducible assumption
    | ((try lift_lets); intro x; refine Keeps.cut (pm := pm) (sk := sk) (x := x) ?_ (fun hx => ?_); rotate_left; clear_value x; rotate_right)
    | ((try lift_lets); intro x; clear_value x) | with_reducible apply OutKeeps.next | with_reducible apply State.owe_keeps (hm.of rfl)
    | with_reducible apply State.ringQueue_keeps (hm.of rfl) | with_reducible apply State.undelivered_keeps (hm.of rfl) | split
    | unfold x | dsimp only | with_reducible refine Keeps.upd ?_

theorem execCreditFrameReceived_keeps (hm : Sub 201326592 pm) (hk : Keeps pm sk s) (p : Nat) (crEvent : Nat) (crMgmt : Nat) (crData : Nat) : OutKeeps pm sk (execCreditFrameReceived p crEvent crMgmt crData s) := by
  unfold execCreditFrameReceived
  repeat' first
    | with_reducible assumption | refine fun t (ht : Keeps pm sk t) => ?_ | refine fun _ t (ht : Keeps pm sk t) => ?_
    | ((try lift_lets); intro x; refine Keeps.cut (pm := pm) (sk := sk) (x := x) ?_ (fun hx => ?_); rotate_left; clear_value x; rotate_right)
    | ((try lift_lets); intro x; refine Keeps.cutG (pm := pm) (sk := sk) (x := x) (fun a ha => ?_) (fun hx => ?_))
    | ((try lift_lets); intro x; refine Keeps.cutH (pm := pm) (sk := sk) (x := x) (fun a b ha => ?_) (fun hx => ?_))
    | ((try lift_lets); intro x; refine Keeps.cutF2 (pm := pm) (sk := sk) (x := x) (fun a b => ?_) (fun hx => ?_))
    | ((try lift_lets); intro x; refine Keeps.cutF (pm := pm) (sk := sk) (x := x) (fun a => ?_) (fun hx => ?_))
    | ((try lift_lets); intro x; clear_value x) | with_reducible apply OutKeeps.next
    | with_reducible apply State.ringPump_keeps (hm.of rfl) | with_reducible apply State.setLink_keeps (hm.of rfl) | split | unfold x
    | dsimp only | with_reducible refine Keeps.upd ?_

theorem execCreditReturnTimer_keeps (hm : Sub 101211139 pm) (hk : Keeps pm sk s) (p : Nat) : OutKeeps pm sk (execCreditReturnTimer p s) := by
  unfold execCreditReturnTimer
  repeat' first
    | with_reducible assumption | refine fun t (ht : Keeps pm sk t) => ?_ | refine fun _ t (ht : Keeps pm sk t) => ?_
    | ((try lift_lets); intro x; refine Keeps.cut (pm := pm) (sk := sk) (x := x) ?_ (fun hx => ?_); rotate_left; clear_value x; rotate_right)
    | ((try lift_lets); intro x; clear_value x) | with_reducible apply OutKeeps.next
    | with_reducible apply State.passTo_keeps (hm.of rfl) | with_reducible apply State.satBack_keeps (hm.of rfl)
    | with_reducible apply State.setLink_keeps (hm.of rfl) | with_reducible refine Keeps.foldl ?_ _ (fun t y ht => ?_)
    | with_reducible refine Keeps.foldl2 ?_ _ (fun t y ht => ?_) | split | unfold x | dsimp only | with_reducible refine Keeps.upd ?_

theorem execExportFrameReceived_keeps (hm : Sub 67132418 pm) (hk : Keeps pm sk s) (p : Nat) (c : Nat) (bcast : Bool) : OutKeeps pm sk (execExportFrameReceived p c bcast s) := by
  unfold execExportFrameReceived
  repeat' first
    | with_reducible assumption
    | ((try lift_lets); intro x; refine Keeps.cut (pm := pm) (sk := sk) (x := x) ?_ (fun hx => ?_); rotate_left; clear_value x; rotate_right)
    | ((try lift_lets); intro x; clear_value x) | with_reducible apply OutKeeps.next
    | with_reducible apply State.incSat_keeps (hm.of rfl) | with_reducible apply State.occur_keeps (hm.of rfl)
    | with_reducible apply State.owe_keeps (hm.of rfl) | split | unfold x | dsimp only

theorem execExportSend_keeps (hm : Sub 201326594 pm) (hk : Keeps pm sk s) (c : Nat) : OutKeeps pm sk (execExportSend c s) := by
  unfold execExportSend
  repeat' first
    | with_reducible assumption
    | ((try lift_lets); intro x; refine Keeps.cut (pm := pm) (sk := sk) (x := x) ?_ (fun hx => ?_); rotate_left; clear_value x; rotate_right)
    | ((try lift_lets); intro x; clear_value x) | with_reducible apply OutKeeps.next
    | with_reducible apply State.ringEmit_keeps (hm.of rfl) | with_reducible apply State.setReg_keeps (hm.of rfl) | split | unfold x
    | dsimp only

theorem execRollCtrlStart_keeps (hm : Sub 234905355 pm) (hk : Keeps pm sk s) (req : Nat) (v : Word) : OutKeeps pm sk (execRollCtrlStart req v s) := by
  unfold execRollCtrlStart
  repeat' first
    | with_reducible assumption | refine fun t (ht : Keeps pm sk t) => ?_ | refine fun _ t (ht : Keeps pm sk t) => ?_
    | with_reducible apply OutKeeps.next | with_reducible apply State.denyStart_keeps (hm.of rfl)
    | with_reducible apply State.hostWrite_keeps (hm.of rfl) | with_reducible apply State.rollStart_keeps (hm.of rfl) | split
    | dsimp only

theorem execRollReqReceived_keeps (hm : Sub 234905091 pm) (hk : Keeps pm sk s) (p : Nat) : OutKeeps pm sk (execRollReqReceived p s) := by
  unfold execRollReqReceived
  repeat' first
    | with_reducible assumption
    | ((try lift_lets); intro x; refine Keeps.cut (pm := pm) (sk := sk) (x := x) ?_ (fun hx => ?_); rotate_left; clear_value x; rotate_right)
    | ((try lift_lets); intro x; clear_value x) | with_reducible apply OutKeeps.next | with_reducible apply State.owe_keeps (hm.of rfl)
    | with_reducible apply State.rollStart_keeps (hm.of rfl) | split | unfold x | dsimp only

theorem execRollcallReceived_keeps (hm : Sub 201326594 pm) (hk : Keeps pm sk s) (p : Nat) (k : Nat) : OutKeeps pm sk (execRollcallReceived p k s) := by
  unfold execRollcallReceived
  repeat' first
    | with_reducible assumption | with_reducible apply OutKeeps.next | with_reducible apply State.exchangeStart_keeps (hm.of rfl)
    | with_reducible apply State.rollBusy_keeps (hm.of rfl) | with_reducible apply State.setRing_keeps (hm.of rfl) | split | dsimp only
    | with_reducible refine Keeps.upd ?_

theorem execHelloReceived_keeps (hm : Sub 201326592 pm) (hk : Keeps pm sk s) (p : Nat) (uid : Nat) : OutKeeps pm sk (execHelloReceived p uid s) := by
  unfold execHelloReceived
  repeat' first
    | with_reducible assumption | with_reducible apply OutKeeps.next | with_reducible apply State.owe_keeps (hm.of rfl)
    | with_reducible apply State.setPort_keeps (hm.of rfl) | split | dsimp only | with_reducible refine Keeps.upd ?_

theorem State.rosterIn_keeps (hm : Sub 134217728 pm) (hk : Keeps pm sk s) (r : Roster) : Keeps pm sk (State.rosterIn s r) := by
  unfold State.rosterIn
  repeat' first
    | with_reducible assumption | refine fun t (ht : Keeps pm sk t) => ?_ | refine fun _ t (ht : Keeps pm sk t) => ?_
    | with_reducible apply State.setRing_keeps (hm.of rfl) | dsimp only | with_reducible refine Keeps.upd ?_

theorem State.yieldTo_keeps (hm : Sub 134241282 pm) (hk : Keeps pm sk s) (r : Roster) : Keeps pm sk (State.yieldTo s r) := by
  unfold State.yieldTo
  repeat' first
    | with_reducible assumption
    | ((try lift_lets); intro x; refine Keeps.cut (pm := pm) (sk := sk) (x := x) ?_ (fun hx => ?_); rotate_left; clear_value x; rotate_right)
    | ((try lift_lets); intro x; clear_value x) | with_reducible apply State.occur_keeps (hm.of rfl)
    | with_reducible apply State.setRing_keeps (hm.of rfl) | split | unfold x | dsimp only | with_reducible refine Keeps.upd ?_

theorem execRosterReceived_keeps (hm : Sub 134241282 pm) (hk : Keeps pm sk s) (p : Nat) (payload : List Byte) : OutKeeps pm sk (execRosterReceived p payload s) := by
  unfold execRosterReceived
  repeat' first
    | with_reducible assumption | with_reducible apply OutKeeps.next | with_reducible apply State.rosterIn_keeps (hm.of rfl)
    | with_reducible apply State.yieldTo_keeps (hm.of rfl) | split | dsimp only

theorem execRosterCollectEnd_keeps (hm : Sub 235429379 pm) (hk : Keeps pm sk s) : OutKeeps pm sk (execRosterCollectEnd s) := by
  unfold execRosterCollectEnd
  repeat' first
    | with_reducible assumption | refine fun t (ht : Keeps pm sk t) => ?_ | refine fun _ t (ht : Keeps pm sk t) => ?_
    | ((try lift_lets); intro x; refine Keeps.cut (pm := pm) (sk := sk) (x := x) ?_ (fun hx => ?_); rotate_left; clear_value x; rotate_right)
    | ((try lift_lets); intro x; refine Keeps.cut2 (pm := pm) (sk := sk) (x := x) ?_ (fun hx => ?_); rotate_left; clear_value x; rotate_right)
    | ((try lift_lets); intro x; refine Keeps.cut3 (pm := pm) (sk := sk) (x := x) ?_ (fun hx => ?_); rotate_left; clear_value x; rotate_right)
    | ((try lift_lets); intro x; refine Keeps.cutG (pm := pm) (sk := sk) (x := x) (fun a ha => ?_) (fun hx => ?_))
    | ((try lift_lets); intro x; refine Keeps.cutH (pm := pm) (sk := sk) (x := x) (fun a b ha => ?_) (fun hx => ?_))
    | ((try lift_lets); intro x; refine Keeps.cutF2 (pm := pm) (sk := sk) (x := x) (fun a b => ?_) (fun hx => ?_))
    | ((try lift_lets); intro x; refine Keeps.cutF (pm := pm) (sk := sk) (x := x) (fun a => ?_) (fun hx => ?_))
    | ((try lift_lets); intro x; clear_value x) | with_reducible apply OutKeeps.next
    | with_reducible apply State.applyFormed_keeps (hm.of rfl) | with_reducible apply State.passTo_keeps (hm.of rfl)
    | with_reducible apply State.ringEmit_keeps (hm.of rfl) | with_reducible apply State.setRing_keeps (hm.of rfl)
    | with_reducible refine Keeps.foldl ?_ _ (fun t y ht => ?_) | with_reducible refine Keeps.foldl2 ?_ _ (fun t y ht => ?_) | split
    | unfold x | dsimp only | with_reducible refine Keeps.upd ?_

theorem execFormedReceived_keeps (hm : Sub 167796227 pm) (hk : Keeps pm sk s) (p : Nat) (payload : List Byte) (spanE : Bool) (spanW : Bool) : OutKeeps pm sk (execFormedReceived p payload spanE spanW s) := by
  unfold execFormedReceived
  repeat' first
    | with_reducible assumption | refine fun t (ht : Keeps pm sk t) => ?_ | refine fun _ t (ht : Keeps pm sk t) => ?_
    | ((try lift_lets); intro x; refine Keeps.cut (pm := pm) (sk := sk) (x := x) ?_ (fun hx => ?_); rotate_left; clear_value x; rotate_right)
    | ((try lift_lets); intro x; refine Keeps.cut2 (pm := pm) (sk := sk) (x := x) ?_ (fun hx => ?_); rotate_left; clear_value x; rotate_right)
    | ((try lift_lets); intro x; refine Keeps.cut3 (pm := pm) (sk := sk) (x := x) ?_ (fun hx => ?_); rotate_left; clear_value x; rotate_right)
    | ((try lift_lets); intro x; clear_value x) | with_reducible apply OutKeeps.next
    | with_reducible apply State.applyFormed_keeps (hm.of rfl) | with_reducible apply State.setRing_keeps (hm.of rfl) | split | unfold x
    | dsimp only | with_reducible refine Keeps.upd ?_

theorem execSplitTimeout_keeps (hm : Sub 168320515 pm) (hk : Keeps pm sk s) : OutKeeps pm sk (execSplitTimeout s) := by
  unfold execSplitTimeout
  repeat' first
    | with_reducible assumption
    | ((try lift_lets); intro x; refine Keeps.cut (pm := pm) (sk := sk) (x := x) ?_ (fun hx => ?_); rotate_left; clear_value x; rotate_right)
    | ((try lift_lets); intro x; clear_value x) | with_reducible apply OutKeeps.next
    | with_reducible apply State.passTo_keeps (hm.of rfl) | with_reducible apply State.ringState_keeps (hm.of rfl)
    | with_reducible apply State.setRing_keeps (hm.of rfl) | with_reducible apply State.tb0Change_keeps (hm.of rfl) | split | unfold x
    | dsimp only | with_reducible refine Keeps.upd ?_

theorem execBypassClose_keeps (hm : Sub 234905091 pm) (hk : Keeps pm sk s) : OutKeeps pm sk (execBypassClose s) := by
  unfold execBypassClose
  repeat' first
    | with_reducible assumption | with_reducible apply OutKeeps.next | with_reducible apply State.hopChange_keeps (hm.of rfl)
    | with_reducible apply State.portLive_keeps (hm.of rfl) | with_reducible apply State.ringLanesDrop_keeps (hm.of rfl)
    | with_reducible apply State.setRing_keeps (hm.of rfl) | split | dsimp only | with_reducible refine Keeps.upd ?_

theorem execBypassOpen_keeps (hm : Sub 234905091 pm) (hk : Keeps pm sk s) : OutKeeps pm sk (execBypassOpen s) := by
  unfold execBypassOpen
  repeat' first
    | with_reducible assumption | with_reducible apply OutKeeps.next | with_reducible apply State.portLive_keeps (hm.of rfl)
    | with_reducible apply State.ringLanesDrop_keeps (hm.of rfl) | with_reducible apply State.rollRequest_keeps (hm.of rfl)
    | with_reducible apply State.setRing_keeps (hm.of rfl) | split | dsimp only | with_reducible refine Keeps.upd ?_

theorem execDelayExchangeTimer_keeps (hm : Sub 168320003 pm) (hk : Keeps pm sk s) (p : Nat) : OutKeeps pm sk (execDelayExchangeTimer p s) := by
  unfold execDelayExchangeTimer
  repeat' first
    | with_reducible assumption | with_reducible apply OutKeeps.next | with_reducible apply State.passTo_keeps (hm.of rfl)
    | with_reducible apply State.sendDreq_keeps (hm.of rfl) | split | dsimp only

theorem execRollcallExchangeTimer_keeps (hm : Sub 168320003 pm) (hk : Keeps pm sk s) : OutKeeps pm sk (execRollcallExchangeTimer s) := by
  unfold execRollcallExchangeTimer
  repeat' first
    | with_reducible assumption | refine fun t (ht : Keeps pm sk t) => ?_ | refine fun _ t (ht : Keeps pm sk t) => ?_
    | ((try lift_lets); intro x; refine Keeps.cut (pm := pm) (sk := sk) (x := x) ?_ (fun hx => ?_); rotate_left; clear_value x; rotate_right)
    | ((try lift_lets); intro x; clear_value x) | with_reducible apply OutKeeps.next
    | with_reducible apply State.passTo_keeps (hm.of rfl) | with_reducible apply State.sendDreq_keeps (hm.of rfl)
    | with_reducible refine Keeps.foldl ?_ _ (fun t y ht => ?_) | with_reducible refine Keeps.foldl2 ?_ _ (fun t y ht => ?_) | split
    | unfold x | dsimp only

theorem execDreqReceived_keeps (hm : Sub 134217728 pm) (hk : Keeps pm sk s) (p : Nat) (set : List Byte) (b : Nat) (c : Nat) : OutKeeps pm sk (execDreqReceived p set b c s) := by
  unfold execDreqReceived
  repeat' first
    | with_reducible assumption | refine fun t (ht : Keeps pm sk t) => ?_ | refine fun _ t (ht : Keeps pm sk t) => ?_
    | ((try lift_lets); intro x; refine Keeps.cut (pm := pm) (sk := sk) (x := x) ?_ (fun hx => ?_); rotate_left; clear_value x; rotate_right)
    | ((try lift_lets); intro x; refine Keeps.cut2 (pm := pm) (sk := sk) (x := x) ?_ (fun hx => ?_); rotate_left; clear_value x; rotate_right)
    | ((try lift_lets); intro x; refine Keeps.cut3 (pm := pm) (sk := sk) (x := x) ?_ (fun hx => ?_); rotate_left; clear_value x; rotate_right)
    | ((try lift_lets); intro x; refine Keeps.cutG (pm := pm) (sk := sk) (x := x) (fun a ha => ?_) (fun hx => ?_))
    | ((try lift_lets); intro x; refine Keeps.cutH (pm := pm) (sk := sk) (x := x) (fun a b ha => ?_) (fun hx => ?_))
    | ((try lift_lets); intro x; refine Keeps.cutF2 (pm := pm) (sk := sk) (x := x) (fun a b => ?_) (fun hx => ?_))
    | ((try lift_lets); intro x; refine Keeps.cutF (pm := pm) (sk := sk) (x := x) (fun a => ?_) (fun hx => ?_))
    | ((try lift_lets); intro x; clear_value x) | with_reducible apply OutKeeps.next
    | with_reducible apply State.sendTime_keeps (hm.of rfl) | with_reducible apply State.setPort_keeps (hm.of rfl) | split | unfold x
    | dsimp only | with_reducible refine Keeps.upd ?_

theorem State.exchangeDone_keeps (hm : Sub 201326592 pm) (hk : Keeps pm sk s) : Keeps pm sk (State.exchangeDone s) := by
  unfold State.exchangeDone
  repeat' first
    | with_reducible assumption | refine fun t (ht : Keeps pm sk t) => ?_ | refine fun _ t (ht : Keeps pm sk t) => ?_
    | ((try lift_lets); intro x; refine Keeps.cut (pm := pm) (sk := sk) (x := x) ?_ (fun hx => ?_); rotate_left; clear_value x; rotate_right)
    | ((try lift_lets); intro x; clear_value x) | with_reducible apply State.ringEmit_keeps (hm.of rfl)
    | with_reducible apply State.rosterIn_keeps (hm.of rfl) | with_reducible apply State.setRing_keeps (hm.of rfl) | split | unfold x
    | dsimp only | with_reducible refine Keeps.upd ?_

theorem State.delayMeasured_keeps (hm : Sub 201326594 pm) (hk : Keeps pm sk s) (p : Nat) (m : Int) : Keeps pm sk (State.delayMeasured s p m) := by
  unfold State.delayMeasured
  repeat' first
    | with_reducible assumption
    | ((try lift_lets); intro x; refine Keeps.cut (pm := pm) (sk := sk) (x := x) ?_ (fun hx => ?_); rotate_left; clear_value x; rotate_right)
    | ((try lift_lets); intro x; clear_value x) | with_reducible apply State.exchangeDone_keeps (hm.of rfl)
    | with_reducible apply State.setPort_keeps (hm.of rfl) | with_reducible apply State.setReg_keeps (hm.of rfl) | split | unfold x
    | dsimp only | with_reducible refine Keeps.upd ?_

theorem execDrespReceived_keeps (hm : Sub 201326594 pm) (hk : Keeps pm sk s) (p : Nat) (set : List Byte) (d : Nat) : OutKeeps pm sk (execDrespReceived p set d s) := by
  unfold execDrespReceived
  repeat' first
    | with_reducible assumption | with_reducible apply OutKeeps.next | with_reducible apply State.delayMeasured_keeps (hm.of rfl) | split
    | dsimp only

theorem execSyncSendTimer_keeps (hm : Sub 168320003 pm) (hk : Keeps pm sk s) : OutKeeps pm sk (execSyncSendTimer s) := by
  unfold execSyncSendTimer
  repeat' first
    | with_reducible assumption | refine fun t (ht : Keeps pm sk t) => ?_ | refine fun _ t (ht : Keeps pm sk t) => ?_
    | ((try lift_lets); intro x; refine Keeps.cut (pm := pm) (sk := sk) (x := x) ?_ (fun hx => ?_); rotate_left; clear_value x; rotate_right)
    | ((try lift_lets); intro x; refine Keeps.cut2 (pm := pm) (sk := sk) (x := x) ?_ (fun hx => ?_); rotate_left; clear_value x; rotate_right)
    | ((try lift_lets); intro x; refine Keeps.cut3 (pm := pm) (sk := sk) (x := x) ?_ (fun hx => ?_); rotate_left; clear_value x; rotate_right)
    | ((try lift_lets); intro x; refine Keeps.cutG (pm := pm) (sk := sk) (x := x) (fun a ha => ?_) (fun hx => ?_))
    | ((try lift_lets); intro x; refine Keeps.cutH (pm := pm) (sk := sk) (x := x) (fun a b ha => ?_) (fun hx => ?_))
    | ((try lift_lets); intro x; refine Keeps.cutF2 (pm := pm) (sk := sk) (x := x) (fun a b => ?_) (fun hx => ?_))
    | ((try lift_lets); intro x; refine Keeps.cutF (pm := pm) (sk := sk) (x := x) (fun a => ?_) (fun hx => ?_))
    | ((try lift_lets); intro x; clear_value x) | with_reducible apply OutKeeps.next
    | with_reducible apply State.passTo_keeps (hm.of rfl) | with_reducible apply State.sendTime_keeps (hm.of rfl)
    | with_reducible apply State.setRing_keeps (hm.of rfl) | with_reducible refine Keeps.foldl ?_ _ (fun t y ht => ?_)
    | with_reducible refine Keeps.foldl2 ?_ _ (fun t y ht => ?_) | split | unfold x | dsimp only | with_reducible refine Keeps.upd ?_

theorem State.syncIn_keeps (hm : Sub 134241794 pm) (hk : Keeps pm sk s) (p : Nat) (y : SyncSet) (r : Nat) (x : Nat) : Keeps pm sk (State.syncIn s p y r x) := by
  unfold State.syncIn
  repeat' first
    | with_reducible assumption | refine fun t (ht : Keeps pm sk t) => ?_ | refine fun _ t (ht : Keeps pm sk t) => ?_
    | ((try lift_lets); intro x; refine Keeps.cut (pm := pm) (sk := sk) (x := x) ?_ (fun hx => ?_); rotate_left; clear_value x; rotate_right)
    | ((try lift_lets); intro x; refine Keeps.cut2 (pm := pm) (sk := sk) (x := x) ?_ (fun hx => ?_); rotate_left; clear_value x; rotate_right)
    | ((try lift_lets); intro x; refine Keeps.cut3 (pm := pm) (sk := sk) (x := x) ?_ (fun hx => ?_); rotate_left; clear_value x; rotate_right)
    | ((try lift_lets); intro x; refine Keeps.cutG (pm := pm) (sk := sk) (x := x) (fun a ha => ?_) (fun hx => ?_))
    | ((try lift_lets); intro x; refine Keeps.cutH (pm := pm) (sk := sk) (x := x) (fun a b ha => ?_) (fun hx => ?_))
    | ((try lift_lets); intro x; refine Keeps.cutF2 (pm := pm) (sk := sk) (x := x) (fun a b => ?_) (fun hx => ?_))
    | ((try lift_lets); intro x; refine Keeps.cutF (pm := pm) (sk := sk) (x := x) (fun a => ?_) (fun hx => ?_))
    | ((try lift_lets); intro x; clear_value x) | with_reducible apply State.holdExit_keeps (hm.of rfl)
    | with_reducible apply State.sendTime_keeps (hm.of rfl) | with_reducible apply State.servo_keeps (hm.of rfl)
    | with_reducible apply State.setPort_keeps (hm.of rfl) | with_reducible apply State.setRing_keeps (hm.of rfl) | split | unfold x
    | dsimp only | with_reducible refine Keeps.upd ?_

theorem execSyncReceived_keeps (hm : Sub 134241794 pm) (hk : Keeps pm sk s) (p : Nat) (set : List Byte) (r : Nat) (x : Nat) : OutKeeps pm sk (execSyncReceived p set r x s) := by
  unfold execSyncReceived
  repeat' first
    | with_reducible assumption | with_reducible apply OutKeeps.next | with_reducible apply State.syncIn_keeps (hm.of rfl) | split
    | dsimp only

theorem execSyncLossTimeout_keeps (hm : Sub 235429379 pm) (hk : Keeps pm sk s) : OutKeeps pm sk (execSyncLossTimeout s) := by
  unfold execSyncLossTimeout
  repeat' first
    | with_reducible assumption
    | ((try lift_lets); intro x; refine Keeps.cut (pm := pm) (sk := sk) (x := x) ?_ (fun hx => ?_); rotate_left; clear_value x; rotate_right)
    | ((try lift_lets); intro x; clear_value x) | with_reducible apply OutKeeps.next
    | with_reducible apply State.passTo_keeps (hm.of rfl) | with_reducible apply State.rollStart_keeps (hm.of rfl)
    | with_reducible apply State.tb0Change_keeps (hm.of rfl) | split | unfold x | dsimp only

theorem execStateFrameReceived_keeps (hm : Sub 201326592 pm) (hk : Keeps pm sk s) (p : Nat) (src : Nat) (recess : Bool) : OutKeeps pm sk (execStateFrameReceived p src recess s) := by
  unfold execStateFrameReceived
  repeat' first
    | with_reducible assumption | refine fun t (ht : Keeps pm sk t) => ?_ | refine fun _ t (ht : Keeps pm sk t) => ?_
    | ((try lift_lets); intro x; refine Keeps.cut (pm := pm) (sk := sk) (x := x) ?_ (fun hx => ?_); rotate_left; clear_value x; rotate_right)
    | ((try lift_lets); intro x; refine Keeps.cutG (pm := pm) (sk := sk) (x := x) (fun a ha => ?_) (fun hx => ?_))
    | ((try lift_lets); intro x; refine Keeps.cutH (pm := pm) (sk := sk) (x := x) (fun a b ha => ?_) (fun hx => ?_))
    | ((try lift_lets); intro x; refine Keeps.cutF2 (pm := pm) (sk := sk) (x := x) (fun a b => ?_) (fun hx => ?_))
    | ((try lift_lets); intro x; refine Keeps.cutF (pm := pm) (sk := sk) (x := x) (fun a => ?_) (fun hx => ?_))
    | ((try lift_lets); intro x; clear_value x) | with_reducible apply OutKeeps.next
    | with_reducible apply State.ringQueue_keeps (hm.of rfl) | with_reducible apply State.setRing_keeps (hm.of rfl)
    | with_reducible refine Keeps.foldl ?_ _ (fun t y ht => ?_) | with_reducible refine Keeps.foldl2 ?_ _ (fun t y ht => ?_) | split
    | unfold x | dsimp only | with_reducible refine Keeps.upd ?_

theorem execWakeFrameReceived_keeps (hm : Sub 67109120 pm) (hk : Keeps pm sk s) (p : Nat) : OutKeeps pm sk (execWakeFrameReceived p s) := by
  unfold execWakeFrameReceived
  repeat' first
    | with_reducible assumption
    | ((try lift_lets); intro x; refine Keeps.cut (pm := pm) (sk := sk) (x := x) ?_ (fun hx => ?_); rotate_left; clear_value x; rotate_right)
    | ((try lift_lets); intro x; clear_value x) | with_reducible apply OutKeeps.next | with_reducible apply State.owe_keeps (hm.of rfl)
    | with_reducible apply State.wake_keeps (hm.of rfl) | split | unfold x | dsimp only

theorem execWakeSendWrite_keeps (hm : Sub 201350410 pm) (hk : Keeps pm sk s) (req : Nat) (v : Word) : OutKeeps pm sk (execWakeSendWrite req v s) := by
  unfold execWakeSendWrite
  repeat' first
    | with_reducible assumption | refine fun t (ht : Keeps pm sk t) => ?_ | refine fun _ t (ht : Keeps pm sk t) => ?_
    | with_reducible apply OutKeeps.next | with_reducible apply State.hostWrite_keeps (hm.of rfl)
    | with_reducible apply State.ringEmit_keeps (hm.of rfl) | split | dsimp only

theorem State.drxDrain_keeps (hm : Sub 235428871 pm) (hk : Keeps pm sk s) : Keeps pm sk (State.drxDrain s) := by
  unfold State.drxDrain
  repeat' first
    | with_reducible assumption | refine fun t (ht : Keeps pm sk t) => ?_ | refine fun _ t (ht : Keeps pm sk t) => ?_
    | ((try lift_lets); intro x; refine Keeps.cut (pm := pm) (sk := sk) (x := x) ?_ (fun hx => ?_); rotate_left; clear_value x; rotate_right)
    | ((try lift_lets); intro x; clear_value x) | with_reducible exact OptKeeps.none | with_reducible apply OptKeeps.some
    | with_reducible refine OptKeeps.bind ?_ (fun t ht => ?_) | with_reducible refine OptKeeps.map ?_ (fun t ht => ?_)
    | with_reducible apply OptKeeps.getD | with_reducible refine OptKeeps.of (by assumption) ?_
    | with_reducible refine OptKeeps.foldl _ ?_ (fun t x ht => ?_) | with_reducible apply State.copyDone_keeps (hm.of rfl)
    | with_reducible apply State.occur_keeps (hm.of rfl) | with_reducible apply State.owe_keeps (hm.of rfl)
    | with_reducible apply State.ringPush_keeps (hm.of rfl) | with_reducible apply State.setRing_keeps (hm.of rfl) | split | unfold x
    | dsimp only | with_reducible refine Keeps.upd ?_

theorem execDataFrameReceived_keeps (hm : Sub 235428871 pm) (hk : Keeps pm sk s) (p : Nat) (words : List Word) (data : List Byte) (et : Nat) : OutKeeps pm sk (execDataFrameReceived p words data et s) := by
  unfold execDataFrameReceived
  repeat' first
    | with_reducible assumption
    | ((try lift_lets); intro x; refine Keeps.cut (pm := pm) (sk := sk) (x := x) ?_ (fun hx => ?_); rotate_left; clear_value x; rotate_right)
    | ((try lift_lets); intro x; refine Keeps.cut2 (pm := pm) (sk := sk) (x := x) ?_ (fun hx => ?_); rotate_left; clear_value x; rotate_right)
    | ((try lift_lets); intro x; refine Keeps.cut3 (pm := pm) (sk := sk) (x := x) ?_ (fun hx => ?_); rotate_left; clear_value x; rotate_right)
    | ((try lift_lets); intro x; clear_value x) | with_reducible apply OutKeeps.next
    | with_reducible apply State.drxDrain_keeps (hm.of rfl) | with_reducible apply State.setRing_keeps (hm.of rfl) | split | unfold x
    | dsimp only | with_reducible refine Keeps.upd ?_

theorem execDrxSlotWrite_keeps (hm : Sub 235428871 pm) (hk : Keeps pm sk s) : OutKeeps pm sk (execDrxSlotWrite s) := by
  unfold execDrxSlotWrite
  repeat' first
    | with_reducible assumption | with_reducible apply OutKeeps.next | with_reducible apply State.drxDrain_keeps (hm.of rfl) | dsimp only

theorem State.dtxRead_keeps (hm : Sub 168320003 pm) (hk : Keeps pm sk s) : Keeps pm sk (State.dtxRead s) := by
  unfold State.dtxRead
  repeat' first
    | with_reducible assumption | with_reducible exact OptKeeps.none | with_reducible apply OptKeeps.some
    | with_reducible refine OptKeeps.bind ?_ (fun t ht => ?_) | with_reducible refine OptKeeps.map ?_ (fun t ht => ?_)
    | with_reducible apply OptKeeps.getD | with_reducible refine OptKeeps.of (by assumption) ?_
    | with_reducible refine OptKeeps.foldl _ ?_ (fun t x ht => ?_) | with_reducible apply State.portRun_keeps (hm.of rfl)
    | with_reducible apply State.setReg_keeps (hm.of rfl) | with_reducible apply State.setRing_keeps (hm.of rfl) | split | dsimp only
    | with_reducible refine Keeps.upd ?_

theorem execDtxGo_keeps (hm : Sub 168320267 pm) (hk : Keeps pm sk s) (req : Nat) (v : Word) : OutKeeps pm sk (execDtxGo req v s) := by
  unfold execDtxGo
  repeat' first
    | with_reducible assumption | refine fun t (ht : Keeps pm sk t) => ?_ | refine fun _ t (ht : Keeps pm sk t) => ?_
    | ((try lift_lets); intro x; refine Keeps.cut (pm := pm) (sk := sk) (x := x) ?_ (fun hx => ?_); rotate_left; clear_value x; rotate_right)
    | ((try lift_lets); intro x; refine Keeps.cut2 (pm := pm) (sk := sk) (x := x) ?_ (fun hx => ?_); rotate_left; clear_value x; rotate_right)
    | ((try lift_lets); intro x; refine Keeps.cut3 (pm := pm) (sk := sk) (x := x) ?_ (fun hx => ?_); rotate_left; clear_value x; rotate_right)
    | ((try lift_lets); intro x; clear_value x) | with_reducible apply OutKeeps.next
    | with_reducible apply State.dtxRead_keeps (hm.of rfl) | with_reducible apply State.hostWrite_keeps (hm.of rfl)
    | with_reducible apply State.setReg_keeps (hm.of rfl) | with_reducible apply State.setRing_keeps (hm.of rfl) | split | unfold x
    | dsimp only | with_reducible refine Keeps.upd ?_

theorem State.tsqPush_keeps (hm : Sub 134241282 pm) (hk : Keeps pm sk s) (id : Nat) (et : Nat) : Keeps pm sk (State.tsqPush s id et) := by
  unfold State.tsqPush
  repeat' first
    | with_reducible assumption
    | ((try lift_lets); intro x; refine Keeps.cut (pm := pm) (sk := sk) (x := x) ?_ (fun hx => ?_); rotate_left; clear_value x; rotate_right)
    | ((try lift_lets); intro x; refine Keeps.cut2 (pm := pm) (sk := sk) (x := x) ?_ (fun hx => ?_); rotate_left; clear_value x; rotate_right)
    | ((try lift_lets); intro x; refine Keeps.cut3 (pm := pm) (sk := sk) (x := x) ?_ (fun hx => ?_); rotate_left; clear_value x; rotate_right)
    | ((try lift_lets); intro x; clear_value x) | with_reducible apply State.incSat_keeps (hm.of rfl)
    | with_reducible apply State.occur_keeps (hm.of rfl) | with_reducible apply State.setRing_keeps (hm.of rfl) | split | unfold x
    | dsimp only | with_reducible refine Keeps.upd ?_

theorem execDtxSofSent_keeps (hm : Sub 235428867 pm) (hk : Keeps pm sk s) (et : Nat) : OutKeeps pm sk (execDtxSofSent et s) := by
  unfold execDtxSofSent
  repeat' first
    | with_reducible assumption | refine fun t (ht : Keeps pm sk t) => ?_ | refine fun _ t (ht : Keeps pm sk t) => ?_
    | ((try lift_lets); intro x; refine Keeps.cut (pm := pm) (sk := sk) (x := x) ?_ (fun hx => ?_); rotate_left; clear_value x; rotate_right)
    | ((try lift_lets); intro x; clear_value x) | with_reducible apply OutKeeps.next
    | with_reducible apply State.dtxRead_keeps (hm.of rfl) | with_reducible apply State.occur_keeps (hm.of rfl)
    | with_reducible apply State.sendFrame_keeps (hm.of rfl) | with_reducible apply State.setReg_keeps (hm.of rfl)
    | with_reducible apply State.setRing_keeps (hm.of rfl) | with_reducible apply State.tsqPush_keeps (hm.of rfl) | split | unfold x
    | dsimp only | with_reducible refine Keeps.upd ?_

theorem execTsqPop_keeps (hm : Sub 134241546 pm) (hk : Keeps pm sk s) (req : Nat) (v : Word) : OutKeeps pm sk (execTsqPop req v s) := by
  unfold execTsqPop
  repeat' first
    | with_reducible assumption | refine fun t (ht : Keeps pm sk t) => ?_ | refine fun _ t (ht : Keeps pm sk t) => ?_
    | with_reducible apply OutKeeps.next | with_reducible apply State.hostWrite_keeps (hm.of rfl)
    | with_reducible apply State.setRing_keeps (hm.of rfl) | split | dsimp only | with_reducible refine Keeps.upd ?_

theorem State.ringCfg_keeps (hm : Sub 167796227 pm) (hk : Keeps pm sk s) (v : Word) : Keeps pm sk (State.ringCfg s v) := by
  unfold State.ringCfg
  repeat' first
    | with_reducible assumption
    | ((try lift_lets); intro x; refine Keeps.cut (pm := pm) (sk := sk) (x := x) ?_ (fun hx => ?_); rotate_left; clear_value x; rotate_right)
    | ((try lift_lets); intro x; clear_value x) | with_reducible apply State.formOne_keeps (hm.of rfl)
    | with_reducible apply State.setRing_keeps (hm.of rfl) | with_reducible apply State.writeMasked_keeps (hm.of rfl) | split | unfold x
    | dsimp only | with_reducible refine Keeps.upd ?_

theorem State.ringReset_keeps (hm : Sub 134274050 pm) (hk : Keeps pm sk s) : Keeps pm sk (State.ringReset s) := by
  unfold State.ringReset
  repeat' first
    | with_reducible assumption | refine fun t (ht : Keeps pm sk t) => ?_ | refine fun _ t (ht : Keeps pm sk t) => ?_
    | ((try lift_lets); intro x; refine Keeps.cut (pm := pm) (sk := sk) (x := x) ?_ (fun hx => ?_); rotate_left; clear_value x; rotate_right)
    | ((try lift_lets); intro x; clear_value x) | with_reducible apply State.resync_keeps (hm.of rfl)
    | with_reducible apply State.setReg_keeps (hm.of rfl) | with_reducible apply State.setRing_keeps (hm.of rfl)
    | with_reducible refine Keeps.foldl ?_ _ (fun t y ht => ?_) | with_reducible refine Keeps.foldl2 ?_ _ (fun t y ht => ?_) | unfold x
    | dsimp only | with_reducible refine Keeps.upd ?_

theorem State.tbSetMaster_keeps (hm : Sub 134241922 pm) (hk : Keeps pm sk s) (req : Nat) (t : Nat) : Keeps pm sk (State.tbSetMaster s req t) := by
  unfold State.tbSetMaster
  repeat' first
    | with_reducible assumption
    | ((try lift_lets); intro x; refine Keeps.cut (pm := pm) (sk := sk) (x := x) ?_ (fun hx => ?_); rotate_left; clear_value x; rotate_right)
    | ((try lift_lets); intro x; clear_value x) | with_reducible apply State.setRing_keeps (hm.of rfl)
    | with_reducible apply State.setTime4_keeps (hm.of rfl) | with_reducible apply State.tbMove_keeps (hm.of rfl)
    | with_reducible apply State.tbStepped_keeps (hm.of rfl) | with_reducible apply State.timeTaken_keeps (hm.of rfl) | split | unfold x
    | dsimp only | with_reducible refine Keeps.upd ?_

theorem State.tbSetOwn_keeps (hm : Sub 268459650 pm) (hk : Keeps pm sk s) (req b v : Nat) : Keeps pm sk (s.tbSetOwn req b v) := by
  unfold State.tbSetOwn
  extract_lets u off tk0 w e moved b0 y
  have h1 : Keeps pm sk u := State.timeTaken_keeps (hm.of rfl) (State.setTime4_keeps (hm.of rfl) hk _ _) _ _
  have h2 : Keeps pm sk w := State.setTk_keeps (hm.of rfl) h1 _
  have h3 : Keeps pm sk y := State.setTb_keeps (hm.of rfl) h2 _ _
  clear_value u off w y
  split
  · split
    · exact h2
    · exact State.tbStepped_keeps (hm.of rfl) (State.tbMove_keeps (hm.of rfl) h2 _ _ _) _
  · split
    · exact State.tbStepped_keeps (hm.of rfl) h3 _
    · exact h3
  · exact State.setTk_keeps (hm.of rfl) h2 _
  · exact h2

theorem State.tbSet_keeps (hm : Sub 402677378 pm) (hk : Keeps pm sk s) (req : Nat) (b : Nat) (v : Word) : Keeps pm sk (State.tbSet s req b v) := by
  unfold State.tbSet
  repeat' first
    | with_reducible assumption
    | ((try lift_lets); intro x; refine Keeps.cut (pm := pm) (sk := sk) (x := x) ?_ (fun hx => ?_); rotate_left; clear_value x; rotate_right)
    | ((try lift_lets); intro x; clear_value x) | with_reducible apply State.setTime4_keeps (hm.of rfl)
    | with_reducible apply State.setTk_keeps (hm.of rfl) | with_reducible apply State.tbSetMaster_keeps (hm.of rfl)
    | with_reducible apply State.tbSetOwn_keeps (hm.of rfl) | with_reducible apply State.timeTaken_keeps (hm.of rfl) | split | unfold x
    | dsimp only | with_reducible refine Keeps.upd ?_

theorem execTimeBaseSet_keeps (hm : Sub 402677642 pm) (hk : Keeps pm sk s) (req : Nat) (b : Nat) (v : Word) : OutKeeps pm sk (execTimeBaseSet req b v s) := by
  unfold execTimeBaseSet
  repeat' first
    | with_reducible assumption | refine fun t (ht : Keeps pm sk t) => ?_ | refine fun _ t (ht : Keeps pm sk t) => ?_
    | with_reducible apply OutKeeps.next | with_reducible apply State.hostWrite_keeps (hm.of rfl)
    | with_reducible apply State.tbSet_keeps (hm.of rfl) | split | dsimp only

theorem State.tbCfg_keeps (hm : Sub 268459522 pm) (hk : Keeps pm sk s) (b : Nat) (v : Word) : Keeps pm sk (State.tbCfg s b v) := by
  unfold State.tbCfg
  repeat' first
    | with_reducible assumption | refine fun t (ht : Keeps pm sk t) => ?_ | refine fun _ t (ht : Keeps pm sk t) => ?_
    | ((try lift_lets); intro x; refine Keeps.cut (pm := pm) (sk := sk) (x := x) ?_ (fun hx => ?_); rotate_left; clear_value x; rotate_right)
    | ((try lift_lets); intro x; clear_value x) | with_reducible apply State.holdLive_keeps (hm.of rfl)
    | with_reducible apply State.setReg_keeps (hm.of rfl) | with_reducible apply State.setTb_keeps (hm.of rfl)
    | with_reducible apply State.setTk_keeps (hm.of rfl) | with_reducible apply State.writeMasked_keeps (hm.of rfl) | split | unfold x
    | dsimp only | with_reducible refine Keeps.upd ?_

theorem execPpsEdge_keeps (hm : Sub 268459522 pm) (hk : Keeps pm sk s) (rising : Bool) (et : Nat) : OutKeeps pm sk (execPpsEdge rising et s) := by
  unfold execPpsEdge
  repeat' first
    | with_reducible assumption
    | ((try lift_lets); intro x; refine Keeps.cut (pm := pm) (sk := sk) (x := x) ?_ (fun hx => ?_); rotate_left; clear_value x; rotate_right)
    | ((try lift_lets); intro x; clear_value x) | with_reducible apply OutKeeps.next
    | with_reducible apply State.holdExit_keeps (hm.of rfl) | with_reducible apply State.servo_keeps (hm.of rfl)
    | with_reducible apply State.setTk_keeps (hm.of rfl) | with_reducible apply State.tbStart_keeps (hm.of rfl)
    | with_reducible apply State.tbStepped_keeps (hm.of rfl) | split | unfold x | dsimp only | with_reducible refine Keeps.upd ?_

theorem execPpsLossTimeout_keeps (hm : Sub 34102787 pm) (hk : Keeps pm sk s) : OutKeeps pm sk (execPpsLossTimeout s) := by
  unfold execPpsLossTimeout
  repeat' first
    | with_reducible assumption | with_reducible apply OutKeeps.next | with_reducible apply State.holdEnter_keeps (hm.of rfl)
    | with_reducible apply State.occur_keeps (hm.of rfl) | with_reducible apply State.passTo_keeps (hm.of rfl) | split | dsimp only

theorem State.convert_keeps (hm : Sub 2 pm) (hk : Keeps pm sk s) : Keeps pm sk (State.convert s) := by
  unfold State.convert
  repeat' first
    | with_reducible assumption
    | ((try lift_lets); intro x; refine Keeps.cut (pm := pm) (sk := sk) (x := x) ?_ (fun hx => ?_); rotate_left; clear_value x; rotate_right)
    | ((try lift_lets); intro x; clear_value x) | with_reducible apply State.setReg_keeps (hm.of rfl)
    | with_reducible apply State.setTime4_keeps (hm.of rfl) | split | unfold x | dsimp only

theorem execConvBeatWrite_keeps (hm : Sub 23946 pm) (hk : Keeps pm sk s) (req : Nat) (v : Word) : OutKeeps pm sk (execConvBeatWrite req v s) := by
  unfold execConvBeatWrite
  repeat' first
    | with_reducible assumption | refine fun t (ht : Keeps pm sk t) => ?_ | refine fun _ t (ht : Keeps pm sk t) => ?_
    | ((try lift_lets); intro x; refine Keeps.cut (pm := pm) (sk := sk) (x := x) ?_ (fun hx => ?_); rotate_left; clear_value x; rotate_right)
    | ((try lift_lets); intro x; refine Keeps.cut2 (pm := pm) (sk := sk) (x := x) ?_ (fun hx => ?_); rotate_left; clear_value x; rotate_right)
    | ((try lift_lets); intro x; refine Keeps.cut3 (pm := pm) (sk := sk) (x := x) ?_ (fun hx => ?_); rotate_left; clear_value x; rotate_right)
    | ((try lift_lets); intro x; clear_value x) | with_reducible apply OutKeeps.next
    | with_reducible apply State.commit64_keeps (hm.of rfl) | with_reducible apply State.convert_keeps (hm.of rfl)
    | with_reducible apply State.hostWrite_keeps (hm.of rfl) | with_reducible apply State.take64_keeps (hm.of rfl) | unfold x
    | dsimp only

theorem State.setBells_keeps (hm : Sub 536870912 pm) (hk : Keeps pm sk s) (x : Bells) : Keeps pm sk (State.setBells s x) := by
  unfold State.setBells
  repeat' first
    | with_reducible assumption | dsimp only | with_reducible refine Keeps.upd ?_

theorem State.setBell_keeps (hm : Sub 536870912 pm) (hk : Keeps pm sk s) (b : Nat) (x : Bell) : Keeps pm sk (State.setBell s b x) := by
  unfold State.setBell
  repeat' first
    | with_reducible assumption | refine fun t (ht : Keeps pm sk t) => ?_ | refine fun _ t (ht : Keeps pm sk t) => ?_
    | with_reducible apply State.setBells_keeps (hm.of rfl) | dsimp only | with_reducible refine Keeps.upd ?_

theorem State.bellLast_keeps (hm : Sub 2 pm) (hk : Keeps pm sk s) (b : Nat) (result : Nat) : Keeps pm sk (State.bellLast s b result) := by
  unfold State.bellLast
  repeat' first
    | with_reducible assumption | with_reducible apply State.setReg_keeps (hm.of rfl) | dsimp only

theorem State.bellCmd_keeps (hm : Sub 536894466 pm) (hk : Keeps pm sk s) (b : Nat) (v : Word) : Keeps pm sk (State.bellCmd s b v) := by
  unfold State.bellCmd
  repeat' first
    | with_reducible assumption
    | ((try lift_lets); intro x; refine Keeps.cut (pm := pm) (sk := sk) (x := x) ?_ (fun hx => ?_); rotate_left; clear_value x; rotate_right)
    | ((try lift_lets); intro x; clear_value x) | with_reducible apply State.bellLast_keeps (hm.of rfl)
    | with_reducible apply State.occur_keeps (hm.of rfl) | with_reducible apply State.setBell_keeps (hm.of rfl) | split | unfold x
    | dsimp only | with_reducible refine Keeps.upd ?_

theorem execBellArm_keeps (hm : Sub 536894730 pm) (hk : Keeps pm sk s) (req : Nat) (b : Nat) (v : Word) : OutKeeps pm sk (execBellArm req b v s) := by
  unfold execBellArm
  repeat' first
    | with_reducible assumption | refine fun t (ht : Keeps pm sk t) => ?_ | refine fun _ t (ht : Keeps pm sk t) => ?_
    | with_reducible apply OutKeeps.next | with_reducible apply State.bellCmd_keeps (hm.of rfl)
    | with_reducible apply State.hostWrite_keeps (hm.of rfl) | split | dsimp only

theorem execBellDisarm_keeps (hm : Sub 536894730 pm) (hk : Keeps pm sk s) (req : Nat) (b : Nat) (v : Word) : OutKeeps pm sk (execBellDisarm req b v s) := by
  unfold execBellDisarm
  repeat' first
    | with_reducible assumption | refine fun t (ht : Keeps pm sk t) => ?_ | refine fun _ t (ht : Keeps pm sk t) => ?_
    | with_reducible apply OutKeeps.next | with_reducible apply State.bellCmd_keeps (hm.of rfl)
    | with_reducible apply State.hostWrite_keeps (hm.of rfl) | split | dsimp only

theorem State.bellSet_keeps (hm : Sub 536870912 pm) (hk : Keeps pm sk s) (b : Nat) (gen : Nat) (origin : Nat) (cancel : Bool) : Keeps pm sk (State.bellSet s b gen origin cancel) := by
  unfold State.bellSet
  repeat' first
    | with_reducible assumption
    | ((try lift_lets); intro x; refine Keeps.cut (pm := pm) (sk := sk) (x := x) ?_ (fun hx => ?_); rotate_left; clear_value x; rotate_right)
    | ((try lift_lets); intro x; clear_value x) | with_reducible apply State.setBell_keeps (hm.of rfl) | split | unfold x | dsimp only
    | with_reducible refine Keeps.upd ?_

theorem State.bellOn_keeps (hm : Sub 67108864 pm) (hk : Keeps pm sk s) (p : Nat) (x : BellSet) : Keeps pm sk (State.bellOn s p x) := by
  unfold State.bellOn
  repeat' first
    | with_reducible assumption | with_reducible apply State.setLink_keeps (hm.of rfl) | split | dsimp only
    | with_reducible refine Keeps.upd ?_

theorem State.bellSend_keeps (hm : Sub 603979776 pm) (hk : Keeps pm sk s) (x : BellSet) : Keeps pm sk (State.bellSend s x) := by
  unfold State.bellSend
  repeat' first
    | with_reducible assumption | with_reducible apply State.bellOn_keeps (hm.of rfl)
    | with_reducible apply State.bellSet_keeps (hm.of rfl) | dsimp only

theorem execBellRingWrite_keeps (hm : Sub 604003594 pm) (hk : Keeps pm sk s) (req : Nat) (v : Word) : OutKeeps pm sk (execBellRingWrite req v s) := by
  unfold execBellRingWrite
  repeat' first
    | with_reducible assumption | refine fun t (ht : Keeps pm sk t) => ?_ | refine fun _ t (ht : Keeps pm sk t) => ?_
    | ((try lift_lets); intro x; refine Keeps.cut (pm := pm) (sk := sk) (x := x) ?_ (fun hx => ?_); rotate_left; clear_value x; rotate_right)
    | ((try lift_lets); intro x; clear_value x) | with_reducible apply OutKeeps.next
    | with_reducible apply State.bellLast_keeps (hm.of rfl) | with_reducible apply State.bellSend_keeps (hm.of rfl)
    | with_reducible apply State.hostWrite_keeps (hm.of rfl) | with_reducible apply State.setBells_keeps (hm.of rfl) | split | unfold x
    | dsimp only | with_reducible refine Keeps.upd ?_

theorem execBellRepeatSend_keeps (hm : Sub 638082051 pm) (hk : Keeps pm sk s) : OutKeeps pm sk (execBellRepeatSend s) := by
  unfold execBellRepeatSend
  repeat' first
    | with_reducible assumption
    | ((try lift_lets); intro x; refine Keeps.cut (pm := pm) (sk := sk) (x := x) ?_ (fun hx => ?_); rotate_left; clear_value x; rotate_right)
    | ((try lift_lets); intro x; clear_value x) | with_reducible apply OutKeeps.next
    | with_reducible apply State.bellSend_keeps (hm.of rfl) | with_reducible apply State.passTo_keeps (hm.of rfl)
    | with_reducible apply State.setBells_keeps (hm.of rfl) | split | unfold x | dsimp only | with_reducible refine Keeps.upd ?_

theorem execBellSetReceived_keeps (hm : Sub 603979776 pm) (hk : Keeps pm sk s) (p : Nat) (set : List Byte) : OutKeeps pm sk (execBellSetReceived p set s) := by
  unfold execBellSetReceived
  repeat' first
    | with_reducible assumption | with_reducible apply OutKeeps.next | with_reducible apply State.bellOn_keeps (hm.of rfl)
    | with_reducible apply State.bellSet_keeps (hm.of rfl) | split | dsimp only

theorem State.bellFire_keeps (hm : Sub 537395202 pm) (hk : Keeps pm sk s) (b : Nat) (at0 : Nat) : Keeps pm sk (State.bellFire s b at0) := by
  unfold State.bellFire
  repeat' first
    | with_reducible assumption | refine fun t (ht : Keeps pm sk t) => ?_ | refine fun _ t (ht : Keeps pm sk t) => ?_
    | ((try lift_lets); intro x; refine Keeps.cut (pm := pm) (sk := sk) (x := x) ?_ (fun hx => ?_); rotate_left; clear_value x; rotate_right)
    | ((try lift_lets); intro x; clear_value x) | with_reducible apply State.incWrap_keeps (hm.of rfl)
    | with_reducible apply State.setBell_keeps (hm.of rfl) | with_reducible apply State.setSeq_keeps (hm.of rfl)
    | with_reducible refine Keeps.foldl ?_ _ (fun t y ht => ?_) | with_reducible refine Keeps.foldl2 ?_ _ (fun t y ht => ?_) | unfold x
    | dsimp only | with_reducible refine Keeps.upd ?_

theorem State.bellMiss_keeps (hm : Sub 536894466 pm) (hk : Keeps pm sk s) (b : Nat) : Keeps pm sk (State.bellMiss s b) := by
  unfold State.bellMiss
  repeat' first
    | with_reducible assumption | with_reducible apply State.incSat_keeps (hm.of rfl)
    | with_reducible apply State.occur_keeps (hm.of rfl) | with_reducible apply State.setBell_keeps (hm.of rfl) | dsimp only
    | with_reducible refine Keeps.upd ?_

theorem execBellDecision_keeps (hm : Sub 570973187 pm) (hk : Keeps pm sk s) (b : Nat) : OutKeeps pm sk (execBellDecision b s) := by
  unfold execBellDecision
  repeat' first
    | with_reducible assumption
    | ((try lift_lets); intro x; refine Keeps.cut (pm := pm) (sk := sk) (x := x) ?_ (fun hx => ?_); rotate_left; clear_value x; rotate_right)
    | ((try lift_lets); intro x; clear_value x) | with_reducible apply OutKeeps.next
    | with_reducible apply State.bellFire_keeps (hm.of rfl) | with_reducible apply State.bellMiss_keeps (hm.of rfl)
    | with_reducible apply State.passTo_keeps (hm.of rfl) | split | unfold x | dsimp only

theorem execBellInEdge_keeps (hm : Sub 570973187 pm) (hk : Keeps pm sk s) (et : Nat) : OutKeeps pm sk (execBellInEdge et s) := by
  unfold execBellInEdge
  repeat' first
    | with_reducible assumption | refine fun t (ht : Keeps pm sk t) => ?_ | refine fun _ t (ht : Keeps pm sk t) => ?_
    | ((try lift_lets); intro x; refine Keeps.cut (pm := pm) (sk := sk) (x := x) ?_ (fun hx => ?_); rotate_left; clear_value x; rotate_right)
    | ((try lift_lets); intro x; clear_value x) | with_reducible apply OutKeeps.next
    | with_reducible apply State.bellFire_keeps (hm.of rfl) | with_reducible apply State.bellMiss_keeps (hm.of rfl)
    | with_reducible apply State.passTo_keeps (hm.of rfl) | with_reducible refine Keeps.foldl ?_ _ (fun t y ht => ?_)
    | with_reducible refine Keeps.foldl2 ?_ _ (fun t y ht => ?_) | split | unfold x | dsimp only

theorem execBellInstantS_keeps (hm : Sub 570973187 pm) (hk : Keeps pm sk s) (b : Nat) : OutKeeps pm sk (execBellInstantS b s) := by
  unfold execBellInstantS
  repeat' first
    | with_reducible assumption | refine fun t (ht : Keeps pm sk t) => ?_ | refine fun _ t (ht : Keeps pm sk t) => ?_
    | ((try lift_lets); intro x; refine Keeps.cut (pm := pm) (sk := sk) (x := x) ?_ (fun hx => ?_); rotate_left; clear_value x; rotate_right)
    | ((try lift_lets); intro x; refine Keeps.cut2 (pm := pm) (sk := sk) (x := x) ?_ (fun hx => ?_); rotate_left; clear_value x; rotate_right)
    | ((try lift_lets); intro x; refine Keeps.cut3 (pm := pm) (sk := sk) (x := x) ?_ (fun hx => ?_); rotate_left; clear_value x; rotate_right)
    | ((try lift_lets); intro x; clear_value x) | with_reducible apply OutKeeps.next | with_reducible apply State.occur_keeps (hm.of rfl)
    | with_reducible apply State.passTo_keeps (hm.of rfl) | with_reducible apply State.setBell_keeps (hm.of rfl)
    | with_reducible apply State.setBells_keeps (hm.of rfl) | split | unfold x | dsimp only | with_reducible refine Keeps.upd ?_

theorem State.bellReset_keeps (hm : Sub 536870912 pm) (hk : Keeps pm sk s) : Keeps pm sk (State.bellReset s) := by
  unfold State.bellReset
  repeat' first
    | with_reducible assumption | refine fun t (ht : Keeps pm sk t) => ?_ | refine fun _ t (ht : Keeps pm sk t) => ?_
    | with_reducible apply State.setBell_keeps (hm.of rfl) | with_reducible apply State.setBells_keeps (hm.of rfl)
    | with_reducible refine Keeps.foldl ?_ _ (fun t y ht => ?_) | with_reducible refine Keeps.foldl2 ?_ _ (fun t y ht => ?_) | dsimp only
    | with_reducible refine Keeps.upd ?_

end Sys2Proof.Machine
end

