-- ==== Sys2Proof/Laws/KeepsRoutes.lean ====
section
/-! SUPPORT. What each definition of the modes, the resets and the register accesses keeps. -/

namespace Sys2Proof.Machine

set_option Elab.async false
set_option linter.all false

variable {pm : Nat} {sk s : State}

theorem State.setCtl_keeps (hm : Sub 256 pm) (hk : Keeps pm sk s) (c : ModeCtl) : Keeps pm sk (State.setCtl s c) := by
  unfold State.setCtl
  repeat' first
    | with_reducible assumption | dsimp only | with_reducible refine Keeps.upd ?_

theorem State.abortForbidden_keeps (hm : Sub 134184087 pm) (hk : Keeps pm sk s) (m : Nat) : Keeps pm sk (State.abortForbidden s m) := by
  unfold State.abortForbidden
  repeat' first
    | with_reducible assumption | refine fun t (ht : Keeps pm sk t) => ?_ | refine fun _ t (ht : Keeps pm sk t) => ?_
    | ((try lift_lets); intro x; refine Keeps.cut (pm := pm) (sk := sk) (x := x) ?_ (fun hx => ?_); rotate_left; clear_value x; rotate_right)
    | ((try lift_lets); intro x; refine Keeps.cutG (pm := pm) (sk := sk) (x := x) (fun a ha => ?_) (fun hx => ?_))
    | ((try lift_lets); intro x; refine Keeps.cutH (pm := pm) (sk := sk) (x := x) (fun a b ha => ?_) (fun hx => ?_))
    | ((try lift_lets); intro x; refine Keeps.cutF2 (pm := pm) (sk := sk) (x := x) (fun a b => ?_) (fun hx => ?_))
    | ((try lift_lets); intro x; refine Keeps.cutF (pm := pm) (sk := sk) (x := x) (fun a => ?_) (fun hx => ?_))
    | ((try lift_lets); intro x; clear_value x) | with_reducible apply State.calAbort_keeps (hm.of rfl)
    | with_reducible apply State.chkAbort_keeps (hm.of rfl) | with_reducible apply State.diagAbort_keeps (hm.of rfl)
    | with_reducible apply State.dmaAbortForbidden_keeps (hm.of rfl) | with_reducible apply State.flowAbort_keeps (hm.of rfl)
    | with_reducible apply State.pecAbort_keeps (hm.of rfl) | with_reducible apply State.seqAbort_keeps (hm.of rfl)
    | with_reducible apply State.tdcAbort_keeps (hm.of rfl) | with_reducible refine Keeps.foldl ?_ _ (fun t y ht => ?_)
    | with_reducible refine Keeps.foldl2 ?_ _ (fun t y ht => ?_) | split | unfold x | dsimp only

theorem State.modePend_keeps (hm : Sub 134184343 pm) (hk : Keeps pm sk s) (target : Nat) (abort : Bool) : Keeps pm sk (State.modePend s target abort) := by
  unfold State.modePend
  repeat' first
    | with_reducible assumption
    | ((try lift_lets); intro x; refine Keeps.cut (pm := pm) (sk := sk) (x := x) ?_ (fun hx => ?_); rotate_left; clear_value x; rotate_right)
    | ((try lift_lets); intro x; clear_value x) | with_reducible apply State.abortForbidden_keeps (hm.of rfl)
    | with_reducible apply State.pend_keeps (hm.of rfl) | with_reducible apply State.setCtl_keeps (hm.of rfl) | split | unfold x
    | dsimp only | with_reducible refine Keeps.upd ?_

theorem State.modeDeny_keeps (hm : Sub 23554 pm) (hk : Keeps pm sk s) (cause : Nat) : Keeps pm sk (State.modeDeny s cause) := by
  unfold State.modeDeny
  repeat' first
    | with_reducible assumption | with_reducible apply State.deny_keeps (hm.of rfl) | dsimp only

theorem State.modeReq_keeps (hm : Sub 134184343 pm) (hk : Keeps pm sk s) (target : Nat) (abort : Bool) : Keeps pm sk (State.modeReq s target abort) := by
  unfold State.modeReq
  repeat' first
    | with_reducible assumption
    | ((try lift_lets); intro x; refine Keeps.cut (pm := pm) (sk := sk) (x := x) ?_ (fun hx => ?_); rotate_left; clear_value x; rotate_right)
    | ((try lift_lets); intro x; clear_value x) | with_reducible apply State.abortForbidden_keeps (hm.of rfl)
    | with_reducible apply State.modeDeny_keeps (hm.of rfl) | with_reducible apply State.modePend_keeps (hm.of rfl)
    | with_reducible apply State.pend_keeps (hm.of rfl) | with_reducible apply State.setCtl_keeps (hm.of rfl)
    | with_reducible apply State.wake_keeps (hm.of rfl) | split | unfold x | dsimp only | with_reducible refine Keeps.upd ?_

theorem execModeReq_keeps (hm : Sub 134184351 pm) (hk : Keeps pm sk s) (target : Nat) : OutKeeps pm sk (execModeReq target s) := by
  unfold execModeReq
  repeat' first
    | with_reducible assumption | refine fun t (ht : Keeps pm sk t) => ?_ | refine fun _ t (ht : Keeps pm sk t) => ?_
    | with_reducible apply OutKeeps.next | with_reducible apply State.hostWrite_keeps (hm.of rfl)
    | with_reducible apply State.modeReq_keeps (hm.of rfl) | dsimp only

theorem execModeReqAbort_keeps (hm : Sub 134184351 pm) (hk : Keeps pm sk s) (target : Nat) : OutKeeps pm sk (execModeReqAbort target s) := by
  unfold execModeReqAbort
  repeat' first
    | with_reducible assumption | refine fun t (ht : Keeps pm sk t) => ?_ | refine fun _ t (ht : Keeps pm sk t) => ?_
    | with_reducible apply OutKeeps.next | with_reducible apply State.hostWrite_keeps (hm.of rfl)
    | with_reducible apply State.modeReq_keeps (hm.of rfl) | dsimp only

theorem State.modeDone_keeps (hm : Sub 23554 pm) (hk : Keeps pm sk s) (byHost : Bool) : Keeps pm sk (State.modeDone s byHost) := by
  unfold State.modeDone
  repeat' first
    | with_reducible assumption | with_reducible apply State.occur_keeps (hm.of rfl) | split | dsimp only

theorem execModeQuiescence_keeps (hm : Sub 34364675 pm) (hk : Keeps pm sk s) : OutKeeps pm sk (execModeQuiescence s) := by
  unfold execModeQuiescence
  repeat' first
    | with_reducible assumption
    | ((try lift_lets); intro x; refine Keeps.cut (pm := pm) (sk := sk) (x := x) ?_ (fun hx => ?_); rotate_left; clear_value x; rotate_right)
    | ((try lift_lets); intro x; clear_value x) | with_reducible apply OutKeeps.next
    | with_reducible apply State.modeDeny_keeps (hm.of rfl) | with_reducible apply State.modeDone_keeps (hm.of rfl)
    | with_reducible apply State.pass_keeps (hm.of rfl) | with_reducible apply State.pend_keeps (hm.of rfl)
    | with_reducible apply State.pinsMove_keeps (hm.of rfl) | with_reducible apply State.setCtl_keeps (hm.of rfl) | split | unfold x
    | dsimp only | with_reducible refine Keeps.upd ?_

theorem execRecessEntryDone_keeps (hm : Sub 235691779 pm) (hk : Keeps pm sk s) : OutKeeps pm sk (execRecessEntryDone s) := by
  unfold execRecessEntryDone
  repeat' first
    | with_reducible assumption
    | ((try lift_lets); intro x; refine Keeps.cut (pm := pm) (sk := sk) (x := x) ?_ (fun hx => ?_); rotate_left; clear_value x; rotate_right)
    | ((try lift_lets); intro x; clear_value x) | with_reducible apply OutKeeps.next
    | with_reducible apply State.lanesSleep_keeps (hm.of rfl) | with_reducible apply State.modeDone_keeps (hm.of rfl)
    | with_reducible apply State.passTo_keeps (hm.of rfl) | with_reducible apply State.pend_keeps (hm.of rfl)
    | with_reducible apply State.pinsMove_keeps (hm.of rfl) | with_reducible apply State.selfRefreshAll_keeps (hm.of rfl)
    | with_reducible apply State.sendState_keeps (hm.of rfl) | with_reducible apply State.setCtl_keeps (hm.of rfl)
    | with_reducible apply State.wake_keeps (hm.of rfl) | split | unfold x | dsimp only | with_reducible refine Keeps.upd ?_

theorem execRecessWakeDue_keeps (hm : Sub 34102531 pm) (hk : Keeps pm sk s) (tb : Nat) : OutKeeps pm sk (execRecessWakeDue tb s) := by
  unfold execRecessWakeDue
  repeat' first
    | with_reducible assumption | with_reducible apply OutKeeps.next | with_reducible apply State.passTo_keeps (hm.of rfl)
    | with_reducible apply State.wake_keeps (hm.of rfl) | split | dsimp only

theorem State.clocksStart_keeps (hm : Sub 71720194 pm) (hk : Keeps pm sk s) : Keeps pm sk (State.clocksStart s) := by
  unfold State.clocksStart
  repeat' first
    | with_reducible assumption | with_reducible apply State.fcResume_keeps (hm.of rfl)
    | with_reducible apply State.lanesWake_keeps (hm.of rfl) | with_reducible apply State.lateBack_keeps (hm.of rfl)
    | with_reducible apply State.pinsMove_keeps (hm.of rfl) | with_reducible apply State.setCtl_keeps (hm.of rfl) | dsimp only
    | with_reducible refine Keeps.upd ?_

theorem execRecessPllLocked_keeps (hm : Sub 105798915 pm) (hk : Keeps pm sk s) : OutKeeps pm sk (execRecessPllLocked s) := by
  unfold execRecessPllLocked
  repeat' first
    | with_reducible assumption
    | ((try lift_lets); intro x; refine Keeps.cut (pm := pm) (sk := sk) (x := x) ?_ (fun hx => ?_); rotate_left; clear_value x; rotate_right)
    | ((try lift_lets); intro x; clear_value x) | with_reducible apply OutKeeps.next
    | with_reducible apply State.clocksStart_keeps (hm.of rfl) | with_reducible apply State.passTo_keeps (hm.of rfl)
    | with_reducible apply State.setCtl_keeps (hm.of rfl) | split | unfold x | dsimp only | with_reducible refine Keeps.upd ?_

theorem State.recessExit_keeps (hm : Sub 239623431 pm) (hk : Keeps pm sk s) : Keeps pm sk (State.recessExit s) := by
  unfold State.recessExit
  repeat' first
    | with_reducible assumption | refine fun t (ht : Keeps pm sk t) => ?_ | refine fun _ t (ht : Keeps pm sk t) => ?_
    | ((try lift_lets); intro x; refine Keeps.cut (pm := pm) (sk := sk) (x := x) ?_ (fun hx => ?_); rotate_left; clear_value x; rotate_right)
    | ((try lift_lets); intro x; clear_value x) | with_reducible apply State.fcResume_keeps (hm.of rfl)
    | with_reducible apply State.modeDone_keeps (hm.of rfl) | with_reducible apply State.occur_keeps (hm.of rfl)
    | with_reducible apply State.passTo_keeps (hm.of rfl) | with_reducible apply State.selfRefreshEnd_keeps (hm.of rfl)
    | with_reducible apply State.sendState_keeps (hm.of rfl) | with_reducible apply State.setCor_keeps (hm.of rfl)
    | with_reducible apply State.setCtl_keeps (hm.of rfl) | with_reducible refine Keeps.foldl ?_ _ (fun t y ht => ?_)
    | with_reducible refine Keeps.foldl2 ?_ _ (fun t y ht => ?_) | split | unfold x | dsimp only | with_reducible refine Keeps.upd ?_

theorem execHostAccessInRecess_keeps (hm : Sub 23818 pm) (hk : Keeps pm sk s) (req : Nat) (addr : Nat) (write : Bool) (val : Word) : OutKeeps pm sk (execHostAccessInRecess req addr write val s) := by
  unfold execHostAccessInRecess
  repeat' first
    | with_reducible assumption | with_reducible apply OutKeeps.next | with_reducible apply State.recessAccess_keeps (hm.of rfl) | split
    | dsimp only

theorem execAutoCfgWrite_keeps (hm : Sub 23818 pm) (hk : Keeps pm sk s) (val : Word) : OutKeeps pm sk (execAutoCfgWrite val s) := by
  unfold execAutoCfgWrite
  repeat' first
    | with_reducible assumption | refine fun t (ht : Keeps pm sk t) => ?_ | refine fun _ t (ht : Keeps pm sk t) => ?_
    | ((try lift_lets); intro x; refine Keeps.cut (pm := pm) (sk := sk) (x := x) ?_ (fun hx => ?_); rotate_left; clear_value x; rotate_right)
    | ((try lift_lets); intro x; clear_value x) | with_reducible apply OutKeeps.next
    | with_reducible apply State.hostWrite_keeps (hm.of rfl) | with_reducible apply State.writeMasked_keeps (hm.of rfl) | unfold x
    | dsimp only | with_reducible refine Keeps.upd ?_

theorem State.fieldRequest_keeps (hm : Sub 23810 pm) (hk : Keeps pm sk s) (target : Nat) : Keeps pm sk (State.fieldRequest s target) := by
  unfold State.fieldRequest
  repeat' first
    | with_reducible assumption | with_reducible apply State.pend_keeps (hm.of rfl) | with_reducible apply State.setCtl_keeps (hm.of rfl)
    | split | dsimp only | with_reducible refine Keeps.upd ?_

theorem State.hostGone_keeps (hm : Sub 23810 pm) (hk : Keeps pm sk s) : Keeps pm sk (State.hostGone s) := by
  unfold State.hostGone
  repeat' first
    | with_reducible assumption
    | ((try lift_lets); intro x; refine Keeps.cut (pm := pm) (sk := sk) (x := x) ?_ (fun hx => ?_); rotate_left; clear_value x; rotate_right)
    | ((try lift_lets); intro x; clear_value x) | with_reducible apply State.fieldRequest_keeps (hm.of rfl)
    | with_reducible apply State.pend_keeps (hm.of rfl) | with_reducible apply State.setCtl_keeps (hm.of rfl) | split | unfold x
    | dsimp only | with_reducible refine Keeps.upd ?_

theorem State.dmaTasksFail_keeps (hm : Sub 220162 pm) (hk : Keeps pm sk s) : Keeps pm sk (State.dmaTasksFail s) := by
  unfold State.dmaTasksFail
  repeat' first
    | with_reducible assumption | refine fun t (ht : Keeps pm sk t) => ?_ | refine fun _ t (ht : Keeps pm sk t) => ?_
    | with_reducible apply State.setTask_keeps (hm.of rfl) | with_reducible apply State.settle_keeps (hm.of rfl)
    | with_reducible refine Keeps.foldl ?_ _ (fun t y ht => ?_) | with_reducible refine Keeps.foldl2 ?_ _ (fun t y ht => ?_) | dsimp only
    | with_reducible refine Keeps.upd ?_

theorem execFieldSatchelLoss_keeps (hm : Sub 268435351 pm) (hk : Keeps pm sk s) : OutKeeps pm sk (execFieldSatchelLoss s) := by
  unfold execFieldSatchelLoss
  repeat' first
    | with_reducible assumption
    | ((try lift_lets); intro x; refine Keeps.cut (pm := pm) (sk := sk) (x := x) ?_ (fun hx => ?_); rotate_left; clear_value x; rotate_right)
    | ((try lift_lets); intro x; clear_value x) | with_reducible apply OutKeeps.next
    | with_reducible apply State.dmaTasksFail_keeps (hm.of rfl) | with_reducible apply State.hostGone_keeps (hm.of rfl)
    | with_reducible apply State.hostStale_keeps (hm.of rfl) | with_reducible apply State.incSat_keeps (hm.of rfl)
    | with_reducible apply State.occur_keeps (hm.of rfl) | split | unfold x | dsimp only | with_reducible refine Keeps.upd ?_

theorem State.eraseRegs_keeps (hm : Sub 194 pm) (hk : Keeps pm sk s) (host part : Bool) : Keeps pm sk (s.eraseRegs host part) :=
  Keeps.upd (Keeps.filterRegs (hm.of rfl) hk _)

theorem State.fieldState_keeps (hm : Sub 23810 pm) (hk : Keeps pm sk s) (v : Nat) : Keeps pm sk (State.fieldState s v) := by
  unfold State.fieldState
  repeat' first
    | with_reducible assumption
    | ((try lift_lets); intro x; refine Keeps.cut (pm := pm) (sk := sk) (x := x) ?_ (fun hx => ?_); rotate_left; clear_value x; rotate_right)
    | ((try lift_lets); intro x; clear_value x) | with_reducible apply State.occur_keeps (hm.of rfl)
    | with_reducible apply State.setCtl_keeps (hm.of rfl) | split | unfold x | dsimp only | with_reducible refine Keeps.upd ?_

theorem State.fieldErase_keeps (hm : Sub 1073733574 pm) (hk : Keeps pm sk s) (part : Bool) : Keeps pm sk (s.fieldErase part) := by
  unfold State.fieldErase
  have h := State.eraseRegs_keeps (hm.of rfl) hk false part
  generalize s.eraseRegs false part = t at h ⊢
  dsimp only
  split
  · have h' := State.setB_keeps (hm.of rfl) (State.setB_keeps (hm.of rfl) h (timBase + 0x40) 0 true) (timBase + 0x10) 0 true
    exact Keeps.updMem h' rfl
  · exact Keeps.updMem h rfl

theorem State.fieldDown_keeps (hm : Sub 23810 pm) (hk : Keeps pm sk s) : Keeps pm sk (State.fieldDown s) := by
  unfold State.fieldDown
  repeat' first
    | with_reducible assumption | with_reducible apply State.fieldState_keeps (hm.of rfl) | split | dsimp only

theorem State.fieldHold_keeps (hm : Sub 1073733574 pm) (hk : Keeps pm sk s) : Keeps pm sk (State.fieldHold s) := by
  unfold State.fieldHold
  repeat' first
    | with_reducible assumption
    | ((try lift_lets); intro x; refine Keeps.cut (pm := pm) (sk := sk) (x := x) ?_ (fun hx => ?_); rotate_left; clear_value x; rotate_right)
    | ((try lift_lets); intro x; clear_value x) | with_reducible apply State.fieldDown_keeps (hm.of rfl)
    | with_reducible apply State.fieldErase_keeps (hm.of rfl) | split | unfold x | dsimp only

theorem State.dmaForget_keeps (hm : Sub 220178 pm) (hk : Keeps pm sk s) : Keeps pm sk (State.dmaForget s) := by
  unfold State.dmaForget
  repeat' first
    | with_reducible assumption | refine fun t (ht : Keeps pm sk t) => ?_ | refine fun _ t (ht : Keeps pm sk t) => ?_
    | with_reducible apply State.endRun_keeps (hm.of rfl) | with_reducible apply State.withdraw_keeps (hm.of rfl)
    | with_reducible refine Keeps.foldl ?_ _ (fun t y ht => ?_) | with_reducible refine Keeps.foldl2 ?_ _ (fun t y ht => ?_) | split
    | dsimp only

theorem State.hostErase_keeps (hm : Sub 67370450 pm) (hk : Keeps pm sk s) (part : Bool) : Keeps pm sk (State.hostErase s part) := by
  unfold State.hostErase
  repeat' first
    | with_reducible assumption | refine fun t (ht : Keeps pm sk t) => ?_ | refine fun _ t (ht : Keeps pm sk t) => ?_
    | ((try lift_lets); intro x; refine Keeps.cut (pm := pm) (sk := sk) (x := x) ?_ (fun hx => ?_); rotate_left; clear_value x; rotate_right)
    | ((try lift_lets); intro x; refine Keeps.cut2 (pm := pm) (sk := sk) (x := x) ?_ (fun hx => ?_); rotate_left; clear_value x; rotate_right)
    | ((try lift_lets); intro x; refine Keeps.cut3 (pm := pm) (sk := sk) (x := x) ?_ (fun hx => ?_); rotate_left; clear_value x; rotate_right)
    | ((try lift_lets); intro x; clear_value x) | with_reducible apply State.dmaForget_keeps (hm.of rfl)
    | with_reducible apply State.eraseRegs_keeps (hm.of rfl) | unfold x | dsimp only | with_reducible refine Keeps.upd ?_

theorem State.enablePages_keeps (hm : Sub 2 pm) (hk : Keeps pm sk s) (host : Bool) : Keeps pm sk (State.enablePages s host) := by
  unfold State.enablePages
  repeat' first
    | with_reducible assumption | refine fun t (ht : Keeps pm sk t) => ?_ | refine fun _ t (ht : Keeps pm sk t) => ?_
    | ((try lift_lets); intro x; refine Keeps.cut (pm := pm) (sk := sk) (x := x) ?_ (fun hx => ?_); rotate_left; clear_value x; rotate_right)
    | ((try lift_lets); intro x; clear_value x) | with_reducible apply State.setB_keeps (hm.of rfl)
    | with_reducible refine Keeps.foldl ?_ _ (fun t y ht => ?_) | with_reducible refine Keeps.foldl2 ?_ _ (fun t y ht => ?_) | split
    | unfold x | dsimp only

theorem State.detain_keeps (hm : Sub 1073733574 pm) (hk : Keeps pm sk s) (cause : Nat) : Keeps pm sk (State.detain s cause) := by
  unfold State.detain
  repeat' first
    | with_reducible assumption
    | ((try lift_lets); intro x; refine Keeps.cut (pm := pm) (sk := sk) (x := x) ?_ (fun hx => ?_); rotate_left; clear_value x; rotate_right)
    | ((try lift_lets); intro x; clear_value x) | with_reducible apply State.fieldErase_keeps (hm.of rfl)
    | with_reducible apply State.occur_keeps (hm.of rfl) | with_reducible apply State.setCtl_keeps (hm.of rfl)
    | with_reducible apply State.setF_keeps (hm.of rfl) | unfold x | dsimp only | with_reducible refine Keeps.upd ?_

theorem State.fieldStart_keeps (hm : Sub 23810 pm) (hk : Keeps pm sk s) (byHost : Bool) : Keeps pm sk (State.fieldStart s byHost) := by
  unfold State.fieldStart
  repeat' first
    | with_reducible assumption
    | ((try lift_lets); intro x; refine Keeps.cut (pm := pm) (sk := sk) (x := x) ?_ (fun hx => ?_); rotate_left; clear_value x; rotate_right)
    | ((try lift_lets); intro x; clear_value x) | with_reducible apply State.fieldState_keeps (hm.of rfl)
    | with_reducible apply State.setCtl_keeps (hm.of rfl) | with_reducible apply State.setF_keeps (hm.of rfl) | split | unfold x
    | dsimp only | with_reducible refine Keeps.upd ?_

theorem State.hostBoot_keeps (hm : Sub 1073733575 pm) (hk : Keeps pm sk s) (bankA : ImagePair) (bankB : ImagePair) : Keeps pm sk (State.hostBoot s bankA bankB) := by
  unfold State.hostBoot
  repeat' first
    | with_reducible assumption
    | ((try lift_lets); intro x; refine Keeps.cut (pm := pm) (sk := sk) (x := x) ?_ (fun hx => ?_); rotate_left; clear_value x; rotate_right)
    | ((try lift_lets); intro x; clear_value x) | with_reducible apply State.detain_keeps (hm.of rfl)
    | with_reducible apply State.enablePages_keeps (hm.of rfl) | with_reducible apply State.fieldDown_keeps (hm.of rfl)
    | with_reducible apply State.fieldStart_keeps (hm.of rfl) | with_reducible apply State.linkInit_keeps (hm.of rfl)
    | with_reducible apply State.occur_keeps (hm.of rfl) | with_reducible apply State.setCtl_keeps (hm.of rfl)
    | with_reducible apply State.setReg_keeps (hm.of rfl) | split | unfold x | dsimp only | with_reducible refine Keeps.upd ?_

theorem execHostResetRelease_keeps (hm : Sub 1073733575 pm) (hk : Keeps pm sk s) (bankA : ImagePair) (bankB : ImagePair) : OutKeeps pm sk (execHostResetRelease bankA bankB s) := by
  unfold execHostResetRelease
  repeat' first
    | with_reducible assumption | with_reducible apply OutKeeps.next | with_reducible apply State.hostBoot_keeps (hm.of rfl)
    | with_reducible apply State.setCtl_keeps (hm.of rfl) | split | dsimp only | with_reducible refine Keeps.upd ?_

theorem State.resetCtrl_keeps (hm : Sub 23818 pm) (hk : Keeps pm sk s) (key bits : Nat) (k : State → State)
    (h : ∀ t, Keeps pm sk t → Keeps pm sk (k t)) : Keeps pm sk (s.resetCtrl key bits k) := by
  refine State.hostWrite_keeps (hm.of rfl) hk _ _ _ _ fun t ht => ?_
  split
  · exact h t ht
  · exact ht

theorem State.partReset_keeps (hm : Sub 1073741783 pm) (hk : Keeps pm sk s) (bankA : ImagePair) (bankB : ImagePair) : Keeps pm sk (State.partReset s bankA bankB) := by
  unfold State.partReset
  repeat' first
    | with_reducible assumption
    | ((try lift_lets); intro x; refine Keeps.cut (pm := pm) (sk := sk) (x := x) ?_ (fun hx => ?_); rotate_left; clear_value x; rotate_right)
    | ((try lift_lets); intro x; clear_value x) | with_reducible apply State.fieldErase_keeps (hm.of rfl)
    | with_reducible apply State.hostBoot_keeps (hm.of rfl) | with_reducible apply State.hostErase_keeps (hm.of rfl)
    | with_reducible apply State.setCtl_keeps (hm.of rfl) | unfold x | dsimp only | with_reducible refine Keeps.upd ?_

theorem execResetCtrlPart_keeps (hm : Sub 1073741791 pm) (hk : Keeps pm sk s) (key : Nat) (bankA : ImagePair) (bankB : ImagePair) : OutKeeps pm sk (execResetCtrlPart key bankA bankB s) := by
  unfold execResetCtrlPart
  repeat' first
    | with_reducible assumption | refine fun t (ht : Keeps pm sk t) => ?_ | refine fun _ t (ht : Keeps pm sk t) => ?_
    | with_reducible apply OutKeeps.next | with_reducible apply State.partReset_keeps (hm.of rfl)
    | with_reducible apply State.resetCtrl_keeps (hm.of rfl) | dsimp only

theorem execResetCtrlBankSwitch_keeps (hm : Sub 1073741791 pm) (hk : Keeps pm sk s) (key : Nat) (bankA : ImagePair) (bankB : ImagePair) : OutKeeps pm sk (execResetCtrlBankSwitch key bankA bankB s) := by
  unfold execResetCtrlBankSwitch
  repeat' first
    | with_reducible assumption | refine fun t (ht : Keeps pm sk t) => ?_ | refine fun _ t (ht : Keeps pm sk t) => ?_
    | with_reducible apply OutKeeps.next | with_reducible apply State.partReset_keeps (hm.of rfl)
    | with_reducible apply State.resetCtrl_keeps (hm.of rfl) | with_reducible apply State.setCtl_keeps (hm.of rfl) | dsimp only
    | with_reducible refine Keeps.upd ?_

theorem execResetCtrlField_keeps (hm : Sub 1073733582 pm) (hk : Keeps pm sk s) (key : Nat) : OutKeeps pm sk (execResetCtrlField key s) := by
  unfold execResetCtrlField
  repeat' first
    | with_reducible assumption | refine fun t (ht : Keeps pm sk t) => ?_ | refine fun _ t (ht : Keeps pm sk t) => ?_
    | with_reducible apply OutKeeps.next | with_reducible apply State.fieldHold_keeps (hm.of rfl)
    | with_reducible apply State.fieldStart_keeps (hm.of rfl) | with_reducible apply State.resetCtrl_keeps (hm.of rfl) | dsimp only

theorem State.hostHold_keeps (hm : Sub 67370450 pm) (hk : Keeps pm sk s) : Keeps pm sk (State.hostHold s) := by
  unfold State.hostHold
  repeat' first
    | with_reducible assumption | with_reducible apply State.hostErase_keeps (hm.of rfl) | dsimp only

theorem execPowerGoodFall_keeps (hm : Sub 1073741782 pm) (hk : Keeps pm sk s) (field : Bool) : OutKeeps pm sk (execPowerGoodFall field s) := by
  unfold execPowerGoodFall
  repeat' first
    | with_reducible assumption
    | ((try lift_lets); intro x; refine Keeps.cut (pm := pm) (sk := sk) (x := x) ?_ (fun hx => ?_); rotate_left; clear_value x; rotate_right)
    | ((try lift_lets); intro x; clear_value x) | with_reducible apply OutKeeps.next
    | with_reducible apply State.fieldHold_keeps (hm.of rfl) | with_reducible apply State.hostHold_keeps (hm.of rfl)
    | with_reducible apply State.setCtl_keeps (hm.of rfl) | split | unfold x | dsimp only | with_reducible refine Keeps.upd ?_

theorem execPowerGoodRise_keeps (hm : Sub 256 pm) (hk : Keeps pm sk s) (field : Bool) : OutKeeps pm sk (execPowerGoodRise field s) := by
  unfold execPowerGoodRise
  repeat' first
    | with_reducible assumption | with_reducible apply OutKeeps.next | with_reducible apply State.setCtl_keeps (hm.of rfl) | split
    | dsimp only | with_reducible refine Keeps.upd ?_

theorem execResetNAssert_keeps (hm : Sub 1073741782 pm) (hk : Keeps pm sk s) (field : Bool) : OutKeeps pm sk (execResetNAssert field s) := by
  unfold execResetNAssert
  repeat' first
    | with_reducible assumption | with_reducible apply OutKeeps.next | with_reducible apply State.fieldHold_keeps (hm.of rfl)
    | with_reducible apply State.hostHold_keeps (hm.of rfl) | with_reducible apply State.setCtl_keeps (hm.of rfl) | split | dsimp only
    | with_reducible refine Keeps.upd ?_

theorem execFieldResetRelease_keeps (hm : Sub 23810 pm) (hk : Keeps pm sk s) : OutKeeps pm sk (execFieldResetRelease s) := by
  unfold execFieldResetRelease
  repeat' first
    | with_reducible assumption | with_reducible apply OutKeeps.next | with_reducible apply State.fieldStart_keeps (hm.of rfl)
    | with_reducible apply State.setCtl_keeps (hm.of rfl) | split | dsimp only | with_reducible refine Keeps.upd ?_

theorem execSupplyLoss_keeps (hm : Sub 1073741782 pm) (hk : Keeps pm sk s) (field : Bool) : OutKeeps pm sk (execSupplyLoss field s) := by
  unfold execSupplyLoss
  repeat' first
    | with_reducible assumption
    | ((try lift_lets); intro x; refine Keeps.cut (pm := pm) (sk := sk) (x := x) ?_ (fun hx => ?_); rotate_left; clear_value x; rotate_right)
    | ((try lift_lets); intro x; clear_value x) | with_reducible apply OutKeeps.next
    | with_reducible apply State.fieldErase_keeps (hm.of rfl) | with_reducible apply State.fieldState_keeps (hm.of rfl)
    | with_reducible apply State.hostErase_keeps (hm.of rfl) | with_reducible apply State.setB_keeps (hm.of rfl)
    | with_reducible apply State.setCtl_keeps (hm.of rfl) | split | unfold x | dsimp only | with_reducible refine Keeps.upd ?_

theorem execSupplyReturn_keeps (hm : Sub 4218114 pm) (hk : Keeps pm sk s) (field : Bool) : OutKeeps pm sk (execSupplyReturn field s) := by
  unfold execSupplyReturn
  repeat' first
    | with_reducible assumption
    | ((try lift_lets); intro x; refine Keeps.cut (pm := pm) (sk := sk) (x := x) ?_ (fun hx => ?_); rotate_left; clear_value x; rotate_right)
    | ((try lift_lets); intro x; clear_value x) | with_reducible apply OutKeeps.next
    | with_reducible apply State.fieldState_keeps (hm.of rfl) | with_reducible apply State.setCtl_keeps (hm.of rfl) | split | unfold x
    | dsimp only | with_reducible refine Keeps.upd ?_

theorem State.hostRebase_keeps (hm : Sub 67145728 pm) (hk : Keeps pm sk s) : Keeps pm sk (State.hostRebase s) := by
  unfold State.hostRebase
  repeat' first
    | with_reducible assumption | refine fun t (ht : Keeps pm sk t) => ?_ | refine fun _ t (ht : Keeps pm sk t) => ?_
    | ((try lift_lets); intro x; refine Keeps.cut (pm := pm) (sk := sk) (x := x) ?_ (fun hx => ?_); rotate_left; clear_value x; rotate_right)
    | ((try lift_lets); intro x; refine Keeps.cut2 (pm := pm) (sk := sk) (x := x) ?_ (fun hx => ?_); rotate_left; clear_value x; rotate_right)
    | ((try lift_lets); intro x; refine Keeps.cut3 (pm := pm) (sk := sk) (x := x) ?_ (fun hx => ?_); rotate_left; clear_value x; rotate_right)
    | ((try lift_lets); intro x; clear_value x) | with_reducible apply State.setLane_keeps (hm.of rfl)
    | with_reducible apply State.setLink_keeps (hm.of rfl) | with_reducible refine Keeps.foldl ?_ _ (fun t y ht => ?_)
    | with_reducible refine Keeps.foldl2 ?_ _ (fun t y ht => ?_) | unfold x | dsimp only | with_reducible refine Keeps.upd ?_

theorem execFieldPllLocked_keeps (hm : Sub 239132467 pm) (hk : Keeps pm sk s) : OutKeeps pm sk (execFieldPllLocked s) := by
  unfold execFieldPllLocked
  repeat' first
    | with_reducible assumption | refine fun t (ht : Keeps pm sk t) => ?_ | refine fun _ t (ht : Keeps pm sk t) => ?_
    | ((try lift_lets); intro x; refine Keeps.cut (pm := pm) (sk := sk) (x := x) ?_ (fun hx => ?_); rotate_left; clear_value x; rotate_right)
    | ((try lift_lets); intro x; refine Keeps.cut2 (pm := pm) (sk := sk) (x := x) ?_ (fun hx => ?_); rotate_left; clear_value x; rotate_right)
    | ((try lift_lets); intro x; refine Keeps.cut3 (pm := pm) (sk := sk) (x := x) ?_ (fun hx => ?_); rotate_left; clear_value x; rotate_right)
    | ((try lift_lets); intro x; clear_value x) | with_reducible apply OutKeeps.next
    | with_reducible apply State.freshNat_keeps (hm.of rfl) | with_reducible apply State.hostRebase_keeps (hm.of rfl)
    | with_reducible apply State.linkInit_keeps (hm.of rfl) | with_reducible apply State.setCtl_keeps (hm.of rfl) | split | unfold x
    | dsimp only | with_reducible refine Keeps.upd ?_

theorem execFmiReceived_keeps (hm : Sub 1073733575 pm) (hk : Keeps pm sk s) (accepted : Bool) : OutKeeps pm sk (execFmiReceived accepted s) := by
  unfold execFmiReceived
  repeat' first
    | with_reducible assumption | refine fun t (ht : Keeps pm sk t) => ?_ | refine fun _ t (ht : Keeps pm sk t) => ?_
    | ((try lift_lets); intro x; refine Keeps.cut (pm := pm) (sk := sk) (x := x) ?_ (fun hx => ?_); rotate_left; clear_value x; rotate_right)
    | ((try lift_lets); intro x; clear_value x) | with_reducible apply OutKeeps.next
    | with_reducible apply State.detain_keeps (hm.of rfl) | with_reducible apply State.ringLanesInit_keeps (hm.of rfl)
    | with_reducible apply State.setCelState_keeps (hm.of rfl) | with_reducible apply State.setCtl_keeps (hm.of rfl)
    | with_reducible apply State.setReg_keeps (hm.of rfl) | with_reducible refine Keeps.foldl ?_ _ (fun t y ht => ?_)
    | with_reducible refine Keeps.foldl2 ?_ _ (fun t y ht => ?_) | split | unfold x | dsimp only | with_reducible refine Keeps.upd ?_

theorem State.setPrune_keeps (hm : Sub 32768 pm) (hk : Keeps pm sk s) (p : Prune) : Keeps pm sk (State.setPrune s p) := by
  unfold State.setPrune
  repeat' first
    | with_reducible assumption | dsimp only | with_reducible refine Keeps.upd ?_

theorem State.shedOne_keeps (hm : Sub 21191954 pm) (hk : Keeps pm sk s) : Keeps pm sk (State.shedOne s) := by
  unfold State.shedOne
  repeat' first
    | with_reducible assumption
    | ((try lift_lets); intro x; refine Keeps.cut (pm := pm) (sk := sk) (x := x) ?_ (fun hx => ?_); rotate_left; clear_value x; rotate_right)
    | ((try lift_lets); intro x; clear_value x) | with_reducible apply State.calAbort_keeps (hm.of rfl)
    | with_reducible apply State.modeDeny_keeps (hm.of rfl) | with_reducible apply State.pend_keeps (hm.of rfl)
    | with_reducible apply State.setCtl_keeps (hm.of rfl) | split | unfold x | dsimp only | with_reducible refine Keeps.upd ?_

theorem State.shedTwo_keeps (hm : Sub 268435351 pm) (hk : Keeps pm sk s) : Keeps pm sk (State.shedTwo s) := by
  unfold State.shedTwo
  repeat' first
    | with_reducible assumption | refine fun t (ht : Keeps pm sk t) => ?_ | refine fun _ t (ht : Keeps pm sk t) => ?_
    | ((try lift_lets); intro x; refine Keeps.cut (pm := pm) (sk := sk) (x := x) ?_ (fun hx => ?_); rotate_left; clear_value x; rotate_right)
    | ((try lift_lets); intro x; clear_value x) | with_reducible apply State.captureStop_keeps (hm.of rfl)
    | with_reducible apply State.seqShed_keeps (hm.of rfl) | with_reducible apply State.setCtl_keeps (hm.of rfl)
    | with_reducible apply State.traceStop_keeps (hm.of rfl) | with_reducible refine Keeps.foldl ?_ _ (fun t y ht => ?_)
    | with_reducible refine Keeps.foldl2 ?_ _ (fun t y ht => ?_) | split | unfold x | dsimp only | with_reducible refine Keeps.upd ?_

theorem State.shedThree_keeps (hm : Sub 248479511 pm) (hk : Keeps pm sk s) : Keeps pm sk (State.shedThree s) := by
  unfold State.shedThree
  repeat' first
    | with_reducible assumption | refine fun t (ht : Keeps pm sk t) => ?_ | refine fun _ t (ht : Keeps pm sk t) => ?_
    | ((try lift_lets); intro x; refine Keeps.cut (pm := pm) (sk := sk) (x := x) ?_ (fun hx => ?_); rotate_left; clear_value x; rotate_right)
    | ((try lift_lets); intro x; clear_value x) | with_reducible apply State.chkAbort_keeps (hm.of rfl)
    | with_reducible apply State.dmaAbortForbidden_keeps (hm.of rfl) | with_reducible apply State.lanesSleep_keeps (hm.of rfl)
    | with_reducible apply State.pecAbort_keeps (hm.of rfl) | with_reducible apply State.selfRefreshAll_keeps (hm.of rfl)
    | with_reducible apply State.sendState_keeps (hm.of rfl) | with_reducible apply State.setCtl_keeps (hm.of rfl)
    | with_reducible apply State.tdcAbort_keeps (hm.of rfl) | with_reducible refine Keeps.foldl ?_ _ (fun t y ht => ?_)
    | with_reducible refine Keeps.foldl2 ?_ _ (fun t y ht => ?_) | split | unfold x | dsimp only | with_reducible refine Keeps.upd ?_

theorem State.decClear_keeps (hm : Sub 524288 pm) (hk : Keeps pm sk s) : Keeps pm sk (State.decClear s) := by
  unfold State.decClear
  repeat' first
    | with_reducible assumption | refine fun t (ht : Keeps pm sk t) => ?_ | refine fun _ t (ht : Keeps pm sk t) => ?_
    | with_reducible apply State.setSlice_keeps (hm.of rfl) | with_reducible refine Keeps.foldl ?_ _ (fun t y ht => ?_)
    | with_reducible refine Keeps.foldl2 ?_ _ (fun t y ht => ?_) | dsimp only | with_reducible refine Keeps.upd ?_

theorem State.shedFour_keeps (hm : Sub 3922962 pm) (hk : Keeps pm sk s) : Keeps pm sk (State.shedFour s) := by
  unfold State.shedFour
  repeat' first
    | with_reducible assumption | refine fun t (ht : Keeps pm sk t) => ?_ | refine fun _ t (ht : Keeps pm sk t) => ?_
    | ((try lift_lets); intro x; refine Keeps.cut (pm := pm) (sk := sk) (x := x) ?_ (fun hx => ?_); rotate_left; clear_value x; rotate_right)
    | ((try lift_lets); intro x; clear_value x) | with_reducible apply State.burReset_keeps (hm.of rfl)
    | with_reducible apply State.cardsClear_keeps (hm.of rfl) | with_reducible apply State.cmpClear_keeps (hm.of rfl)
    | with_reducible apply State.corStop_keeps (hm.of rfl) | with_reducible apply State.decClear_keeps (hm.of rfl)
    | with_reducible apply State.flowClear_keeps (hm.of rfl) | with_reducible apply State.galLost_keeps (hm.of rfl)
    | with_reducible apply State.queuesClear_keeps (hm.of rfl) | with_reducible apply State.sigClear_keeps (hm.of rfl)
    | with_reducible apply State.slotsClear_keeps (hm.of rfl) | with_reducible refine Keeps.foldl ?_ _ (fun t y ht => ?_)
    | with_reducible refine Keeps.foldl2 ?_ _ (fun t y ht => ?_) | unfold x | dsimp only

theorem State.shed_keeps (hm : Sub 268435351 pm) (hk : Keeps pm sk s) (k : Nat) (n : Nat) : Keeps pm sk (State.shed s k n) := by
  unfold State.shed
  repeat' first
    | with_reducible assumption
    | ((try lift_lets); intro x; refine Keeps.cut (pm := pm) (sk := sk) (x := x) ?_ (fun hx => ?_); rotate_left; clear_value x; rotate_right)
    | ((try lift_lets); intro x; clear_value x) | with_reducible apply State.shedFour_keeps (hm.of rfl)
    | with_reducible apply State.shedOne_keeps (hm.of rfl) | with_reducible apply State.shedThree_keeps (hm.of rfl)
    | with_reducible apply State.shedTwo_keeps (hm.of rfl) | split | unfold x | dsimp only

theorem State.climbed_keeps (hm : Sub 256 pm) (hk : Keeps pm sk s) (k : Nat) (n : Nat) : Keeps pm sk (State.climbed s k n) := by
  unfold State.climbed
  repeat' first
    | with_reducible assumption
    | ((try lift_lets); intro x; refine Keeps.cut (pm := pm) (sk := sk) (x := x) ?_ (fun hx => ?_); rotate_left; clear_value x; rotate_right)
    | ((try lift_lets); intro x; clear_value x) | with_reducible apply State.setCtl_keeps (hm.of rfl)
    | with_reducible apply State.wake_keeps (hm.of rfl) | split | unfold x | dsimp only | with_reducible refine Keeps.upd ?_

theorem State.setStage_keeps (hm : Sub 268435351 pm) (hk : Keeps pm sk s) (n : Nat) : Keeps pm sk (State.setStage s n) := by
  unfold State.setStage
  repeat' first
    | with_reducible assumption
    | ((try lift_lets); intro x; refine Keeps.cut (pm := pm) (sk := sk) (x := x) ?_ (fun hx => ?_); rotate_left; clear_value x; rotate_right)
    | ((try lift_lets); intro x; clear_value x) | with_reducible apply State.climbed_keeps (hm.of rfl)
    | with_reducible apply State.fcResume_keeps (hm.of rfl) | with_reducible apply State.incSat_keeps (hm.of rfl)
    | with_reducible apply State.occur_keeps (hm.of rfl) | with_reducible apply State.pinsMove_keeps (hm.of rfl)
    | with_reducible apply State.setPrune_keeps (hm.of rfl) | with_reducible apply State.shed_keeps (hm.of rfl) | split | unfold x
    | dsimp only | with_reducible refine Keeps.upd ?_

theorem State.climbCount_keeps (hm : Sub 32768 pm) (hk : Keeps pm sk s) (mv : Nat) : Keeps pm sk (State.climbCount s mv) := by
  unfold State.climbCount
  repeat' first
    | with_reducible assumption
    | ((try lift_lets); intro x; refine Keeps.cut (pm := pm) (sk := sk) (x := x) ?_ (fun hx => ?_); rotate_left; clear_value x; rotate_right)
    | ((try lift_lets); intro x; clear_value x) | with_reducible apply State.setPrune_keeps (hm.of rfl) | split | unfold x | dsimp only
    | with_reducible refine Keeps.upd ?_

theorem State.pruneStat_keeps (hm : Sub 2 pm) (hk : Keeps pm sk s) : Keeps pm sk (State.pruneStat s) := by
  unfold State.pruneStat
  repeat' first
    | with_reducible assumption | with_reducible apply State.setF_keeps (hm.of rfl) | dsimp only

theorem execAlwaysOnTick_keeps (hm : Sub 1073741815 pm) (hk : Keeps pm sk s) (senseMv : Nat) (rails : Nat) : OutKeeps pm sk (execAlwaysOnTick senseMv rails s) := by
  unfold execAlwaysOnTick
  repeat' first
    | with_reducible assumption | refine fun t (ht : Keeps pm sk t) => ?_ | refine fun _ t (ht : Keeps pm sk t) => ?_
    | ((try lift_lets); intro x; refine Keeps.cut (pm := pm) (sk := sk) (x := x) ?_ (fun hx => ?_); rotate_left; clear_value x; rotate_right)
    | ((try lift_lets); intro x; refine Keeps.cut2 (pm := pm) (sk := sk) (x := x) ?_ (fun hx => ?_); rotate_left; clear_value x; rotate_right)
    | ((try lift_lets); intro x; refine Keeps.cut3 (pm := pm) (sk := sk) (x := x) ?_ (fun hx => ?_); rotate_left; clear_value x; rotate_right)
    | ((try lift_lets); intro x; clear_value x) | with_reducible apply OutKeeps.next
    | with_reducible apply State.climbCount_keeps (hm.of rfl) | with_reducible apply State.fieldHold_keeps (hm.of rfl)
    | with_reducible apply State.pruneStat_keeps (hm.of rfl) | with_reducible apply State.setCtl_keeps (hm.of rfl)
    | with_reducible apply State.setF_keeps (hm.of rfl) | with_reducible apply State.setLive_keeps (hm.of rfl)
    | with_reducible apply State.setPrune_keeps (hm.of rfl) | with_reducible apply State.setReg_keeps (hm.of rfl)
    | with_reducible apply State.setStage_keeps (hm.of rfl) | with_reducible apply State.toGrid_keeps (hm.of rfl) | split | unfold x
    | dsimp only | with_reducible refine Keeps.upd ?_

theorem execPruneClimbTimer_keeps (hm : Sub 268435351 pm) (hk : Keeps pm sk s) : OutKeeps pm sk (execPruneClimbTimer s) := by
  unfold execPruneClimbTimer
  repeat' first
    | with_reducible assumption
    | ((try lift_lets); intro x; refine Keeps.cut (pm := pm) (sk := sk) (x := x) ?_ (fun hx => ?_); rotate_left; clear_value x; rotate_right)
    | ((try lift_lets); intro x; clear_value x) | with_reducible apply OutKeeps.next
    | with_reducible apply State.climbCount_keeps (hm.of rfl) | with_reducible apply State.passTo_keeps (hm.of rfl)
    | with_reducible apply State.pruneStat_keeps (hm.of rfl) | with_reducible apply State.setPrune_keeps (hm.of rfl)
    | with_reducible apply State.setStage_keeps (hm.of rfl) | split | unfold x | dsimp only | with_reducible refine Keeps.upd ?_

theorem State.pruneForce_keeps (hm : Sub 268435351 pm) (hk : Keeps pm sk s) (v : Nat) : Keeps pm sk (State.pruneForce s v) := by
  unfold State.pruneForce
  repeat' first
    | with_reducible assumption
    | ((try lift_lets); intro x; refine Keeps.cut (pm := pm) (sk := sk) (x := x) ?_ (fun hx => ?_); rotate_left; clear_value x; rotate_right)
    | ((try lift_lets); intro x; clear_value x) | with_reducible apply State.climbCount_keeps (hm.of rfl)
    | with_reducible apply State.pruneStat_keeps (hm.of rfl) | with_reducible apply State.setPrune_keeps (hm.of rfl)
    | with_reducible apply State.setReg_keeps (hm.of rfl) | with_reducible apply State.setStage_keeps (hm.of rfl) | split | unfold x
    | dsimp only | with_reducible refine Keeps.upd ?_

theorem execPruneForceWrite_keeps (hm : Sub 268435359 pm) (hk : Keeps pm sk s) (v : Word) : OutKeeps pm sk (execPruneForceWrite v s) := by
  unfold execPruneForceWrite
  repeat' first
    | with_reducible assumption | refine fun t (ht : Keeps pm sk t) => ?_ | refine fun _ t (ht : Keeps pm sk t) => ?_
    | with_reducible apply OutKeeps.next | with_reducible apply State.hostWrite_keeps (hm.of rfl)
    | with_reducible apply State.pruneForce_keeps (hm.of rfl) | dsimp only

theorem execClockRestartDone_keeps (hm : Sub 240049415 pm) (hk : Keeps pm sk s) : OutKeeps pm sk (execClockRestartDone s) := by
  unfold execClockRestartDone
  repeat' first
    | with_reducible assumption
    | ((try lift_lets); intro x; refine Keeps.cut (pm := pm) (sk := sk) (x := x) ?_ (fun hx => ?_); rotate_left; clear_value x; rotate_right)
    | ((try lift_lets); intro x; clear_value x) | with_reducible apply OutKeeps.next
    | with_reducible apply State.climbCount_keeps (hm.of rfl) | with_reducible apply State.clocksStart_keeps (hm.of rfl)
    | with_reducible apply State.passTo_keeps (hm.of rfl) | with_reducible apply State.pruneStat_keeps (hm.of rfl)
    | with_reducible apply State.selfRefreshEnd_keeps (hm.of rfl) | with_reducible apply State.sendState_keeps (hm.of rfl)
    | with_reducible apply State.setCtl_keeps (hm.of rfl) | split | unfold x | dsimp only | with_reducible refine Keeps.upd ?_

theorem execFieldHoldRelease_keeps (hm : Sub 34102531 pm) (hk : Keeps pm sk s) : OutKeeps pm sk (execFieldHoldRelease s) := by
  unfold execFieldHoldRelease
  repeat' first
    | with_reducible assumption
    | ((try lift_lets); intro x; refine Keeps.cut (pm := pm) (sk := sk) (x := x) ?_ (fun hx => ?_); rotate_left; clear_value x; rotate_right)
    | ((try lift_lets); intro x; clear_value x) | with_reducible apply OutKeeps.next
    | with_reducible apply State.fieldStart_keeps (hm.of rfl) | with_reducible apply State.passTo_keeps (hm.of rfl)
    | with_reducible apply State.setCtl_keeps (hm.of rfl) | split | unfold x | dsimp only | with_reducible refine Keeps.upd ?_

theorem execBootComplete_keeps (hm : Sub 268435351 pm) (hk : Keeps pm sk s) (ms : Nat) (meas : List (Nat × List Byte)) : OutKeeps pm sk (execBootComplete ms meas s) := by
  unfold execBootComplete
  repeat' first
    | with_reducible assumption | refine fun t (ht : Keeps pm sk t) => ?_ | refine fun _ t (ht : Keeps pm sk t) => ?_
    | ((try lift_lets); intro x; refine Keeps.cut (pm := pm) (sk := sk) (x := x) ?_ (fun hx => ?_); rotate_left; clear_value x; rotate_right)
    | ((try lift_lets); intro x; clear_value x) | with_reducible apply OutKeeps.next
    | with_reducible apply State.burFill_keeps (hm.of rfl) | with_reducible apply State.burValues_keeps (hm.of rfl)
    | with_reducible apply State.calBoot_keeps (hm.of rfl) | with_reducible apply State.enablePages_keeps (hm.of rfl)
    | with_reducible apply State.fcResume_keeps (hm.of rfl) | with_reducible apply State.fieldState_keeps (hm.of rfl)
    | with_reducible apply State.pinsMove_keeps (hm.of rfl) | with_reducible apply State.portLive_keeps (hm.of rfl)
    | with_reducible apply State.rollStart_keeps (hm.of rfl) | with_reducible apply State.setCtl_keeps (hm.of rfl)
    | with_reducible apply State.setReg_keeps (hm.of rfl) | with_reducible apply State.shed_keeps (hm.of rfl) | split | unfold x
    | dsimp only | with_reducible refine Keeps.upd ?_

theorem execRsPop_keeps (hm : Sub 56586 pm) (hk : Keeps pm sk s) (v : Word) : OutKeeps pm sk (execRsPop v s) := by
  unfold execRsPop
  repeat' first
    | with_reducible assumption | refine fun t (ht : Keeps pm sk t) => ?_ | refine fun _ t (ht : Keeps pm sk t) => ?_
    | with_reducible apply OutKeeps.next | with_reducible apply State.hostWrite_keeps (hm.of rfl)
    | with_reducible apply State.setPrune_keeps (hm.of rfl) | split | dsimp only | with_reducible refine Keeps.upd ?_

theorem State.pwrReset_keeps (hm : Sub 56322 pm) (hk : Keeps pm sk s) : Keeps pm sk (State.pwrReset s) := by
  unfold State.pwrReset
  repeat' first
    | with_reducible assumption | refine fun t (ht : Keeps pm sk t) => ?_ | refine fun _ t (ht : Keeps pm sk t) => ?_
    | ((try lift_lets); intro x; refine Keeps.cut (pm := pm) (sk := sk) (x := x) ?_ (fun hx => ?_); rotate_left; clear_value x; rotate_right)
    | ((try lift_lets); intro x; clear_value x) | with_reducible apply State.resync_keeps (hm.of rfl)
    | with_reducible apply State.setPrune_keeps (hm.of rfl) | with_reducible apply State.setReg_keeps (hm.of rfl)
    | with_reducible refine Keeps.foldl ?_ _ (fun t y ht => ?_) | with_reducible refine Keeps.foldl2 ?_ _ (fun t y ht => ?_) | unfold x
    | dsimp only | with_reducible refine Keeps.upd ?_

theorem State.readNow_keeps (hm : Sub 16 pm) (hk : Keeps pm sk s) (a : Nat) : Keeps pm sk (State.readNow s a).2 := by
  unfold State.readNow
  repeat' first
    | with_reducible assumption
    | ((try lift_lets); intro x; refine Keeps.cut (pm := pm) (sk := sk) (x := x) ?_ (fun hx => ?_); rotate_left; clear_value x; rotate_right)
    | ((try lift_lets); intro x; refine Keeps.cut2 (pm := pm) (sk := sk) (x := x) ?_ (fun hx => ?_); rotate_left; clear_value x; rotate_right)
    | ((try lift_lets); intro x; refine Keeps.cut3 (pm := pm) (sk := sk) (x := x) ?_ (fun hx => ?_); rotate_left; clear_value x; rotate_right)
    | ((try lift_lets); intro x; clear_value x) | with_reducible apply State.freshNat_keeps (hm.of rfl)
    | with_reducible apply State.galWord_keeps (hm.of rfl) | split | unfold x | dsimp only

theorem State.readRc_keeps (hm : Sub 1026 pm) (hk : Keeps pm sk s) (a : Nat) : Keeps pm sk (State.readRc s a).2 := by
  unfold State.readRc
  repeat' first
    | with_reducible assumption | refine fun t (ht : Keeps pm sk t) => ?_ | refine fun _ t (ht : Keeps pm sk t) => ?_
    | with_reducible apply State.setReg_keeps (hm.of rfl) | split | dsimp only | with_reducible refine Keeps.upd ?_

theorem State.readWord_keeps (hm : Sub 1106 pm) (hk : Keeps pm sk s) (req : Nat) (a : Nat) : Keeps pm sk (State.readWord s req a).2 := by
  unfold State.readWord
  repeat' first
    | with_reducible assumption | refine fun t (ht : Keeps pm sk t) => ?_ | refine fun _ t (ht : Keeps pm sk t) => ?_
    | ((try lift_lets); intro x; refine Keeps.cut (pm := pm) (sk := sk) (x := x) ?_ (fun hx => ?_); rotate_left; clear_value x; rotate_right)
    | ((try lift_lets); intro x; refine Keeps.cut2 (pm := pm) (sk := sk) (x := x) ?_ (fun hx => ?_); rotate_left; clear_value x; rotate_right)
    | ((try lift_lets); intro x; refine Keeps.cut3 (pm := pm) (sk := sk) (x := x) ?_ (fun hx => ?_); rotate_left; clear_value x; rotate_right)
    | ((try lift_lets); intro x; clear_value x) | with_reducible apply State.readNow_keeps (hm.of rfl)
    | with_reducible apply State.readRc_keeps (hm.of rfl) | with_reducible apply State.setLatch_keeps (hm.of rfl)
    | with_reducible refine Keeps.foldl ?_ _ (fun t y ht => ?_) | with_reducible refine Keeps.foldl2 ?_ _ (fun t y ht => ?_) | split
    | unfold x | dsimp only

theorem State.hostReadWord_keeps (hm : Sub 23898 pm) (hk : Keeps pm sk s) (req a : Nat) : Keeps pm sk (s.hostReadWord req a) :=
  State.hostRead_keeps (hm.of rfl) hk req a _ fun _ h => State.readWord_keeps (hm.of rfl) h req a

theorem State.ringRestart_keeps (hm : Sub 3431426 pm) (hk : Keeps pm sk s) (r : RecRing) : Keeps pm sk (State.ringRestart s r) := by
  unfold State.ringRestart
  repeat' first
    | with_reducible assumption
    | ((try lift_lets); intro x; refine Keeps.cut (pm := pm) (sk := sk) (x := x) ?_ (fun hx => ?_); rotate_left; clear_value x; rotate_right)
    | ((try lift_lets); intro x; clear_value x) | with_reducible apply State.dlogFull_keeps (hm.of rfl)
    | with_reducible apply State.ringApply_keeps (hm.of rfl) | with_reducible apply State.setFlow_keeps (hm.of rfl) | split | unfold x
    | dsimp only | with_reducible refine Keeps.upd ?_

theorem State.ringSrst_keeps (hm : Sub 3431426 pm) (hk : Keeps pm sk s) (r : RecRing) : Keeps pm sk (State.ringSrst s r) := by
  unfold State.ringSrst
  repeat' first
    | with_reducible assumption | with_reducible apply State.keepForce_keeps (hm.of rfl)
    | with_reducible apply State.ringRestart_keeps (hm.of rfl) | split | dsimp only

theorem State.srstAbort_keeps (hm : Sub 268393619 pm) (hk : Keeps pm sk s) (k : PageKind) (i : Nat) : Keeps pm sk (State.srstAbort s k i) := by
  unfold State.srstAbort
  repeat' first
    | with_reducible assumption | refine fun t (ht : Keeps pm sk t) => ?_ | refine fun _ t (ht : Keeps pm sk t) => ?_
    | with_reducible apply State.calAbort_keeps (hm.of rfl) | with_reducible apply State.chkAbort_keeps (hm.of rfl)
    | with_reducible apply State.flowAbort_keeps (hm.of rfl) | with_reducible apply State.laneReset_keeps (hm.of rfl)
    | with_reducible apply State.pecAbort_keeps (hm.of rfl) | with_reducible apply State.rollBusy_keeps (hm.of rfl)
    | with_reducible apply State.seqAbort_keeps (hm.of rfl) | with_reducible apply State.setRing_keeps (hm.of rfl)
    | with_reducible apply State.tdcAbort_keeps (hm.of rfl) | with_reducible refine Keeps.foldl ?_ _ (fun t y ht => ?_)
    | with_reducible refine Keeps.foldl2 ?_ _ (fun t y ht => ?_) | split | dsimp only | with_reducible refine Keeps.upd ?_

theorem State.srstConfig_keeps (hm : Sub 810002 pm) (hk : Keeps pm sk s) (p : Nat) : Keeps pm sk (State.srstConfig s p) := by
  unfold State.srstConfig
  repeat' first
    | with_reducible assumption | refine fun t (ht : Keeps pm sk t) => ?_ | refine fun _ t (ht : Keeps pm sk t) => ?_
    | with_reducible apply State.configWrite_keeps (hm.of rfl) | with_reducible refine Keeps.foldl ?_ _ (fun t y ht => ?_)
    | with_reducible refine Keeps.foldl2 ?_ _ (fun t y ht => ?_) | dsimp only

theorem State.srstSeq_keeps (hm : Sub 262146 pm) (hk : Keeps pm sk s) (q : Nat) (n : Nat) : Keeps pm sk (State.srstSeq s q n) := by
  unfold State.srstSeq
  repeat' first
    | with_reducible assumption | refine fun t (ht : Keeps pm sk t) => ?_ | refine fun _ t (ht : Keeps pm sk t) => ?_
    | ((try lift_lets); intro x; refine Keeps.cut (pm := pm) (sk := sk) (x := x) ?_ (fun hx => ?_); rotate_left; clear_value x; rotate_right)
    | ((try lift_lets); intro x; clear_value x) | with_reducible apply State.setB_keeps (hm.of rfl)
    | with_reducible apply State.stageSeq_keeps (hm.of rfl) | with_reducible refine Keeps.foldl ?_ _ (fun t y ht => ?_)
    | with_reducible refine Keeps.foldl2 ?_ _ (fun t y ht => ?_) | split | unfold x | dsimp only

theorem State.sliceWrite_keeps (hm : Sub 786434 pm) (hk : Keeps pm sk s) (d : Nat) (v : Word) : Keeps pm sk (State.sliceWrite s d v) := by
  unfold State.sliceWrite
  repeat' first
    | with_reducible assumption
    | ((try lift_lets); intro x; refine Keeps.cut (pm := pm) (sk := sk) (x := x) ?_ (fun hx => ?_); rotate_left; clear_value x; rotate_right)
    | ((try lift_lets); intro x; clear_value x) | with_reducible apply State.dropMoved_keeps (hm.of rfl)
    | with_reducible apply State.stageWord_keeps (hm.of rfl) | split | unfold x | dsimp only

theorem State.underrunClear_keeps (hm : Sub 2 pm) (hk : Keeps pm sk s) (q : Nat) : Keeps pm sk (State.underrunClear s q) := by
  unfold State.underrunClear
  repeat' first
    | with_reducible assumption | with_reducible apply State.clearWords_keeps (hm.of rfl) | dsimp only

theorem State.srstClear_keeps (hm : Sub 805306263 pm) (hk : Keeps pm sk s) (k : PageKind) (i : Nat) : Keeps pm sk (State.srstClear s k i) := by
  unfold State.srstClear
  repeat' first
    | with_reducible assumption | refine fun t (ht : Keeps pm sk t) => ?_ | refine fun _ t (ht : Keeps pm sk t) => ?_
    | ((try lift_lets); intro x; refine Keeps.cut (pm := pm) (sk := sk) (x := x) ?_ (fun hx => ?_); rotate_left; clear_value x; rotate_right)
    | ((try lift_lets); intro x; clear_value x) | with_reducible apply State.abortUnit_keeps (hm.of rfl)
    | with_reducible apply State.bellReset_keeps (hm.of rfl) | with_reducible apply State.budget_keeps (hm.of rfl)
    | with_reducible apply State.burReset_keeps (hm.of rfl) | with_reducible apply State.cardsClear_keeps (hm.of rfl)
    | with_reducible apply State.celReset_keeps (hm.of rfl) | with_reducible apply State.corReset_keeps (hm.of rfl)
    | with_reducible apply State.dlistReset_keeps (hm.of rfl) | with_reducible apply State.dropRetained_keeps (hm.of rfl)
    | with_reducible apply State.fcRestart_keeps (hm.of rfl) | with_reducible apply State.flowClear_keeps (hm.of rfl)
    | with_reducible apply State.heat_keeps (hm.of rfl) | with_reducible apply State.linkReset_keeps (hm.of rfl)
    | with_reducible apply State.pwrReset_keeps (hm.of rfl) | with_reducible apply State.queuesClear_keeps (hm.of rfl)
    | with_reducible apply State.ringReset_keeps (hm.of rfl) | with_reducible apply State.ringSrst_keeps (hm.of rfl)
    | with_reducible apply State.selReset_keeps (hm.of rfl) | with_reducible apply State.setEdges_keeps (hm.of rfl)
    | with_reducible apply State.setReg_keeps (hm.of rfl) | with_reducible apply State.setTime4_keeps (hm.of rfl)
    | with_reducible apply State.setTrace_keeps (hm.of rfl) | with_reducible apply State.slotsReset_keeps (hm.of rfl)
    | with_reducible apply State.underrunClear_keeps (hm.of rfl) | with_reducible refine Keeps.foldl ?_ _ (fun t y ht => ?_)
    | with_reducible refine Keeps.foldl2 ?_ _ (fun t y ht => ?_) | split | unfold x | dsimp only | with_reducible refine Keeps.upd ?_

theorem State.srstApply_keeps (hm : Sub 805306327 pm) (hk : Keeps pm sk s) (k : PageKind) (i : Nat) (p : Nat) : Keeps pm sk (State.srstApply s k i p) := by
  unfold State.srstApply
  repeat' first
    | with_reducible assumption | refine fun t (ht : Keeps pm sk t) => ?_ | refine fun _ t (ht : Keeps pm sk t) => ?_
    | ((try lift_lets); intro x; refine Keeps.cut (pm := pm) (sk := sk) (x := x) ?_ (fun hx => ?_); rotate_left; clear_value x; rotate_right)
    | ((try lift_lets); intro x; clear_value x) | with_reducible apply State.pruneForce_keeps (hm.of rfl)
    | with_reducible apply State.sliceWrite_keeps (hm.of rfl) | with_reducible apply State.softResetOn_keeps (hm.of rfl)
    | with_reducible apply State.srstAbort_keeps (hm.of rfl) | with_reducible apply State.srstClear_keeps (hm.of rfl)
    | with_reducible apply State.srstConfig_keeps (hm.of rfl) | with_reducible apply State.srstSeq_keeps (hm.of rfl) | split | unfold x
    | dsimp only

theorem State.pageSrst_keeps (hm : Sub 805306327 pm) (hk : Keeps pm sk s) (k : PageKind) (i : Nat) (p : Nat) (v : Word) : Keeps pm sk (State.pageSrst s k i p v) := by
  unfold State.pageSrst
  repeat' first
    | with_reducible assumption
    | ((try lift_lets); intro x; refine Keeps.cut (pm := pm) (sk := sk) (x := x) ?_ (fun hx => ?_); rotate_left; clear_value x; rotate_right)
    | ((try lift_lets); intro x; clear_value x) | with_reducible apply State.configWrite_keeps (hm.of rfl)
    | with_reducible apply State.setB_keeps (hm.of rfl) | with_reducible apply State.srstApply_keeps (hm.of rfl) | split | unfold x
    | dsimp only

theorem execPageSrst_keeps (hm : Sub 805306335 pm) (hk : Keeps pm sk s) (req : Nat) (page : Nat) (v : Word) : OutKeeps pm sk (execPageSrst req page v s) := by
  unfold execPageSrst
  repeat' first
    | with_reducible assumption | refine fun t (ht : Keeps pm sk t) => ?_ | refine fun _ t (ht : Keeps pm sk t) => ?_
    | with_reducible apply OutKeeps.next | with_reducible apply State.hostWrite_keeps (hm.of rfl)
    | with_reducible apply State.pageSrst_keeps (hm.of rfl) | split | dsimp only

theorem execPageSrstDone_keeps (hm : Sub 2 pm) (hk : Keeps pm sk s) (page : Nat) : OutKeeps pm sk (execPageSrstDone page s) := by
  unfold execPageSrstDone
  repeat' first
    | with_reducible assumption
    | ((try lift_lets); intro x; refine Keeps.cut (pm := pm) (sk := sk) (x := x) ?_ (fun hx => ?_); rotate_left; clear_value x; rotate_right)
    | ((try lift_lets); intro x; clear_value x) | with_reducible apply OutKeeps.next | with_reducible apply State.setB_keeps (hm.of rfl)
    | with_reducible apply State.setReg_keeps (hm.of rfl) | with_reducible apply State.srstEnd_keeps (hm.of rfl) | split | unfold x
    | dsimp only

theorem outState_keeps (hm : Sub 0 pm) (hk : Keeps pm sk s) (o : Out) (h : OutKeeps pm sk o) : Keeps pm sk (outState s o) := by
  unfold outState
  split
  · exact h.keeps _ rfl
  · exact hk

theorem execTimeRegWord0Read_keeps (hm : Sub 23898 pm) (hk : Keeps pm sk s) (req : Nat) (addr : Nat) : OutKeeps pm sk (execTimeRegWord0Read req addr s) := by
  unfold execTimeRegWord0Read
  repeat' first
    | with_reducible assumption | with_reducible apply OutKeeps.next | with_reducible apply State.hostReadWord_keeps (hm.of rfl) | split
    | dsimp only

theorem execReg64LowRead_keeps (hm : Sub 23898 pm) (hk : Keeps pm sk s) (req : Nat) (addr : Nat) : OutKeeps pm sk (execReg64LowRead req addr s) := by
  unfold execReg64LowRead
  repeat' first
    | with_reducible assumption | with_reducible apply OutKeeps.next | with_reducible apply State.hostReadWord_keeps (hm.of rfl) | split
    | dsimp only

theorem execRcRead_keeps (hm : Sub 23898 pm) (hk : Keeps pm sk s) (req : Nat) (addr : Nat) : OutKeeps pm sk (execRcRead req addr s) := by
  unfold execRcRead
  repeat' first
    | with_reducible assumption | with_reducible apply OutKeeps.next | with_reducible apply State.hostReadWord_keeps (hm.of rfl) | split
    | dsimp only

theorem State.ringMove_keeps (hm : Sub 3431426 pm) (hk : Keeps pm sk s) (r : RecRing) : Keeps pm sk (State.ringMove s r) := by
  unfold State.ringMove
  repeat' first
    | with_reducible assumption | with_reducible apply State.ringRestart_keeps (hm.of rfl) | split | dsimp only

theorem State.ringBaseWrite_keeps (hm : Sub 3431426 pm) (hk : Keeps pm sk s) (r : RecRing) (v : Nat) : Keeps pm sk (State.ringBaseWrite s r v) := by
  unfold State.ringBaseWrite
  repeat' first
    | with_reducible assumption
    | ((try lift_lets); intro x; refine Keeps.cut (pm := pm) (sk := sk) (x := x) ?_ (fun hx => ?_); rotate_left; clear_value x; rotate_right)
    | ((try lift_lets); intro x; clear_value x) | with_reducible apply State.ringMove_keeps (hm.of rfl)
    | with_reducible apply State.ringStage_keeps (hm.of rfl) | split | unfold x | dsimp only

theorem State.ringSizeWrite_keeps (hm : Sub 3431426 pm) (hk : Keeps pm sk s) (r : RecRing) (v : Word) : Keeps pm sk (State.ringSizeWrite s r v) := by
  unfold State.ringSizeWrite
  repeat' first
    | with_reducible assumption
    | ((try lift_lets); intro x; refine Keeps.cut (pm := pm) (sk := sk) (x := x) ?_ (fun hx => ?_); rotate_left; clear_value x; rotate_right)
    | ((try lift_lets); intro x; clear_value x) | with_reducible apply State.ringMove_keeps (hm.of rfl)
    | with_reducible apply State.ringStage_keeps (hm.of rfl) | split | unfold x | dsimp only

theorem State.ringRdWrite_keeps (hm : Sub 235428871 pm) (hk : Keeps pm sk s) (r : RecRing) (v : Word) : Keeps pm sk (State.ringRdWrite s r v) := by
  unfold State.ringRdWrite
  repeat' first
    | with_reducible assumption
    | ((try lift_lets); intro x; refine Keeps.cut (pm := pm) (sk := sk) (x := x) ?_ (fun hx => ?_); rotate_left; clear_value x; rotate_right)
    | ((try lift_lets); intro x; clear_value x) | with_reducible apply State.dlogFull_keeps (hm.of rfl)
    | with_reducible apply State.drxDrain_keeps (hm.of rfl) | with_reducible apply State.ringReturn_keeps (hm.of rfl) | split | unfold x
    | dsimp only

theorem execRingReadPointerWrite_keeps (hm : Sub 235429135 pm) (hk : Keeps pm sk s) (req : Nat) (addr : Nat) (v : Word) : OutKeeps pm sk (execRingReadPointerWrite req addr v s) := by
  unfold execRingReadPointerWrite
  repeat' first
    | with_reducible assumption | refine fun t (ht : Keeps pm sk t) => ?_ | refine fun _ t (ht : Keeps pm sk t) => ?_
    | with_reducible apply OutKeeps.next | with_reducible apply State.hostWrite_keeps (hm.of rfl)
    | with_reducible apply State.ringRdWrite_keeps (hm.of rfl) | split | dsimp only

theorem execRingReconfigApply_keeps (hm : Sub 3431426 pm) (hk : Keeps pm sk s) (ring : Nat) : OutKeeps pm sk (execRingReconfigApply ring s) := by
  unfold execRingReconfigApply
  repeat' first
    | with_reducible assumption | with_reducible apply OutKeeps.next | with_reducible apply State.ringRestart_keeps (hm.of rfl) | split
    | dsimp only

theorem execTimeRegStageWrite_keeps (hm : Sub 23946 pm) (hk : Keeps pm sk s) (req : Nat) (addr : Nat) (v : Word) : OutKeeps pm sk (execTimeRegStageWrite req addr v s) := by
  unfold execTimeRegStageWrite
  repeat' first
    | with_reducible assumption | refine fun t (ht : Keeps pm sk t) => ?_ | refine fun _ t (ht : Keeps pm sk t) => ?_
    | with_reducible apply OutKeeps.next | with_reducible apply State.hostWrite_keeps (hm.of rfl)
    | with_reducible apply State.setStaged_keeps (hm.of rfl) | split | dsimp only

theorem execTimeRegCommit_keeps (hm : Sub 402677642 pm) (hk : Keeps pm sk s) (req : Nat) (addr : Nat) (v : Word) : OutKeeps pm sk (execTimeRegCommit req addr v s) := by
  unfold execTimeRegCommit
  repeat' first
    | with_reducible assumption | refine fun t (ht : Keeps pm sk t) => ?_ | refine fun _ t (ht : Keeps pm sk t) => ?_
    | with_reducible apply OutKeeps.next | with_reducible apply State.commitTime_keeps (hm.of rfl)
    | with_reducible apply State.hostWrite_keeps (hm.of rfl) | with_reducible apply execTimeBaseSet_keeps (hm.of rfl)
    | with_reducible apply outState_keeps (hm.of rfl) | split | dsimp only

theorem execReg64LowWrite_keeps (hm : Sub 23946 pm) (hk : Keeps pm sk s) (req : Nat) (addr : Nat) (v : Word) : OutKeeps pm sk (execReg64LowWrite req addr v s) := by
  unfold execReg64LowWrite
  repeat' first
    | with_reducible assumption | refine fun t (ht : Keeps pm sk t) => ?_ | refine fun _ t (ht : Keeps pm sk t) => ?_
    | with_reducible apply OutKeeps.next | with_reducible apply State.hostWrite_keeps (hm.of rfl)
    | with_reducible apply State.setStaged_keeps (hm.of rfl) | with_reducible apply execChkRegWrite_keeps (hm.of rfl)
    | with_reducible apply outState_keeps (hm.of rfl) | split | dsimp only

theorem State.plain64_keeps (hm : Sub 268435351 pm) (hk : Keeps pm sk s) (k : PageKind) (o : Nat) (a : Nat) (v : Nat) : Keeps pm sk (State.plain64 s k o a v) := by
  unfold State.plain64
  repeat' first
    | with_reducible assumption | with_reducible apply State.commit64_keeps (hm.of rfl)
    | with_reducible apply State.enableAgain_keeps (hm.of rfl) | with_reducible apply State.heat_keeps (hm.of rfl)
    | with_reducible apply State.ringBaseWrite_keeps (hm.of rfl) | split | dsimp only

theorem execReg64HighWrite_keeps (hm : Sub 268435359 pm) (hk : Keeps pm sk s) (req : Nat) (addr : Nat) (v : Word) : OutKeeps pm sk (execReg64HighWrite req addr v s) := by
  unfold execReg64HighWrite
  repeat' first
    | with_reducible assumption | refine fun t (ht : Keeps pm sk t) => ?_ | refine fun _ t (ht : Keeps pm sk t) => ?_
    | ((try lift_lets); intro x; refine Keeps.cut (pm := pm) (sk := sk) (x := x) ?_ (fun hx => ?_); rotate_left; clear_value x; rotate_right)
    | ((try lift_lets); intro x; refine Keeps.cut2 (pm := pm) (sk := sk) (x := x) ?_ (fun hx => ?_); rotate_left; clear_value x; rotate_right)
    | ((try lift_lets); intro x; refine Keeps.cut3 (pm := pm) (sk := sk) (x := x) ?_ (fun hx => ?_); rotate_left; clear_value x; rotate_right)
    | ((try lift_lets); intro x; clear_value x) | with_reducible apply OutKeeps.next
    | with_reducible apply State.hostWrite_keeps (hm.of rfl) | with_reducible apply State.plain64_keeps (hm.of rfl)
    | with_reducible apply State.take64_keeps (hm.of rfl) | with_reducible apply execChkRegWrite_keeps (hm.of rfl)
    | with_reducible apply execConvBeatWrite_keeps (hm.of rfl) | with_reducible apply execEdgeSlotCommit_keeps (hm.of rfl)
    | with_reducible apply execMapMaskCommit_keeps (hm.of rfl) | with_reducible apply execTimesetCommit_keeps (hm.of rfl)
    | with_reducible apply outState_keeps (hm.of rfl) | split | unfold x | dsimp only

theorem State.clearInfo_keeps (hm : Sub 2 pm) (hk : Keeps pm sk s) (k : PageKind) (p : Nat) (b : Nat) : Keeps pm sk (State.clearInfo s k p b) := by
  unfold State.clearInfo
  repeat' first
    | with_reducible assumption | with_reducible apply State.setReg_keeps (hm.of rfl)
    | with_reducible apply State.setReg64_keeps (hm.of rfl) | split | dsimp only

theorem State.requestNow_keeps (hm : Sub 6144 pm) (hk : Keeps pm sk s) (p : Nat) : Keeps pm sk (State.requestNow s p) := by
  unfold State.requestNow
  repeat' first
    | with_reducible assumption | with_reducible apply State.request_keeps (hm.of rfl) | split | dsimp only

theorem State.pendClear_keeps (hm : Sub 6146 pm) (hk : Keeps pm sk s) (k : PageKind) (p : Nat) (v : Word) : Keeps pm sk (State.pendClear s k p v) := by
  unfold State.pendClear
  repeat' first
    | with_reducible assumption | refine fun t (ht : Keeps pm sk t) => ?_ | refine fun _ t (ht : Keeps pm sk t) => ?_
    | ((try lift_lets); intro x; refine Keeps.cut (pm := pm) (sk := sk) (x := x) ?_ (fun hx => ?_); rotate_left; clear_value x; rotate_right)
    | ((try lift_lets); intro x; clear_value x) | with_reducible apply State.clearInfo_keeps (hm.of rfl)
    | with_reducible apply State.requestNow_keeps (hm.of rfl) | with_reducible apply State.setReg_keeps (hm.of rfl)
    | with_reducible refine Keeps.foldl ?_ _ (fun t y ht => ?_) | with_reducible refine Keeps.foldl2 ?_ _ (fun t y ht => ?_) | unfold x
    | dsimp only

theorem execEvPendClear_keeps (hm : Sub 23818 pm) (hk : Keeps pm sk s) (req : Nat) (page : Nat) (v : Word) : OutKeeps pm sk (execEvPendClear req page v s) := by
  unfold execEvPendClear
  repeat' first
    | with_reducible assumption | refine fun t (ht : Keeps pm sk t) => ?_ | refine fun _ t (ht : Keeps pm sk t) => ?_
    | with_reducible apply OutKeeps.next | with_reducible apply State.hostWrite_keeps (hm.of rfl)
    | with_reducible apply State.pendClear_keeps (hm.of rfl) | split | dsimp only

theorem State.enWrite_keeps (hm : Sub 810002 pm) (hk : Keeps pm sk s) (p : Nat) (v : Word) : Keeps pm sk (State.enWrite s p v) := by
  unfold State.enWrite
  repeat' first
    | with_reducible assumption
    | ((try lift_lets); intro x; refine Keeps.cut (pm := pm) (sk := sk) (x := x) ?_ (fun hx => ?_); rotate_left; clear_value x; rotate_right)
    | ((try lift_lets); intro x; clear_value x) | with_reducible apply State.requestNow_keeps (hm.of rfl)
    | with_reducible apply State.rwWrite_keeps (hm.of rfl) | split | unfold x | dsimp only

theorem execEvEnWrite_keeps (hm : Sub 810266 pm) (hk : Keeps pm sk s) (req : Nat) (page : Nat) (v : Word) : OutKeeps pm sk (execEvEnWrite req page v s) := by
  unfold execEvEnWrite
  repeat' first
    | with_reducible assumption | refine fun t (ht : Keeps pm sk t) => ?_ | refine fun _ t (ht : Keeps pm sk t) => ?_
    | with_reducible apply OutKeeps.next | with_reducible apply State.enWrite_keeps (hm.of rfl)
    | with_reducible apply State.hostWrite_keeps (hm.of rfl) | split | dsimp only

theorem execEvTestWrite_keeps (hm : Sub 23818 pm) (hk : Keeps pm sk s) (req : Nat) (page : Nat) (v : Word) : OutKeeps pm sk (execEvTestWrite req page v s) := by
  unfold execEvTestWrite
  repeat' first
    | with_reducible assumption | refine fun t (ht : Keeps pm sk t) => ?_ | refine fun _ t (ht : Keeps pm sk t) => ?_
    | with_reducible apply OutKeeps.next | with_reducible apply State.hostWrite_keeps (hm.of rfl)
    | with_reducible apply State.occurTest_keeps (hm.of rfl) | with_reducible refine Keeps.foldl ?_ _ (fun t y ht => ?_)
    | with_reducible refine Keeps.foldl2 ?_ _ (fun t y ht => ?_) | split | dsimp only

theorem State.afterWrite_keeps (hm : Sub 268435351 pm) (hk : Keeps pm sk s) (k : PageKind) (o : Nat) : Keeps pm sk (State.afterWrite s k o) := by
  unfold State.afterWrite
  repeat' first
    | with_reducible assumption | with_reducible apply State.budget_keeps (hm.of rfl)
    | with_reducible apply State.dlogFull_keeps (hm.of rfl) | with_reducible apply State.gpeSoftware_keeps (hm.of rfl)
    | with_reducible apply State.heat_keeps (hm.of rfl) | with_reducible apply State.ringThresh_keeps (hm.of rfl)
    | with_reducible apply State.setLive_keeps (hm.of rfl) | split | dsimp only

theorem State.plainWrite_keeps (hm : Sub 536870807 pm) (hk : Keeps pm sk s) (k : PageKind) (i : Nat) (o : Nat) (a : Nat) (v : Word) : Keeps pm sk (State.plainWrite s k i o a v) := by
  unfold State.plainWrite
  repeat' first
    | with_reducible assumption | with_reducible apply State.afterWrite_keeps (hm.of rfl)
    | with_reducible apply State.ringCfg_keeps (hm.of rfl) | with_reducible apply State.ringSizeWrite_keeps (hm.of rfl)
    | with_reducible apply State.rwWrite_keeps (hm.of rfl) | with_reducible apply State.sliceWrite_keeps (hm.of rfl)
    | with_reducible apply State.tbCfg_keeps (hm.of rfl) | with_reducible apply State.writeMasked_keeps (hm.of rfl) | split | dsimp only

theorem State.accessErr_keeps (hm : Sub 23554 pm) (hk : Keeps pm sk s) (a : Nat) : Keeps pm sk (State.accessErr s a) := by
  unfold State.accessErr
  repeat' first
    | with_reducible assumption
    | ((try lift_lets); intro x; refine Keeps.cut (pm := pm) (sk := sk) (x := x) ?_ (fun hx => ?_); rotate_left; clear_value x; rotate_right)
    | ((try lift_lets); intro x; clear_value x) | with_reducible apply State.incSat_keeps (hm.of rfl)
    | with_reducible apply State.occur_keeps (hm.of rfl) | with_reducible apply State.setReg_keeps (hm.of rfl) | split | unfold x
    | dsimp only

theorem plainOut_keeps (hm : Sub 536870815 pm) (hk : Keeps pm sk s) (req : Nat) (a : Nat) (v : Word) : OutKeeps pm sk (plainOut req a v s) := by
  unfold plainOut
  repeat' first
    | with_reducible assumption | refine fun t (ht : Keeps pm sk t) => ?_ | refine fun _ t (ht : Keeps pm sk t) => ?_
    | with_reducible apply OutKeeps.next | with_reducible apply State.hostWrite_keeps (hm.of rfl)
    | with_reducible apply State.plainWrite_keeps (hm.of rfl) | split | dsimp only

theorem routeHead_keeps (hm : Sub 1073741791 pm) (hk : Keeps pm sk s) (req : Nat) (p : Nat) (o : Nat) (v : Word) : OutKeeps pm sk (routeHead req p o v s) := by
  unfold routeHead
  repeat' first
    | with_reducible assumption | with_reducible apply OutKeeps.next | with_reducible apply execEvEnWrite_keeps (hm.of rfl)
    | with_reducible apply execEvPendClear_keeps (hm.of rfl) | with_reducible apply execEvTestWrite_keeps (hm.of rfl)
    | with_reducible apply execPageSrst_keeps (hm.of rfl) | with_reducible apply plainOut_keeps (hm.of rfl) | split | dsimp only

theorem routeTask_keeps (hm : Sub 67075487 pm) (hk : Keeps pm sk s) (req : Nat) (v : Word) : OutKeeps pm sk (routeTask req v s) := by
  unfold routeTask
  repeat' first
    | with_reducible assumption | refine fun t (ht : Keeps pm sk t) => ?_ | refine fun _ t (ht : Keeps pm sk t) => ?_
    | with_reducible apply OutKeeps.next | with_reducible apply State.cmdFail_keeps (hm.of rfl)
    | with_reducible apply State.hostWrite_keeps (hm.of rfl) | with_reducible apply execTaskAbort_keeps (hm.of rfl)
    | with_reducible apply execTaskAdd_keeps (hm.of rfl) | with_reducible apply execTaskArm_keeps (hm.of rfl)
    | with_reducible apply execTaskClear_keeps (hm.of rfl) | with_reducible apply execTaskDisarm_keeps (hm.of rfl) | split | dsimp only

theorem routeGlb_keeps (hm : Sub 1073741791 pm) (hk : Keeps pm sk s) (req : Nat) (o : Nat) (a : Nat) (v : Word) : OutKeeps pm sk (routeGlb req o a v s) := by
  unfold routeGlb
  repeat' first
    | with_reducible assumption | with_reducible apply OutKeeps.next | with_reducible apply execAutoCfgWrite_keeps (hm.of rfl)
    | with_reducible apply execModeReq_keeps (hm.of rfl) | with_reducible apply execModeReqAbort_keeps (hm.of rfl)
    | with_reducible apply execResetCtrlField_keeps (hm.of rfl) | with_reducible apply plainOut_keeps (hm.of rfl) | split | dsimp only

theorem routeHlk_keeps (hm : Sub 536870815 pm) (hk : Keeps pm sk s) (req : Nat) (o : Nat) (a : Nat) (v : Word) : OutKeeps pm sk (routeHlk req o a v s) := by
  unfold routeHlk
  repeat' first
    | with_reducible assumption | refine fun t (ht : Keeps pm sk t) => ?_ | refine fun _ t (ht : Keeps pm sk t) => ?_
    | with_reducible apply OutKeeps.next | with_reducible apply State.flashGo_keeps (hm.of rfl)
    | with_reducible apply State.hostWrite_keeps (hm.of rfl) | with_reducible apply execDmaCtrlAbort_keeps (hm.of rfl)
    | with_reducible apply execDmaCtrlStart_keeps (hm.of rfl) | with_reducible apply execFlashErase_keeps (hm.of rfl)
    | with_reducible apply execFlashProgram_keeps (hm.of rfl) | with_reducible apply execFlashRead_keeps (hm.of rfl)
    | with_reducible apply plainOut_keeps (hm.of rfl) | split | dsimp only

theorem routeDsk_keeps (hm : Sub 536870815 pm) (hk : Keeps pm sk s) (req : Nat) (i : Nat) (o : Nat) (a : Nat) (v : Word) : OutKeeps pm sk (routeDsk req i o a v s) := by
  unfold routeDsk
  repeat' first
    | with_reducible assumption | with_reducible apply OutKeeps.next | with_reducible apply execChnDskConfigWrite_keeps (hm.of rfl)
    | with_reducible apply execPecAbort_keeps (hm.of rfl) | with_reducible apply execPecStart_keeps (hm.of rfl)
    | with_reducible apply plainOut_keeps (hm.of rfl) | split | dsimp only

theorem routeSeq_keeps (hm : Sub 536870815 pm) (hk : Keeps pm sk s) (req : Nat) (q : Nat) (o : Nat) (a : Nat) (v : Word) : OutKeeps pm sk (routeSeq req q o a v s) := by
  unfold routeSeq
  repeat' first
    | with_reducible assumption | with_reducible apply OutKeeps.next | with_reducible apply execBurstCtrlAbort_keeps (hm.of rfl)
    | with_reducible apply execBurstCtrlStart_keeps (hm.of rfl) | with_reducible apply execBurstCtrlStop_keeps (hm.of rfl)
    | with_reducible apply execJmpReqWrite_keeps (hm.of rfl) | with_reducible apply plainOut_keeps (hm.of rfl) | split | dsimp only

theorem routeTdc_keeps (hm : Sub 536870815 pm) (hk : Keeps pm sk s) (req : Nat) (h : Nat) (o : Nat) (a : Nat) (v : Word) : OutKeeps pm sk (routeTdc req h o a v s) := by
  unfold routeTdc
  repeat' first
    | with_reducible assumption
    | ((try lift_lets); intro x; refine Keeps.cut (pm := pm) (sk := sk) (x := x) ?_ (fun hx => ?_); rotate_left; clear_value x; rotate_right)
    | ((try lift_lets); intro x; clear_value x) | with_reducible apply OutKeeps.next
    | with_reducible apply execTdcAbort_keeps (hm.of rfl) | with_reducible apply execTdcStart_keeps (hm.of rfl)
    | with_reducible apply execTdcStop_keeps (hm.of rfl) | with_reducible apply plainOut_keeps (hm.of rfl) | split | unfold x
    | dsimp only

theorem routeTtb_keeps (hm : Sub 536870815 pm) (hk : Keeps pm sk s) (req : Nat) (page : Nat) (o : Nat) (a : Nat) (v : Word) : OutKeeps pm sk (routeTtb req page o a v s) := by
  unfold routeTtb
  repeat' first
    | with_reducible assumption | with_reducible apply OutKeeps.next | with_reducible apply execDlCancel_keeps (hm.of rfl)
    | with_reducible apply execDlCancelAll_keeps (hm.of rfl) | with_reducible apply execDlInsert_keeps (hm.of rfl)
    | with_reducible apply execSqPush_keeps (hm.of rfl) | with_reducible apply execTaskImageWrite_keeps (hm.of rfl)
    | with_reducible apply plainOut_keeps (hm.of rfl) | with_reducible apply routeTask_keeps (hm.of rfl) | split | dsimp only

theorem routeChk_keeps (hm : Sub 536870815 pm) (hk : Keeps pm sk s) (req : Nat) (n : Nat) (o : Nat) (a : Nat) (v : Word) : OutKeeps pm sk (routeChk req n o a v s) := by
  unfold routeChk
  repeat' first
    | with_reducible assumption | with_reducible apply OutKeeps.next | with_reducible apply execChkAbort_keeps (hm.of rfl)
    | with_reducible apply execChkCheck_keeps (hm.of rfl) | with_reducible apply execChkFeedB_keeps (hm.of rfl)
    | with_reducible apply execChkFeedH_keeps (hm.of rfl) | with_reducible apply execChkFeedW_keeps (hm.of rfl)
    | with_reducible apply execChkLoadInit_keeps (hm.of rfl) | with_reducible apply execChkRegWrite_keeps (hm.of rfl)
    | with_reducible apply execChkStart_keeps (hm.of rfl) | with_reducible apply plainOut_keeps (hm.of rfl) | split | dsimp only

theorem routeLane_keeps (hm : Sub 536870815 pm) (hk : Keeps pm sk s) (req : Nat) (n : Nat) (o : Nat) (a : Nat) (v : Word) : OutKeeps pm sk (routeLane req n o a v s) := by
  unfold routeLane
  repeat' first
    | with_reducible assumption | refine fun t (ht : Keeps pm sk t) => ?_ | refine fun _ t (ht : Keeps pm sk t) => ?_
    | with_reducible apply OutKeeps.next | with_reducible apply State.hostWrite_keeps (hm.of rfl)
    | with_reducible apply State.laneCtrl_keeps (hm.of rfl) | with_reducible apply execDiagAbort_keeps (hm.of rfl)
    | with_reducible apply execDiagStart_keeps (hm.of rfl) | with_reducible apply execLaneDisableWrite_keeps (hm.of rfl)
    | with_reducible apply execLaneRetrainWrite_keeps (hm.of rfl) | with_reducible apply plainOut_keeps (hm.of rfl) | split | dsimp only

theorem routeRng_keeps (hm : Sub 1073741727 pm) (hk : Keeps pm sk s) (req : Nat) (o : Nat) (a : Nat) (v : Word) : OutKeeps pm sk (routeRng req o a v s) := by
  unfold routeRng
  repeat' first
    | with_reducible assumption | with_reducible apply OutKeeps.next | with_reducible apply execBellArm_keeps (hm.of rfl)
    | with_reducible apply execBellDisarm_keeps (hm.of rfl) | with_reducible apply execBellRingWrite_keeps (hm.of rfl)
    | with_reducible apply execDtxGo_keeps (hm.of rfl) | with_reducible apply execRollCtrlStart_keeps (hm.of rfl)
    | with_reducible apply execTsqPop_keeps (hm.of rfl) | with_reducible apply execWakeSendWrite_keeps (hm.of rfl)
    | with_reducible apply plainOut_keeps (hm.of rfl) | split | dsimp only

theorem bothOut_keeps (hm : Sub 0 pm) (hk : Keeps pm sk s) (b c : Bool) (f g : State → Out) (hf : ∀ t, Keeps pm sk t → OutKeeps pm sk (f t))
    (hg : ∀ t, Keeps pm sk t → OutKeeps pm sk (g t)) : OutKeeps pm sk (bothOut b c f g s) := by
  have h1 : Keeps pm sk (if b then outState s (f s) else s) := by
    split
    · exact outState_keeps (hm.of rfl) hk _ (hf _ hk)
    · exact hk
  unfold bothOut
  dsimp only
  split
  · exact hg _ h1
  · exact OutKeeps.next h1

theorem routeWord_keeps (hm : Sub 1073741791 pm) (hk : Keeps pm sk s) (req : Nat) (k : PageKind) (i : Nat) (o : Nat) (a : Nat) (v : Word) : OutKeeps pm sk (routeWord req k i o a v s) := by
  unfold routeWord
  repeat' first
    | with_reducible assumption | refine fun t (ht : Keeps pm sk t) => ?_ | refine fun _ t (ht : Keeps pm sk t) => ?_
    | with_reducible apply OutKeeps.next | with_reducible apply bothOut_keeps (hm.of rfl)
    | with_reducible apply execCntCfgWrite_keeps (hm.of rfl) | with_reducible apply execCounterClearAll_keeps (hm.of rfl)
    | with_reducible apply execCounterSnap_keeps (hm.of rfl) | with_reducible apply execDecFlushWrite_keeps (hm.of rfl)
    | with_reducible apply execFcConfigWrite_keeps (hm.of rfl) | with_reducible apply execFlowStepAbort_keeps (hm.of rfl)
    | with_reducible apply execFlowStepStart_keeps (hm.of rfl) | with_reducible apply execGpeOutModeWrite_keeps (hm.of rfl)
    | with_reducible apply execItemAbort_keeps (hm.of rfl) | with_reducible apply execItemStart_keeps (hm.of rfl)
    | with_reducible apply execPruneForceWrite_keeps (hm.of rfl) | with_reducible apply execRefSelWrite_keeps (hm.of rfl)
    | with_reducible apply execRegCfgWrite_keeps (hm.of rfl) | with_reducible apply execRsPop_keeps (hm.of rfl)
    | with_reducible apply execSelectorWrite_keeps (hm.of rfl) | with_reducible apply execSeqPage2Write_keeps (hm.of rfl)
    | with_reducible apply execSlotFlagsWrite_keeps (hm.of rfl) | with_reducible apply execTraceArm_keeps (hm.of rfl)
    | with_reducible apply execTraceStop_keeps (hm.of rfl) | with_reducible apply plainOut_keeps (hm.of rfl)
    | with_reducible apply routeChk_keeps (hm.of rfl) | with_reducible apply routeDsk_keeps (hm.of rfl)
    | with_reducible apply routeGlb_keeps (hm.of rfl) | with_reducible apply routeHlk_keeps (hm.of rfl)
    | with_reducible apply routeLane_keeps (hm.of rfl) | with_reducible apply routeRng_keeps (hm.of rfl)
    | with_reducible apply routeSeq_keeps (hm.of rfl) | with_reducible apply routeTdc_keeps (hm.of rfl)
    | with_reducible apply routeTtb_keeps (hm.of rfl) | split | dsimp only

theorem routeOut_keeps (hm : Sub 1073741791 pm) (hk : Keeps pm sk s) (req : Nat) (a : Nat) (v : Word) : OutKeeps pm sk (routeOut req a v s) := by
  unfold routeOut
  repeat' first
    | with_reducible assumption | with_reducible apply OutKeeps.next | with_reducible apply execReg64HighWrite_keeps (hm.of rfl)
    | with_reducible apply execReg64LowWrite_keeps (hm.of rfl) | with_reducible apply execRingReadPointerWrite_keeps (hm.of rfl)
    | with_reducible apply execTimeRegCommit_keeps (hm.of rfl) | with_reducible apply execTimeRegStageWrite_keeps (hm.of rfl)
    | with_reducible apply routeHead_keeps (hm.of rfl) | with_reducible apply routeWord_keeps (hm.of rfl) | split | dsimp only

theorem State.routeWrite_keeps (hm : Sub 1073741791 pm) (hk : Keeps pm sk s) (req a : Nat) (v : Word) : Keeps pm sk (s.routeWrite req a v) := by
  have h1 (t : State) (h : Keeps pm sk t) : Keeps pm sk (outState t (routeOut req a v t)) :=
    outState_keeps (hm.of rfl) h _ (routeOut_keeps (hm.of rfl) h req a v)
  unfold State.routeWrite
  repeat' first
    | with_reducible assumption | refine fun t (ht : Keeps pm sk t) => ?_ | refine fun _ t (ht : Keeps pm sk t) => ?_
    | ((try lift_lets); intro x; refine Keeps.cut (pm := pm) (sk := sk) (x := x) ?_ (fun hx => ?_); rotate_left; clear_value x; rotate_right)
    | ((try lift_lets); intro x; refine Keeps.cut2 (pm := pm) (sk := sk) (x := x) ?_ (fun hx => ?_); rotate_left; clear_value x; rotate_right)
    | ((try lift_lets); intro x; refine Keeps.cut3 (pm := pm) (sk := sk) (x := x) ?_ (fun hx => ?_); rotate_left; clear_value x; rotate_right)
    | ((try lift_lets); intro x; refine Keeps.cutG (pm := pm) (sk := sk) (x := x) (fun a ha => ?_) (fun hx => ?_))
    | ((try lift_lets); intro x; refine Keeps.cutH (pm := pm) (sk := sk) (x := x) (fun a b ha => ?_) (fun hx => ?_))
    | ((try lift_lets); intro x; refine Keeps.cutF2 (pm := pm) (sk := sk) (x := x) (fun a b => ?_) (fun hx => ?_))
    | ((try lift_lets); intro x; refine Keeps.cutF (pm := pm) (sk := sk) (x := x) (fun a => ?_) (fun hx => ?_))
    | ((try lift_lets); intro x; clear_value x) | with_reducible apply State.setHost_keeps (hm.of rfl) | with_reducible apply h1
    | with_reducible refine Keeps.foldl ?_ _ (fun t y ht => ?_) | with_reducible refine Keeps.foldl2 ?_ _ (fun t y ht => ?_) | split
    | unfold x | dsimp only | with_reducible refine Keeps.upd ?_

theorem execRegisterWrite_keeps (hm : Sub 1073741791 pm) (hk : Keeps pm sk s) (req : Nat) (addr : Nat) (v : Word) (enables : Nat) : OutKeeps pm sk (execRegisterWrite req addr v enables s) := by
  unfold execRegisterWrite
  repeat' first
    | with_reducible assumption | with_reducible apply OutKeeps.next | with_reducible apply State.accessErr_keeps (hm.of rfl)
    | with_reducible apply State.routeWrite_keeps (hm.of rfl) | split | dsimp only

theorem State.applyHeld_keeps (hm : Sub 1073741791 pm) (hk : Keeps pm sk s) (h : HeldAccess) : Keeps pm sk (State.applyHeld s h) := by
  unfold State.applyHeld
  repeat' first
    | with_reducible assumption | with_reducible apply State.bar2_keeps (hm.of rfl)
    | with_reducible apply State.hostReadWord_keeps (hm.of rfl) | with_reducible apply State.routeWrite_keeps (hm.of rfl) | split
    | dsimp only

theorem execRecessExitDone_keeps (hm : Sub 1073741791 pm) (hk : Keeps pm sk s) : OutKeeps pm sk (execRecessExitDone s) := by
  unfold execRecessExitDone
  repeat' first
    | with_reducible assumption | refine fun t (ht : Keeps pm sk t) => ?_ | refine fun _ t (ht : Keeps pm sk t) => ?_
    | ((try lift_lets); intro x; refine Keeps.cut (pm := pm) (sk := sk) (x := x) ?_ (fun hx => ?_); rotate_left; clear_value x; rotate_right)
    | ((try lift_lets); intro x; clear_value x) | with_reducible apply OutKeeps.next
    | with_reducible apply State.applyHeld_keeps (hm.of rfl) | with_reducible apply State.recessExit_keeps (hm.of rfl)
    | with_reducible apply State.setCtl_keeps (hm.of rfl) | with_reducible refine Keeps.foldl ?_ _ (fun t y ht => ?_)
    | with_reducible refine Keeps.foldl2 ?_ _ (fun t y ht => ?_) | split | unfold x | dsimp only | with_reducible refine Keeps.upd ?_

theorem State.setSat_keeps (hm : Sub 4096 pm) (hk : Keeps pm sk s) (x : Satchel) : Keeps pm sk (State.setSat s x) := by
  unfold State.setSat
  repeat' first
    | with_reducible assumption | dsimp only | with_reducible refine Keeps.upd ?_

theorem State.regRead_keeps (hm : Sub 1106 pm) (hk : Keeps pm sk s) (a : Nat) (len : Nat) : Keeps pm sk (State.regRead s a len).2 := by
  unfold State.regRead
  repeat' first
    | with_reducible assumption
    | ((try lift_lets); intro x; refine Keeps.cut (pm := pm) (sk := sk) (x := x) ?_ (fun hx => ?_); rotate_left; clear_value x; rotate_right)
    | ((try lift_lets); intro x; refine Keeps.cut2 (pm := pm) (sk := sk) (x := x) ?_ (fun hx => ?_); rotate_left; clear_value x; rotate_right)
    | ((try lift_lets); intro x; refine Keeps.cut3 (pm := pm) (sk := sk) (x := x) ?_ (fun hx => ?_); rotate_left; clear_value x; rotate_right)
    | ((try lift_lets); intro x; clear_value x) | with_reducible apply State.readWord_keeps (hm.of rfl) | split | unfold x | dsimp only

theorem execSatchelRegrdRequest_keeps (hm : Sub 101219671 pm) (hk : Keeps pm sk s) (tag : Nat) (isBar2 : Bool) (addr : Nat) (len : Nat) : OutKeeps pm sk (execSatchelRegrdRequest tag isBar2 addr len s) := by
  unfold execSatchelRegrdRequest
  repeat' first
    | with_reducible assumption
    | ((try lift_lets); intro x; refine Keeps.cut (pm := pm) (sk := sk) (x := x) ?_ (fun hx => ?_); rotate_left; clear_value x; rotate_right)
    | ((try lift_lets); intro x; refine Keeps.cut2 (pm := pm) (sk := sk) (x := x) ?_ (fun hx => ?_); rotate_left; clear_value x; rotate_right)
    | ((try lift_lets); intro x; refine Keeps.cut3 (pm := pm) (sk := sk) (x := x) ?_ (fun hx => ?_); rotate_left; clear_value x; rotate_right)
    | ((try lift_lets); intro x; clear_value x) | with_reducible apply OutKeeps.next | with_reducible apply State.bar2_keeps (hm.of rfl)
    | with_reducible apply State.bar2Do_keeps (hm.of rfl) | with_reducible apply State.regRead_keeps (hm.of rfl)
    | with_reducible apply State.satSend_keeps (hm.of rfl) | with_reducible apply State.setHost_keeps (hm.of rfl)
    | with_reducible apply State.setSat_keeps (hm.of rfl) | split | unfold x | dsimp only | with_reducible refine Keeps.upd ?_

theorem State.readDone_keeps (hm : Sub 34110735 pm) (hk : Keeps pm sk s) (r : SatRead) : Keeps pm sk (State.readDone s r) := by
  unfold State.readDone
  repeat' first
    | with_reducible assumption
    | ((try lift_lets); intro x; refine Keeps.cut (pm := pm) (sk := sk) (x := x) ?_ (fun hx => ?_); rotate_left; clear_value x; rotate_right)
    | ((try lift_lets); intro x; clear_value x) | with_reducible apply State.bar2_keeps (hm.of rfl)
    | with_reducible apply State.setHost_keeps (hm.of rfl) | with_reducible apply State.setRead_keeps (hm.of rfl) | split | unfold x
    | dsimp only | with_reducible refine Keeps.upd ?_

theorem execSatchelRegrdCompletion_keeps (hm : Sub 101219599 pm) (hk : Keeps pm sk s) (tag : Nat) : OutKeeps pm sk (execSatchelRegrdCompletion tag s) := by
  unfold execSatchelRegrdCompletion
  repeat' first
    | with_reducible assumption | refine fun t (ht : Keeps pm sk t) => ?_ | refine fun _ t (ht : Keeps pm sk t) => ?_
    | ((try lift_lets); intro x; refine Keeps.cut (pm := pm) (sk := sk) (x := x) ?_ (fun hx => ?_); rotate_left; clear_value x; rotate_right)
    | ((try lift_lets); intro x; clear_value x) | with_reducible apply OutKeeps.next
    | with_reducible apply State.readDone_keeps (hm.of rfl) | with_reducible apply State.satSend_keeps (hm.of rfl)
    | with_reducible apply State.setSat_keeps (hm.of rfl) | with_reducible refine Keeps.foldl ?_ _ (fun t y ht => ?_)
    | with_reducible refine Keeps.foldl2 ?_ _ (fun t y ht => ?_) | split | unfold x | dsimp only | with_reducible refine Keeps.upd ?_

theorem execSatchelRegwr_keeps (hm : Sub 1073741791 pm) (hk : Keeps pm sk s) (isBar2 : Bool) (addr : Nat) (data : List Byte) : OutKeeps pm sk (execSatchelRegwr isBar2 addr data s) := by
  unfold execSatchelRegwr
  repeat' first
    | with_reducible assumption
    | ((try lift_lets); intro x; refine Keeps.cut (pm := pm) (sk := sk) (x := x) ?_ (fun hx => ?_); rotate_left; clear_value x; rotate_right)
    | ((try lift_lets); intro x; clear_value x) | with_reducible apply OutKeeps.next | with_reducible apply State.bar2_keeps (hm.of rfl)
    | with_reducible apply State.routeWrite_keeps (hm.of rfl) | with_reducible apply State.satSend_keeps (hm.of rfl) | split | unfold x
    | dsimp only

theorem execDmaDescriptorReadDone_keeps (hm : Sub 101415955 pm) (hk : Keeps pm sk s) (c : Nat) : OutKeeps pm sk (execDmaDescriptorReadDone c s) := by
  unfold execDmaDescriptorReadDone
  repeat' first
    | with_reducible assumption
    | ((try lift_lets); intro x; refine Keeps.cut (pm := pm) (sk := sk) (x := x) ?_ (fun hx => ?_); rotate_left; clear_value x; rotate_right)
    | ((try lift_lets); intro x; clear_value x) | with_reducible exact OptKeeps.none | with_reducible apply OptKeeps.some
    | with_reducible refine OptKeeps.bind ?_ (fun t ht => ?_) | with_reducible refine OptKeeps.map ?_ (fun t ht => ?_)
    | with_reducible apply OptKeeps.getD | with_reducible refine OptKeeps.of (by assumption) ?_
    | with_reducible refine OptKeeps.foldl _ ?_ (fun t x ht => ?_) | with_reducible apply OutKeeps.next
    | with_reducible apply State.dmaEnd_keeps (hm.of rfl) | with_reducible apply State.portRun_keeps (hm.of rfl)
    | with_reducible apply State.satSend_keeps (hm.of rfl) | with_reducible apply State.setDma_keeps (hm.of rfl) | split | unfold x
    | dsimp only | with_reducible refine Keeps.upd ?_

theorem execDmaDescriptorComplete_keeps (hm : Sub 101415959 pm) (hk : Keeps pm sk s) (c : Nat) : OutKeeps pm sk (execDmaDescriptorComplete c s) := by
  unfold execDmaDescriptorComplete
  repeat' first
    | with_reducible assumption
    | ((try lift_lets); intro x; refine Keeps.cut (pm := pm) (sk := sk) (x := x) ?_ (fun hx => ?_); rotate_left; clear_value x; rotate_right)
    | ((try lift_lets); intro x; clear_value x) | with_reducible exact OptKeeps.none | with_reducible apply OptKeeps.some
    | with_reducible refine OptKeeps.bind ?_ (fun t ht => ?_) | with_reducible refine OptKeeps.map ?_ (fun t ht => ?_)
    | with_reducible apply OptKeeps.getD | with_reducible refine OptKeeps.of (by assumption) ?_
    | with_reducible refine OptKeeps.foldl _ ?_ (fun t x ht => ?_) | with_reducible apply OutKeeps.next
    | with_reducible apply State.dmaEnd_keeps (hm.of rfl) | with_reducible apply State.hostMemWrite_keeps (hm.of rfl)
    | with_reducible apply State.inc64_keeps (hm.of rfl) | with_reducible apply State.incWrap_keeps (hm.of rfl)
    | with_reducible apply State.occur_keeps (hm.of rfl) | with_reducible apply State.portRun_keeps (hm.of rfl)
    | with_reducible apply State.satSend_keeps (hm.of rfl) | with_reducible apply State.setDma_keeps (hm.of rfl)
    | with_reducible apply State.setReg64_keeps (hm.of rfl) | split | unfold x | dsimp only | with_reducible refine Keeps.upd ?_

theorem execSatchelDmaData_keeps (hm : Sub 101415959 pm) (hk : Keeps pm sk s) (c : Nat) (n : Nat) : OutKeeps pm sk (execSatchelDmaData c n s) := by
  unfold execSatchelDmaData
  repeat' first
    | with_reducible assumption | refine fun t (ht : Keeps pm sk t) => ?_ | refine fun _ t (ht : Keeps pm sk t) => ?_
    | ((try lift_lets); intro x; refine Keeps.cut (pm := pm) (sk := sk) (x := x) ?_ (fun hx => ?_); rotate_left; clear_value x; rotate_right)
    | ((try lift_lets); intro x; refine Keeps.cutG (pm := pm) (sk := sk) (x := x) (fun a ha => ?_) (fun hx => ?_))
    | ((try lift_lets); intro x; refine Keeps.cutH (pm := pm) (sk := sk) (x := x) (fun a b ha => ?_) (fun hx => ?_))
    | ((try lift_lets); intro x; refine Keeps.cutF2 (pm := pm) (sk := sk) (x := x) (fun a b => ?_) (fun hx => ?_))
    | ((try lift_lets); intro x; refine Keeps.cutF (pm := pm) (sk := sk) (x := x) (fun a => ?_) (fun hx => ?_))
    | ((try lift_lets); intro x; clear_value x) | with_reducible exact OptKeeps.none | with_reducible apply OptKeeps.some
    | with_reducible refine OptKeeps.bind ?_ (fun t ht => ?_) | with_reducible refine OptKeeps.map ?_ (fun t ht => ?_)
    | with_reducible apply OptKeeps.getD | with_reducible refine OptKeeps.of (by assumption) ?_
    | with_reducible refine OptKeeps.foldl _ ?_ (fun t x ht => ?_) | with_reducible apply OutKeeps.next
    | with_reducible apply State.dmaEnd_keeps (hm.of rfl) | with_reducible apply State.dmaShare_keeps (hm.of rfl)
    | with_reducible apply State.hostMemWrite_keeps (hm.of rfl) | with_reducible apply State.portRun_keeps (hm.of rfl)
    | with_reducible apply State.satSend_keeps (hm.of rfl) | with_reducible apply State.setDma_keeps (hm.of rfl)
    | with_reducible apply State.setHost_keeps (hm.of rfl) | split | unfold x | dsimp only | with_reducible refine Keeps.upd ?_

theorem execSatchelEventToField_keeps (hm : Sub 67129346 pm) (hk : Keeps pm sk s) : OutKeeps pm sk (execSatchelEventToField s) := by
  unfold execSatchelEventToField
  repeat' first
    | with_reducible assumption
    | ((try lift_lets); intro x; refine Keeps.cut (pm := pm) (sk := sk) (x := x) ?_ (fun hx => ?_); rotate_left; clear_value x; rotate_right)
    | ((try lift_lets); intro x; clear_value x) | with_reducible apply OutKeeps.next
    | with_reducible apply State.satSend_keeps (hm.of rfl) | with_reducible apply State.setCor_keeps (hm.of rfl) | split | unfold x
    | dsimp only | with_reducible refine Keeps.upd ?_

theorem execSatchelEventToHost_keeps (hm : Sub 67115010 pm) (hk : Keeps pm sk s) : OutKeeps pm sk (execSatchelEventToHost s) := by
  unfold execSatchelEventToHost
  repeat' first
    | with_reducible assumption | refine fun t (ht : Keeps pm sk t) => ?_ | refine fun _ t (ht : Keeps pm sk t) => ?_
    | ((try lift_lets); intro x; refine Keeps.cut (pm := pm) (sk := sk) (x := x) ?_ (fun hx => ?_); rotate_left; clear_value x; rotate_right)
    | ((try lift_lets); intro x; clear_value x) | with_reducible apply OutKeeps.next
    | with_reducible apply State.msixSend_keeps (hm.of rfl) | with_reducible apply State.satSend_keeps (hm.of rfl) | split | unfold x
    | dsimp only | with_reducible refine Keeps.upd ?_

theorem execSatchelTimeSend_keeps (hm : Sub 34102275 pm) (hk : Keeps pm sk s) : OutKeeps pm sk (execSatchelTimeSend s) := by
  unfold execSatchelTimeSend
  repeat' first
    | with_reducible assumption
    | ((try lift_lets); intro x; refine Keeps.cut (pm := pm) (sk := sk) (x := x) ?_ (fun hx => ?_); rotate_left; clear_value x; rotate_right)
    | ((try lift_lets); intro x; refine Keeps.cut2 (pm := pm) (sk := sk) (x := x) ?_ (fun hx => ?_); rotate_left; clear_value x; rotate_right)
    | ((try lift_lets); intro x; refine Keeps.cut3 (pm := pm) (sk := sk) (x := x) ?_ (fun hx => ?_); rotate_left; clear_value x; rotate_right)
    | ((try lift_lets); intro x; clear_value x) | with_reducible apply OutKeeps.next
    | with_reducible apply State.passTo_keeps (hm.of rfl) | with_reducible apply State.setSat_keeps (hm.of rfl) | split | unfold x
    | dsimp only | with_reducible refine Keeps.upd ?_

theorem execSatchelTime_keeps (hm : Sub 67112962 pm) (hk : Keeps pm sk s) : OutKeeps pm sk (execSatchelTime s) := by
  unfold execSatchelTime
  repeat' first
    | with_reducible assumption
    | ((try lift_lets); intro x; refine Keeps.cut (pm := pm) (sk := sk) (x := x) ?_ (fun hx => ?_); rotate_left; clear_value x; rotate_right)
    | ((try lift_lets); intro x; refine Keeps.cut2 (pm := pm) (sk := sk) (x := x) ?_ (fun hx => ?_); rotate_left; clear_value x; rotate_right)
    | ((try lift_lets); intro x; refine Keeps.cut3 (pm := pm) (sk := sk) (x := x) ?_ (fun hx => ?_); rotate_left; clear_value x; rotate_right)
    | ((try lift_lets); intro x; clear_value x) | with_reducible apply OutKeeps.next
    | with_reducible apply State.satSend_keeps (hm.of rfl) | with_reducible apply State.setSat_keeps (hm.of rfl) | split | unfold x
    | dsimp only | with_reducible refine Keeps.upd ?_

theorem State.flowArrive_keeps (hm : Sub 268435351 pm) (hk : Keeps pm sk s) (m : FlowMsg) : Keeps pm sk (State.flowArrive s m) := by
  unfold State.flowArrive
  repeat' first
    | with_reducible assumption | refine fun t (ht : Keeps pm sk t) => ?_ | refine fun _ t (ht : Keeps pm sk t) => ?_
    | with_reducible apply State.dmaEnd_keeps (hm.of rfl) | with_reducible apply State.dmaSet_keeps (hm.of rfl)
    | with_reducible apply State.endRun_keeps (hm.of rfl) | with_reducible apply State.heat_keeps (hm.of rfl)
    | with_reducible apply State.resync_keeps (hm.of rfl) | with_reducible apply State.resyncRec_keeps (hm.of rfl)
    | with_reducible apply State.setCtl_keeps (hm.of rfl) | with_reducible apply State.setSat_keeps (hm.of rfl)
    | with_reducible apply State.takeReadings_keeps (hm.of rfl) | split | dsimp only | with_reducible refine Keeps.upd ?_

theorem State.flowSend_keeps (hm : Sub 67108882 pm) (hk : Keeps pm sk s) (toField : Bool) : Keeps pm sk (State.flowSend s toField) := by
  unfold State.flowSend
  repeat' first
    | with_reducible assumption
    | ((try lift_lets); intro x; refine Keeps.cut (pm := pm) (sk := sk) (x := x) ?_ (fun hx => ?_); rotate_left; clear_value x; rotate_right)
    | ((try lift_lets); intro x; refine Keeps.cut2 (pm := pm) (sk := sk) (x := x) ?_ (fun hx => ?_); rotate_left; clear_value x; rotate_right)
    | ((try lift_lets); intro x; refine Keeps.cut3 (pm := pm) (sk := sk) (x := x) ?_ (fun hx => ?_); rotate_left; clear_value x; rotate_right)
    | ((try lift_lets); intro x; clear_value x) | with_reducible apply State.freshBytes_keeps (hm.of rfl)
    | with_reducible apply State.freshNat_keeps (hm.of rfl) | with_reducible apply State.satSend_keeps (hm.of rfl) | unfold x
    | dsimp only | with_reducible refine Keeps.upd ?_

theorem execSatchelFlow_keeps (hm : Sub 268435351 pm) (hk : Keeps pm sk s) (toHost : Bool) : OutKeeps pm sk (execSatchelFlow toHost s) := by
  unfold execSatchelFlow
  repeat' first
    | with_reducible assumption
    | ((try lift_lets); intro x; refine Keeps.cut (pm := pm) (sk := sk) (x := x) ?_ (fun hx => ?_); rotate_left; clear_value x; rotate_right)
    | ((try lift_lets); intro x; clear_value x) | with_reducible apply OutKeeps.next
    | with_reducible apply State.flowArrive_keeps (hm.of rfl) | with_reducible apply State.flowSend_keeps (hm.of rfl)
    | with_reducible apply State.setSat_keeps (hm.of rfl) | split | unfold x | dsimp only | with_reducible refine Keeps.upd ?_

theorem execHostSensorReadingSend_keeps (hm : Sub 34102275 pm) (hk : Keeps pm sk s) (readings : List (Nat × Nat)) : OutKeeps pm sk (execHostSensorReadingSend readings s) := by
  unfold execHostSensorReadingSend
  repeat' first
    | with_reducible assumption
    | ((try lift_lets); intro x; refine Keeps.cut (pm := pm) (sk := sk) (x := x) ?_ (fun hx => ?_); rotate_left; clear_value x; rotate_right)
    | ((try lift_lets); intro x; clear_value x) | with_reducible apply OutKeeps.next
    | with_reducible apply State.passTo_keeps (hm.of rfl) | with_reducible apply State.setSat_keeps (hm.of rfl) | split | unfold x
    | dsimp only | with_reducible refine Keeps.upd ?_

theorem State.hostDetention_keeps (hm : Sub 23810 pm) (hk : Keeps pm sk s) : Keeps pm sk (State.hostDetention s) := by
  unfold State.hostDetention
  repeat' first
    | with_reducible assumption
    | ((try lift_lets); intro x; refine Keeps.cut (pm := pm) (sk := sk) (x := x) ?_ (fun hx => ?_); rotate_left; clear_value x; rotate_right)
    | ((try lift_lets); intro x; clear_value x) | with_reducible apply State.fieldState_keeps (hm.of rfl)
    | with_reducible apply State.occur_keeps (hm.of rfl) | with_reducible apply State.setCtl_keeps (hm.of rfl)
    | with_reducible apply State.setF_keeps (hm.of rfl) | unfold x | dsimp only | with_reducible refine Keeps.upd ?_

theorem State.flushReads_keeps (hm : Sub 34143503 pm) (hk : Keeps pm sk s) : Keeps pm sk (State.flushReads s) := by
  unfold State.flushReads
  repeat' first
    | with_reducible assumption | refine fun t (ht : Keeps pm sk t) => ?_ | refine fun _ t (ht : Keeps pm sk t) => ?_
    | ((try lift_lets); intro x; refine Keeps.cut (pm := pm) (sk := sk) (x := x) ?_ (fun hx => ?_); rotate_left; clear_value x; rotate_right)
    | ((try lift_lets); intro x; clear_value x) | with_reducible apply State.hostResync_keeps (hm.of rfl)
    | with_reducible apply State.incSat_keeps (hm.of rfl) | with_reducible apply State.occur_keeps (hm.of rfl)
    | with_reducible apply State.readDone_keeps (hm.of rfl) | with_reducible apply State.setSat_keeps (hm.of rfl)
    | with_reducible refine Keeps.foldl ?_ _ (fun t y ht => ?_) | with_reducible refine Keeps.foldl2 ?_ _ (fun t y ht => ?_) | split
    | unfold x | dsimp only | with_reducible refine Keeps.upd ?_

theorem State.loseWrites_keeps (hm : Sub 67142658 pm) (hk : Keeps pm sk s) : Keeps pm sk (State.loseWrites s) := by
  unfold State.loseWrites
  repeat' first
    | with_reducible assumption | refine fun t (ht : Keeps pm sk t) => ?_ | refine fun _ t (ht : Keeps pm sk t) => ?_
    | ((try lift_lets); intro x; refine Keeps.cut (pm := pm) (sk := sk) (x := x) ?_ (fun hx => ?_); rotate_left; clear_value x; rotate_right)
    | ((try lift_lets); intro x; refine Keeps.cut2 (pm := pm) (sk := sk) (x := x) ?_ (fun hx => ?_); rotate_left; clear_value x; rotate_right)
    | ((try lift_lets); intro x; refine Keeps.cut3 (pm := pm) (sk := sk) (x := x) ?_ (fun hx => ?_); rotate_left; clear_value x; rotate_right)
    | ((try lift_lets); intro x; clear_value x) | with_reducible apply State.hostResync_keeps (hm.of rfl)
    | with_reducible apply State.incSat_keeps (hm.of rfl) | with_reducible apply State.setLink_keeps (hm.of rfl) | unfold x | dsimp only
    | with_reducible refine Keeps.upd ?_

theorem State.chainsDown_keeps (hm : Sub 228370 pm) (hk : Keeps pm sk s) : Keeps pm sk (State.chainsDown s) := by
  unfold State.chainsDown
  repeat' first
    | with_reducible assumption | refine fun t (ht : Keeps pm sk t) => ?_ | refine fun _ t (ht : Keeps pm sk t) => ?_
    | ((try lift_lets); intro x; refine Keeps.cut (pm := pm) (sk := sk) (x := x) ?_ (fun hx => ?_); rotate_left; clear_value x; rotate_right)
    | ((try lift_lets); intro x; clear_value x) | with_reducible apply State.dmaEnd_keeps (hm.of rfl)
    | with_reducible apply State.setSat_keeps (hm.of rfl) | with_reducible apply State.withdraw_keeps (hm.of rfl)
    | with_reducible refine Keeps.foldl ?_ _ (fun t y ht => ?_) | with_reducible refine Keeps.foldl2 ?_ _ (fun t y ht => ?_) | split
    | unfold x | dsimp only | with_reducible refine Keeps.upd ?_

theorem execSatchelLinkDown_keeps (hm : Sub 1073741791 pm) (hk : Keeps pm sk s) : OutKeeps pm sk (execSatchelLinkDown s) := by
  unfold execSatchelLinkDown
  repeat' first
    | with_reducible assumption
    | ((try lift_lets); intro x; refine Keeps.cut (pm := pm) (sk := sk) (x := x) ?_ (fun hx => ?_); rotate_left; clear_value x; rotate_right)
    | ((try lift_lets); intro x; clear_value x) | with_reducible apply OutKeeps.next
    | with_reducible apply State.chainsDown_keeps (hm.of rfl) | with_reducible apply State.detain_keeps (hm.of rfl)
    | with_reducible apply State.flushReads_keeps (hm.of rfl) | with_reducible apply State.hostDetention_keeps (hm.of rfl)
    | with_reducible apply State.incSat_keeps (hm.of rfl) | with_reducible apply State.loseWrites_keeps (hm.of rfl)
    | with_reducible apply State.occur_keeps (hm.of rfl) | with_reducible apply State.setSat_keeps (hm.of rfl) | split | unfold x
    | dsimp only | with_reducible refine Keeps.upd ?_

theorem State.resend_keeps (hm : Sub 4096 pm) (hk : Keeps pm sk s) : Keeps pm sk (State.resend s) := by
  unfold State.resend
  repeat' first
    | with_reducible assumption | refine fun t (ht : Keeps pm sk t) => ?_ | refine fun _ t (ht : Keeps pm sk t) => ?_
    | ((try lift_lets); intro x; refine Keeps.cut (pm := pm) (sk := sk) (x := x) ?_ (fun hx => ?_); rotate_left; clear_value x; rotate_right)
    | ((try lift_lets); intro x; clear_value x) | with_reducible apply State.setSat_keeps (hm.of rfl) | split | unfold x | dsimp only
    | with_reducible refine Keeps.upd ?_

theorem State.gapRecords_keeps (hm : Sub 252930 pm) (hk : Keeps pm sk s) : Keeps pm sk (State.gapRecords s) := by
  unfold State.gapRecords
  repeat' first
    | with_reducible assumption | refine fun t (ht : Keeps pm sk t) => ?_ | refine fun _ t (ht : Keeps pm sk t) => ?_
    | ((try lift_lets); intro x; refine Keeps.cut (pm := pm) (sk := sk) (x := x) ?_ (fun hx => ?_); rotate_left; clear_value x; rotate_right)
    | ((try lift_lets); intro x; clear_value x) | with_reducible apply State.dmaTasksFail_keeps (hm.of rfl)
    | with_reducible apply State.resync_keeps (hm.of rfl) | with_reducible apply State.setSat_keeps (hm.of rfl) | split | unfold x
    | dsimp only | with_reducible refine Keeps.upd ?_

theorem execSatchelLinkUp_keeps (hm : Sub 268435351 pm) (hk : Keeps pm sk s) : OutKeeps pm sk (execSatchelLinkUp s) := by
  unfold execSatchelLinkUp
  repeat' first
    | with_reducible assumption
    | ((try lift_lets); intro x; refine Keeps.cut (pm := pm) (sk := sk) (x := x) ?_ (fun hx => ?_); rotate_left; clear_value x; rotate_right)
    | ((try lift_lets); intro x; clear_value x) | with_reducible apply OutKeeps.next
    | with_reducible apply State.fieldState_keeps (hm.of rfl) | with_reducible apply State.gapRecords_keeps (hm.of rfl)
    | with_reducible apply State.hostStale_keeps (hm.of rfl) | with_reducible apply State.inc64_keeps (hm.of rfl)
    | with_reducible apply State.occur_keeps (hm.of rfl) | with_reducible apply State.resend_keeps (hm.of rfl)
    | with_reducible apply State.setCtl_keeps (hm.of rfl) | with_reducible apply State.setF_keeps (hm.of rfl)
    | with_reducible apply State.setReg_keeps (hm.of rfl) | with_reducible apply State.setSat_keeps (hm.of rfl) | split | unfold x
    | dsimp only | with_reducible refine Keeps.upd ?_

end Sys2Proof.Machine
end

