-- ==== Sys2Proof/Laws/State.lean ====
section
/-! SUPPORT. What each update of the state leaves alone: one lemma per field and update. -/

namespace Sys2Proof.Machine

/-! `State.setReg` changes `regs` and nothing else. -/

@[simp] theorem State.setReg_cycle (s : State) (a : Nat) (w : Word) : (s.setReg a w).cycle = s.cycle := rfl
@[simp] theorem State.setReg_mem (s : State) (a : Nat) (w : Word) : (s.setReg a w).mem = s.mem := rfl
@[simp] theorem State.setReg_pending (s : State) (a : Nat) (w : Word) : (s.setReg a w).pending = s.pending := rfl
@[simp] theorem State.setReg_lastRead (s : State) (a : Nat) (w : Word) : (s.setReg a w).lastRead = s.lastRead := rfl
@[simp] theorem State.setReg_fresh (s : State) (a : Nat) (w : Word) : (s.setReg a w).fresh = s.fresh := rfl
@[simp] theorem State.setReg_grids (s : State) (a : Nat) (w : Word) : (s.setReg a w).grids = s.grids := rfl
@[simp] theorem State.setReg_latches (s : State) (a : Nat) (w : Word) : (s.setReg a w).latches = s.latches := rfl
@[simp] theorem State.setReg_staged (s : State) (a : Nat) (w : Word) : (s.setReg a w).staged = s.staged := rfl
@[simp] theorem State.setReg_ctl (s : State) (a : Nat) (w : Word) : (s.setReg a w).ctl = s.ctl := rfl
@[simp] theorem State.setReg_tbs (s : State) (a : Nat) (w : Word) : (s.setReg a w).tbs = s.tbs := rfl
@[simp] theorem State.setReg_gal (s : State) (a : Nat) (w : Word) : (s.setReg a w).gal = s.gal := rfl
@[simp] theorem State.setReg_msix (s : State) (a : Nat) (w : Word) : (s.setReg a w).msix = s.msix := rfl
@[simp] theorem State.setReg_sat (s : State) (a : Nat) (w : Word) : (s.setReg a w).sat = s.sat := rfl
@[simp] theorem State.setReg_host (s : State) (a : Nat) (w : Word) : (s.setReg a w).host = s.host := rfl
@[simp] theorem State.setReg_cor (s : State) (a : Nat) (w : Word) : (s.setReg a w).cor = s.cor := rfl
@[simp] theorem State.setReg_prune (s : State) (a : Nat) (w : Word) : (s.setReg a w).prune = s.prune := rfl
@[simp] theorem State.setReg_bur (s : State) (a : Nat) (w : Word) : (s.setReg a w).bur = s.bur := rfl
@[simp] theorem State.setReg_ttb (s : State) (a : Nat) (w : Word) : (s.setReg a w).ttb = s.ttb := rfl
@[simp] theorem State.setReg_chn (s : State) (a : Nat) (w : Word) : (s.setReg a w).chn = s.chn := rfl
@[simp] theorem State.setReg_sq (s : State) (a : Nat) (w : Word) : (s.setReg a w).sq = s.sq := rfl
@[simp] theorem State.setReg_cmp (s : State) (a : Nat) (w : Word) : (s.setReg a w).cmp = s.cmp := rfl
@[simp] theorem State.setReg_flw (s : State) (a : Nat) (w : Word) : (s.setReg a w).flw = s.flw := rfl
@[simp] theorem State.setReg_tim (s : State) (a : Nat) (w : Word) : (s.setReg a w).tim = s.tim := rfl
@[simp] theorem State.setReg_chk (s : State) (a : Nat) (w : Word) : (s.setReg a w).chk = s.chk := rfl
@[simp] theorem State.setReg_cal (s : State) (a : Nat) (w : Word) : (s.setReg a w).cal = s.cal := rfl
@[simp] theorem State.setReg_cel (s : State) (a : Nat) (w : Word) : (s.setReg a w).cel = s.cel := rfl
@[simp] theorem State.setReg_lan (s : State) (a : Nat) (w : Word) : (s.setReg a w).lan = s.lan := rfl
@[simp] theorem State.setReg_ring (s : State) (a : Nat) (w : Word) : (s.setReg a w).ring = s.ring := rfl
@[simp] theorem State.setReg_tk (s : State) (a : Nat) (w : Word) : (s.setReg a w).tk = s.tk := rfl
@[simp] theorem State.setReg_bel (s : State) (a : Nat) (w : Word) : (s.setReg a w).bel = s.bel := rfl

/-! `State.setTb` changes `tbs` and nothing else. -/

@[simp] theorem State.setTb_cycle (s : State) (b : Nat) (t : TimeBase) : (s.setTb b t).cycle = s.cycle := rfl
@[simp] theorem State.setTb_regs (s : State) (b : Nat) (t : TimeBase) : (s.setTb b t).regs = s.regs := rfl
@[simp] theorem State.setTb_mem (s : State) (b : Nat) (t : TimeBase) : (s.setTb b t).mem = s.mem := rfl
@[simp] theorem State.setTb_pending (s : State) (b : Nat) (t : TimeBase) : (s.setTb b t).pending = s.pending := rfl
@[simp] theorem State.setTb_lastRead (s : State) (b : Nat) (t : TimeBase) : (s.setTb b t).lastRead = s.lastRead := rfl
@[simp] theorem State.setTb_fresh (s : State) (b : Nat) (t : TimeBase) : (s.setTb b t).fresh = s.fresh := rfl
@[simp] theorem State.setTb_grids (s : State) (b : Nat) (t : TimeBase) : (s.setTb b t).grids = s.grids := rfl
@[simp] theorem State.setTb_latches (s : State) (b : Nat) (t : TimeBase) : (s.setTb b t).latches = s.latches := rfl
@[simp] theorem State.setTb_staged (s : State) (b : Nat) (t : TimeBase) : (s.setTb b t).staged = s.staged := rfl
@[simp] theorem State.setTb_ctl (s : State) (b : Nat) (t : TimeBase) : (s.setTb b t).ctl = s.ctl := rfl
@[simp] theorem State.setTb_gal (s : State) (b : Nat) (t : TimeBase) : (s.setTb b t).gal = s.gal := rfl
@[simp] theorem State.setTb_msix (s : State) (b : Nat) (t : TimeBase) : (s.setTb b t).msix = s.msix := rfl
@[simp] theorem State.setTb_sat (s : State) (b : Nat) (t : TimeBase) : (s.setTb b t).sat = s.sat := rfl
@[simp] theorem State.setTb_host (s : State) (b : Nat) (t : TimeBase) : (s.setTb b t).host = s.host := rfl
@[simp] theorem State.setTb_cor (s : State) (b : Nat) (t : TimeBase) : (s.setTb b t).cor = s.cor := rfl
@[simp] theorem State.setTb_prune (s : State) (b : Nat) (t : TimeBase) : (s.setTb b t).prune = s.prune := rfl
@[simp] theorem State.setTb_bur (s : State) (b : Nat) (t : TimeBase) : (s.setTb b t).bur = s.bur := rfl
@[simp] theorem State.setTb_ttb (s : State) (b : Nat) (t : TimeBase) : (s.setTb b t).ttb = s.ttb := rfl
@[simp] theorem State.setTb_chn (s : State) (b : Nat) (t : TimeBase) : (s.setTb b t).chn = s.chn := rfl
@[simp] theorem State.setTb_sq (s : State) (b : Nat) (t : TimeBase) : (s.setTb b t).sq = s.sq := rfl
@[simp] theorem State.setTb_cmp (s : State) (b : Nat) (t : TimeBase) : (s.setTb b t).cmp = s.cmp := rfl
@[simp] theorem State.setTb_flw (s : State) (b : Nat) (t : TimeBase) : (s.setTb b t).flw = s.flw := rfl
@[simp] theorem State.setTb_tim (s : State) (b : Nat) (t : TimeBase) : (s.setTb b t).tim = s.tim := rfl
@[simp] theorem State.setTb_chk (s : State) (b : Nat) (t : TimeBase) : (s.setTb b t).chk = s.chk := rfl
@[simp] theorem State.setTb_cal (s : State) (b : Nat) (t : TimeBase) : (s.setTb b t).cal = s.cal := rfl
@[simp] theorem State.setTb_cel (s : State) (b : Nat) (t : TimeBase) : (s.setTb b t).cel = s.cel := rfl
@[simp] theorem State.setTb_lan (s : State) (b : Nat) (t : TimeBase) : (s.setTb b t).lan = s.lan := rfl
@[simp] theorem State.setTb_ring (s : State) (b : Nat) (t : TimeBase) : (s.setTb b t).ring = s.ring := rfl
@[simp] theorem State.setTb_tk (s : State) (b : Nat) (t : TimeBase) : (s.setTb b t).tk = s.tk := rfl
@[simp] theorem State.setTb_bel (s : State) (b : Nat) (t : TimeBase) : (s.setTb b t).bel = s.bel := rfl

/-! `State.setByte` changes `mem` and nothing else. -/

@[simp] theorem State.setByte_cycle (s : State) (a : Nat) (b : Byte) : (s.setByte a b).cycle = s.cycle := rfl
@[simp] theorem State.setByte_regs (s : State) (a : Nat) (b : Byte) : (s.setByte a b).regs = s.regs := rfl
@[simp] theorem State.setByte_pending (s : State) (a : Nat) (b : Byte) : (s.setByte a b).pending = s.pending := rfl
@[simp] theorem State.setByte_lastRead (s : State) (a : Nat) (b : Byte) : (s.setByte a b).lastRead = s.lastRead := rfl
@[simp] theorem State.setByte_fresh (s : State) (a : Nat) (b : Byte) : (s.setByte a b).fresh = s.fresh := rfl
@[simp] theorem State.setByte_grids (s : State) (a : Nat) (b : Byte) : (s.setByte a b).grids = s.grids := rfl
@[simp] theorem State.setByte_latches (s : State) (a : Nat) (b : Byte) : (s.setByte a b).latches = s.latches := rfl
@[simp] theorem State.setByte_staged (s : State) (a : Nat) (b : Byte) : (s.setByte a b).staged = s.staged := rfl
@[simp] theorem State.setByte_ctl (s : State) (a : Nat) (b : Byte) : (s.setByte a b).ctl = s.ctl := rfl
@[simp] theorem State.setByte_tbs (s : State) (a : Nat) (b : Byte) : (s.setByte a b).tbs = s.tbs := rfl
@[simp] theorem State.setByte_gal (s : State) (a : Nat) (b : Byte) : (s.setByte a b).gal = s.gal := rfl
@[simp] theorem State.setByte_msix (s : State) (a : Nat) (b : Byte) : (s.setByte a b).msix = s.msix := rfl
@[simp] theorem State.setByte_sat (s : State) (a : Nat) (b : Byte) : (s.setByte a b).sat = s.sat := rfl
@[simp] theorem State.setByte_host (s : State) (a : Nat) (b : Byte) : (s.setByte a b).host = s.host := rfl
@[simp] theorem State.setByte_cor (s : State) (a : Nat) (b : Byte) : (s.setByte a b).cor = s.cor := rfl
@[simp] theorem State.setByte_prune (s : State) (a : Nat) (b : Byte) : (s.setByte a b).prune = s.prune := rfl
@[simp] theorem State.setByte_bur (s : State) (a : Nat) (b : Byte) : (s.setByte a b).bur = s.bur := rfl
@[simp] theorem State.setByte_ttb (s : State) (a : Nat) (b : Byte) : (s.setByte a b).ttb = s.ttb := rfl
@[simp] theorem State.setByte_chn (s : State) (a : Nat) (b : Byte) : (s.setByte a b).chn = s.chn := rfl
@[simp] theorem State.setByte_sq (s : State) (a : Nat) (b : Byte) : (s.setByte a b).sq = s.sq := rfl
@[simp] theorem State.setByte_cmp (s : State) (a : Nat) (b : Byte) : (s.setByte a b).cmp = s.cmp := rfl
@[simp] theorem State.setByte_flw (s : State) (a : Nat) (b : Byte) : (s.setByte a b).flw = s.flw := rfl
@[simp] theorem State.setByte_tim (s : State) (a : Nat) (b : Byte) : (s.setByte a b).tim = s.tim := rfl
@[simp] theorem State.setByte_chk (s : State) (a : Nat) (b : Byte) : (s.setByte a b).chk = s.chk := rfl
@[simp] theorem State.setByte_cal (s : State) (a : Nat) (b : Byte) : (s.setByte a b).cal = s.cal := rfl
@[simp] theorem State.setByte_cel (s : State) (a : Nat) (b : Byte) : (s.setByte a b).cel = s.cel := rfl
@[simp] theorem State.setByte_lan (s : State) (a : Nat) (b : Byte) : (s.setByte a b).lan = s.lan := rfl
@[simp] theorem State.setByte_ring (s : State) (a : Nat) (b : Byte) : (s.setByte a b).ring = s.ring := rfl
@[simp] theorem State.setByte_tk (s : State) (a : Nat) (b : Byte) : (s.setByte a b).tk = s.tk := rfl
@[simp] theorem State.setByte_bel (s : State) (a : Nat) (b : Byte) : (s.setByte a b).bel = s.bel := rfl

/-! `State.flashPut` changes `host` and nothing else. -/

@[simp] theorem State.flashPut_cycle (s : State) (a : Nat) (l : List Byte) : (s.flashPut a l).cycle = s.cycle := rfl
@[simp] theorem State.flashPut_regs (s : State) (a : Nat) (l : List Byte) : (s.flashPut a l).regs = s.regs := rfl
@[simp] theorem State.flashPut_mem (s : State) (a : Nat) (l : List Byte) : (s.flashPut a l).mem = s.mem := rfl
@[simp] theorem State.flashPut_pending (s : State) (a : Nat) (l : List Byte) : (s.flashPut a l).pending = s.pending := rfl
@[simp] theorem State.flashPut_lastRead (s : State) (a : Nat) (l : List Byte) : (s.flashPut a l).lastRead = s.lastRead := rfl
@[simp] theorem State.flashPut_fresh (s : State) (a : Nat) (l : List Byte) : (s.flashPut a l).fresh = s.fresh := rfl
@[simp] theorem State.flashPut_grids (s : State) (a : Nat) (l : List Byte) : (s.flashPut a l).grids = s.grids := rfl
@[simp] theorem State.flashPut_latches (s : State) (a : Nat) (l : List Byte) : (s.flashPut a l).latches = s.latches := rfl
@[simp] theorem State.flashPut_staged (s : State) (a : Nat) (l : List Byte) : (s.flashPut a l).staged = s.staged := rfl
@[simp] theorem State.flashPut_ctl (s : State) (a : Nat) (l : List Byte) : (s.flashPut a l).ctl = s.ctl := rfl
@[simp] theorem State.flashPut_tbs (s : State) (a : Nat) (l : List Byte) : (s.flashPut a l).tbs = s.tbs := rfl
@[simp] theorem State.flashPut_gal (s : State) (a : Nat) (l : List Byte) : (s.flashPut a l).gal = s.gal := rfl
@[simp] theorem State.flashPut_msix (s : State) (a : Nat) (l : List Byte) : (s.flashPut a l).msix = s.msix := rfl
@[simp] theorem State.flashPut_sat (s : State) (a : Nat) (l : List Byte) : (s.flashPut a l).sat = s.sat := rfl
@[simp] theorem State.flashPut_cor (s : State) (a : Nat) (l : List Byte) : (s.flashPut a l).cor = s.cor := rfl
@[simp] theorem State.flashPut_prune (s : State) (a : Nat) (l : List Byte) : (s.flashPut a l).prune = s.prune := rfl
@[simp] theorem State.flashPut_bur (s : State) (a : Nat) (l : List Byte) : (s.flashPut a l).bur = s.bur := rfl
@[simp] theorem State.flashPut_ttb (s : State) (a : Nat) (l : List Byte) : (s.flashPut a l).ttb = s.ttb := rfl
@[simp] theorem State.flashPut_chn (s : State) (a : Nat) (l : List Byte) : (s.flashPut a l).chn = s.chn := rfl
@[simp] theorem State.flashPut_sq (s : State) (a : Nat) (l : List Byte) : (s.flashPut a l).sq = s.sq := rfl
@[simp] theorem State.flashPut_cmp (s : State) (a : Nat) (l : List Byte) : (s.flashPut a l).cmp = s.cmp := rfl
@[simp] theorem State.flashPut_flw (s : State) (a : Nat) (l : List Byte) : (s.flashPut a l).flw = s.flw := rfl
@[simp] theorem State.flashPut_tim (s : State) (a : Nat) (l : List Byte) : (s.flashPut a l).tim = s.tim := rfl
@[simp] theorem State.flashPut_chk (s : State) (a : Nat) (l : List Byte) : (s.flashPut a l).chk = s.chk := rfl
@[simp] theorem State.flashPut_cal (s : State) (a : Nat) (l : List Byte) : (s.flashPut a l).cal = s.cal := rfl
@[simp] theorem State.flashPut_cel (s : State) (a : Nat) (l : List Byte) : (s.flashPut a l).cel = s.cel := rfl
@[simp] theorem State.flashPut_lan (s : State) (a : Nat) (l : List Byte) : (s.flashPut a l).lan = s.lan := rfl
@[simp] theorem State.flashPut_ring (s : State) (a : Nat) (l : List Byte) : (s.flashPut a l).ring = s.ring := rfl
@[simp] theorem State.flashPut_tk (s : State) (a : Nat) (l : List Byte) : (s.flashPut a l).tk = s.tk := rfl
@[simp] theorem State.flashPut_bel (s : State) (a : Nat) (l : List Byte) : (s.flashPut a l).bel = s.bel := rfl

/-! `State.setCounter` changes `gal` and nothing else. -/

@[simp] theorem State.setCounter_cycle (s : State) (c : Nat) (x : Counter) : (s.setCounter c x).cycle = s.cycle := rfl
@[simp] theorem State.setCounter_regs (s : State) (c : Nat) (x : Counter) : (s.setCounter c x).regs = s.regs := rfl
@[simp] theorem State.setCounter_mem (s : State) (c : Nat) (x : Counter) : (s.setCounter c x).mem = s.mem := rfl
@[simp] theorem State.setCounter_pending (s : State) (c : Nat) (x : Counter) : (s.setCounter c x).pending = s.pending := rfl
@[simp] theorem State.setCounter_lastRead (s : State) (c : Nat) (x : Counter) : (s.setCounter c x).lastRead = s.lastRead := rfl
@[simp] theorem State.setCounter_fresh (s : State) (c : Nat) (x : Counter) : (s.setCounter c x).fresh = s.fresh := rfl
@[simp] theorem State.setCounter_grids (s : State) (c : Nat) (x : Counter) : (s.setCounter c x).grids = s.grids := rfl
@[simp] theorem State.setCounter_latches (s : State) (c : Nat) (x : Counter) : (s.setCounter c x).latches = s.latches := rfl
@[simp] theorem State.setCounter_staged (s : State) (c : Nat) (x : Counter) : (s.setCounter c x).staged = s.staged := rfl
@[simp] theorem State.setCounter_ctl (s : State) (c : Nat) (x : Counter) : (s.setCounter c x).ctl = s.ctl := rfl
@[simp] theorem State.setCounter_tbs (s : State) (c : Nat) (x : Counter) : (s.setCounter c x).tbs = s.tbs := rfl
@[simp] theorem State.setCounter_msix (s : State) (c : Nat) (x : Counter) : (s.setCounter c x).msix = s.msix := rfl
@[simp] theorem State.setCounter_sat (s : State) (c : Nat) (x : Counter) : (s.setCounter c x).sat = s.sat := rfl
@[simp] theorem State.setCounter_host (s : State) (c : Nat) (x : Counter) : (s.setCounter c x).host = s.host := rfl
@[simp] theorem State.setCounter_cor (s : State) (c : Nat) (x : Counter) : (s.setCounter c x).cor = s.cor := rfl
@[simp] theorem State.setCounter_prune (s : State) (c : Nat) (x : Counter) : (s.setCounter c x).prune = s.prune := rfl
@[simp] theorem State.setCounter_bur (s : State) (c : Nat) (x : Counter) : (s.setCounter c x).bur = s.bur := rfl
@[simp] theorem State.setCounter_ttb (s : State) (c : Nat) (x : Counter) : (s.setCounter c x).ttb = s.ttb := rfl
@[simp] theorem State.setCounter_chn (s : State) (c : Nat) (x : Counter) : (s.setCounter c x).chn = s.chn := rfl
@[simp] theorem State.setCounter_sq (s : State) (c : Nat) (x : Counter) : (s.setCounter c x).sq = s.sq := rfl
@[simp] theorem State.setCounter_cmp (s : State) (c : Nat) (x : Counter) : (s.setCounter c x).cmp = s.cmp := rfl
@[simp] theorem State.setCounter_flw (s : State) (c : Nat) (x : Counter) : (s.setCounter c x).flw = s.flw := rfl
@[simp] theorem State.setCounter_tim (s : State) (c : Nat) (x : Counter) : (s.setCounter c x).tim = s.tim := rfl
@[simp] theorem State.setCounter_chk (s : State) (c : Nat) (x : Counter) : (s.setCounter c x).chk = s.chk := rfl
@[simp] theorem State.setCounter_cal (s : State) (c : Nat) (x : Counter) : (s.setCounter c x).cal = s.cal := rfl
@[simp] theorem State.setCounter_cel (s : State) (c : Nat) (x : Counter) : (s.setCounter c x).cel = s.cel := rfl
@[simp] theorem State.setCounter_lan (s : State) (c : Nat) (x : Counter) : (s.setCounter c x).lan = s.lan := rfl
@[simp] theorem State.setCounter_ring (s : State) (c : Nat) (x : Counter) : (s.setCounter c x).ring = s.ring := rfl
@[simp] theorem State.setCounter_tk (s : State) (c : Nat) (x : Counter) : (s.setCounter c x).tk = s.tk := rfl
@[simp] theorem State.setCounter_bel (s : State) (c : Nat) (x : Counter) : (s.setCounter c x).bel = s.bel := rfl

/-! `State.tick` changes `cycle` and `cel` and nothing else. -/

@[simp] theorem State.tick_regs (s : State) (n : Nat) : (s.tick n).regs = s.regs := rfl
@[simp] theorem State.tick_mem (s : State) (n : Nat) : (s.tick n).mem = s.mem := rfl
@[simp] theorem State.tick_pending (s : State) (n : Nat) : (s.tick n).pending = s.pending := rfl
@[simp] theorem State.tick_lastRead (s : State) (n : Nat) : (s.tick n).lastRead = s.lastRead := rfl
@[simp] theorem State.tick_fresh (s : State) (n : Nat) : (s.tick n).fresh = s.fresh := rfl
@[simp] theorem State.tick_grids (s : State) (n : Nat) : (s.tick n).grids = s.grids := rfl
@[simp] theorem State.tick_latches (s : State) (n : Nat) : (s.tick n).latches = s.latches := rfl
@[simp] theorem State.tick_staged (s : State) (n : Nat) : (s.tick n).staged = s.staged := rfl
@[simp] theorem State.tick_ctl (s : State) (n : Nat) : (s.tick n).ctl = s.ctl := rfl
@[simp] theorem State.tick_tbs (s : State) (n : Nat) : (s.tick n).tbs = s.tbs := rfl
@[simp] theorem State.tick_gal (s : State) (n : Nat) : (s.tick n).gal = s.gal := rfl
@[simp] theorem State.tick_msix (s : State) (n : Nat) : (s.tick n).msix = s.msix := rfl
@[simp] theorem State.tick_sat (s : State) (n : Nat) : (s.tick n).sat = s.sat := rfl
@[simp] theorem State.tick_host (s : State) (n : Nat) : (s.tick n).host = s.host := rfl
@[simp] theorem State.tick_cor (s : State) (n : Nat) : (s.tick n).cor = s.cor := rfl
@[simp] theorem State.tick_prune (s : State) (n : Nat) : (s.tick n).prune = s.prune := rfl
@[simp] theorem State.tick_bur (s : State) (n : Nat) : (s.tick n).bur = s.bur := rfl
@[simp] theorem State.tick_ttb (s : State) (n : Nat) : (s.tick n).ttb = s.ttb := rfl
@[simp] theorem State.tick_chn (s : State) (n : Nat) : (s.tick n).chn = s.chn := rfl
@[simp] theorem State.tick_sq (s : State) (n : Nat) : (s.tick n).sq = s.sq := rfl
@[simp] theorem State.tick_cmp (s : State) (n : Nat) : (s.tick n).cmp = s.cmp := rfl
@[simp] theorem State.tick_flw (s : State) (n : Nat) : (s.tick n).flw = s.flw := rfl
@[simp] theorem State.tick_tim (s : State) (n : Nat) : (s.tick n).tim = s.tim := rfl
@[simp] theorem State.tick_chk (s : State) (n : Nat) : (s.tick n).chk = s.chk := rfl
@[simp] theorem State.tick_cal (s : State) (n : Nat) : (s.tick n).cal = s.cal := rfl
@[simp] theorem State.tick_lan (s : State) (n : Nat) : (s.tick n).lan = s.lan := rfl
@[simp] theorem State.tick_ring (s : State) (n : Nat) : (s.tick n).ring = s.ring := rfl
@[simp] theorem State.tick_tk (s : State) (n : Nat) : (s.tick n).tk = s.tk := rfl
@[simp] theorem State.tick_bel (s : State) (n : Nat) : (s.tick n).bel = s.bel := rfl

/-! `State.setDrops` changes `sq` and nothing else. -/

@[simp] theorem State.setDrops_cycle (s : State) (l : List EdgeDrop) : (s.setDrops l).cycle = s.cycle := rfl
@[simp] theorem State.setDrops_regs (s : State) (l : List EdgeDrop) : (s.setDrops l).regs = s.regs := rfl
@[simp] theorem State.setDrops_mem (s : State) (l : List EdgeDrop) : (s.setDrops l).mem = s.mem := rfl
@[simp] theorem State.setDrops_pending (s : State) (l : List EdgeDrop) : (s.setDrops l).pending = s.pending := rfl
@[simp] theorem State.setDrops_lastRead (s : State) (l : List EdgeDrop) : (s.setDrops l).lastRead = s.lastRead := rfl
@[simp] theorem State.setDrops_fresh (s : State) (l : List EdgeDrop) : (s.setDrops l).fresh = s.fresh := rfl
@[simp] theorem State.setDrops_grids (s : State) (l : List EdgeDrop) : (s.setDrops l).grids = s.grids := rfl
@[simp] theorem State.setDrops_latches (s : State) (l : List EdgeDrop) : (s.setDrops l).latches = s.latches := rfl
@[simp] theorem State.setDrops_staged (s : State) (l : List EdgeDrop) : (s.setDrops l).staged = s.staged := rfl
@[simp] theorem State.setDrops_ctl (s : State) (l : List EdgeDrop) : (s.setDrops l).ctl = s.ctl := rfl
@[simp] theorem State.setDrops_tbs (s : State) (l : List EdgeDrop) : (s.setDrops l).tbs = s.tbs := rfl
@[simp] theorem State.setDrops_gal (s : State) (l : List EdgeDrop) : (s.setDrops l).gal = s.gal := rfl
@[simp] theorem State.setDrops_msix (s : State) (l : List EdgeDrop) : (s.setDrops l).msix = s.msix := rfl
@[simp] theorem State.setDrops_sat (s : State) (l : List EdgeDrop) : (s.setDrops l).sat = s.sat := rfl
@[simp] theorem State.setDrops_host (s : State) (l : List EdgeDrop) : (s.setDrops l).host = s.host := rfl
@[simp] theorem State.setDrops_cor (s : State) (l : List EdgeDrop) : (s.setDrops l).cor = s.cor := rfl
@[simp] theorem State.setDrops_prune (s : State) (l : List EdgeDrop) : (s.setDrops l).prune = s.prune := rfl
@[simp] theorem State.setDrops_bur (s : State) (l : List EdgeDrop) : (s.setDrops l).bur = s.bur := rfl
@[simp] theorem State.setDrops_ttb (s : State) (l : List EdgeDrop) : (s.setDrops l).ttb = s.ttb := rfl
@[simp] theorem State.setDrops_chn (s : State) (l : List EdgeDrop) : (s.setDrops l).chn = s.chn := rfl
@[simp] theorem State.setDrops_cmp (s : State) (l : List EdgeDrop) : (s.setDrops l).cmp = s.cmp := rfl
@[simp] theorem State.setDrops_flw (s : State) (l : List EdgeDrop) : (s.setDrops l).flw = s.flw := rfl
@[simp] theorem State.setDrops_tim (s : State) (l : List EdgeDrop) : (s.setDrops l).tim = s.tim := rfl
@[simp] theorem State.setDrops_chk (s : State) (l : List EdgeDrop) : (s.setDrops l).chk = s.chk := rfl
@[simp] theorem State.setDrops_cal (s : State) (l : List EdgeDrop) : (s.setDrops l).cal = s.cal := rfl
@[simp] theorem State.setDrops_cel (s : State) (l : List EdgeDrop) : (s.setDrops l).cel = s.cel := rfl
@[simp] theorem State.setDrops_lan (s : State) (l : List EdgeDrop) : (s.setDrops l).lan = s.lan := rfl
@[simp] theorem State.setDrops_ring (s : State) (l : List EdgeDrop) : (s.setDrops l).ring = s.ring := rfl
@[simp] theorem State.setDrops_tk (s : State) (l : List EdgeDrop) : (s.setDrops l).tk = s.tk := rfl
@[simp] theorem State.setDrops_bel (s : State) (l : List EdgeDrop) : (s.setDrops l).bel = s.bel := rfl

/-! `State.setRead` changes `lastRead` and nothing else. -/

@[simp] theorem State.setRead_cycle (s : State) (w : Word) : (s.setRead w).cycle = s.cycle := rfl
@[simp] theorem State.setRead_regs (s : State) (w : Word) : (s.setRead w).regs = s.regs := rfl
@[simp] theorem State.setRead_mem (s : State) (w : Word) : (s.setRead w).mem = s.mem := rfl
@[simp] theorem State.setRead_pending (s : State) (w : Word) : (s.setRead w).pending = s.pending := rfl
@[simp] theorem State.setRead_fresh (s : State) (w : Word) : (s.setRead w).fresh = s.fresh := rfl
@[simp] theorem State.setRead_grids (s : State) (w : Word) : (s.setRead w).grids = s.grids := rfl
@[simp] theorem State.setRead_latches (s : State) (w : Word) : (s.setRead w).latches = s.latches := rfl
@[simp] theorem State.setRead_staged (s : State) (w : Word) : (s.setRead w).staged = s.staged := rfl
@[simp] theorem State.setRead_ctl (s : State) (w : Word) : (s.setRead w).ctl = s.ctl := rfl
@[simp] theorem State.setRead_tbs (s : State) (w : Word) : (s.setRead w).tbs = s.tbs := rfl
@[simp] theorem State.setRead_gal (s : State) (w : Word) : (s.setRead w).gal = s.gal := rfl
@[simp] theorem State.setRead_msix (s : State) (w : Word) : (s.setRead w).msix = s.msix := rfl
@[simp] theorem State.setRead_sat (s : State) (w : Word) : (s.setRead w).sat = s.sat := rfl
@[simp] theorem State.setRead_host (s : State) (w : Word) : (s.setRead w).host = s.host := rfl
@[simp] theorem State.setRead_cor (s : State) (w : Word) : (s.setRead w).cor = s.cor := rfl
@[simp] theorem State.setRead_prune (s : State) (w : Word) : (s.setRead w).prune = s.prune := rfl
@[simp] theorem State.setRead_bur (s : State) (w : Word) : (s.setRead w).bur = s.bur := rfl
@[simp] theorem State.setRead_ttb (s : State) (w : Word) : (s.setRead w).ttb = s.ttb := rfl
@[simp] theorem State.setRead_chn (s : State) (w : Word) : (s.setRead w).chn = s.chn := rfl
@[simp] theorem State.setRead_sq (s : State) (w : Word) : (s.setRead w).sq = s.sq := rfl
@[simp] theorem State.setRead_cmp (s : State) (w : Word) : (s.setRead w).cmp = s.cmp := rfl
@[simp] theorem State.setRead_flw (s : State) (w : Word) : (s.setRead w).flw = s.flw := rfl
@[simp] theorem State.setRead_tim (s : State) (w : Word) : (s.setRead w).tim = s.tim := rfl
@[simp] theorem State.setRead_chk (s : State) (w : Word) : (s.setRead w).chk = s.chk := rfl
@[simp] theorem State.setRead_cal (s : State) (w : Word) : (s.setRead w).cal = s.cal := rfl
@[simp] theorem State.setRead_cel (s : State) (w : Word) : (s.setRead w).cel = s.cel := rfl
@[simp] theorem State.setRead_lan (s : State) (w : Word) : (s.setRead w).lan = s.lan := rfl
@[simp] theorem State.setRead_ring (s : State) (w : Word) : (s.setRead w).ring = s.ring := rfl
@[simp] theorem State.setRead_tk (s : State) (w : Word) : (s.setRead w).tk = s.tk := rfl
@[simp] theorem State.setRead_bel (s : State) (w : Word) : (s.setRead w).bel = s.bel := rfl
@[simp] theorem State.setRead_lastRead (s : State) (w : Word) : (s.setRead w).lastRead = w := rfl

/-! `State.setLatch` changes `latches` and nothing else. -/

@[simp] theorem State.setLatch_cycle (s : State) (req a : Nat) (v : Option Word) : (s.setLatch req a v).cycle = s.cycle := rfl
@[simp] theorem State.setLatch_regs (s : State) (req a : Nat) (v : Option Word) : (s.setLatch req a v).regs = s.regs := rfl
@[simp] theorem State.setLatch_mem (s : State) (req a : Nat) (v : Option Word) : (s.setLatch req a v).mem = s.mem := rfl
@[simp] theorem State.setLatch_pending (s : State) (req a : Nat) (v : Option Word) : (s.setLatch req a v).pending = s.pending := rfl
@[simp] theorem State.setLatch_lastRead (s : State) (req a : Nat) (v : Option Word) : (s.setLatch req a v).lastRead = s.lastRead := rfl
@[simp] theorem State.setLatch_fresh (s : State) (req a : Nat) (v : Option Word) : (s.setLatch req a v).fresh = s.fresh := rfl
@[simp] theorem State.setLatch_grids (s : State) (req a : Nat) (v : Option Word) : (s.setLatch req a v).grids = s.grids := rfl
@[simp] theorem State.setLatch_staged (s : State) (req a : Nat) (v : Option Word) : (s.setLatch req a v).staged = s.staged := rfl
@[simp] theorem State.setLatch_ctl (s : State) (req a : Nat) (v : Option Word) : (s.setLatch req a v).ctl = s.ctl := rfl
@[simp] theorem State.setLatch_tbs (s : State) (req a : Nat) (v : Option Word) : (s.setLatch req a v).tbs = s.tbs := rfl
@[simp] theorem State.setLatch_gal (s : State) (req a : Nat) (v : Option Word) : (s.setLatch req a v).gal = s.gal := rfl
@[simp] theorem State.setLatch_msix (s : State) (req a : Nat) (v : Option Word) : (s.setLatch req a v).msix = s.msix := rfl
@[simp] theorem State.setLatch_sat (s : State) (req a : Nat) (v : Option Word) : (s.setLatch req a v).sat = s.sat := rfl
@[simp] theorem State.setLatch_host (s : State) (req a : Nat) (v : Option Word) : (s.setLatch req a v).host = s.host := rfl
@[simp] theorem State.setLatch_cor (s : State) (req a : Nat) (v : Option Word) : (s.setLatch req a v).cor = s.cor := rfl
@[simp] theorem State.setLatch_prune (s : State) (req a : Nat) (v : Option Word) : (s.setLatch req a v).prune = s.prune := rfl
@[simp] theorem State.setLatch_bur (s : State) (req a : Nat) (v : Option Word) : (s.setLatch req a v).bur = s.bur := rfl
@[simp] theorem State.setLatch_ttb (s : State) (req a : Nat) (v : Option Word) : (s.setLatch req a v).ttb = s.ttb := rfl
@[simp] theorem State.setLatch_chn (s : State) (req a : Nat) (v : Option Word) : (s.setLatch req a v).chn = s.chn := rfl
@[simp] theorem State.setLatch_sq (s : State) (req a : Nat) (v : Option Word) : (s.setLatch req a v).sq = s.sq := rfl
@[simp] theorem State.setLatch_cmp (s : State) (req a : Nat) (v : Option Word) : (s.setLatch req a v).cmp = s.cmp := rfl
@[simp] theorem State.setLatch_flw (s : State) (req a : Nat) (v : Option Word) : (s.setLatch req a v).flw = s.flw := rfl
@[simp] theorem State.setLatch_tim (s : State) (req a : Nat) (v : Option Word) : (s.setLatch req a v).tim = s.tim := rfl
@[simp] theorem State.setLatch_chk (s : State) (req a : Nat) (v : Option Word) : (s.setLatch req a v).chk = s.chk := rfl
@[simp] theorem State.setLatch_cal (s : State) (req a : Nat) (v : Option Word) : (s.setLatch req a v).cal = s.cal := rfl
@[simp] theorem State.setLatch_cel (s : State) (req a : Nat) (v : Option Word) : (s.setLatch req a v).cel = s.cel := rfl
@[simp] theorem State.setLatch_lan (s : State) (req a : Nat) (v : Option Word) : (s.setLatch req a v).lan = s.lan := rfl
@[simp] theorem State.setLatch_ring (s : State) (req a : Nat) (v : Option Word) : (s.setLatch req a v).ring = s.ring := rfl
@[simp] theorem State.setLatch_tk (s : State) (req a : Nat) (v : Option Word) : (s.setLatch req a v).tk = s.tk := rfl
@[simp] theorem State.setLatch_bel (s : State) (req a : Nat) (v : Option Word) : (s.setLatch req a v).bel = s.bel := rfl

/-! `State.setStaged` changes `staged` and nothing else. -/

@[simp] theorem State.setStaged_cycle (s : State) (req a : Nat) (v : Option Word) : (s.setStaged req a v).cycle = s.cycle := rfl
@[simp] theorem State.setStaged_regs (s : State) (req a : Nat) (v : Option Word) : (s.setStaged req a v).regs = s.regs := rfl
@[simp] theorem State.setStaged_mem (s : State) (req a : Nat) (v : Option Word) : (s.setStaged req a v).mem = s.mem := rfl
@[simp] theorem State.setStaged_pending (s : State) (req a : Nat) (v : Option Word) : (s.setStaged req a v).pending = s.pending := rfl
@[simp] theorem State.setStaged_lastRead (s : State) (req a : Nat) (v : Option Word) : (s.setStaged req a v).lastRead = s.lastRead := rfl
@[simp] theorem State.setStaged_fresh (s : State) (req a : Nat) (v : Option Word) : (s.setStaged req a v).fresh = s.fresh := rfl
@[simp] theorem State.setStaged_grids (s : State) (req a : Nat) (v : Option Word) : (s.setStaged req a v).grids = s.grids := rfl
@[simp] theorem State.setStaged_latches (s : State) (req a : Nat) (v : Option Word) : (s.setStaged req a v).latches = s.latches := rfl
@[simp] theorem State.setStaged_ctl (s : State) (req a : Nat) (v : Option Word) : (s.setStaged req a v).ctl = s.ctl := rfl
@[simp] theorem State.setStaged_tbs (s : State) (req a : Nat) (v : Option Word) : (s.setStaged req a v).tbs = s.tbs := rfl
@[simp] theorem State.setStaged_gal (s : State) (req a : Nat) (v : Option Word) : (s.setStaged req a v).gal = s.gal := rfl
@[simp] theorem State.setStaged_msix (s : State) (req a : Nat) (v : Option Word) : (s.setStaged req a v).msix = s.msix := rfl
@[simp] theorem State.setStaged_sat (s : State) (req a : Nat) (v : Option Word) : (s.setStaged req a v).sat = s.sat := rfl
@[simp] theorem State.setStaged_host (s : State) (req a : Nat) (v : Option Word) : (s.setStaged req a v).host = s.host := rfl
@[simp] theorem State.setStaged_cor (s : State) (req a : Nat) (v : Option Word) : (s.setStaged req a v).cor = s.cor := rfl
@[simp] theorem State.setStaged_prune (s : State) (req a : Nat) (v : Option Word) : (s.setStaged req a v).prune = s.prune := rfl
@[simp] theorem State.setStaged_bur (s : State) (req a : Nat) (v : Option Word) : (s.setStaged req a v).bur = s.bur := rfl
@[simp] theorem State.setStaged_ttb (s : State) (req a : Nat) (v : Option Word) : (s.setStaged req a v).ttb = s.ttb := rfl
@[simp] theorem State.setStaged_chn (s : State) (req a : Nat) (v : Option Word) : (s.setStaged req a v).chn = s.chn := rfl
@[simp] theorem State.setStaged_sq (s : State) (req a : Nat) (v : Option Word) : (s.setStaged req a v).sq = s.sq := rfl
@[simp] theorem State.setStaged_cmp (s : State) (req a : Nat) (v : Option Word) : (s.setStaged req a v).cmp = s.cmp := rfl
@[simp] theorem State.setStaged_flw (s : State) (req a : Nat) (v : Option Word) : (s.setStaged req a v).flw = s.flw := rfl
@[simp] theorem State.setStaged_tim (s : State) (req a : Nat) (v : Option Word) : (s.setStaged req a v).tim = s.tim := rfl
@[simp] theorem State.setStaged_chk (s : State) (req a : Nat) (v : Option Word) : (s.setStaged req a v).chk = s.chk := rfl
@[simp] theorem State.setStaged_cal (s : State) (req a : Nat) (v : Option Word) : (s.setStaged req a v).cal = s.cal := rfl
@[simp] theorem State.setStaged_cel (s : State) (req a : Nat) (v : Option Word) : (s.setStaged req a v).cel = s.cel := rfl
@[simp] theorem State.setStaged_lan (s : State) (req a : Nat) (v : Option Word) : (s.setStaged req a v).lan = s.lan := rfl
@[simp] theorem State.setStaged_ring (s : State) (req a : Nat) (v : Option Word) : (s.setStaged req a v).ring = s.ring := rfl
@[simp] theorem State.setStaged_tk (s : State) (req a : Nat) (v : Option Word) : (s.setStaged req a v).tk = s.tk := rfl
@[simp] theorem State.setStaged_bel (s : State) (req a : Nat) (v : Option Word) : (s.setStaged req a v).bel = s.bel := rfl

/-! `State.setTk` changes `tk` and nothing else. -/

@[simp] theorem State.setTk_cycle (s : State) (k : TimeKeep) : (s.setTk k).cycle = s.cycle := rfl
@[simp] theorem State.setTk_regs (s : State) (k : TimeKeep) : (s.setTk k).regs = s.regs := rfl
@[simp] theorem State.setTk_mem (s : State) (k : TimeKeep) : (s.setTk k).mem = s.mem := rfl
@[simp] theorem State.setTk_pending (s : State) (k : TimeKeep) : (s.setTk k).pending = s.pending := rfl
@[simp] theorem State.setTk_lastRead (s : State) (k : TimeKeep) : (s.setTk k).lastRead = s.lastRead := rfl
@[simp] theorem State.setTk_fresh (s : State) (k : TimeKeep) : (s.setTk k).fresh = s.fresh := rfl
@[simp] theorem State.setTk_grids (s : State) (k : TimeKeep) : (s.setTk k).grids = s.grids := rfl
@[simp] theorem State.setTk_latches (s : State) (k : TimeKeep) : (s.setTk k).latches = s.latches := rfl
@[simp] theorem State.setTk_staged (s : State) (k : TimeKeep) : (s.setTk k).staged = s.staged := rfl
@[simp] theorem State.setTk_ctl (s : State) (k : TimeKeep) : (s.setTk k).ctl = s.ctl := rfl
@[simp] theorem State.setTk_tbs (s : State) (k : TimeKeep) : (s.setTk k).tbs = s.tbs := rfl
@[simp] theorem State.setTk_gal (s : State) (k : TimeKeep) : (s.setTk k).gal = s.gal := rfl
@[simp] theorem State.setTk_msix (s : State) (k : TimeKeep) : (s.setTk k).msix = s.msix := rfl
@[simp] theorem State.setTk_sat (s : State) (k : TimeKeep) : (s.setTk k).sat = s.sat := rfl
@[simp] theorem State.setTk_host (s : State) (k : TimeKeep) : (s.setTk k).host = s.host := rfl
@[simp] theorem State.setTk_cor (s : State) (k : TimeKeep) : (s.setTk k).cor = s.cor := rfl
@[simp] theorem State.setTk_prune (s : State) (k : TimeKeep) : (s.setTk k).prune = s.prune := rfl
@[simp] theorem State.setTk_bur (s : State) (k : TimeKeep) : (s.setTk k).bur = s.bur := rfl
@[simp] theorem State.setTk_ttb (s : State) (k : TimeKeep) : (s.setTk k).ttb = s.ttb := rfl
@[simp] theorem State.setTk_chn (s : State) (k : TimeKeep) : (s.setTk k).chn = s.chn := rfl
@[simp] theorem State.setTk_sq (s : State) (k : TimeKeep) : (s.setTk k).sq = s.sq := rfl
@[simp] theorem State.setTk_cmp (s : State) (k : TimeKeep) : (s.setTk k).cmp = s.cmp := rfl
@[simp] theorem State.setTk_flw (s : State) (k : TimeKeep) : (s.setTk k).flw = s.flw := rfl
@[simp] theorem State.setTk_tim (s : State) (k : TimeKeep) : (s.setTk k).tim = s.tim := rfl
@[simp] theorem State.setTk_chk (s : State) (k : TimeKeep) : (s.setTk k).chk = s.chk := rfl
@[simp] theorem State.setTk_cal (s : State) (k : TimeKeep) : (s.setTk k).cal = s.cal := rfl
@[simp] theorem State.setTk_cel (s : State) (k : TimeKeep) : (s.setTk k).cel = s.cel := rfl
@[simp] theorem State.setTk_lan (s : State) (k : TimeKeep) : (s.setTk k).lan = s.lan := rfl
@[simp] theorem State.setTk_ring (s : State) (k : TimeKeep) : (s.setTk k).ring = s.ring := rfl
@[simp] theorem State.setTk_bel (s : State) (k : TimeKeep) : (s.setTk k).bel = s.bel := rfl
@[simp] theorem State.setTk_tk (s : State) (k : TimeKeep) : (s.setTk k).tk = k := rfl

/-! `State.keepForce` changes `chn` and nothing else. -/

@[simp] theorem State.keepForce_cycle (s : State) (a : Nat) : (s.keepForce a).cycle = s.cycle := rfl
@[simp] theorem State.keepForce_regs (s : State) (a : Nat) : (s.keepForce a).regs = s.regs := rfl
@[simp] theorem State.keepForce_mem (s : State) (a : Nat) : (s.keepForce a).mem = s.mem := rfl
@[simp] theorem State.keepForce_pending (s : State) (a : Nat) : (s.keepForce a).pending = s.pending := rfl
@[simp] theorem State.keepForce_lastRead (s : State) (a : Nat) : (s.keepForce a).lastRead = s.lastRead := rfl
@[simp] theorem State.keepForce_fresh (s : State) (a : Nat) : (s.keepForce a).fresh = s.fresh := rfl
@[simp] theorem State.keepForce_grids (s : State) (a : Nat) : (s.keepForce a).grids = s.grids := rfl
@[simp] theorem State.keepForce_latches (s : State) (a : Nat) : (s.keepForce a).latches = s.latches := rfl
@[simp] theorem State.keepForce_staged (s : State) (a : Nat) : (s.keepForce a).staged = s.staged := rfl
@[simp] theorem State.keepForce_ctl (s : State) (a : Nat) : (s.keepForce a).ctl = s.ctl := rfl
@[simp] theorem State.keepForce_tbs (s : State) (a : Nat) : (s.keepForce a).tbs = s.tbs := rfl
@[simp] theorem State.keepForce_gal (s : State) (a : Nat) : (s.keepForce a).gal = s.gal := rfl
@[simp] theorem State.keepForce_msix (s : State) (a : Nat) : (s.keepForce a).msix = s.msix := rfl
@[simp] theorem State.keepForce_sat (s : State) (a : Nat) : (s.keepForce a).sat = s.sat := rfl
@[simp] theorem State.keepForce_host (s : State) (a : Nat) : (s.keepForce a).host = s.host := rfl
@[simp] theorem State.keepForce_cor (s : State) (a : Nat) : (s.keepForce a).cor = s.cor := rfl
@[simp] theorem State.keepForce_prune (s : State) (a : Nat) : (s.keepForce a).prune = s.prune := rfl
@[simp] theorem State.keepForce_bur (s : State) (a : Nat) : (s.keepForce a).bur = s.bur := rfl
@[simp] theorem State.keepForce_ttb (s : State) (a : Nat) : (s.keepForce a).ttb = s.ttb := rfl
@[simp] theorem State.keepForce_sq (s : State) (a : Nat) : (s.keepForce a).sq = s.sq := rfl
@[simp] theorem State.keepForce_cmp (s : State) (a : Nat) : (s.keepForce a).cmp = s.cmp := rfl
@[simp] theorem State.keepForce_flw (s : State) (a : Nat) : (s.keepForce a).flw = s.flw := rfl
@[simp] theorem State.keepForce_tim (s : State) (a : Nat) : (s.keepForce a).tim = s.tim := rfl
@[simp] theorem State.keepForce_chk (s : State) (a : Nat) : (s.keepForce a).chk = s.chk := rfl
@[simp] theorem State.keepForce_cal (s : State) (a : Nat) : (s.keepForce a).cal = s.cal := rfl
@[simp] theorem State.keepForce_cel (s : State) (a : Nat) : (s.keepForce a).cel = s.cel := rfl
@[simp] theorem State.keepForce_lan (s : State) (a : Nat) : (s.keepForce a).lan = s.lan := rfl
@[simp] theorem State.keepForce_ring (s : State) (a : Nat) : (s.keepForce a).ring = s.ring := rfl
@[simp] theorem State.keepForce_tk (s : State) (a : Nat) : (s.keepForce a).tk = s.tk := rfl
@[simp] theorem State.keepForce_bel (s : State) (a : Nat) : (s.keepForce a).bel = s.bel := rfl

/-! `State.dropForce` changes `chn` and nothing else. -/

@[simp] theorem State.dropForce_cycle (s : State) (a : Nat) : (s.dropForce a).cycle = s.cycle := rfl
@[simp] theorem State.dropForce_regs (s : State) (a : Nat) : (s.dropForce a).regs = s.regs := rfl
@[simp] theorem State.dropForce_mem (s : State) (a : Nat) : (s.dropForce a).mem = s.mem := rfl
@[simp] theorem State.dropForce_pending (s : State) (a : Nat) : (s.dropForce a).pending = s.pending := rfl
@[simp] theorem State.dropForce_lastRead (s : State) (a : Nat) : (s.dropForce a).lastRead = s.lastRead := rfl
@[simp] theorem State.dropForce_fresh (s : State) (a : Nat) : (s.dropForce a).fresh = s.fresh := rfl
@[simp] theorem State.dropForce_grids (s : State) (a : Nat) : (s.dropForce a).grids = s.grids := rfl
@[simp] theorem State.dropForce_latches (s : State) (a : Nat) : (s.dropForce a).latches = s.latches := rfl
@[simp] theorem State.dropForce_staged (s : State) (a : Nat) : (s.dropForce a).staged = s.staged := rfl
@[simp] theorem State.dropForce_ctl (s : State) (a : Nat) : (s.dropForce a).ctl = s.ctl := rfl
@[simp] theorem State.dropForce_tbs (s : State) (a : Nat) : (s.dropForce a).tbs = s.tbs := rfl
@[simp] theorem State.dropForce_gal (s : State) (a : Nat) : (s.dropForce a).gal = s.gal := rfl
@[simp] theorem State.dropForce_msix (s : State) (a : Nat) : (s.dropForce a).msix = s.msix := rfl
@[simp] theorem State.dropForce_sat (s : State) (a : Nat) : (s.dropForce a).sat = s.sat := rfl
@[simp] theorem State.dropForce_host (s : State) (a : Nat) : (s.dropForce a).host = s.host := rfl
@[simp] theorem State.dropForce_cor (s : State) (a : Nat) : (s.dropForce a).cor = s.cor := rfl
@[simp] theorem State.dropForce_prune (s : State) (a : Nat) : (s.dropForce a).prune = s.prune := rfl
@[simp] theorem State.dropForce_bur (s : State) (a : Nat) : (s.dropForce a).bur = s.bur := rfl
@[simp] theorem State.dropForce_ttb (s : State) (a : Nat) : (s.dropForce a).ttb = s.ttb := rfl
@[simp] theorem State.dropForce_sq (s : State) (a : Nat) : (s.dropForce a).sq = s.sq := rfl
@[simp] theorem State.dropForce_cmp (s : State) (a : Nat) : (s.dropForce a).cmp = s.cmp := rfl
@[simp] theorem State.dropForce_flw (s : State) (a : Nat) : (s.dropForce a).flw = s.flw := rfl
@[simp] theorem State.dropForce_tim (s : State) (a : Nat) : (s.dropForce a).tim = s.tim := rfl
@[simp] theorem State.dropForce_chk (s : State) (a : Nat) : (s.dropForce a).chk = s.chk := rfl
@[simp] theorem State.dropForce_cal (s : State) (a : Nat) : (s.dropForce a).cal = s.cal := rfl
@[simp] theorem State.dropForce_cel (s : State) (a : Nat) : (s.dropForce a).cel = s.cel := rfl
@[simp] theorem State.dropForce_lan (s : State) (a : Nat) : (s.dropForce a).lan = s.lan := rfl
@[simp] theorem State.dropForce_ring (s : State) (a : Nat) : (s.dropForce a).ring = s.ring := rfl
@[simp] theorem State.dropForce_tk (s : State) (a : Nat) : (s.dropForce a).tk = s.tk := rfl
@[simp] theorem State.dropForce_bel (s : State) (a : Nat) : (s.dropForce a).bel = s.bel := rfl

/-! `State.setEdges` changes `chn` and nothing else. -/

@[simp] theorem State.setEdges_cycle (s : State) (n : Nat) (e : ChanEdges) : (s.setEdges n e).cycle = s.cycle := rfl
@[simp] theorem State.setEdges_regs (s : State) (n : Nat) (e : ChanEdges) : (s.setEdges n e).regs = s.regs := rfl
@[simp] theorem State.setEdges_mem (s : State) (n : Nat) (e : ChanEdges) : (s.setEdges n e).mem = s.mem := rfl
@[simp] theorem State.setEdges_pending (s : State) (n : Nat) (e : ChanEdges) : (s.setEdges n e).pending = s.pending := rfl
@[simp] theorem State.setEdges_lastRead (s : State) (n : Nat) (e : ChanEdges) : (s.setEdges n e).lastRead = s.lastRead := rfl
@[simp] theorem State.setEdges_fresh (s : State) (n : Nat) (e : ChanEdges) : (s.setEdges n e).fresh = s.fresh := rfl
@[simp] theorem State.setEdges_grids (s : State) (n : Nat) (e : ChanEdges) : (s.setEdges n e).grids = s.grids := rfl
@[simp] theorem State.setEdges_latches (s : State) (n : Nat) (e : ChanEdges) : (s.setEdges n e).latches = s.latches := rfl
@[simp] theorem State.setEdges_staged (s : State) (n : Nat) (e : ChanEdges) : (s.setEdges n e).staged = s.staged := rfl
@[simp] theorem State.setEdges_ctl (s : State) (n : Nat) (e : ChanEdges) : (s.setEdges n e).ctl = s.ctl := rfl
@[simp] theorem State.setEdges_tbs (s : State) (n : Nat) (e : ChanEdges) : (s.setEdges n e).tbs = s.tbs := rfl
@[simp] theorem State.setEdges_gal (s : State) (n : Nat) (e : ChanEdges) : (s.setEdges n e).gal = s.gal := rfl
@[simp] theorem State.setEdges_msix (s : State) (n : Nat) (e : ChanEdges) : (s.setEdges n e).msix = s.msix := rfl
@[simp] theorem State.setEdges_sat (s : State) (n : Nat) (e : ChanEdges) : (s.setEdges n e).sat = s.sat := rfl
@[simp] theorem State.setEdges_host (s : State) (n : Nat) (e : ChanEdges) : (s.setEdges n e).host = s.host := rfl
@[simp] theorem State.setEdges_cor (s : State) (n : Nat) (e : ChanEdges) : (s.setEdges n e).cor = s.cor := rfl
@[simp] theorem State.setEdges_prune (s : State) (n : Nat) (e : ChanEdges) : (s.setEdges n e).prune = s.prune := rfl
@[simp] theorem State.setEdges_bur (s : State) (n : Nat) (e : ChanEdges) : (s.setEdges n e).bur = s.bur := rfl
@[simp] theorem State.setEdges_ttb (s : State) (n : Nat) (e : ChanEdges) : (s.setEdges n e).ttb = s.ttb := rfl
@[simp] theorem State.setEdges_sq (s : State) (n : Nat) (e : ChanEdges) : (s.setEdges n e).sq = s.sq := rfl
@[simp] theorem State.setEdges_cmp (s : State) (n : Nat) (e : ChanEdges) : (s.setEdges n e).cmp = s.cmp := rfl
@[simp] theorem State.setEdges_flw (s : State) (n : Nat) (e : ChanEdges) : (s.setEdges n e).flw = s.flw := rfl
@[simp] theorem State.setEdges_tim (s : State) (n : Nat) (e : ChanEdges) : (s.setEdges n e).tim = s.tim := rfl
@[simp] theorem State.setEdges_chk (s : State) (n : Nat) (e : ChanEdges) : (s.setEdges n e).chk = s.chk := rfl
@[simp] theorem State.setEdges_cal (s : State) (n : Nat) (e : ChanEdges) : (s.setEdges n e).cal = s.cal := rfl
@[simp] theorem State.setEdges_cel (s : State) (n : Nat) (e : ChanEdges) : (s.setEdges n e).cel = s.cel := rfl
@[simp] theorem State.setEdges_lan (s : State) (n : Nat) (e : ChanEdges) : (s.setEdges n e).lan = s.lan := rfl
@[simp] theorem State.setEdges_ring (s : State) (n : Nat) (e : ChanEdges) : (s.setEdges n e).ring = s.ring := rfl
@[simp] theorem State.setEdges_tk (s : State) (n : Nat) (e : ChanEdges) : (s.setEdges n e).tk = s.tk := rfl
@[simp] theorem State.setEdges_bel (s : State) (n : Nat) (e : ChanEdges) : (s.setEdges n e).bel = s.bel := rfl

/-! `State.setPec` changes `chn` and nothing else. -/

@[simp] theorem State.setPec_cycle (s : State) (b : Nat) (p : Pec) : (s.setPec b p).cycle = s.cycle := rfl
@[simp] theorem State.setPec_regs (s : State) (b : Nat) (p : Pec) : (s.setPec b p).regs = s.regs := rfl
@[simp] theorem State.setPec_mem (s : State) (b : Nat) (p : Pec) : (s.setPec b p).mem = s.mem := rfl
@[simp] theorem State.setPec_pending (s : State) (b : Nat) (p : Pec) : (s.setPec b p).pending = s.pending := rfl
@[simp] theorem State.setPec_lastRead (s : State) (b : Nat) (p : Pec) : (s.setPec b p).lastRead = s.lastRead := rfl
@[simp] theorem State.setPec_fresh (s : State) (b : Nat) (p : Pec) : (s.setPec b p).fresh = s.fresh := rfl
@[simp] theorem State.setPec_grids (s : State) (b : Nat) (p : Pec) : (s.setPec b p).grids = s.grids := rfl
@[simp] theorem State.setPec_latches (s : State) (b : Nat) (p : Pec) : (s.setPec b p).latches = s.latches := rfl
@[simp] theorem State.setPec_staged (s : State) (b : Nat) (p : Pec) : (s.setPec b p).staged = s.staged := rfl
@[simp] theorem State.setPec_ctl (s : State) (b : Nat) (p : Pec) : (s.setPec b p).ctl = s.ctl := rfl
@[simp] theorem State.setPec_tbs (s : State) (b : Nat) (p : Pec) : (s.setPec b p).tbs = s.tbs := rfl
@[simp] theorem State.setPec_gal (s : State) (b : Nat) (p : Pec) : (s.setPec b p).gal = s.gal := rfl
@[simp] theorem State.setPec_msix (s : State) (b : Nat) (p : Pec) : (s.setPec b p).msix = s.msix := rfl
@[simp] theorem State.setPec_sat (s : State) (b : Nat) (p : Pec) : (s.setPec b p).sat = s.sat := rfl
@[simp] theorem State.setPec_host (s : State) (b : Nat) (p : Pec) : (s.setPec b p).host = s.host := rfl
@[simp] theorem State.setPec_cor (s : State) (b : Nat) (p : Pec) : (s.setPec b p).cor = s.cor := rfl
@[simp] theorem State.setPec_prune (s : State) (b : Nat) (p : Pec) : (s.setPec b p).prune = s.prune := rfl
@[simp] theorem State.setPec_bur (s : State) (b : Nat) (p : Pec) : (s.setPec b p).bur = s.bur := rfl
@[simp] theorem State.setPec_ttb (s : State) (b : Nat) (p : Pec) : (s.setPec b p).ttb = s.ttb := rfl
@[simp] theorem State.setPec_sq (s : State) (b : Nat) (p : Pec) : (s.setPec b p).sq = s.sq := rfl
@[simp] theorem State.setPec_cmp (s : State) (b : Nat) (p : Pec) : (s.setPec b p).cmp = s.cmp := rfl
@[simp] theorem State.setPec_flw (s : State) (b : Nat) (p : Pec) : (s.setPec b p).flw = s.flw := rfl
@[simp] theorem State.setPec_tim (s : State) (b : Nat) (p : Pec) : (s.setPec b p).tim = s.tim := rfl
@[simp] theorem State.setPec_chk (s : State) (b : Nat) (p : Pec) : (s.setPec b p).chk = s.chk := rfl
@[simp] theorem State.setPec_cal (s : State) (b : Nat) (p : Pec) : (s.setPec b p).cal = s.cal := rfl
@[simp] theorem State.setPec_cel (s : State) (b : Nat) (p : Pec) : (s.setPec b p).cel = s.cel := rfl
@[simp] theorem State.setPec_lan (s : State) (b : Nat) (p : Pec) : (s.setPec b p).lan = s.lan := rfl
@[simp] theorem State.setPec_ring (s : State) (b : Nat) (p : Pec) : (s.setPec b p).ring = s.ring := rfl
@[simp] theorem State.setPec_tk (s : State) (b : Nat) (p : Pec) : (s.setPec b p).tk = s.tk := rfl
@[simp] theorem State.setPec_bel (s : State) (b : Nat) (p : Pec) : (s.setPec b p).bel = s.bel := rfl

/-! `State.setSeq` changes `sq` and nothing else. -/

@[simp] theorem State.setSeq_cycle (s : State) (q : Nat) (x : Seq) : (s.setSeq q x).cycle = s.cycle := rfl
@[simp] theorem State.setSeq_regs (s : State) (q : Nat) (x : Seq) : (s.setSeq q x).regs = s.regs := rfl
@[simp] theorem State.setSeq_mem (s : State) (q : Nat) (x : Seq) : (s.setSeq q x).mem = s.mem := rfl
@[simp] theorem State.setSeq_pending (s : State) (q : Nat) (x : Seq) : (s.setSeq q x).pending = s.pending := rfl
@[simp] theorem State.setSeq_lastRead (s : State) (q : Nat) (x : Seq) : (s.setSeq q x).lastRead = s.lastRead := rfl
@[simp] theorem State.setSeq_fresh (s : State) (q : Nat) (x : Seq) : (s.setSeq q x).fresh = s.fresh := rfl
@[simp] theorem State.setSeq_grids (s : State) (q : Nat) (x : Seq) : (s.setSeq q x).grids = s.grids := rfl
@[simp] theorem State.setSeq_latches (s : State) (q : Nat) (x : Seq) : (s.setSeq q x).latches = s.latches := rfl
@[simp] theorem State.setSeq_staged (s : State) (q : Nat) (x : Seq) : (s.setSeq q x).staged = s.staged := rfl
@[simp] theorem State.setSeq_ctl (s : State) (q : Nat) (x : Seq) : (s.setSeq q x).ctl = s.ctl := rfl
@[simp] theorem State.setSeq_tbs (s : State) (q : Nat) (x : Seq) : (s.setSeq q x).tbs = s.tbs := rfl
@[simp] theorem State.setSeq_gal (s : State) (q : Nat) (x : Seq) : (s.setSeq q x).gal = s.gal := rfl
@[simp] theorem State.setSeq_msix (s : State) (q : Nat) (x : Seq) : (s.setSeq q x).msix = s.msix := rfl
@[simp] theorem State.setSeq_sat (s : State) (q : Nat) (x : Seq) : (s.setSeq q x).sat = s.sat := rfl
@[simp] theorem State.setSeq_host (s : State) (q : Nat) (x : Seq) : (s.setSeq q x).host = s.host := rfl
@[simp] theorem State.setSeq_cor (s : State) (q : Nat) (x : Seq) : (s.setSeq q x).cor = s.cor := rfl
@[simp] theorem State.setSeq_prune (s : State) (q : Nat) (x : Seq) : (s.setSeq q x).prune = s.prune := rfl
@[simp] theorem State.setSeq_bur (s : State) (q : Nat) (x : Seq) : (s.setSeq q x).bur = s.bur := rfl
@[simp] theorem State.setSeq_ttb (s : State) (q : Nat) (x : Seq) : (s.setSeq q x).ttb = s.ttb := rfl
@[simp] theorem State.setSeq_chn (s : State) (q : Nat) (x : Seq) : (s.setSeq q x).chn = s.chn := rfl
@[simp] theorem State.setSeq_cmp (s : State) (q : Nat) (x : Seq) : (s.setSeq q x).cmp = s.cmp := rfl
@[simp] theorem State.setSeq_flw (s : State) (q : Nat) (x : Seq) : (s.setSeq q x).flw = s.flw := rfl
@[simp] theorem State.setSeq_tim (s : State) (q : Nat) (x : Seq) : (s.setSeq q x).tim = s.tim := rfl
@[simp] theorem State.setSeq_chk (s : State) (q : Nat) (x : Seq) : (s.setSeq q x).chk = s.chk := rfl
@[simp] theorem State.setSeq_cal (s : State) (q : Nat) (x : Seq) : (s.setSeq q x).cal = s.cal := rfl
@[simp] theorem State.setSeq_cel (s : State) (q : Nat) (x : Seq) : (s.setSeq q x).cel = s.cel := rfl
@[simp] theorem State.setSeq_lan (s : State) (q : Nat) (x : Seq) : (s.setSeq q x).lan = s.lan := rfl
@[simp] theorem State.setSeq_ring (s : State) (q : Nat) (x : Seq) : (s.setSeq q x).ring = s.ring := rfl
@[simp] theorem State.setSeq_tk (s : State) (q : Nat) (x : Seq) : (s.setSeq q x).tk = s.tk := rfl
@[simp] theorem State.setSeq_bel (s : State) (q : Nat) (x : Seq) : (s.setSeq q x).bel = s.bel := rfl

/-! `State.setSlice` changes `sq` and nothing else. -/

@[simp] theorem State.setSlice_cycle (s : State) (d : Nat) (x : Slice) : (s.setSlice d x).cycle = s.cycle := rfl
@[simp] theorem State.setSlice_regs (s : State) (d : Nat) (x : Slice) : (s.setSlice d x).regs = s.regs := rfl
@[simp] theorem State.setSlice_mem (s : State) (d : Nat) (x : Slice) : (s.setSlice d x).mem = s.mem := rfl
@[simp] theorem State.setSlice_pending (s : State) (d : Nat) (x : Slice) : (s.setSlice d x).pending = s.pending := rfl
@[simp] theorem State.setSlice_lastRead (s : State) (d : Nat) (x : Slice) : (s.setSlice d x).lastRead = s.lastRead := rfl
@[simp] theorem State.setSlice_fresh (s : State) (d : Nat) (x : Slice) : (s.setSlice d x).fresh = s.fresh := rfl
@[simp] theorem State.setSlice_grids (s : State) (d : Nat) (x : Slice) : (s.setSlice d x).grids = s.grids := rfl
@[simp] theorem State.setSlice_latches (s : State) (d : Nat) (x : Slice) : (s.setSlice d x).latches = s.latches := rfl
@[simp] theorem State.setSlice_staged (s : State) (d : Nat) (x : Slice) : (s.setSlice d x).staged = s.staged := rfl
@[simp] theorem State.setSlice_ctl (s : State) (d : Nat) (x : Slice) : (s.setSlice d x).ctl = s.ctl := rfl
@[simp] theorem State.setSlice_tbs (s : State) (d : Nat) (x : Slice) : (s.setSlice d x).tbs = s.tbs := rfl
@[simp] theorem State.setSlice_gal (s : State) (d : Nat) (x : Slice) : (s.setSlice d x).gal = s.gal := rfl
@[simp] theorem State.setSlice_msix (s : State) (d : Nat) (x : Slice) : (s.setSlice d x).msix = s.msix := rfl
@[simp] theorem State.setSlice_sat (s : State) (d : Nat) (x : Slice) : (s.setSlice d x).sat = s.sat := rfl
@[simp] theorem State.setSlice_host (s : State) (d : Nat) (x : Slice) : (s.setSlice d x).host = s.host := rfl
@[simp] theorem State.setSlice_cor (s : State) (d : Nat) (x : Slice) : (s.setSlice d x).cor = s.cor := rfl
@[simp] theorem State.setSlice_prune (s : State) (d : Nat) (x : Slice) : (s.setSlice d x).prune = s.prune := rfl
@[simp] theorem State.setSlice_bur (s : State) (d : Nat) (x : Slice) : (s.setSlice d x).bur = s.bur := rfl
@[simp] theorem State.setSlice_ttb (s : State) (d : Nat) (x : Slice) : (s.setSlice d x).ttb = s.ttb := rfl
@[simp] theorem State.setSlice_chn (s : State) (d : Nat) (x : Slice) : (s.setSlice d x).chn = s.chn := rfl
@[simp] theorem State.setSlice_cmp (s : State) (d : Nat) (x : Slice) : (s.setSlice d x).cmp = s.cmp := rfl
@[simp] theorem State.setSlice_flw (s : State) (d : Nat) (x : Slice) : (s.setSlice d x).flw = s.flw := rfl
@[simp] theorem State.setSlice_tim (s : State) (d : Nat) (x : Slice) : (s.setSlice d x).tim = s.tim := rfl
@[simp] theorem State.setSlice_chk (s : State) (d : Nat) (x : Slice) : (s.setSlice d x).chk = s.chk := rfl
@[simp] theorem State.setSlice_cal (s : State) (d : Nat) (x : Slice) : (s.setSlice d x).cal = s.cal := rfl
@[simp] theorem State.setSlice_cel (s : State) (d : Nat) (x : Slice) : (s.setSlice d x).cel = s.cel := rfl
@[simp] theorem State.setSlice_lan (s : State) (d : Nat) (x : Slice) : (s.setSlice d x).lan = s.lan := rfl
@[simp] theorem State.setSlice_ring (s : State) (d : Nat) (x : Slice) : (s.setSlice d x).ring = s.ring := rfl
@[simp] theorem State.setSlice_tk (s : State) (d : Nat) (x : Slice) : (s.setSlice d x).tk = s.tk := rfl
@[simp] theorem State.setSlice_bel (s : State) (d : Nat) (x : Slice) : (s.setSlice d x).bel = s.bel := rfl

/-! `State.setTrace` changes `gal` and nothing else. -/

@[simp] theorem State.setTrace_cycle (s : State) (t : Trace) : (s.setTrace t).cycle = s.cycle := rfl
@[simp] theorem State.setTrace_regs (s : State) (t : Trace) : (s.setTrace t).regs = s.regs := rfl
@[simp] theorem State.setTrace_mem (s : State) (t : Trace) : (s.setTrace t).mem = s.mem := rfl
@[simp] theorem State.setTrace_pending (s : State) (t : Trace) : (s.setTrace t).pending = s.pending := rfl
@[simp] theorem State.setTrace_lastRead (s : State) (t : Trace) : (s.setTrace t).lastRead = s.lastRead := rfl
@[simp] theorem State.setTrace_fresh (s : State) (t : Trace) : (s.setTrace t).fresh = s.fresh := rfl
@[simp] theorem State.setTrace_grids (s : State) (t : Trace) : (s.setTrace t).grids = s.grids := rfl
@[simp] theorem State.setTrace_latches (s : State) (t : Trace) : (s.setTrace t).latches = s.latches := rfl
@[simp] theorem State.setTrace_staged (s : State) (t : Trace) : (s.setTrace t).staged = s.staged := rfl
@[simp] theorem State.setTrace_ctl (s : State) (t : Trace) : (s.setTrace t).ctl = s.ctl := rfl
@[simp] theorem State.setTrace_tbs (s : State) (t : Trace) : (s.setTrace t).tbs = s.tbs := rfl
@[simp] theorem State.setTrace_msix (s : State) (t : Trace) : (s.setTrace t).msix = s.msix := rfl
@[simp] theorem State.setTrace_sat (s : State) (t : Trace) : (s.setTrace t).sat = s.sat := rfl
@[simp] theorem State.setTrace_host (s : State) (t : Trace) : (s.setTrace t).host = s.host := rfl
@[simp] theorem State.setTrace_cor (s : State) (t : Trace) : (s.setTrace t).cor = s.cor := rfl
@[simp] theorem State.setTrace_prune (s : State) (t : Trace) : (s.setTrace t).prune = s.prune := rfl
@[simp] theorem State.setTrace_bur (s : State) (t : Trace) : (s.setTrace t).bur = s.bur := rfl
@[simp] theorem State.setTrace_ttb (s : State) (t : Trace) : (s.setTrace t).ttb = s.ttb := rfl
@[simp] theorem State.setTrace_chn (s : State) (t : Trace) : (s.setTrace t).chn = s.chn := rfl
@[simp] theorem State.setTrace_sq (s : State) (t : Trace) : (s.setTrace t).sq = s.sq := rfl
@[simp] theorem State.setTrace_cmp (s : State) (t : Trace) : (s.setTrace t).cmp = s.cmp := rfl
@[simp] theorem State.setTrace_flw (s : State) (t : Trace) : (s.setTrace t).flw = s.flw := rfl
@[simp] theorem State.setTrace_tim (s : State) (t : Trace) : (s.setTrace t).tim = s.tim := rfl
@[simp] theorem State.setTrace_chk (s : State) (t : Trace) : (s.setTrace t).chk = s.chk := rfl
@[simp] theorem State.setTrace_cal (s : State) (t : Trace) : (s.setTrace t).cal = s.cal := rfl
@[simp] theorem State.setTrace_cel (s : State) (t : Trace) : (s.setTrace t).cel = s.cel := rfl
@[simp] theorem State.setTrace_lan (s : State) (t : Trace) : (s.setTrace t).lan = s.lan := rfl
@[simp] theorem State.setTrace_ring (s : State) (t : Trace) : (s.setTrace t).ring = s.ring := rfl
@[simp] theorem State.setTrace_tk (s : State) (t : Trace) : (s.setTrace t).tk = s.tk := rfl
@[simp] theorem State.setTrace_bel (s : State) (t : Trace) : (s.setTrace t).bel = s.bel := rfl

/-! `State.setTask` changes `ttb` and nothing else. -/

@[simp] theorem State.setTask_cycle (s : State) (i : Nat) (t : Task) : (s.setTask i t).cycle = s.cycle := rfl
@[simp] theorem State.setTask_regs (s : State) (i : Nat) (t : Task) : (s.setTask i t).regs = s.regs := rfl
@[simp] theorem State.setTask_mem (s : State) (i : Nat) (t : Task) : (s.setTask i t).mem = s.mem := rfl
@[simp] theorem State.setTask_pending (s : State) (i : Nat) (t : Task) : (s.setTask i t).pending = s.pending := rfl
@[simp] theorem State.setTask_lastRead (s : State) (i : Nat) (t : Task) : (s.setTask i t).lastRead = s.lastRead := rfl
@[simp] theorem State.setTask_fresh (s : State) (i : Nat) (t : Task) : (s.setTask i t).fresh = s.fresh := rfl
@[simp] theorem State.setTask_grids (s : State) (i : Nat) (t : Task) : (s.setTask i t).grids = s.grids := rfl
@[simp] theorem State.setTask_latches (s : State) (i : Nat) (t : Task) : (s.setTask i t).latches = s.latches := rfl
@[simp] theorem State.setTask_staged (s : State) (i : Nat) (t : Task) : (s.setTask i t).staged = s.staged := rfl
@[simp] theorem State.setTask_ctl (s : State) (i : Nat) (t : Task) : (s.setTask i t).ctl = s.ctl := rfl
@[simp] theorem State.setTask_tbs (s : State) (i : Nat) (t : Task) : (s.setTask i t).tbs = s.tbs := rfl
@[simp] theorem State.setTask_gal (s : State) (i : Nat) (t : Task) : (s.setTask i t).gal = s.gal := rfl
@[simp] theorem State.setTask_msix (s : State) (i : Nat) (t : Task) : (s.setTask i t).msix = s.msix := rfl
@[simp] theorem State.setTask_sat (s : State) (i : Nat) (t : Task) : (s.setTask i t).sat = s.sat := rfl
@[simp] theorem State.setTask_host (s : State) (i : Nat) (t : Task) : (s.setTask i t).host = s.host := rfl
@[simp] theorem State.setTask_cor (s : State) (i : Nat) (t : Task) : (s.setTask i t).cor = s.cor := rfl
@[simp] theorem State.setTask_prune (s : State) (i : Nat) (t : Task) : (s.setTask i t).prune = s.prune := rfl
@[simp] theorem State.setTask_bur (s : State) (i : Nat) (t : Task) : (s.setTask i t).bur = s.bur := rfl
@[simp] theorem State.setTask_chn (s : State) (i : Nat) (t : Task) : (s.setTask i t).chn = s.chn := rfl
@[simp] theorem State.setTask_sq (s : State) (i : Nat) (t : Task) : (s.setTask i t).sq = s.sq := rfl
@[simp] theorem State.setTask_cmp (s : State) (i : Nat) (t : Task) : (s.setTask i t).cmp = s.cmp := rfl
@[simp] theorem State.setTask_flw (s : State) (i : Nat) (t : Task) : (s.setTask i t).flw = s.flw := rfl
@[simp] theorem State.setTask_tim (s : State) (i : Nat) (t : Task) : (s.setTask i t).tim = s.tim := rfl
@[simp] theorem State.setTask_chk (s : State) (i : Nat) (t : Task) : (s.setTask i t).chk = s.chk := rfl
@[simp] theorem State.setTask_cal (s : State) (i : Nat) (t : Task) : (s.setTask i t).cal = s.cal := rfl
@[simp] theorem State.setTask_cel (s : State) (i : Nat) (t : Task) : (s.setTask i t).cel = s.cel := rfl
@[simp] theorem State.setTask_lan (s : State) (i : Nat) (t : Task) : (s.setTask i t).lan = s.lan := rfl
@[simp] theorem State.setTask_ring (s : State) (i : Nat) (t : Task) : (s.setTask i t).ring = s.ring := rfl
@[simp] theorem State.setTask_tk (s : State) (i : Nat) (t : Task) : (s.setTask i t).tk = s.tk := rfl
@[simp] theorem State.setTask_bel (s : State) (i : Nat) (t : Task) : (s.setTask i t).bel = s.bel := rfl

/-! `State.matchDone` changes `ttb` and nothing else. -/

@[simp] theorem State.matchDone_cycle (s : State) (n k : Nat) : (s.matchDone n k).cycle = s.cycle := rfl
@[simp] theorem State.matchDone_regs (s : State) (n k : Nat) : (s.matchDone n k).regs = s.regs := rfl
@[simp] theorem State.matchDone_mem (s : State) (n k : Nat) : (s.matchDone n k).mem = s.mem := rfl
@[simp] theorem State.matchDone_pending (s : State) (n k : Nat) : (s.matchDone n k).pending = s.pending := rfl
@[simp] theorem State.matchDone_lastRead (s : State) (n k : Nat) : (s.matchDone n k).lastRead = s.lastRead := rfl
@[simp] theorem State.matchDone_fresh (s : State) (n k : Nat) : (s.matchDone n k).fresh = s.fresh := rfl
@[simp] theorem State.matchDone_grids (s : State) (n k : Nat) : (s.matchDone n k).grids = s.grids := rfl
@[simp] theorem State.matchDone_latches (s : State) (n k : Nat) : (s.matchDone n k).latches = s.latches := rfl
@[simp] theorem State.matchDone_staged (s : State) (n k : Nat) : (s.matchDone n k).staged = s.staged := rfl
@[simp] theorem State.matchDone_ctl (s : State) (n k : Nat) : (s.matchDone n k).ctl = s.ctl := rfl
@[simp] theorem State.matchDone_tbs (s : State) (n k : Nat) : (s.matchDone n k).tbs = s.tbs := rfl
@[simp] theorem State.matchDone_gal (s : State) (n k : Nat) : (s.matchDone n k).gal = s.gal := rfl
@[simp] theorem State.matchDone_msix (s : State) (n k : Nat) : (s.matchDone n k).msix = s.msix := rfl
@[simp] theorem State.matchDone_sat (s : State) (n k : Nat) : (s.matchDone n k).sat = s.sat := rfl
@[simp] theorem State.matchDone_host (s : State) (n k : Nat) : (s.matchDone n k).host = s.host := rfl
@[simp] theorem State.matchDone_cor (s : State) (n k : Nat) : (s.matchDone n k).cor = s.cor := rfl
@[simp] theorem State.matchDone_prune (s : State) (n k : Nat) : (s.matchDone n k).prune = s.prune := rfl
@[simp] theorem State.matchDone_bur (s : State) (n k : Nat) : (s.matchDone n k).bur = s.bur := rfl
@[simp] theorem State.matchDone_chn (s : State) (n k : Nat) : (s.matchDone n k).chn = s.chn := rfl
@[simp] theorem State.matchDone_sq (s : State) (n k : Nat) : (s.matchDone n k).sq = s.sq := rfl
@[simp] theorem State.matchDone_cmp (s : State) (n k : Nat) : (s.matchDone n k).cmp = s.cmp := rfl
@[simp] theorem State.matchDone_flw (s : State) (n k : Nat) : (s.matchDone n k).flw = s.flw := rfl
@[simp] theorem State.matchDone_tim (s : State) (n k : Nat) : (s.matchDone n k).tim = s.tim := rfl
@[simp] theorem State.matchDone_chk (s : State) (n k : Nat) : (s.matchDone n k).chk = s.chk := rfl
@[simp] theorem State.matchDone_cal (s : State) (n k : Nat) : (s.matchDone n k).cal = s.cal := rfl
@[simp] theorem State.matchDone_cel (s : State) (n k : Nat) : (s.matchDone n k).cel = s.cel := rfl
@[simp] theorem State.matchDone_lan (s : State) (n k : Nat) : (s.matchDone n k).lan = s.lan := rfl
@[simp] theorem State.matchDone_ring (s : State) (n k : Nat) : (s.matchDone n k).ring = s.ring := rfl
@[simp] theorem State.matchDone_tk (s : State) (n k : Nat) : (s.matchDone n k).tk = s.tk := rfl
@[simp] theorem State.matchDone_bel (s : State) (n k : Nat) : (s.matchDone n k).bel = s.bel := rfl

/-! `State.setQueue` changes `ttb` and nothing else. -/

@[simp] theorem State.setQueue_cycle (s : State) (q : Nat) (l : List (List Word)) : (s.setQueue q l).cycle = s.cycle := rfl
@[simp] theorem State.setQueue_regs (s : State) (q : Nat) (l : List (List Word)) : (s.setQueue q l).regs = s.regs := rfl
@[simp] theorem State.setQueue_mem (s : State) (q : Nat) (l : List (List Word)) : (s.setQueue q l).mem = s.mem := rfl
@[simp] theorem State.setQueue_pending (s : State) (q : Nat) (l : List (List Word)) : (s.setQueue q l).pending = s.pending := rfl
@[simp] theorem State.setQueue_lastRead (s : State) (q : Nat) (l : List (List Word)) : (s.setQueue q l).lastRead = s.lastRead := rfl
@[simp] theorem State.setQueue_fresh (s : State) (q : Nat) (l : List (List Word)) : (s.setQueue q l).fresh = s.fresh := rfl
@[simp] theorem State.setQueue_grids (s : State) (q : Nat) (l : List (List Word)) : (s.setQueue q l).grids = s.grids := rfl
@[simp] theorem State.setQueue_latches (s : State) (q : Nat) (l : List (List Word)) : (s.setQueue q l).latches = s.latches := rfl
@[simp] theorem State.setQueue_staged (s : State) (q : Nat) (l : List (List Word)) : (s.setQueue q l).staged = s.staged := rfl
@[simp] theorem State.setQueue_ctl (s : State) (q : Nat) (l : List (List Word)) : (s.setQueue q l).ctl = s.ctl := rfl
@[simp] theorem State.setQueue_tbs (s : State) (q : Nat) (l : List (List Word)) : (s.setQueue q l).tbs = s.tbs := rfl
@[simp] theorem State.setQueue_gal (s : State) (q : Nat) (l : List (List Word)) : (s.setQueue q l).gal = s.gal := rfl
@[simp] theorem State.setQueue_msix (s : State) (q : Nat) (l : List (List Word)) : (s.setQueue q l).msix = s.msix := rfl
@[simp] theorem State.setQueue_sat (s : State) (q : Nat) (l : List (List Word)) : (s.setQueue q l).sat = s.sat := rfl
@[simp] theorem State.setQueue_host (s : State) (q : Nat) (l : List (List Word)) : (s.setQueue q l).host = s.host := rfl
@[simp] theorem State.setQueue_cor (s : State) (q : Nat) (l : List (List Word)) : (s.setQueue q l).cor = s.cor := rfl
@[simp] theorem State.setQueue_prune (s : State) (q : Nat) (l : List (List Word)) : (s.setQueue q l).prune = s.prune := rfl
@[simp] theorem State.setQueue_bur (s : State) (q : Nat) (l : List (List Word)) : (s.setQueue q l).bur = s.bur := rfl
@[simp] theorem State.setQueue_chn (s : State) (q : Nat) (l : List (List Word)) : (s.setQueue q l).chn = s.chn := rfl
@[simp] theorem State.setQueue_sq (s : State) (q : Nat) (l : List (List Word)) : (s.setQueue q l).sq = s.sq := rfl
@[simp] theorem State.setQueue_cmp (s : State) (q : Nat) (l : List (List Word)) : (s.setQueue q l).cmp = s.cmp := rfl
@[simp] theorem State.setQueue_flw (s : State) (q : Nat) (l : List (List Word)) : (s.setQueue q l).flw = s.flw := rfl
@[simp] theorem State.setQueue_tim (s : State) (q : Nat) (l : List (List Word)) : (s.setQueue q l).tim = s.tim := rfl
@[simp] theorem State.setQueue_chk (s : State) (q : Nat) (l : List (List Word)) : (s.setQueue q l).chk = s.chk := rfl
@[simp] theorem State.setQueue_cal (s : State) (q : Nat) (l : List (List Word)) : (s.setQueue q l).cal = s.cal := rfl
@[simp] theorem State.setQueue_cel (s : State) (q : Nat) (l : List (List Word)) : (s.setQueue q l).cel = s.cel := rfl
@[simp] theorem State.setQueue_lan (s : State) (q : Nat) (l : List (List Word)) : (s.setQueue q l).lan = s.lan := rfl
@[simp] theorem State.setQueue_ring (s : State) (q : Nat) (l : List (List Word)) : (s.setQueue q l).ring = s.ring := rfl
@[simp] theorem State.setQueue_tk (s : State) (q : Nat) (l : List (List Word)) : (s.setQueue q l).tk = s.tk := rfl
@[simp] theorem State.setQueue_bel (s : State) (q : Nat) (l : List (List Word)) : (s.setQueue q l).bel = s.bel := rfl

/-! `State.setFlow` changes `flw` and nothing else. -/

@[simp] theorem State.setFlow_cycle (s : State) (f : Flow) : (s.setFlow f).cycle = s.cycle := rfl
@[simp] theorem State.setFlow_regs (s : State) (f : Flow) : (s.setFlow f).regs = s.regs := rfl
@[simp] theorem State.setFlow_mem (s : State) (f : Flow) : (s.setFlow f).mem = s.mem := rfl
@[simp] theorem State.setFlow_pending (s : State) (f : Flow) : (s.setFlow f).pending = s.pending := rfl
@[simp] theorem State.setFlow_lastRead (s : State) (f : Flow) : (s.setFlow f).lastRead = s.lastRead := rfl
@[simp] theorem State.setFlow_fresh (s : State) (f : Flow) : (s.setFlow f).fresh = s.fresh := rfl
@[simp] theorem State.setFlow_grids (s : State) (f : Flow) : (s.setFlow f).grids = s.grids := rfl
@[simp] theorem State.setFlow_latches (s : State) (f : Flow) : (s.setFlow f).latches = s.latches := rfl
@[simp] theorem State.setFlow_staged (s : State) (f : Flow) : (s.setFlow f).staged = s.staged := rfl
@[simp] theorem State.setFlow_ctl (s : State) (f : Flow) : (s.setFlow f).ctl = s.ctl := rfl
@[simp] theorem State.setFlow_tbs (s : State) (f : Flow) : (s.setFlow f).tbs = s.tbs := rfl
@[simp] theorem State.setFlow_gal (s : State) (f : Flow) : (s.setFlow f).gal = s.gal := rfl
@[simp] theorem State.setFlow_msix (s : State) (f : Flow) : (s.setFlow f).msix = s.msix := rfl
@[simp] theorem State.setFlow_sat (s : State) (f : Flow) : (s.setFlow f).sat = s.sat := rfl
@[simp] theorem State.setFlow_host (s : State) (f : Flow) : (s.setFlow f).host = s.host := rfl
@[simp] theorem State.setFlow_cor (s : State) (f : Flow) : (s.setFlow f).cor = s.cor := rfl
@[simp] theorem State.setFlow_prune (s : State) (f : Flow) : (s.setFlow f).prune = s.prune := rfl
@[simp] theorem State.setFlow_bur (s : State) (f : Flow) : (s.setFlow f).bur = s.bur := rfl
@[simp] theorem State.setFlow_ttb (s : State) (f : Flow) : (s.setFlow f).ttb = s.ttb := rfl
@[simp] theorem State.setFlow_chn (s : State) (f : Flow) : (s.setFlow f).chn = s.chn := rfl
@[simp] theorem State.setFlow_sq (s : State) (f : Flow) : (s.setFlow f).sq = s.sq := rfl
@[simp] theorem State.setFlow_cmp (s : State) (f : Flow) : (s.setFlow f).cmp = s.cmp := rfl
@[simp] theorem State.setFlow_tim (s : State) (f : Flow) : (s.setFlow f).tim = s.tim := rfl
@[simp] theorem State.setFlow_chk (s : State) (f : Flow) : (s.setFlow f).chk = s.chk := rfl
@[simp] theorem State.setFlow_cal (s : State) (f : Flow) : (s.setFlow f).cal = s.cal := rfl
@[simp] theorem State.setFlow_cel (s : State) (f : Flow) : (s.setFlow f).cel = s.cel := rfl
@[simp] theorem State.setFlow_lan (s : State) (f : Flow) : (s.setFlow f).lan = s.lan := rfl
@[simp] theorem State.setFlow_ring (s : State) (f : Flow) : (s.setFlow f).ring = s.ring := rfl
@[simp] theorem State.setFlow_tk (s : State) (f : Flow) : (s.setFlow f).tk = s.tk := rfl
@[simp] theorem State.setFlow_bel (s : State) (f : Flow) : (s.setFlow f).bel = s.bel := rfl
@[simp] theorem State.setFlow_flw (s : State) (f : Flow) : (s.setFlow f).flw = f := rfl

/-! `State.waitStart` changes `bur` and nothing else. -/

@[simp] theorem State.waitStart_cycle (s : State) (cls unit energy : Nat) : (s.waitStart cls unit energy).cycle = s.cycle := rfl
@[simp] theorem State.waitStart_regs (s : State) (cls unit energy : Nat) : (s.waitStart cls unit energy).regs = s.regs := rfl
@[simp] theorem State.waitStart_mem (s : State) (cls unit energy : Nat) : (s.waitStart cls unit energy).mem = s.mem := rfl
@[simp] theorem State.waitStart_pending (s : State) (cls unit energy : Nat) : (s.waitStart cls unit energy).pending = s.pending := rfl
@[simp] theorem State.waitStart_lastRead (s : State) (cls unit energy : Nat) : (s.waitStart cls unit energy).lastRead = s.lastRead := rfl
@[simp] theorem State.waitStart_fresh (s : State) (cls unit energy : Nat) : (s.waitStart cls unit energy).fresh = s.fresh := rfl
@[simp] theorem State.waitStart_grids (s : State) (cls unit energy : Nat) : (s.waitStart cls unit energy).grids = s.grids := rfl
@[simp] theorem State.waitStart_latches (s : State) (cls unit energy : Nat) : (s.waitStart cls unit energy).latches = s.latches := rfl
@[simp] theorem State.waitStart_staged (s : State) (cls unit energy : Nat) : (s.waitStart cls unit energy).staged = s.staged := rfl
@[simp] theorem State.waitStart_ctl (s : State) (cls unit energy : Nat) : (s.waitStart cls unit energy).ctl = s.ctl := rfl
@[simp] theorem State.waitStart_tbs (s : State) (cls unit energy : Nat) : (s.waitStart cls unit energy).tbs = s.tbs := rfl
@[simp] theorem State.waitStart_gal (s : State) (cls unit energy : Nat) : (s.waitStart cls unit energy).gal = s.gal := rfl
@[simp] theorem State.waitStart_msix (s : State) (cls unit energy : Nat) : (s.waitStart cls unit energy).msix = s.msix := rfl
@[simp] theorem State.waitStart_sat (s : State) (cls unit energy : Nat) : (s.waitStart cls unit energy).sat = s.sat := rfl
@[simp] theorem State.waitStart_host (s : State) (cls unit energy : Nat) : (s.waitStart cls unit energy).host = s.host := rfl
@[simp] theorem State.waitStart_cor (s : State) (cls unit energy : Nat) : (s.waitStart cls unit energy).cor = s.cor := rfl
@[simp] theorem State.waitStart_prune (s : State) (cls unit energy : Nat) : (s.waitStart cls unit energy).prune = s.prune := rfl
@[simp] theorem State.waitStart_ttb (s : State) (cls unit energy : Nat) : (s.waitStart cls unit energy).ttb = s.ttb := rfl
@[simp] theorem State.waitStart_chn (s : State) (cls unit energy : Nat) : (s.waitStart cls unit energy).chn = s.chn := rfl
@[simp] theorem State.waitStart_sq (s : State) (cls unit energy : Nat) : (s.waitStart cls unit energy).sq = s.sq := rfl
@[simp] theorem State.waitStart_cmp (s : State) (cls unit energy : Nat) : (s.waitStart cls unit energy).cmp = s.cmp := rfl
@[simp] theorem State.waitStart_flw (s : State) (cls unit energy : Nat) : (s.waitStart cls unit energy).flw = s.flw := rfl
@[simp] theorem State.waitStart_tim (s : State) (cls unit energy : Nat) : (s.waitStart cls unit energy).tim = s.tim := rfl
@[simp] theorem State.waitStart_chk (s : State) (cls unit energy : Nat) : (s.waitStart cls unit energy).chk = s.chk := rfl
@[simp] theorem State.waitStart_cal (s : State) (cls unit energy : Nat) : (s.waitStart cls unit energy).cal = s.cal := rfl
@[simp] theorem State.waitStart_cel (s : State) (cls unit energy : Nat) : (s.waitStart cls unit energy).cel = s.cel := rfl
@[simp] theorem State.waitStart_lan (s : State) (cls unit energy : Nat) : (s.waitStart cls unit energy).lan = s.lan := rfl
@[simp] theorem State.waitStart_ring (s : State) (cls unit energy : Nat) : (s.waitStart cls unit energy).ring = s.ring := rfl
@[simp] theorem State.waitStart_tk (s : State) (cls unit energy : Nat) : (s.waitStart cls unit energy).tk = s.tk := rfl
@[simp] theorem State.waitStart_bel (s : State) (cls unit energy : Nat) : (s.waitStart cls unit energy).bel = s.bel := rfl

/-! `State.withdraw` changes `bur` and nothing else. -/

@[simp] theorem State.withdraw_cycle (s : State) (cls unit : Nat) : (s.withdraw cls unit).cycle = s.cycle := rfl
@[simp] theorem State.withdraw_regs (s : State) (cls unit : Nat) : (s.withdraw cls unit).regs = s.regs := rfl
@[simp] theorem State.withdraw_mem (s : State) (cls unit : Nat) : (s.withdraw cls unit).mem = s.mem := rfl
@[simp] theorem State.withdraw_pending (s : State) (cls unit : Nat) : (s.withdraw cls unit).pending = s.pending := rfl
@[simp] theorem State.withdraw_lastRead (s : State) (cls unit : Nat) : (s.withdraw cls unit).lastRead = s.lastRead := rfl
@[simp] theorem State.withdraw_fresh (s : State) (cls unit : Nat) : (s.withdraw cls unit).fresh = s.fresh := rfl
@[simp] theorem State.withdraw_grids (s : State) (cls unit : Nat) : (s.withdraw cls unit).grids = s.grids := rfl
@[simp] theorem State.withdraw_latches (s : State) (cls unit : Nat) : (s.withdraw cls unit).latches = s.latches := rfl
@[simp] theorem State.withdraw_staged (s : State) (cls unit : Nat) : (s.withdraw cls unit).staged = s.staged := rfl
@[simp] theorem State.withdraw_ctl (s : State) (cls unit : Nat) : (s.withdraw cls unit).ctl = s.ctl := rfl
@[simp] theorem State.withdraw_tbs (s : State) (cls unit : Nat) : (s.withdraw cls unit).tbs = s.tbs := rfl
@[simp] theorem State.withdraw_gal (s : State) (cls unit : Nat) : (s.withdraw cls unit).gal = s.gal := rfl
@[simp] theorem State.withdraw_msix (s : State) (cls unit : Nat) : (s.withdraw cls unit).msix = s.msix := rfl
@[simp] theorem State.withdraw_sat (s : State) (cls unit : Nat) : (s.withdraw cls unit).sat = s.sat := rfl
@[simp] theorem State.withdraw_host (s : State) (cls unit : Nat) : (s.withdraw cls unit).host = s.host := rfl
@[simp] theorem State.withdraw_cor (s : State) (cls unit : Nat) : (s.withdraw cls unit).cor = s.cor := rfl
@[simp] theorem State.withdraw_prune (s : State) (cls unit : Nat) : (s.withdraw cls unit).prune = s.prune := rfl
@[simp] theorem State.withdraw_ttb (s : State) (cls unit : Nat) : (s.withdraw cls unit).ttb = s.ttb := rfl
@[simp] theorem State.withdraw_chn (s : State) (cls unit : Nat) : (s.withdraw cls unit).chn = s.chn := rfl
@[simp] theorem State.withdraw_sq (s : State) (cls unit : Nat) : (s.withdraw cls unit).sq = s.sq := rfl
@[simp] theorem State.withdraw_cmp (s : State) (cls unit : Nat) : (s.withdraw cls unit).cmp = s.cmp := rfl
@[simp] theorem State.withdraw_flw (s : State) (cls unit : Nat) : (s.withdraw cls unit).flw = s.flw := rfl
@[simp] theorem State.withdraw_tim (s : State) (cls unit : Nat) : (s.withdraw cls unit).tim = s.tim := rfl
@[simp] theorem State.withdraw_chk (s : State) (cls unit : Nat) : (s.withdraw cls unit).chk = s.chk := rfl
@[simp] theorem State.withdraw_cal (s : State) (cls unit : Nat) : (s.withdraw cls unit).cal = s.cal := rfl
@[simp] theorem State.withdraw_cel (s : State) (cls unit : Nat) : (s.withdraw cls unit).cel = s.cel := rfl
@[simp] theorem State.withdraw_lan (s : State) (cls unit : Nat) : (s.withdraw cls unit).lan = s.lan := rfl
@[simp] theorem State.withdraw_ring (s : State) (cls unit : Nat) : (s.withdraw cls unit).ring = s.ring := rfl
@[simp] theorem State.withdraw_tk (s : State) (cls unit : Nat) : (s.withdraw cls unit).tk = s.tk := rfl
@[simp] theorem State.withdraw_bel (s : State) (cls unit : Nat) : (s.withdraw cls unit).bel = s.bel := rfl

/-! `State.fcRestart` changes `tim` and nothing else. -/

@[simp] theorem State.fcRestart_cycle (s : State) : (s.fcRestart ).cycle = s.cycle := rfl
@[simp] theorem State.fcRestart_regs (s : State) : (s.fcRestart ).regs = s.regs := rfl
@[simp] theorem State.fcRestart_mem (s : State) : (s.fcRestart ).mem = s.mem := rfl
@[simp] theorem State.fcRestart_pending (s : State) : (s.fcRestart ).pending = s.pending := rfl
@[simp] theorem State.fcRestart_lastRead (s : State) : (s.fcRestart ).lastRead = s.lastRead := rfl
@[simp] theorem State.fcRestart_fresh (s : State) : (s.fcRestart ).fresh = s.fresh := rfl
@[simp] theorem State.fcRestart_grids (s : State) : (s.fcRestart ).grids = s.grids := rfl
@[simp] theorem State.fcRestart_latches (s : State) : (s.fcRestart ).latches = s.latches := rfl
@[simp] theorem State.fcRestart_staged (s : State) : (s.fcRestart ).staged = s.staged := rfl
@[simp] theorem State.fcRestart_ctl (s : State) : (s.fcRestart ).ctl = s.ctl := rfl
@[simp] theorem State.fcRestart_tbs (s : State) : (s.fcRestart ).tbs = s.tbs := rfl
@[simp] theorem State.fcRestart_gal (s : State) : (s.fcRestart ).gal = s.gal := rfl
@[simp] theorem State.fcRestart_msix (s : State) : (s.fcRestart ).msix = s.msix := rfl
@[simp] theorem State.fcRestart_sat (s : State) : (s.fcRestart ).sat = s.sat := rfl
@[simp] theorem State.fcRestart_host (s : State) : (s.fcRestart ).host = s.host := rfl
@[simp] theorem State.fcRestart_cor (s : State) : (s.fcRestart ).cor = s.cor := rfl
@[simp] theorem State.fcRestart_prune (s : State) : (s.fcRestart ).prune = s.prune := rfl
@[simp] theorem State.fcRestart_bur (s : State) : (s.fcRestart ).bur = s.bur := rfl
@[simp] theorem State.fcRestart_ttb (s : State) : (s.fcRestart ).ttb = s.ttb := rfl
@[simp] theorem State.fcRestart_chn (s : State) : (s.fcRestart ).chn = s.chn := rfl
@[simp] theorem State.fcRestart_sq (s : State) : (s.fcRestart ).sq = s.sq := rfl
@[simp] theorem State.fcRestart_cmp (s : State) : (s.fcRestart ).cmp = s.cmp := rfl
@[simp] theorem State.fcRestart_flw (s : State) : (s.fcRestart ).flw = s.flw := rfl
@[simp] theorem State.fcRestart_chk (s : State) : (s.fcRestart ).chk = s.chk := rfl
@[simp] theorem State.fcRestart_cal (s : State) : (s.fcRestart ).cal = s.cal := rfl
@[simp] theorem State.fcRestart_cel (s : State) : (s.fcRestart ).cel = s.cel := rfl
@[simp] theorem State.fcRestart_lan (s : State) : (s.fcRestart ).lan = s.lan := rfl
@[simp] theorem State.fcRestart_ring (s : State) : (s.fcRestart ).ring = s.ring := rfl
@[simp] theorem State.fcRestart_tk (s : State) : (s.fcRestart ).tk = s.tk := rfl
@[simp] theorem State.fcRestart_bel (s : State) : (s.fcRestart ).bel = s.bel := rfl

/-! `State.unspoil` changes `cel` and nothing else. -/

@[simp] theorem State.unspoil_cycle (s : State) (a : Nat) : (s.unspoil a).cycle = s.cycle := rfl
@[simp] theorem State.unspoil_regs (s : State) (a : Nat) : (s.unspoil a).regs = s.regs := rfl
@[simp] theorem State.unspoil_mem (s : State) (a : Nat) : (s.unspoil a).mem = s.mem := rfl
@[simp] theorem State.unspoil_pending (s : State) (a : Nat) : (s.unspoil a).pending = s.pending := rfl
@[simp] theorem State.unspoil_lastRead (s : State) (a : Nat) : (s.unspoil a).lastRead = s.lastRead := rfl
@[simp] theorem State.unspoil_fresh (s : State) (a : Nat) : (s.unspoil a).fresh = s.fresh := rfl
@[simp] theorem State.unspoil_grids (s : State) (a : Nat) : (s.unspoil a).grids = s.grids := rfl
@[simp] theorem State.unspoil_latches (s : State) (a : Nat) : (s.unspoil a).latches = s.latches := rfl
@[simp] theorem State.unspoil_staged (s : State) (a : Nat) : (s.unspoil a).staged = s.staged := rfl
@[simp] theorem State.unspoil_ctl (s : State) (a : Nat) : (s.unspoil a).ctl = s.ctl := rfl
@[simp] theorem State.unspoil_tbs (s : State) (a : Nat) : (s.unspoil a).tbs = s.tbs := rfl
@[simp] theorem State.unspoil_gal (s : State) (a : Nat) : (s.unspoil a).gal = s.gal := rfl
@[simp] theorem State.unspoil_msix (s : State) (a : Nat) : (s.unspoil a).msix = s.msix := rfl
@[simp] theorem State.unspoil_sat (s : State) (a : Nat) : (s.unspoil a).sat = s.sat := rfl
@[simp] theorem State.unspoil_host (s : State) (a : Nat) : (s.unspoil a).host = s.host := rfl
@[simp] theorem State.unspoil_cor (s : State) (a : Nat) : (s.unspoil a).cor = s.cor := rfl
@[simp] theorem State.unspoil_prune (s : State) (a : Nat) : (s.unspoil a).prune = s.prune := rfl
@[simp] theorem State.unspoil_bur (s : State) (a : Nat) : (s.unspoil a).bur = s.bur := rfl
@[simp] theorem State.unspoil_ttb (s : State) (a : Nat) : (s.unspoil a).ttb = s.ttb := rfl
@[simp] theorem State.unspoil_chn (s : State) (a : Nat) : (s.unspoil a).chn = s.chn := rfl
@[simp] theorem State.unspoil_sq (s : State) (a : Nat) : (s.unspoil a).sq = s.sq := rfl
@[simp] theorem State.unspoil_cmp (s : State) (a : Nat) : (s.unspoil a).cmp = s.cmp := rfl
@[simp] theorem State.unspoil_flw (s : State) (a : Nat) : (s.unspoil a).flw = s.flw := rfl
@[simp] theorem State.unspoil_tim (s : State) (a : Nat) : (s.unspoil a).tim = s.tim := rfl
@[simp] theorem State.unspoil_chk (s : State) (a : Nat) : (s.unspoil a).chk = s.chk := rfl
@[simp] theorem State.unspoil_cal (s : State) (a : Nat) : (s.unspoil a).cal = s.cal := rfl
@[simp] theorem State.unspoil_lan (s : State) (a : Nat) : (s.unspoil a).lan = s.lan := rfl
@[simp] theorem State.unspoil_ring (s : State) (a : Nat) : (s.unspoil a).ring = s.ring := rfl
@[simp] theorem State.unspoil_tk (s : State) (a : Nat) : (s.unspoil a).tk = s.tk := rfl
@[simp] theorem State.unspoil_bel (s : State) (a : Nat) : (s.unspoil a).bel = s.bel := rfl

/-! `State.closeRank` changes `cel` and nothing else. -/

@[simp] theorem State.closeRank_cycle (s : State) (k : Nat) : (s.closeRank k).cycle = s.cycle := rfl
@[simp] theorem State.closeRank_regs (s : State) (k : Nat) : (s.closeRank k).regs = s.regs := rfl
@[simp] theorem State.closeRank_mem (s : State) (k : Nat) : (s.closeRank k).mem = s.mem := rfl
@[simp] theorem State.closeRank_pending (s : State) (k : Nat) : (s.closeRank k).pending = s.pending := rfl
@[simp] theorem State.closeRank_lastRead (s : State) (k : Nat) : (s.closeRank k).lastRead = s.lastRead := rfl
@[simp] theorem State.closeRank_fresh (s : State) (k : Nat) : (s.closeRank k).fresh = s.fresh := rfl
@[simp] theorem State.closeRank_grids (s : State) (k : Nat) : (s.closeRank k).grids = s.grids := rfl
@[simp] theorem State.closeRank_latches (s : State) (k : Nat) : (s.closeRank k).latches = s.latches := rfl
@[simp] theorem State.closeRank_staged (s : State) (k : Nat) : (s.closeRank k).staged = s.staged := rfl
@[simp] theorem State.closeRank_ctl (s : State) (k : Nat) : (s.closeRank k).ctl = s.ctl := rfl
@[simp] theorem State.closeRank_tbs (s : State) (k : Nat) : (s.closeRank k).tbs = s.tbs := rfl
@[simp] theorem State.closeRank_gal (s : State) (k : Nat) : (s.closeRank k).gal = s.gal := rfl
@[simp] theorem State.closeRank_msix (s : State) (k : Nat) : (s.closeRank k).msix = s.msix := rfl
@[simp] theorem State.closeRank_sat (s : State) (k : Nat) : (s.closeRank k).sat = s.sat := rfl
@[simp] theorem State.closeRank_host (s : State) (k : Nat) : (s.closeRank k).host = s.host := rfl
@[simp] theorem State.closeRank_cor (s : State) (k : Nat) : (s.closeRank k).cor = s.cor := rfl
@[simp] theorem State.closeRank_prune (s : State) (k : Nat) : (s.closeRank k).prune = s.prune := rfl
@[simp] theorem State.closeRank_bur (s : State) (k : Nat) : (s.closeRank k).bur = s.bur := rfl
@[simp] theorem State.closeRank_ttb (s : State) (k : Nat) : (s.closeRank k).ttb = s.ttb := rfl
@[simp] theorem State.closeRank_chn (s : State) (k : Nat) : (s.closeRank k).chn = s.chn := rfl
@[simp] theorem State.closeRank_sq (s : State) (k : Nat) : (s.closeRank k).sq = s.sq := rfl
@[simp] theorem State.closeRank_cmp (s : State) (k : Nat) : (s.closeRank k).cmp = s.cmp := rfl
@[simp] theorem State.closeRank_flw (s : State) (k : Nat) : (s.closeRank k).flw = s.flw := rfl
@[simp] theorem State.closeRank_tim (s : State) (k : Nat) : (s.closeRank k).tim = s.tim := rfl
@[simp] theorem State.closeRank_chk (s : State) (k : Nat) : (s.closeRank k).chk = s.chk := rfl
@[simp] theorem State.closeRank_cal (s : State) (k : Nat) : (s.closeRank k).cal = s.cal := rfl
@[simp] theorem State.closeRank_lan (s : State) (k : Nat) : (s.closeRank k).lan = s.lan := rfl
@[simp] theorem State.closeRank_ring (s : State) (k : Nat) : (s.closeRank k).ring = s.ring := rfl
@[simp] theorem State.closeRank_tk (s : State) (k : Nat) : (s.closeRank k).tk = s.tk := rfl
@[simp] theorem State.closeRank_bel (s : State) (k : Nat) : (s.closeRank k).bel = s.bel := rfl

/-! `State.closeBank` changes `cel` and nothing else. -/

@[simp] theorem State.closeBank_cycle (s : State) (c k b : Nat) : (s.closeBank c k b).cycle = s.cycle := rfl
@[simp] theorem State.closeBank_regs (s : State) (c k b : Nat) : (s.closeBank c k b).regs = s.regs := rfl
@[simp] theorem State.closeBank_mem (s : State) (c k b : Nat) : (s.closeBank c k b).mem = s.mem := rfl
@[simp] theorem State.closeBank_pending (s : State) (c k b : Nat) : (s.closeBank c k b).pending = s.pending := rfl
@[simp] theorem State.closeBank_lastRead (s : State) (c k b : Nat) : (s.closeBank c k b).lastRead = s.lastRead := rfl
@[simp] theorem State.closeBank_fresh (s : State) (c k b : Nat) : (s.closeBank c k b).fresh = s.fresh := rfl
@[simp] theorem State.closeBank_grids (s : State) (c k b : Nat) : (s.closeBank c k b).grids = s.grids := rfl
@[simp] theorem State.closeBank_latches (s : State) (c k b : Nat) : (s.closeBank c k b).latches = s.latches := rfl
@[simp] theorem State.closeBank_staged (s : State) (c k b : Nat) : (s.closeBank c k b).staged = s.staged := rfl
@[simp] theorem State.closeBank_ctl (s : State) (c k b : Nat) : (s.closeBank c k b).ctl = s.ctl := rfl
@[simp] theorem State.closeBank_tbs (s : State) (c k b : Nat) : (s.closeBank c k b).tbs = s.tbs := rfl
@[simp] theorem State.closeBank_gal (s : State) (c k b : Nat) : (s.closeBank c k b).gal = s.gal := rfl
@[simp] theorem State.closeBank_msix (s : State) (c k b : Nat) : (s.closeBank c k b).msix = s.msix := rfl
@[simp] theorem State.closeBank_sat (s : State) (c k b : Nat) : (s.closeBank c k b).sat = s.sat := rfl
@[simp] theorem State.closeBank_host (s : State) (c k b : Nat) : (s.closeBank c k b).host = s.host := rfl
@[simp] theorem State.closeBank_cor (s : State) (c k b : Nat) : (s.closeBank c k b).cor = s.cor := rfl
@[simp] theorem State.closeBank_prune (s : State) (c k b : Nat) : (s.closeBank c k b).prune = s.prune := rfl
@[simp] theorem State.closeBank_bur (s : State) (c k b : Nat) : (s.closeBank c k b).bur = s.bur := rfl
@[simp] theorem State.closeBank_ttb (s : State) (c k b : Nat) : (s.closeBank c k b).ttb = s.ttb := rfl
@[simp] theorem State.closeBank_chn (s : State) (c k b : Nat) : (s.closeBank c k b).chn = s.chn := rfl
@[simp] theorem State.closeBank_sq (s : State) (c k b : Nat) : (s.closeBank c k b).sq = s.sq := rfl
@[simp] theorem State.closeBank_cmp (s : State) (c k b : Nat) : (s.closeBank c k b).cmp = s.cmp := rfl
@[simp] theorem State.closeBank_flw (s : State) (c k b : Nat) : (s.closeBank c k b).flw = s.flw := rfl
@[simp] theorem State.closeBank_tim (s : State) (c k b : Nat) : (s.closeBank c k b).tim = s.tim := rfl
@[simp] theorem State.closeBank_chk (s : State) (c k b : Nat) : (s.closeBank c k b).chk = s.chk := rfl
@[simp] theorem State.closeBank_cal (s : State) (c k b : Nat) : (s.closeBank c k b).cal = s.cal := rfl
@[simp] theorem State.closeBank_lan (s : State) (c k b : Nat) : (s.closeBank c k b).lan = s.lan := rfl
@[simp] theorem State.closeBank_ring (s : State) (c k b : Nat) : (s.closeBank c k b).ring = s.ring := rfl
@[simp] theorem State.closeBank_tk (s : State) (c k b : Nat) : (s.closeBank c k b).tk = s.tk := rfl
@[simp] theorem State.closeBank_bel (s : State) (c k b : Nat) : (s.closeBank c k b).bel = s.bel := rfl

/-! `State.setCal` changes `cal` and nothing else. -/

@[simp] theorem State.setCal_cycle (s : State) (c : Calib) : (s.setCal c).cycle = s.cycle := rfl
@[simp] theorem State.setCal_regs (s : State) (c : Calib) : (s.setCal c).regs = s.regs := rfl
@[simp] theorem State.setCal_mem (s : State) (c : Calib) : (s.setCal c).mem = s.mem := rfl
@[simp] theorem State.setCal_pending (s : State) (c : Calib) : (s.setCal c).pending = s.pending := rfl
@[simp] theorem State.setCal_lastRead (s : State) (c : Calib) : (s.setCal c).lastRead = s.lastRead := rfl
@[simp] theorem State.setCal_fresh (s : State) (c : Calib) : (s.setCal c).fresh = s.fresh := rfl
@[simp] theorem State.setCal_grids (s : State) (c : Calib) : (s.setCal c).grids = s.grids := rfl
@[simp] theorem State.setCal_latches (s : State) (c : Calib) : (s.setCal c).latches = s.latches := rfl
@[simp] theorem State.setCal_staged (s : State) (c : Calib) : (s.setCal c).staged = s.staged := rfl
@[simp] theorem State.setCal_ctl (s : State) (c : Calib) : (s.setCal c).ctl = s.ctl := rfl
@[simp] theorem State.setCal_tbs (s : State) (c : Calib) : (s.setCal c).tbs = s.tbs := rfl
@[simp] theorem State.setCal_gal (s : State) (c : Calib) : (s.setCal c).gal = s.gal := rfl
@[simp] theorem State.setCal_msix (s : State) (c : Calib) : (s.setCal c).msix = s.msix := rfl
@[simp] theorem State.setCal_sat (s : State) (c : Calib) : (s.setCal c).sat = s.sat := rfl
@[simp] theorem State.setCal_host (s : State) (c : Calib) : (s.setCal c).host = s.host := rfl
@[simp] theorem State.setCal_cor (s : State) (c : Calib) : (s.setCal c).cor = s.cor := rfl
@[simp] theorem State.setCal_prune (s : State) (c : Calib) : (s.setCal c).prune = s.prune := rfl
@[simp] theorem State.setCal_bur (s : State) (c : Calib) : (s.setCal c).bur = s.bur := rfl
@[simp] theorem State.setCal_ttb (s : State) (c : Calib) : (s.setCal c).ttb = s.ttb := rfl
@[simp] theorem State.setCal_chn (s : State) (c : Calib) : (s.setCal c).chn = s.chn := rfl
@[simp] theorem State.setCal_sq (s : State) (c : Calib) : (s.setCal c).sq = s.sq := rfl
@[simp] theorem State.setCal_cmp (s : State) (c : Calib) : (s.setCal c).cmp = s.cmp := rfl
@[simp] theorem State.setCal_flw (s : State) (c : Calib) : (s.setCal c).flw = s.flw := rfl
@[simp] theorem State.setCal_tim (s : State) (c : Calib) : (s.setCal c).tim = s.tim := rfl
@[simp] theorem State.setCal_chk (s : State) (c : Calib) : (s.setCal c).chk = s.chk := rfl
@[simp] theorem State.setCal_cel (s : State) (c : Calib) : (s.setCal c).cel = s.cel := rfl
@[simp] theorem State.setCal_lan (s : State) (c : Calib) : (s.setCal c).lan = s.lan := rfl
@[simp] theorem State.setCal_ring (s : State) (c : Calib) : (s.setCal c).ring = s.ring := rfl
@[simp] theorem State.setCal_tk (s : State) (c : Calib) : (s.setCal c).tk = s.tk := rfl
@[simp] theorem State.setCal_bel (s : State) (c : Calib) : (s.setCal c).bel = s.bel := rfl
@[simp] theorem State.setCal_cal (s : State) (c : Calib) : (s.setCal c).cal = c := rfl

/-! `State.setHost` changes `host` and nothing else. -/

@[simp] theorem State.setHost_cycle (s : State) (h : HostLink) : (s.setHost h).cycle = s.cycle := rfl
@[simp] theorem State.setHost_regs (s : State) (h : HostLink) : (s.setHost h).regs = s.regs := rfl
@[simp] theorem State.setHost_mem (s : State) (h : HostLink) : (s.setHost h).mem = s.mem := rfl
@[simp] theorem State.setHost_pending (s : State) (h : HostLink) : (s.setHost h).pending = s.pending := rfl
@[simp] theorem State.setHost_lastRead (s : State) (h : HostLink) : (s.setHost h).lastRead = s.lastRead := rfl
@[simp] theorem State.setHost_fresh (s : State) (h : HostLink) : (s.setHost h).fresh = s.fresh := rfl
@[simp] theorem State.setHost_grids (s : State) (h : HostLink) : (s.setHost h).grids = s.grids := rfl
@[simp] theorem State.setHost_latches (s : State) (h : HostLink) : (s.setHost h).latches = s.latches := rfl
@[simp] theorem State.setHost_staged (s : State) (h : HostLink) : (s.setHost h).staged = s.staged := rfl
@[simp] theorem State.setHost_ctl (s : State) (h : HostLink) : (s.setHost h).ctl = s.ctl := rfl
@[simp] theorem State.setHost_tbs (s : State) (h : HostLink) : (s.setHost h).tbs = s.tbs := rfl
@[simp] theorem State.setHost_gal (s : State) (h : HostLink) : (s.setHost h).gal = s.gal := rfl
@[simp] theorem State.setHost_msix (s : State) (h : HostLink) : (s.setHost h).msix = s.msix := rfl
@[simp] theorem State.setHost_sat (s : State) (h : HostLink) : (s.setHost h).sat = s.sat := rfl
@[simp] theorem State.setHost_cor (s : State) (h : HostLink) : (s.setHost h).cor = s.cor := rfl
@[simp] theorem State.setHost_prune (s : State) (h : HostLink) : (s.setHost h).prune = s.prune := rfl
@[simp] theorem State.setHost_bur (s : State) (h : HostLink) : (s.setHost h).bur = s.bur := rfl
@[simp] theorem State.setHost_ttb (s : State) (h : HostLink) : (s.setHost h).ttb = s.ttb := rfl
@[simp] theorem State.setHost_chn (s : State) (h : HostLink) : (s.setHost h).chn = s.chn := rfl
@[simp] theorem State.setHost_sq (s : State) (h : HostLink) : (s.setHost h).sq = s.sq := rfl
@[simp] theorem State.setHost_cmp (s : State) (h : HostLink) : (s.setHost h).cmp = s.cmp := rfl
@[simp] theorem State.setHost_flw (s : State) (h : HostLink) : (s.setHost h).flw = s.flw := rfl
@[simp] theorem State.setHost_tim (s : State) (h : HostLink) : (s.setHost h).tim = s.tim := rfl
@[simp] theorem State.setHost_chk (s : State) (h : HostLink) : (s.setHost h).chk = s.chk := rfl
@[simp] theorem State.setHost_cal (s : State) (h : HostLink) : (s.setHost h).cal = s.cal := rfl
@[simp] theorem State.setHost_cel (s : State) (h : HostLink) : (s.setHost h).cel = s.cel := rfl
@[simp] theorem State.setHost_lan (s : State) (h : HostLink) : (s.setHost h).lan = s.lan := rfl
@[simp] theorem State.setHost_ring (s : State) (h : HostLink) : (s.setHost h).ring = s.ring := rfl
@[simp] theorem State.setHost_tk (s : State) (h : HostLink) : (s.setHost h).tk = s.tk := rfl
@[simp] theorem State.setHost_bel (s : State) (h : HostLink) : (s.setHost h).bel = s.bel := rfl
@[simp] theorem State.setHost_host (s : State) (h : HostLink) : (s.setHost h).host = h := rfl

/-! `State.setBur` changes `bur` and nothing else. -/

@[simp] theorem State.setBur_cycle (s : State) (b : Bursar) : (s.setBur b).cycle = s.cycle := rfl
@[simp] theorem State.setBur_regs (s : State) (b : Bursar) : (s.setBur b).regs = s.regs := rfl
@[simp] theorem State.setBur_mem (s : State) (b : Bursar) : (s.setBur b).mem = s.mem := rfl
@[simp] theorem State.setBur_pending (s : State) (b : Bursar) : (s.setBur b).pending = s.pending := rfl
@[simp] theorem State.setBur_lastRead (s : State) (b : Bursar) : (s.setBur b).lastRead = s.lastRead := rfl
@[simp] theorem State.setBur_fresh (s : State) (b : Bursar) : (s.setBur b).fresh = s.fresh := rfl
@[simp] theorem State.setBur_grids (s : State) (b : Bursar) : (s.setBur b).grids = s.grids := rfl
@[simp] theorem State.setBur_latches (s : State) (b : Bursar) : (s.setBur b).latches = s.latches := rfl
@[simp] theorem State.setBur_staged (s : State) (b : Bursar) : (s.setBur b).staged = s.staged := rfl
@[simp] theorem State.setBur_ctl (s : State) (b : Bursar) : (s.setBur b).ctl = s.ctl := rfl
@[simp] theorem State.setBur_tbs (s : State) (b : Bursar) : (s.setBur b).tbs = s.tbs := rfl
@[simp] theorem State.setBur_gal (s : State) (b : Bursar) : (s.setBur b).gal = s.gal := rfl
@[simp] theorem State.setBur_msix (s : State) (b : Bursar) : (s.setBur b).msix = s.msix := rfl
@[simp] theorem State.setBur_sat (s : State) (b : Bursar) : (s.setBur b).sat = s.sat := rfl
@[simp] theorem State.setBur_host (s : State) (b : Bursar) : (s.setBur b).host = s.host := rfl
@[simp] theorem State.setBur_cor (s : State) (b : Bursar) : (s.setBur b).cor = s.cor := rfl
@[simp] theorem State.setBur_prune (s : State) (b : Bursar) : (s.setBur b).prune = s.prune := rfl
@[simp] theorem State.setBur_ttb (s : State) (b : Bursar) : (s.setBur b).ttb = s.ttb := rfl
@[simp] theorem State.setBur_chn (s : State) (b : Bursar) : (s.setBur b).chn = s.chn := rfl
@[simp] theorem State.setBur_sq (s : State) (b : Bursar) : (s.setBur b).sq = s.sq := rfl
@[simp] theorem State.setBur_cmp (s : State) (b : Bursar) : (s.setBur b).cmp = s.cmp := rfl
@[simp] theorem State.setBur_flw (s : State) (b : Bursar) : (s.setBur b).flw = s.flw := rfl
@[simp] theorem State.setBur_tim (s : State) (b : Bursar) : (s.setBur b).tim = s.tim := rfl
@[simp] theorem State.setBur_chk (s : State) (b : Bursar) : (s.setBur b).chk = s.chk := rfl
@[simp] theorem State.setBur_cal (s : State) (b : Bursar) : (s.setBur b).cal = s.cal := rfl
@[simp] theorem State.setBur_cel (s : State) (b : Bursar) : (s.setBur b).cel = s.cel := rfl
@[simp] theorem State.setBur_lan (s : State) (b : Bursar) : (s.setBur b).lan = s.lan := rfl
@[simp] theorem State.setBur_ring (s : State) (b : Bursar) : (s.setBur b).ring = s.ring := rfl
@[simp] theorem State.setBur_tk (s : State) (b : Bursar) : (s.setBur b).tk = s.tk := rfl
@[simp] theorem State.setBur_bel (s : State) (b : Bursar) : (s.setBur b).bel = s.bel := rfl
@[simp] theorem State.setBur_bur (s : State) (b : Bursar) : (s.setBur b).bur = b := rfl

/-! `State.setCor` changes `cor` and nothing else. -/

@[simp] theorem State.setCor_cycle (s : State) (c : Corridor) : (s.setCor c).cycle = s.cycle := rfl
@[simp] theorem State.setCor_regs (s : State) (c : Corridor) : (s.setCor c).regs = s.regs := rfl
@[simp] theorem State.setCor_mem (s : State) (c : Corridor) : (s.setCor c).mem = s.mem := rfl
@[simp] theorem State.setCor_pending (s : State) (c : Corridor) : (s.setCor c).pending = s.pending := rfl
@[simp] theorem State.setCor_lastRead (s : State) (c : Corridor) : (s.setCor c).lastRead = s.lastRead := rfl
@[simp] theorem State.setCor_fresh (s : State) (c : Corridor) : (s.setCor c).fresh = s.fresh := rfl
@[simp] theorem State.setCor_grids (s : State) (c : Corridor) : (s.setCor c).grids = s.grids := rfl
@[simp] theorem State.setCor_latches (s : State) (c : Corridor) : (s.setCor c).latches = s.latches := rfl
@[simp] theorem State.setCor_staged (s : State) (c : Corridor) : (s.setCor c).staged = s.staged := rfl
@[simp] theorem State.setCor_ctl (s : State) (c : Corridor) : (s.setCor c).ctl = s.ctl := rfl
@[simp] theorem State.setCor_tbs (s : State) (c : Corridor) : (s.setCor c).tbs = s.tbs := rfl
@[simp] theorem State.setCor_gal (s : State) (c : Corridor) : (s.setCor c).gal = s.gal := rfl
@[simp] theorem State.setCor_msix (s : State) (c : Corridor) : (s.setCor c).msix = s.msix := rfl
@[simp] theorem State.setCor_sat (s : State) (c : Corridor) : (s.setCor c).sat = s.sat := rfl
@[simp] theorem State.setCor_host (s : State) (c : Corridor) : (s.setCor c).host = s.host := rfl
@[simp] theorem State.setCor_prune (s : State) (c : Corridor) : (s.setCor c).prune = s.prune := rfl
@[simp] theorem State.setCor_bur (s : State) (c : Corridor) : (s.setCor c).bur = s.bur := rfl
@[simp] theorem State.setCor_ttb (s : State) (c : Corridor) : (s.setCor c).ttb = s.ttb := rfl
@[simp] theorem State.setCor_chn (s : State) (c : Corridor) : (s.setCor c).chn = s.chn := rfl
@[simp] theorem State.setCor_sq (s : State) (c : Corridor) : (s.setCor c).sq = s.sq := rfl
@[simp] theorem State.setCor_cmp (s : State) (c : Corridor) : (s.setCor c).cmp = s.cmp := rfl
@[simp] theorem State.setCor_flw (s : State) (c : Corridor) : (s.setCor c).flw = s.flw := rfl
@[simp] theorem State.setCor_tim (s : State) (c : Corridor) : (s.setCor c).tim = s.tim := rfl
@[simp] theorem State.setCor_chk (s : State) (c : Corridor) : (s.setCor c).chk = s.chk := rfl
@[simp] theorem State.setCor_cal (s : State) (c : Corridor) : (s.setCor c).cal = s.cal := rfl
@[simp] theorem State.setCor_cel (s : State) (c : Corridor) : (s.setCor c).cel = s.cel := rfl
@[simp] theorem State.setCor_lan (s : State) (c : Corridor) : (s.setCor c).lan = s.lan := rfl
@[simp] theorem State.setCor_ring (s : State) (c : Corridor) : (s.setCor c).ring = s.ring := rfl
@[simp] theorem State.setCor_tk (s : State) (c : Corridor) : (s.setCor c).tk = s.tk := rfl
@[simp] theorem State.setCor_bel (s : State) (c : Corridor) : (s.setCor c).bel = s.bel := rfl
@[simp] theorem State.setCor_cor (s : State) (c : Corridor) : (s.setCor c).cor = c := rfl

/-! `State.setLanes` changes `lan` and nothing else. -/

@[simp] theorem State.setLanes_cycle (s : State) (x : Lanes) : (s.setLanes x).cycle = s.cycle := rfl
@[simp] theorem State.setLanes_regs (s : State) (x : Lanes) : (s.setLanes x).regs = s.regs := rfl
@[simp] theorem State.setLanes_mem (s : State) (x : Lanes) : (s.setLanes x).mem = s.mem := rfl
@[simp] theorem State.setLanes_pending (s : State) (x : Lanes) : (s.setLanes x).pending = s.pending := rfl
@[simp] theorem State.setLanes_lastRead (s : State) (x : Lanes) : (s.setLanes x).lastRead = s.lastRead := rfl
@[simp] theorem State.setLanes_fresh (s : State) (x : Lanes) : (s.setLanes x).fresh = s.fresh := rfl
@[simp] theorem State.setLanes_grids (s : State) (x : Lanes) : (s.setLanes x).grids = s.grids := rfl
@[simp] theorem State.setLanes_latches (s : State) (x : Lanes) : (s.setLanes x).latches = s.latches := rfl
@[simp] theorem State.setLanes_staged (s : State) (x : Lanes) : (s.setLanes x).staged = s.staged := rfl
@[simp] theorem State.setLanes_ctl (s : State) (x : Lanes) : (s.setLanes x).ctl = s.ctl := rfl
@[simp] theorem State.setLanes_tbs (s : State) (x : Lanes) : (s.setLanes x).tbs = s.tbs := rfl
@[simp] theorem State.setLanes_gal (s : State) (x : Lanes) : (s.setLanes x).gal = s.gal := rfl
@[simp] theorem State.setLanes_msix (s : State) (x : Lanes) : (s.setLanes x).msix = s.msix := rfl
@[simp] theorem State.setLanes_sat (s : State) (x : Lanes) : (s.setLanes x).sat = s.sat := rfl
@[simp] theorem State.setLanes_host (s : State) (x : Lanes) : (s.setLanes x).host = s.host := rfl
@[simp] theorem State.setLanes_cor (s : State) (x : Lanes) : (s.setLanes x).cor = s.cor := rfl
@[simp] theorem State.setLanes_prune (s : State) (x : Lanes) : (s.setLanes x).prune = s.prune := rfl
@[simp] theorem State.setLanes_bur (s : State) (x : Lanes) : (s.setLanes x).bur = s.bur := rfl
@[simp] theorem State.setLanes_ttb (s : State) (x : Lanes) : (s.setLanes x).ttb = s.ttb := rfl
@[simp] theorem State.setLanes_chn (s : State) (x : Lanes) : (s.setLanes x).chn = s.chn := rfl
@[simp] theorem State.setLanes_sq (s : State) (x : Lanes) : (s.setLanes x).sq = s.sq := rfl
@[simp] theorem State.setLanes_cmp (s : State) (x : Lanes) : (s.setLanes x).cmp = s.cmp := rfl
@[simp] theorem State.setLanes_flw (s : State) (x : Lanes) : (s.setLanes x).flw = s.flw := rfl
@[simp] theorem State.setLanes_tim (s : State) (x : Lanes) : (s.setLanes x).tim = s.tim := rfl
@[simp] theorem State.setLanes_chk (s : State) (x : Lanes) : (s.setLanes x).chk = s.chk := rfl
@[simp] theorem State.setLanes_cal (s : State) (x : Lanes) : (s.setLanes x).cal = s.cal := rfl
@[simp] theorem State.setLanes_cel (s : State) (x : Lanes) : (s.setLanes x).cel = s.cel := rfl
@[simp] theorem State.setLanes_ring (s : State) (x : Lanes) : (s.setLanes x).ring = s.ring := rfl
@[simp] theorem State.setLanes_tk (s : State) (x : Lanes) : (s.setLanes x).tk = s.tk := rfl
@[simp] theorem State.setLanes_bel (s : State) (x : Lanes) : (s.setLanes x).bel = s.bel := rfl
@[simp] theorem State.setLanes_lan (s : State) (x : Lanes) : (s.setLanes x).lan = x := rfl

/-! `State.setRing` changes `ring` and nothing else. -/

@[simp] theorem State.setRing_cycle (s : State) (r : Ring) : (s.setRing r).cycle = s.cycle := rfl
@[simp] theorem State.setRing_regs (s : State) (r : Ring) : (s.setRing r).regs = s.regs := rfl
@[simp] theorem State.setRing_mem (s : State) (r : Ring) : (s.setRing r).mem = s.mem := rfl
@[simp] theorem State.setRing_pending (s : State) (r : Ring) : (s.setRing r).pending = s.pending := rfl
@[simp] theorem State.setRing_lastRead (s : State) (r : Ring) : (s.setRing r).lastRead = s.lastRead := rfl
@[simp] theorem State.setRing_fresh (s : State) (r : Ring) : (s.setRing r).fresh = s.fresh := rfl
@[simp] theorem State.setRing_grids (s : State) (r : Ring) : (s.setRing r).grids = s.grids := rfl
@[simp] theorem State.setRing_latches (s : State) (r : Ring) : (s.setRing r).latches = s.latches := rfl
@[simp] theorem State.setRing_staged (s : State) (r : Ring) : (s.setRing r).staged = s.staged := rfl
@[simp] theorem State.setRing_ctl (s : State) (r : Ring) : (s.setRing r).ctl = s.ctl := rfl
@[simp] theorem State.setRing_tbs (s : State) (r : Ring) : (s.setRing r).tbs = s.tbs := rfl
@[simp] theorem State.setRing_gal (s : State) (r : Ring) : (s.setRing r).gal = s.gal := rfl
@[simp] theorem State.setRing_msix (s : State) (r : Ring) : (s.setRing r).msix = s.msix := rfl
@[simp] theorem State.setRing_sat (s : State) (r : Ring) : (s.setRing r).sat = s.sat := rfl
@[simp] theorem State.setRing_host (s : State) (r : Ring) : (s.setRing r).host = s.host := rfl
@[simp] theorem State.setRing_cor (s : State) (r : Ring) : (s.setRing r).cor = s.cor := rfl
@[simp] theorem State.setRing_prune (s : State) (r : Ring) : (s.setRing r).prune = s.prune := rfl
@[simp] theorem State.setRing_bur (s : State) (r : Ring) : (s.setRing r).bur = s.bur := rfl
@[simp] theorem State.setRing_ttb (s : State) (r : Ring) : (s.setRing r).ttb = s.ttb := rfl
@[simp] theorem State.setRing_chn (s : State) (r : Ring) : (s.setRing r).chn = s.chn := rfl
@[simp] theorem State.setRing_sq (s : State) (r : Ring) : (s.setRing r).sq = s.sq := rfl
@[simp] theorem State.setRing_cmp (s : State) (r : Ring) : (s.setRing r).cmp = s.cmp := rfl
@[simp] theorem State.setRing_flw (s : State) (r : Ring) : (s.setRing r).flw = s.flw := rfl
@[simp] theorem State.setRing_tim (s : State) (r : Ring) : (s.setRing r).tim = s.tim := rfl
@[simp] theorem State.setRing_chk (s : State) (r : Ring) : (s.setRing r).chk = s.chk := rfl
@[simp] theorem State.setRing_cal (s : State) (r : Ring) : (s.setRing r).cal = s.cal := rfl
@[simp] theorem State.setRing_cel (s : State) (r : Ring) : (s.setRing r).cel = s.cel := rfl
@[simp] theorem State.setRing_lan (s : State) (r : Ring) : (s.setRing r).lan = s.lan := rfl
@[simp] theorem State.setRing_tk (s : State) (r : Ring) : (s.setRing r).tk = s.tk := rfl
@[simp] theorem State.setRing_bel (s : State) (r : Ring) : (s.setRing r).bel = s.bel := rfl
@[simp] theorem State.setRing_ring (s : State) (r : Ring) : (s.setRing r).ring = r := rfl

/-! `State.setBells` changes `bel` and nothing else. -/

@[simp] theorem State.setBells_cycle (s : State) (x : Bells) : (s.setBells x).cycle = s.cycle := rfl
@[simp] theorem State.setBells_regs (s : State) (x : Bells) : (s.setBells x).regs = s.regs := rfl
@[simp] theorem State.setBells_mem (s : State) (x : Bells) : (s.setBells x).mem = s.mem := rfl
@[simp] theorem State.setBells_pending (s : State) (x : Bells) : (s.setBells x).pending = s.pending := rfl
@[simp] theorem State.setBells_lastRead (s : State) (x : Bells) : (s.setBells x).lastRead = s.lastRead := rfl
@[simp] theorem State.setBells_fresh (s : State) (x : Bells) : (s.setBells x).fresh = s.fresh := rfl
@[simp] theorem State.setBells_grids (s : State) (x : Bells) : (s.setBells x).grids = s.grids := rfl
@[simp] theorem State.setBells_latches (s : State) (x : Bells) : (s.setBells x).latches = s.latches := rfl
@[simp] theorem State.setBells_staged (s : State) (x : Bells) : (s.setBells x).staged = s.staged := rfl
@[simp] theorem State.setBells_ctl (s : State) (x : Bells) : (s.setBells x).ctl = s.ctl := rfl
@[simp] theorem State.setBells_tbs (s : State) (x : Bells) : (s.setBells x).tbs = s.tbs := rfl
@[simp] theorem State.setBells_gal (s : State) (x : Bells) : (s.setBells x).gal = s.gal := rfl
@[simp] theorem State.setBells_msix (s : State) (x : Bells) : (s.setBells x).msix = s.msix := rfl
@[simp] theorem State.setBells_sat (s : State) (x : Bells) : (s.setBells x).sat = s.sat := rfl
@[simp] theorem State.setBells_host (s : State) (x : Bells) : (s.setBells x).host = s.host := rfl
@[simp] theorem State.setBells_cor (s : State) (x : Bells) : (s.setBells x).cor = s.cor := rfl
@[simp] theorem State.setBells_prune (s : State) (x : Bells) : (s.setBells x).prune = s.prune := rfl
@[simp] theorem State.setBells_bur (s : State) (x : Bells) : (s.setBells x).bur = s.bur := rfl
@[simp] theorem State.setBells_ttb (s : State) (x : Bells) : (s.setBells x).ttb = s.ttb := rfl
@[simp] theorem State.setBells_chn (s : State) (x : Bells) : (s.setBells x).chn = s.chn := rfl
@[simp] theorem State.setBells_sq (s : State) (x : Bells) : (s.setBells x).sq = s.sq := rfl
@[simp] theorem State.setBells_cmp (s : State) (x : Bells) : (s.setBells x).cmp = s.cmp := rfl
@[simp] theorem State.setBells_flw (s : State) (x : Bells) : (s.setBells x).flw = s.flw := rfl
@[simp] theorem State.setBells_tim (s : State) (x : Bells) : (s.setBells x).tim = s.tim := rfl
@[simp] theorem State.setBells_chk (s : State) (x : Bells) : (s.setBells x).chk = s.chk := rfl
@[simp] theorem State.setBells_cal (s : State) (x : Bells) : (s.setBells x).cal = s.cal := rfl
@[simp] theorem State.setBells_cel (s : State) (x : Bells) : (s.setBells x).cel = s.cel := rfl
@[simp] theorem State.setBells_lan (s : State) (x : Bells) : (s.setBells x).lan = s.lan := rfl
@[simp] theorem State.setBells_ring (s : State) (x : Bells) : (s.setBells x).ring = s.ring := rfl
@[simp] theorem State.setBells_tk (s : State) (x : Bells) : (s.setBells x).tk = s.tk := rfl
@[simp] theorem State.setBells_bel (s : State) (x : Bells) : (s.setBells x).bel = x := rfl

/-! `State.setCtl` changes `ctl` and nothing else. -/

@[simp] theorem State.setCtl_cycle (s : State) (c : ModeCtl) : (s.setCtl c).cycle = s.cycle := rfl
@[simp] theorem State.setCtl_regs (s : State) (c : ModeCtl) : (s.setCtl c).regs = s.regs := rfl
@[simp] theorem State.setCtl_mem (s : State) (c : ModeCtl) : (s.setCtl c).mem = s.mem := rfl
@[simp] theorem State.setCtl_pending (s : State) (c : ModeCtl) : (s.setCtl c).pending = s.pending := rfl
@[simp] theorem State.setCtl_lastRead (s : State) (c : ModeCtl) : (s.setCtl c).lastRead = s.lastRead := rfl
@[simp] theorem State.setCtl_fresh (s : State) (c : ModeCtl) : (s.setCtl c).fresh = s.fresh := rfl
@[simp] theorem State.setCtl_grids (s : State) (c : ModeCtl) : (s.setCtl c).grids = s.grids := rfl
@[simp] theorem State.setCtl_latches (s : State) (c : ModeCtl) : (s.setCtl c).latches = s.latches := rfl
@[simp] theorem State.setCtl_staged (s : State) (c : ModeCtl) : (s.setCtl c).staged = s.staged := rfl
@[simp] theorem State.setCtl_tbs (s : State) (c : ModeCtl) : (s.setCtl c).tbs = s.tbs := rfl
@[simp] theorem State.setCtl_gal (s : State) (c : ModeCtl) : (s.setCtl c).gal = s.gal := rfl
@[simp] theorem State.setCtl_msix (s : State) (c : ModeCtl) : (s.setCtl c).msix = s.msix := rfl
@[simp] theorem State.setCtl_sat (s : State) (c : ModeCtl) : (s.setCtl c).sat = s.sat := rfl
@[simp] theorem State.setCtl_host (s : State) (c : ModeCtl) : (s.setCtl c).host = s.host := rfl
@[simp] theorem State.setCtl_cor (s : State) (c : ModeCtl) : (s.setCtl c).cor = s.cor := rfl
@[simp] theorem State.setCtl_prune (s : State) (c : ModeCtl) : (s.setCtl c).prune = s.prune := rfl
@[simp] theorem State.setCtl_bur (s : State) (c : ModeCtl) : (s.setCtl c).bur = s.bur := rfl
@[simp] theorem State.setCtl_ttb (s : State) (c : ModeCtl) : (s.setCtl c).ttb = s.ttb := rfl
@[simp] theorem State.setCtl_chn (s : State) (c : ModeCtl) : (s.setCtl c).chn = s.chn := rfl
@[simp] theorem State.setCtl_sq (s : State) (c : ModeCtl) : (s.setCtl c).sq = s.sq := rfl
@[simp] theorem State.setCtl_cmp (s : State) (c : ModeCtl) : (s.setCtl c).cmp = s.cmp := rfl
@[simp] theorem State.setCtl_flw (s : State) (c : ModeCtl) : (s.setCtl c).flw = s.flw := rfl
@[simp] theorem State.setCtl_tim (s : State) (c : ModeCtl) : (s.setCtl c).tim = s.tim := rfl
@[simp] theorem State.setCtl_chk (s : State) (c : ModeCtl) : (s.setCtl c).chk = s.chk := rfl
@[simp] theorem State.setCtl_cal (s : State) (c : ModeCtl) : (s.setCtl c).cal = s.cal := rfl
@[simp] theorem State.setCtl_cel (s : State) (c : ModeCtl) : (s.setCtl c).cel = s.cel := rfl
@[simp] theorem State.setCtl_lan (s : State) (c : ModeCtl) : (s.setCtl c).lan = s.lan := rfl
@[simp] theorem State.setCtl_ring (s : State) (c : ModeCtl) : (s.setCtl c).ring = s.ring := rfl
@[simp] theorem State.setCtl_tk (s : State) (c : ModeCtl) : (s.setCtl c).tk = s.tk := rfl
@[simp] theorem State.setCtl_bel (s : State) (c : ModeCtl) : (s.setCtl c).bel = s.bel := rfl
@[simp] theorem State.setCtl_ctl (s : State) (c : ModeCtl) : (s.setCtl c).ctl = c := rfl

/-! `State.setPrune` changes `prune` and nothing else. -/

@[simp] theorem State.setPrune_cycle (s : State) (p : Prune) : (s.setPrune p).cycle = s.cycle := rfl
@[simp] theorem State.setPrune_regs (s : State) (p : Prune) : (s.setPrune p).regs = s.regs := rfl
@[simp] theorem State.setPrune_mem (s : State) (p : Prune) : (s.setPrune p).mem = s.mem := rfl
@[simp] theorem State.setPrune_pending (s : State) (p : Prune) : (s.setPrune p).pending = s.pending := rfl
@[simp] theorem State.setPrune_lastRead (s : State) (p : Prune) : (s.setPrune p).lastRead = s.lastRead := rfl
@[simp] theorem State.setPrune_fresh (s : State) (p : Prune) : (s.setPrune p).fresh = s.fresh := rfl
@[simp] theorem State.setPrune_grids (s : State) (p : Prune) : (s.setPrune p).grids = s.grids := rfl
@[simp] theorem State.setPrune_latches (s : State) (p : Prune) : (s.setPrune p).latches = s.latches := rfl
@[simp] theorem State.setPrune_staged (s : State) (p : Prune) : (s.setPrune p).staged = s.staged := rfl
@[simp] theorem State.setPrune_ctl (s : State) (p : Prune) : (s.setPrune p).ctl = s.ctl := rfl
@[simp] theorem State.setPrune_tbs (s : State) (p : Prune) : (s.setPrune p).tbs = s.tbs := rfl
@[simp] theorem State.setPrune_gal (s : State) (p : Prune) : (s.setPrune p).gal = s.gal := rfl
@[simp] theorem State.setPrune_msix (s : State) (p : Prune) : (s.setPrune p).msix = s.msix := rfl
@[simp] theorem State.setPrune_sat (s : State) (p : Prune) : (s.setPrune p).sat = s.sat := rfl
@[simp] theorem State.setPrune_host (s : State) (p : Prune) : (s.setPrune p).host = s.host := rfl
@[simp] theorem State.setPrune_cor (s : State) (p : Prune) : (s.setPrune p).cor = s.cor := rfl
@[simp] theorem State.setPrune_bur (s : State) (p : Prune) : (s.setPrune p).bur = s.bur := rfl
@[simp] theorem State.setPrune_ttb (s : State) (p : Prune) : (s.setPrune p).ttb = s.ttb := rfl
@[simp] theorem State.setPrune_chn (s : State) (p : Prune) : (s.setPrune p).chn = s.chn := rfl
@[simp] theorem State.setPrune_sq (s : State) (p : Prune) : (s.setPrune p).sq = s.sq := rfl
@[simp] theorem State.setPrune_cmp (s : State) (p : Prune) : (s.setPrune p).cmp = s.cmp := rfl
@[simp] theorem State.setPrune_flw (s : State) (p : Prune) : (s.setPrune p).flw = s.flw := rfl
@[simp] theorem State.setPrune_tim (s : State) (p : Prune) : (s.setPrune p).tim = s.tim := rfl
@[simp] theorem State.setPrune_chk (s : State) (p : Prune) : (s.setPrune p).chk = s.chk := rfl
@[simp] theorem State.setPrune_cal (s : State) (p : Prune) : (s.setPrune p).cal = s.cal := rfl
@[simp] theorem State.setPrune_cel (s : State) (p : Prune) : (s.setPrune p).cel = s.cel := rfl
@[simp] theorem State.setPrune_lan (s : State) (p : Prune) : (s.setPrune p).lan = s.lan := rfl
@[simp] theorem State.setPrune_ring (s : State) (p : Prune) : (s.setPrune p).ring = s.ring := rfl
@[simp] theorem State.setPrune_tk (s : State) (p : Prune) : (s.setPrune p).tk = s.tk := rfl
@[simp] theorem State.setPrune_bel (s : State) (p : Prune) : (s.setPrune p).bel = s.bel := rfl
@[simp] theorem State.setPrune_prune (s : State) (p : Prune) : (s.setPrune p).prune = p := rfl

/-! `State.setSat` changes `sat` and nothing else. -/

@[simp] theorem State.setSat_cycle (s : State) (x : Satchel) : (s.setSat x).cycle = s.cycle := rfl
@[simp] theorem State.setSat_regs (s : State) (x : Satchel) : (s.setSat x).regs = s.regs := rfl
@[simp] theorem State.setSat_mem (s : State) (x : Satchel) : (s.setSat x).mem = s.mem := rfl
@[simp] theorem State.setSat_pending (s : State) (x : Satchel) : (s.setSat x).pending = s.pending := rfl
@[simp] theorem State.setSat_lastRead (s : State) (x : Satchel) : (s.setSat x).lastRead = s.lastRead := rfl
@[simp] theorem State.setSat_fresh (s : State) (x : Satchel) : (s.setSat x).fresh = s.fresh := rfl
@[simp] theorem State.setSat_grids (s : State) (x : Satchel) : (s.setSat x).grids = s.grids := rfl
@[simp] theorem State.setSat_latches (s : State) (x : Satchel) : (s.setSat x).latches = s.latches := rfl
@[simp] theorem State.setSat_staged (s : State) (x : Satchel) : (s.setSat x).staged = s.staged := rfl
@[simp] theorem State.setSat_ctl (s : State) (x : Satchel) : (s.setSat x).ctl = s.ctl := rfl
@[simp] theorem State.setSat_tbs (s : State) (x : Satchel) : (s.setSat x).tbs = s.tbs := rfl
@[simp] theorem State.setSat_gal (s : State) (x : Satchel) : (s.setSat x).gal = s.gal := rfl
@[simp] theorem State.setSat_msix (s : State) (x : Satchel) : (s.setSat x).msix = s.msix := rfl
@[simp] theorem State.setSat_host (s : State) (x : Satchel) : (s.setSat x).host = s.host := rfl
@[simp] theorem State.setSat_cor (s : State) (x : Satchel) : (s.setSat x).cor = s.cor := rfl
@[simp] theorem State.setSat_prune (s : State) (x : Satchel) : (s.setSat x).prune = s.prune := rfl
@[simp] theorem State.setSat_bur (s : State) (x : Satchel) : (s.setSat x).bur = s.bur := rfl
@[simp] theorem State.setSat_ttb (s : State) (x : Satchel) : (s.setSat x).ttb = s.ttb := rfl
@[simp] theorem State.setSat_chn (s : State) (x : Satchel) : (s.setSat x).chn = s.chn := rfl
@[simp] theorem State.setSat_sq (s : State) (x : Satchel) : (s.setSat x).sq = s.sq := rfl
@[simp] theorem State.setSat_cmp (s : State) (x : Satchel) : (s.setSat x).cmp = s.cmp := rfl
@[simp] theorem State.setSat_flw (s : State) (x : Satchel) : (s.setSat x).flw = s.flw := rfl
@[simp] theorem State.setSat_tim (s : State) (x : Satchel) : (s.setSat x).tim = s.tim := rfl
@[simp] theorem State.setSat_chk (s : State) (x : Satchel) : (s.setSat x).chk = s.chk := rfl
@[simp] theorem State.setSat_cal (s : State) (x : Satchel) : (s.setSat x).cal = s.cal := rfl
@[simp] theorem State.setSat_cel (s : State) (x : Satchel) : (s.setSat x).cel = s.cel := rfl
@[simp] theorem State.setSat_lan (s : State) (x : Satchel) : (s.setSat x).lan = s.lan := rfl
@[simp] theorem State.setSat_ring (s : State) (x : Satchel) : (s.setSat x).ring = s.ring := rfl
@[simp] theorem State.setSat_tk (s : State) (x : Satchel) : (s.setSat x).tk = s.tk := rfl
@[simp] theorem State.setSat_bel (s : State) (x : Satchel) : (s.setSat x).bel = s.bel := rfl
@[simp] theorem State.setSat_sat (s : State) (x : Satchel) : (s.setSat x).sat = x := rfl

/-! `State.setF` changes `regs` and nothing else. -/

@[simp] theorem State.setF_cycle (s : State) (a hi lo v : Nat) : (s.setF a hi lo v).cycle = s.cycle := State.setReg_cycle ..
@[simp] theorem State.setF_mem (s : State) (a hi lo v : Nat) : (s.setF a hi lo v).mem = s.mem := State.setReg_mem ..
@[simp] theorem State.setF_pending (s : State) (a hi lo v : Nat) : (s.setF a hi lo v).pending = s.pending := State.setReg_pending ..
@[simp] theorem State.setF_lastRead (s : State) (a hi lo v : Nat) : (s.setF a hi lo v).lastRead = s.lastRead := State.setReg_lastRead ..
@[simp] theorem State.setF_fresh (s : State) (a hi lo v : Nat) : (s.setF a hi lo v).fresh = s.fresh := State.setReg_fresh ..
@[simp] theorem State.setF_grids (s : State) (a hi lo v : Nat) : (s.setF a hi lo v).grids = s.grids := State.setReg_grids ..
@[simp] theorem State.setF_latches (s : State) (a hi lo v : Nat) : (s.setF a hi lo v).latches = s.latches := State.setReg_latches ..
@[simp] theorem State.setF_staged (s : State) (a hi lo v : Nat) : (s.setF a hi lo v).staged = s.staged := State.setReg_staged ..
@[simp] theorem State.setF_ctl (s : State) (a hi lo v : Nat) : (s.setF a hi lo v).ctl = s.ctl := State.setReg_ctl ..
@[simp] theorem State.setF_tbs (s : State) (a hi lo v : Nat) : (s.setF a hi lo v).tbs = s.tbs := State.setReg_tbs ..
@[simp] theorem State.setF_gal (s : State) (a hi lo v : Nat) : (s.setF a hi lo v).gal = s.gal := State.setReg_gal ..
@[simp] theorem State.setF_msix (s : State) (a hi lo v : Nat) : (s.setF a hi lo v).msix = s.msix := State.setReg_msix ..
@[simp] theorem State.setF_sat (s : State) (a hi lo v : Nat) : (s.setF a hi lo v).sat = s.sat := State.setReg_sat ..
@[simp] theorem State.setF_host (s : State) (a hi lo v : Nat) : (s.setF a hi lo v).host = s.host := State.setReg_host ..
@[simp] theorem State.setF_cor (s : State) (a hi lo v : Nat) : (s.setF a hi lo v).cor = s.cor := State.setReg_cor ..
@[simp] theorem State.setF_prune (s : State) (a hi lo v : Nat) : (s.setF a hi lo v).prune = s.prune := State.setReg_prune ..
@[simp] theorem State.setF_bur (s : State) (a hi lo v : Nat) : (s.setF a hi lo v).bur = s.bur := State.setReg_bur ..
@[simp] theorem State.setF_ttb (s : State) (a hi lo v : Nat) : (s.setF a hi lo v).ttb = s.ttb := State.setReg_ttb ..
@[simp] theorem State.setF_chn (s : State) (a hi lo v : Nat) : (s.setF a hi lo v).chn = s.chn := State.setReg_chn ..
@[simp] theorem State.setF_sq (s : State) (a hi lo v : Nat) : (s.setF a hi lo v).sq = s.sq := State.setReg_sq ..
@[simp] theorem State.setF_cmp (s : State) (a hi lo v : Nat) : (s.setF a hi lo v).cmp = s.cmp := State.setReg_cmp ..
@[simp] theorem State.setF_flw (s : State) (a hi lo v : Nat) : (s.setF a hi lo v).flw = s.flw := State.setReg_flw ..
@[simp] theorem State.setF_tim (s : State) (a hi lo v : Nat) : (s.setF a hi lo v).tim = s.tim := State.setReg_tim ..
@[simp] theorem State.setF_chk (s : State) (a hi lo v : Nat) : (s.setF a hi lo v).chk = s.chk := State.setReg_chk ..
@[simp] theorem State.setF_cal (s : State) (a hi lo v : Nat) : (s.setF a hi lo v).cal = s.cal := State.setReg_cal ..
@[simp] theorem State.setF_cel (s : State) (a hi lo v : Nat) : (s.setF a hi lo v).cel = s.cel := State.setReg_cel ..
@[simp] theorem State.setF_lan (s : State) (a hi lo v : Nat) : (s.setF a hi lo v).lan = s.lan := State.setReg_lan ..
@[simp] theorem State.setF_ring (s : State) (a hi lo v : Nat) : (s.setF a hi lo v).ring = s.ring := State.setReg_ring ..
@[simp] theorem State.setF_tk (s : State) (a hi lo v : Nat) : (s.setF a hi lo v).tk = s.tk := State.setReg_tk ..
@[simp] theorem State.setF_bel (s : State) (a hi lo v : Nat) : (s.setF a hi lo v).bel = s.bel := State.setReg_bel ..

/-! `State.setB` changes `regs` and nothing else. -/

@[simp] theorem State.setB_cycle (s : State) (a n : Nat) (b : Bool) : (s.setB a n b).cycle = s.cycle := State.setReg_cycle ..
@[simp] theorem State.setB_mem (s : State) (a n : Nat) (b : Bool) : (s.setB a n b).mem = s.mem := State.setReg_mem ..
@[simp] theorem State.setB_pending (s : State) (a n : Nat) (b : Bool) : (s.setB a n b).pending = s.pending := State.setReg_pending ..
@[simp] theorem State.setB_lastRead (s : State) (a n : Nat) (b : Bool) : (s.setB a n b).lastRead = s.lastRead := State.setReg_lastRead ..
@[simp] theorem State.setB_fresh (s : State) (a n : Nat) (b : Bool) : (s.setB a n b).fresh = s.fresh := State.setReg_fresh ..
@[simp] theorem State.setB_grids (s : State) (a n : Nat) (b : Bool) : (s.setB a n b).grids = s.grids := State.setReg_grids ..
@[simp] theorem State.setB_latches (s : State) (a n : Nat) (b : Bool) : (s.setB a n b).latches = s.latches := State.setReg_latches ..
@[simp] theorem State.setB_staged (s : State) (a n : Nat) (b : Bool) : (s.setB a n b).staged = s.staged := State.setReg_staged ..
@[simp] theorem State.setB_ctl (s : State) (a n : Nat) (b : Bool) : (s.setB a n b).ctl = s.ctl := State.setReg_ctl ..
@[simp] theorem State.setB_tbs (s : State) (a n : Nat) (b : Bool) : (s.setB a n b).tbs = s.tbs := State.setReg_tbs ..
@[simp] theorem State.setB_gal (s : State) (a n : Nat) (b : Bool) : (s.setB a n b).gal = s.gal := State.setReg_gal ..
@[simp] theorem State.setB_msix (s : State) (a n : Nat) (b : Bool) : (s.setB a n b).msix = s.msix := State.setReg_msix ..
@[simp] theorem State.setB_sat (s : State) (a n : Nat) (b : Bool) : (s.setB a n b).sat = s.sat := State.setReg_sat ..
@[simp] theorem State.setB_host (s : State) (a n : Nat) (b : Bool) : (s.setB a n b).host = s.host := State.setReg_host ..
@[simp] theorem State.setB_cor (s : State) (a n : Nat) (b : Bool) : (s.setB a n b).cor = s.cor := State.setReg_cor ..
@[simp] theorem State.setB_prune (s : State) (a n : Nat) (b : Bool) : (s.setB a n b).prune = s.prune := State.setReg_prune ..
@[simp] theorem State.setB_bur (s : State) (a n : Nat) (b : Bool) : (s.setB a n b).bur = s.bur := State.setReg_bur ..
@[simp] theorem State.setB_ttb (s : State) (a n : Nat) (b : Bool) : (s.setB a n b).ttb = s.ttb := State.setReg_ttb ..
@[simp] theorem State.setB_chn (s : State) (a n : Nat) (b : Bool) : (s.setB a n b).chn = s.chn := State.setReg_chn ..
@[simp] theorem State.setB_sq (s : State) (a n : Nat) (b : Bool) : (s.setB a n b).sq = s.sq := State.setReg_sq ..
@[simp] theorem State.setB_cmp (s : State) (a n : Nat) (b : Bool) : (s.setB a n b).cmp = s.cmp := State.setReg_cmp ..
@[simp] theorem State.setB_flw (s : State) (a n : Nat) (b : Bool) : (s.setB a n b).flw = s.flw := State.setReg_flw ..
@[simp] theorem State.setB_tim (s : State) (a n : Nat) (b : Bool) : (s.setB a n b).tim = s.tim := State.setReg_tim ..
@[simp] theorem State.setB_chk (s : State) (a n : Nat) (b : Bool) : (s.setB a n b).chk = s.chk := State.setReg_chk ..
@[simp] theorem State.setB_cal (s : State) (a n : Nat) (b : Bool) : (s.setB a n b).cal = s.cal := State.setReg_cal ..
@[simp] theorem State.setB_cel (s : State) (a n : Nat) (b : Bool) : (s.setB a n b).cel = s.cel := State.setReg_cel ..
@[simp] theorem State.setB_lan (s : State) (a n : Nat) (b : Bool) : (s.setB a n b).lan = s.lan := State.setReg_lan ..
@[simp] theorem State.setB_ring (s : State) (a n : Nat) (b : Bool) : (s.setB a n b).ring = s.ring := State.setReg_ring ..
@[simp] theorem State.setB_tk (s : State) (a n : Nat) (b : Bool) : (s.setB a n b).tk = s.tk := State.setReg_tk ..
@[simp] theorem State.setB_bel (s : State) (a n : Nat) (b : Bool) : (s.setB a n b).bel = s.bel := State.setReg_bel ..

/-! `State.incSat` changes `regs` and `gal` and nothing else. -/

@[simp] theorem State.incSat_cycle (s : State) (a k : Nat) : (s.incSat a k).cycle = s.cycle := by unfold State.incSat; split <;> rfl
@[simp] theorem State.incSat_mem (s : State) (a k : Nat) : (s.incSat a k).mem = s.mem := by unfold State.incSat; split <;> rfl
@[simp] theorem State.incSat_pending (s : State) (a k : Nat) : (s.incSat a k).pending = s.pending := by unfold State.incSat; split <;> rfl
@[simp] theorem State.incSat_lastRead (s : State) (a k : Nat) : (s.incSat a k).lastRead = s.lastRead := by unfold State.incSat; split <;> rfl
@[simp] theorem State.incSat_fresh (s : State) (a k : Nat) : (s.incSat a k).fresh = s.fresh := by unfold State.incSat; split <;> rfl
@[simp] theorem State.incSat_grids (s : State) (a k : Nat) : (s.incSat a k).grids = s.grids := by unfold State.incSat; split <;> rfl
@[simp] theorem State.incSat_latches (s : State) (a k : Nat) : (s.incSat a k).latches = s.latches := by unfold State.incSat; split <;> rfl
@[simp] theorem State.incSat_staged (s : State) (a k : Nat) : (s.incSat a k).staged = s.staged := by unfold State.incSat; split <;> rfl
@[simp] theorem State.incSat_ctl (s : State) (a k : Nat) : (s.incSat a k).ctl = s.ctl := by unfold State.incSat; split <;> rfl
@[simp] theorem State.incSat_tbs (s : State) (a k : Nat) : (s.incSat a k).tbs = s.tbs := by unfold State.incSat; split <;> rfl
@[simp] theorem State.incSat_msix (s : State) (a k : Nat) : (s.incSat a k).msix = s.msix := by unfold State.incSat; split <;> rfl
@[simp] theorem State.incSat_sat (s : State) (a k : Nat) : (s.incSat a k).sat = s.sat := by unfold State.incSat; split <;> rfl
@[simp] theorem State.incSat_host (s : State) (a k : Nat) : (s.incSat a k).host = s.host := by unfold State.incSat; split <;> rfl
@[simp] theorem State.incSat_cor (s : State) (a k : Nat) : (s.incSat a k).cor = s.cor := by unfold State.incSat; split <;> rfl
@[simp] theorem State.incSat_prune (s : State) (a k : Nat) : (s.incSat a k).prune = s.prune := by unfold State.incSat; split <;> rfl
@[simp] theorem State.incSat_bur (s : State) (a k : Nat) : (s.incSat a k).bur = s.bur := by unfold State.incSat; split <;> rfl
@[simp] theorem State.incSat_ttb (s : State) (a k : Nat) : (s.incSat a k).ttb = s.ttb := by unfold State.incSat; split <;> rfl
@[simp] theorem State.incSat_chn (s : State) (a k : Nat) : (s.incSat a k).chn = s.chn := by unfold State.incSat; split <;> rfl
@[simp] theorem State.incSat_sq (s : State) (a k : Nat) : (s.incSat a k).sq = s.sq := by unfold State.incSat; split <;> rfl
@[simp] theorem State.incSat_cmp (s : State) (a k : Nat) : (s.incSat a k).cmp = s.cmp := by unfold State.incSat; split <;> rfl
@[simp] theorem State.incSat_flw (s : State) (a k : Nat) : (s.incSat a k).flw = s.flw := by unfold State.incSat; split <;> rfl
@[simp] theorem State.incSat_tim (s : State) (a k : Nat) : (s.incSat a k).tim = s.tim := by unfold State.incSat; split <;> rfl
@[simp] theorem State.incSat_chk (s : State) (a k : Nat) : (s.incSat a k).chk = s.chk := by unfold State.incSat; split <;> rfl
@[simp] theorem State.incSat_cal (s : State) (a k : Nat) : (s.incSat a k).cal = s.cal := by unfold State.incSat; split <;> rfl
@[simp] theorem State.incSat_cel (s : State) (a k : Nat) : (s.incSat a k).cel = s.cel := by unfold State.incSat; split <;> rfl
@[simp] theorem State.incSat_lan (s : State) (a k : Nat) : (s.incSat a k).lan = s.lan := by unfold State.incSat; split <;> rfl
@[simp] theorem State.incSat_ring (s : State) (a k : Nat) : (s.incSat a k).ring = s.ring := by unfold State.incSat; split <;> rfl
@[simp] theorem State.incSat_tk (s : State) (a k : Nat) : (s.incSat a k).tk = s.tk := by unfold State.incSat; split <;> rfl
@[simp] theorem State.incSat_bel (s : State) (a k : Nat) : (s.incSat a k).bel = s.bel := by unfold State.incSat; split <;> rfl

/-! `State.incWrap` changes `regs` and nothing else. -/

@[simp] theorem State.incWrap_cycle (s : State) (a k : Nat) : (s.incWrap a k).cycle = s.cycle := State.setReg_cycle ..
@[simp] theorem State.incWrap_mem (s : State) (a k : Nat) : (s.incWrap a k).mem = s.mem := State.setReg_mem ..
@[simp] theorem State.incWrap_pending (s : State) (a k : Nat) : (s.incWrap a k).pending = s.pending := State.setReg_pending ..
@[simp] theorem State.incWrap_lastRead (s : State) (a k : Nat) : (s.incWrap a k).lastRead = s.lastRead := State.setReg_lastRead ..
@[simp] theorem State.incWrap_fresh (s : State) (a k : Nat) : (s.incWrap a k).fresh = s.fresh := State.setReg_fresh ..
@[simp] theorem State.incWrap_grids (s : State) (a k : Nat) : (s.incWrap a k).grids = s.grids := State.setReg_grids ..
@[simp] theorem State.incWrap_latches (s : State) (a k : Nat) : (s.incWrap a k).latches = s.latches := State.setReg_latches ..
@[simp] theorem State.incWrap_staged (s : State) (a k : Nat) : (s.incWrap a k).staged = s.staged := State.setReg_staged ..
@[simp] theorem State.incWrap_ctl (s : State) (a k : Nat) : (s.incWrap a k).ctl = s.ctl := State.setReg_ctl ..
@[simp] theorem State.incWrap_tbs (s : State) (a k : Nat) : (s.incWrap a k).tbs = s.tbs := State.setReg_tbs ..
@[simp] theorem State.incWrap_gal (s : State) (a k : Nat) : (s.incWrap a k).gal = s.gal := State.setReg_gal ..
@[simp] theorem State.incWrap_msix (s : State) (a k : Nat) : (s.incWrap a k).msix = s.msix := State.setReg_msix ..
@[simp] theorem State.incWrap_sat (s : State) (a k : Nat) : (s.incWrap a k).sat = s.sat := State.setReg_sat ..
@[simp] theorem State.incWrap_host (s : State) (a k : Nat) : (s.incWrap a k).host = s.host := State.setReg_host ..
@[simp] theorem State.incWrap_cor (s : State) (a k : Nat) : (s.incWrap a k).cor = s.cor := State.setReg_cor ..
@[simp] theorem State.incWrap_prune (s : State) (a k : Nat) : (s.incWrap a k).prune = s.prune := State.setReg_prune ..
@[simp] theorem State.incWrap_bur (s : State) (a k : Nat) : (s.incWrap a k).bur = s.bur := State.setReg_bur ..
@[simp] theorem State.incWrap_ttb (s : State) (a k : Nat) : (s.incWrap a k).ttb = s.ttb := State.setReg_ttb ..
@[simp] theorem State.incWrap_chn (s : State) (a k : Nat) : (s.incWrap a k).chn = s.chn := State.setReg_chn ..
@[simp] theorem State.incWrap_sq (s : State) (a k : Nat) : (s.incWrap a k).sq = s.sq := State.setReg_sq ..
@[simp] theorem State.incWrap_cmp (s : State) (a k : Nat) : (s.incWrap a k).cmp = s.cmp := State.setReg_cmp ..
@[simp] theorem State.incWrap_flw (s : State) (a k : Nat) : (s.incWrap a k).flw = s.flw := State.setReg_flw ..
@[simp] theorem State.incWrap_tim (s : State) (a k : Nat) : (s.incWrap a k).tim = s.tim := State.setReg_tim ..
@[simp] theorem State.incWrap_chk (s : State) (a k : Nat) : (s.incWrap a k).chk = s.chk := State.setReg_chk ..
@[simp] theorem State.incWrap_cal (s : State) (a k : Nat) : (s.incWrap a k).cal = s.cal := State.setReg_cal ..
@[simp] theorem State.incWrap_cel (s : State) (a k : Nat) : (s.incWrap a k).cel = s.cel := State.setReg_cel ..
@[simp] theorem State.incWrap_lan (s : State) (a k : Nat) : (s.incWrap a k).lan = s.lan := State.setReg_lan ..
@[simp] theorem State.incWrap_ring (s : State) (a k : Nat) : (s.incWrap a k).ring = s.ring := State.setReg_ring ..
@[simp] theorem State.incWrap_tk (s : State) (a k : Nat) : (s.incWrap a k).tk = s.tk := State.setReg_tk ..
@[simp] theorem State.incWrap_bel (s : State) (a k : Nat) : (s.incWrap a k).bel = s.bel := State.setReg_bel ..

/-! `State.writeMasked` changes `regs` and nothing else. -/

@[simp] theorem State.writeMasked_cycle (s : State) (a : Nat) (v : Word) : (s.writeMasked a v).cycle = s.cycle := State.setReg_cycle ..
@[simp] theorem State.writeMasked_mem (s : State) (a : Nat) (v : Word) : (s.writeMasked a v).mem = s.mem := State.setReg_mem ..
@[simp] theorem State.writeMasked_pending (s : State) (a : Nat) (v : Word) : (s.writeMasked a v).pending = s.pending := State.setReg_pending ..
@[simp] theorem State.writeMasked_lastRead (s : State) (a : Nat) (v : Word) : (s.writeMasked a v).lastRead = s.lastRead := State.setReg_lastRead ..
@[simp] theorem State.writeMasked_fresh (s : State) (a : Nat) (v : Word) : (s.writeMasked a v).fresh = s.fresh := State.setReg_fresh ..
@[simp] theorem State.writeMasked_grids (s : State) (a : Nat) (v : Word) : (s.writeMasked a v).grids = s.grids := State.setReg_grids ..
@[simp] theorem State.writeMasked_latches (s : State) (a : Nat) (v : Word) : (s.writeMasked a v).latches = s.latches := State.setReg_latches ..
@[simp] theorem State.writeMasked_staged (s : State) (a : Nat) (v : Word) : (s.writeMasked a v).staged = s.staged := State.setReg_staged ..
@[simp] theorem State.writeMasked_ctl (s : State) (a : Nat) (v : Word) : (s.writeMasked a v).ctl = s.ctl := State.setReg_ctl ..
@[simp] theorem State.writeMasked_tbs (s : State) (a : Nat) (v : Word) : (s.writeMasked a v).tbs = s.tbs := State.setReg_tbs ..
@[simp] theorem State.writeMasked_gal (s : State) (a : Nat) (v : Word) : (s.writeMasked a v).gal = s.gal := State.setReg_gal ..
@[simp] theorem State.writeMasked_msix (s : State) (a : Nat) (v : Word) : (s.writeMasked a v).msix = s.msix := State.setReg_msix ..
@[simp] theorem State.writeMasked_sat (s : State) (a : Nat) (v : Word) : (s.writeMasked a v).sat = s.sat := State.setReg_sat ..
@[simp] theorem State.writeMasked_host (s : State) (a : Nat) (v : Word) : (s.writeMasked a v).host = s.host := State.setReg_host ..
@[simp] theorem State.writeMasked_cor (s : State) (a : Nat) (v : Word) : (s.writeMasked a v).cor = s.cor := State.setReg_cor ..
@[simp] theorem State.writeMasked_prune (s : State) (a : Nat) (v : Word) : (s.writeMasked a v).prune = s.prune := State.setReg_prune ..
@[simp] theorem State.writeMasked_bur (s : State) (a : Nat) (v : Word) : (s.writeMasked a v).bur = s.bur := State.setReg_bur ..
@[simp] theorem State.writeMasked_ttb (s : State) (a : Nat) (v : Word) : (s.writeMasked a v).ttb = s.ttb := State.setReg_ttb ..
@[simp] theorem State.writeMasked_chn (s : State) (a : Nat) (v : Word) : (s.writeMasked a v).chn = s.chn := State.setReg_chn ..
@[simp] theorem State.writeMasked_sq (s : State) (a : Nat) (v : Word) : (s.writeMasked a v).sq = s.sq := State.setReg_sq ..
@[simp] theorem State.writeMasked_cmp (s : State) (a : Nat) (v : Word) : (s.writeMasked a v).cmp = s.cmp := State.setReg_cmp ..
@[simp] theorem State.writeMasked_flw (s : State) (a : Nat) (v : Word) : (s.writeMasked a v).flw = s.flw := State.setReg_flw ..
@[simp] theorem State.writeMasked_tim (s : State) (a : Nat) (v : Word) : (s.writeMasked a v).tim = s.tim := State.setReg_tim ..
@[simp] theorem State.writeMasked_chk (s : State) (a : Nat) (v : Word) : (s.writeMasked a v).chk = s.chk := State.setReg_chk ..
@[simp] theorem State.writeMasked_cal (s : State) (a : Nat) (v : Word) : (s.writeMasked a v).cal = s.cal := State.setReg_cal ..
@[simp] theorem State.writeMasked_cel (s : State) (a : Nat) (v : Word) : (s.writeMasked a v).cel = s.cel := State.setReg_cel ..
@[simp] theorem State.writeMasked_lan (s : State) (a : Nat) (v : Word) : (s.writeMasked a v).lan = s.lan := State.setReg_lan ..
@[simp] theorem State.writeMasked_ring (s : State) (a : Nat) (v : Word) : (s.writeMasked a v).ring = s.ring := State.setReg_ring ..
@[simp] theorem State.writeMasked_tk (s : State) (a : Nat) (v : Word) : (s.writeMasked a v).tk = s.tk := State.setReg_tk ..
@[simp] theorem State.writeMasked_bel (s : State) (a : Nat) (v : Word) : (s.writeMasked a v).bel = s.bel := State.setReg_bel ..

/-! `State.setReg64` changes `regs` and nothing else. -/

@[simp] theorem State.setReg64_cycle (s : State) (a v : Nat) : (s.setReg64 a v).cycle = s.cycle := by simp only [State.setReg64, State.setReg_cycle]
@[simp] theorem State.setReg64_mem (s : State) (a v : Nat) : (s.setReg64 a v).mem = s.mem := by simp only [State.setReg64, State.setReg_mem]
@[simp] theorem State.setReg64_pending (s : State) (a v : Nat) : (s.setReg64 a v).pending = s.pending := by simp only [State.setReg64, State.setReg_pending]
@[simp] theorem State.setReg64_lastRead (s : State) (a v : Nat) : (s.setReg64 a v).lastRead = s.lastRead := by simp only [State.setReg64, State.setReg_lastRead]
@[simp] theorem State.setReg64_fresh (s : State) (a v : Nat) : (s.setReg64 a v).fresh = s.fresh := by simp only [State.setReg64, State.setReg_fresh]
@[simp] theorem State.setReg64_grids (s : State) (a v : Nat) : (s.setReg64 a v).grids = s.grids := by simp only [State.setReg64, State.setReg_grids]
@[simp] theorem State.setReg64_latches (s : State) (a v : Nat) : (s.setReg64 a v).latches = s.latches := by simp only [State.setReg64, State.setReg_latches]
@[simp] theorem State.setReg64_staged (s : State) (a v : Nat) : (s.setReg64 a v).staged = s.staged := by simp only [State.setReg64, State.setReg_staged]
@[simp] theorem State.setReg64_ctl (s : State) (a v : Nat) : (s.setReg64 a v).ctl = s.ctl := by simp only [State.setReg64, State.setReg_ctl]
@[simp] theorem State.setReg64_tbs (s : State) (a v : Nat) : (s.setReg64 a v).tbs = s.tbs := by simp only [State.setReg64, State.setReg_tbs]
@[simp] theorem State.setReg64_gal (s : State) (a v : Nat) : (s.setReg64 a v).gal = s.gal := by simp only [State.setReg64, State.setReg_gal]
@[simp] theorem State.setReg64_msix (s : State) (a v : Nat) : (s.setReg64 a v).msix = s.msix := by simp only [State.setReg64, State.setReg_msix]
@[simp] theorem State.setReg64_sat (s : State) (a v : Nat) : (s.setReg64 a v).sat = s.sat := by simp only [State.setReg64, State.setReg_sat]
@[simp] theorem State.setReg64_host (s : State) (a v : Nat) : (s.setReg64 a v).host = s.host := by simp only [State.setReg64, State.setReg_host]
@[simp] theorem State.setReg64_cor (s : State) (a v : Nat) : (s.setReg64 a v).cor = s.cor := by simp only [State.setReg64, State.setReg_cor]
@[simp] theorem State.setReg64_prune (s : State) (a v : Nat) : (s.setReg64 a v).prune = s.prune := by simp only [State.setReg64, State.setReg_prune]
@[simp] theorem State.setReg64_bur (s : State) (a v : Nat) : (s.setReg64 a v).bur = s.bur := by simp only [State.setReg64, State.setReg_bur]
@[simp] theorem State.setReg64_ttb (s : State) (a v : Nat) : (s.setReg64 a v).ttb = s.ttb := by simp only [State.setReg64, State.setReg_ttb]
@[simp] theorem State.setReg64_chn (s : State) (a v : Nat) : (s.setReg64 a v).chn = s.chn := by simp only [State.setReg64, State.setReg_chn]
@[simp] theorem State.setReg64_sq (s : State) (a v : Nat) : (s.setReg64 a v).sq = s.sq := by simp only [State.setReg64, State.setReg_sq]
@[simp] theorem State.setReg64_cmp (s : State) (a v : Nat) : (s.setReg64 a v).cmp = s.cmp := by simp only [State.setReg64, State.setReg_cmp]
@[simp] theorem State.setReg64_flw (s : State) (a v : Nat) : (s.setReg64 a v).flw = s.flw := by simp only [State.setReg64, State.setReg_flw]
@[simp] theorem State.setReg64_tim (s : State) (a v : Nat) : (s.setReg64 a v).tim = s.tim := by simp only [State.setReg64, State.setReg_tim]
@[simp] theorem State.setReg64_chk (s : State) (a v : Nat) : (s.setReg64 a v).chk = s.chk := by simp only [State.setReg64, State.setReg_chk]
@[simp] theorem State.setReg64_cal (s : State) (a v : Nat) : (s.setReg64 a v).cal = s.cal := by simp only [State.setReg64, State.setReg_cal]
@[simp] theorem State.setReg64_cel (s : State) (a v : Nat) : (s.setReg64 a v).cel = s.cel := by simp only [State.setReg64, State.setReg_cel]
@[simp] theorem State.setReg64_lan (s : State) (a v : Nat) : (s.setReg64 a v).lan = s.lan := by simp only [State.setReg64, State.setReg_lan]
@[simp] theorem State.setReg64_ring (s : State) (a v : Nat) : (s.setReg64 a v).ring = s.ring := by simp only [State.setReg64, State.setReg_ring]
@[simp] theorem State.setReg64_tk (s : State) (a v : Nat) : (s.setReg64 a v).tk = s.tk := by simp only [State.setReg64, State.setReg_tk]
@[simp] theorem State.setReg64_bel (s : State) (a v : Nat) : (s.setReg64 a v).bel = s.bel := by simp only [State.setReg64, State.setReg_bel]

/-! `State.inc64` changes `regs` and nothing else. -/

@[simp] theorem State.inc64_cycle (s : State) (a k : Nat) : (s.inc64 a k).cycle = s.cycle := State.setReg64_cycle ..
@[simp] theorem State.inc64_mem (s : State) (a k : Nat) : (s.inc64 a k).mem = s.mem := State.setReg64_mem ..
@[simp] theorem State.inc64_pending (s : State) (a k : Nat) : (s.inc64 a k).pending = s.pending := State.setReg64_pending ..
@[simp] theorem State.inc64_lastRead (s : State) (a k : Nat) : (s.inc64 a k).lastRead = s.lastRead := State.setReg64_lastRead ..
@[simp] theorem State.inc64_fresh (s : State) (a k : Nat) : (s.inc64 a k).fresh = s.fresh := State.setReg64_fresh ..
@[simp] theorem State.inc64_grids (s : State) (a k : Nat) : (s.inc64 a k).grids = s.grids := State.setReg64_grids ..
@[simp] theorem State.inc64_latches (s : State) (a k : Nat) : (s.inc64 a k).latches = s.latches := State.setReg64_latches ..
@[simp] theorem State.inc64_staged (s : State) (a k : Nat) : (s.inc64 a k).staged = s.staged := State.setReg64_staged ..
@[simp] theorem State.inc64_ctl (s : State) (a k : Nat) : (s.inc64 a k).ctl = s.ctl := State.setReg64_ctl ..
@[simp] theorem State.inc64_tbs (s : State) (a k : Nat) : (s.inc64 a k).tbs = s.tbs := State.setReg64_tbs ..
@[simp] theorem State.inc64_gal (s : State) (a k : Nat) : (s.inc64 a k).gal = s.gal := State.setReg64_gal ..
@[simp] theorem State.inc64_msix (s : State) (a k : Nat) : (s.inc64 a k).msix = s.msix := State.setReg64_msix ..
@[simp] theorem State.inc64_sat (s : State) (a k : Nat) : (s.inc64 a k).sat = s.sat := State.setReg64_sat ..
@[simp] theorem State.inc64_host (s : State) (a k : Nat) : (s.inc64 a k).host = s.host := State.setReg64_host ..
@[simp] theorem State.inc64_cor (s : State) (a k : Nat) : (s.inc64 a k).cor = s.cor := State.setReg64_cor ..
@[simp] theorem State.inc64_prune (s : State) (a k : Nat) : (s.inc64 a k).prune = s.prune := State.setReg64_prune ..
@[simp] theorem State.inc64_bur (s : State) (a k : Nat) : (s.inc64 a k).bur = s.bur := State.setReg64_bur ..
@[simp] theorem State.inc64_ttb (s : State) (a k : Nat) : (s.inc64 a k).ttb = s.ttb := State.setReg64_ttb ..
@[simp] theorem State.inc64_chn (s : State) (a k : Nat) : (s.inc64 a k).chn = s.chn := State.setReg64_chn ..
@[simp] theorem State.inc64_sq (s : State) (a k : Nat) : (s.inc64 a k).sq = s.sq := State.setReg64_sq ..
@[simp] theorem State.inc64_cmp (s : State) (a k : Nat) : (s.inc64 a k).cmp = s.cmp := State.setReg64_cmp ..
@[simp] theorem State.inc64_flw (s : State) (a k : Nat) : (s.inc64 a k).flw = s.flw := State.setReg64_flw ..
@[simp] theorem State.inc64_tim (s : State) (a k : Nat) : (s.inc64 a k).tim = s.tim := State.setReg64_tim ..
@[simp] theorem State.inc64_chk (s : State) (a k : Nat) : (s.inc64 a k).chk = s.chk := State.setReg64_chk ..
@[simp] theorem State.inc64_cal (s : State) (a k : Nat) : (s.inc64 a k).cal = s.cal := State.setReg64_cal ..
@[simp] theorem State.inc64_cel (s : State) (a k : Nat) : (s.inc64 a k).cel = s.cel := State.setReg64_cel ..
@[simp] theorem State.inc64_lan (s : State) (a k : Nat) : (s.inc64 a k).lan = s.lan := State.setReg64_lan ..
@[simp] theorem State.inc64_ring (s : State) (a k : Nat) : (s.inc64 a k).ring = s.ring := State.setReg64_ring ..
@[simp] theorem State.inc64_tk (s : State) (a k : Nat) : (s.inc64 a k).tk = s.tk := State.setReg64_tk ..
@[simp] theorem State.inc64_bel (s : State) (a k : Nat) : (s.inc64 a k).bel = s.bel := State.setReg64_bel ..

/-! `State.commit64` changes `regs` and nothing else. -/

@[simp] theorem State.commit64_cycle (s : State) (a v : Nat) : (s.commit64 a v).cycle = s.cycle := State.setReg64_cycle ..
@[simp] theorem State.commit64_mem (s : State) (a v : Nat) : (s.commit64 a v).mem = s.mem := State.setReg64_mem ..
@[simp] theorem State.commit64_pending (s : State) (a v : Nat) : (s.commit64 a v).pending = s.pending := State.setReg64_pending ..
@[simp] theorem State.commit64_lastRead (s : State) (a v : Nat) : (s.commit64 a v).lastRead = s.lastRead := State.setReg64_lastRead ..
@[simp] theorem State.commit64_fresh (s : State) (a v : Nat) : (s.commit64 a v).fresh = s.fresh := State.setReg64_fresh ..
@[simp] theorem State.commit64_grids (s : State) (a v : Nat) : (s.commit64 a v).grids = s.grids := State.setReg64_grids ..
@[simp] theorem State.commit64_latches (s : State) (a v : Nat) : (s.commit64 a v).latches = s.latches := State.setReg64_latches ..
@[simp] theorem State.commit64_staged (s : State) (a v : Nat) : (s.commit64 a v).staged = s.staged := State.setReg64_staged ..
@[simp] theorem State.commit64_ctl (s : State) (a v : Nat) : (s.commit64 a v).ctl = s.ctl := State.setReg64_ctl ..
@[simp] theorem State.commit64_tbs (s : State) (a v : Nat) : (s.commit64 a v).tbs = s.tbs := State.setReg64_tbs ..
@[simp] theorem State.commit64_gal (s : State) (a v : Nat) : (s.commit64 a v).gal = s.gal := State.setReg64_gal ..
@[simp] theorem State.commit64_msix (s : State) (a v : Nat) : (s.commit64 a v).msix = s.msix := State.setReg64_msix ..
@[simp] theorem State.commit64_sat (s : State) (a v : Nat) : (s.commit64 a v).sat = s.sat := State.setReg64_sat ..
@[simp] theorem State.commit64_host (s : State) (a v : Nat) : (s.commit64 a v).host = s.host := State.setReg64_host ..
@[simp] theorem State.commit64_cor (s : State) (a v : Nat) : (s.commit64 a v).cor = s.cor := State.setReg64_cor ..
@[simp] theorem State.commit64_prune (s : State) (a v : Nat) : (s.commit64 a v).prune = s.prune := State.setReg64_prune ..
@[simp] theorem State.commit64_bur (s : State) (a v : Nat) : (s.commit64 a v).bur = s.bur := State.setReg64_bur ..
@[simp] theorem State.commit64_ttb (s : State) (a v : Nat) : (s.commit64 a v).ttb = s.ttb := State.setReg64_ttb ..
@[simp] theorem State.commit64_chn (s : State) (a v : Nat) : (s.commit64 a v).chn = s.chn := State.setReg64_chn ..
@[simp] theorem State.commit64_sq (s : State) (a v : Nat) : (s.commit64 a v).sq = s.sq := State.setReg64_sq ..
@[simp] theorem State.commit64_cmp (s : State) (a v : Nat) : (s.commit64 a v).cmp = s.cmp := State.setReg64_cmp ..
@[simp] theorem State.commit64_flw (s : State) (a v : Nat) : (s.commit64 a v).flw = s.flw := State.setReg64_flw ..
@[simp] theorem State.commit64_tim (s : State) (a v : Nat) : (s.commit64 a v).tim = s.tim := State.setReg64_tim ..
@[simp] theorem State.commit64_chk (s : State) (a v : Nat) : (s.commit64 a v).chk = s.chk := State.setReg64_chk ..
@[simp] theorem State.commit64_cal (s : State) (a v : Nat) : (s.commit64 a v).cal = s.cal := State.setReg64_cal ..
@[simp] theorem State.commit64_cel (s : State) (a v : Nat) : (s.commit64 a v).cel = s.cel := State.setReg64_cel ..
@[simp] theorem State.commit64_lan (s : State) (a v : Nat) : (s.commit64 a v).lan = s.lan := State.setReg64_lan ..
@[simp] theorem State.commit64_ring (s : State) (a v : Nat) : (s.commit64 a v).ring = s.ring := State.setReg64_ring ..
@[simp] theorem State.commit64_tk (s : State) (a v : Nat) : (s.commit64 a v).tk = s.tk := State.setReg64_tk ..
@[simp] theorem State.commit64_bel (s : State) (a v : Nat) : (s.commit64 a v).bel = s.bel := State.setReg64_bel ..

/-! `State.timeTaken` changes `staged` and nothing else. -/

@[simp] theorem State.timeTaken_cycle (s : State) (req a : Nat) : (s.timeTaken req a).cycle = s.cycle := rfl
@[simp] theorem State.timeTaken_regs (s : State) (req a : Nat) : (s.timeTaken req a).regs = s.regs := rfl
@[simp] theorem State.timeTaken_mem (s : State) (req a : Nat) : (s.timeTaken req a).mem = s.mem := rfl
@[simp] theorem State.timeTaken_pending (s : State) (req a : Nat) : (s.timeTaken req a).pending = s.pending := rfl
@[simp] theorem State.timeTaken_lastRead (s : State) (req a : Nat) : (s.timeTaken req a).lastRead = s.lastRead := rfl
@[simp] theorem State.timeTaken_fresh (s : State) (req a : Nat) : (s.timeTaken req a).fresh = s.fresh := rfl
@[simp] theorem State.timeTaken_grids (s : State) (req a : Nat) : (s.timeTaken req a).grids = s.grids := rfl
@[simp] theorem State.timeTaken_latches (s : State) (req a : Nat) : (s.timeTaken req a).latches = s.latches := rfl
@[simp] theorem State.timeTaken_ctl (s : State) (req a : Nat) : (s.timeTaken req a).ctl = s.ctl := rfl
@[simp] theorem State.timeTaken_tbs (s : State) (req a : Nat) : (s.timeTaken req a).tbs = s.tbs := rfl
@[simp] theorem State.timeTaken_gal (s : State) (req a : Nat) : (s.timeTaken req a).gal = s.gal := rfl
@[simp] theorem State.timeTaken_msix (s : State) (req a : Nat) : (s.timeTaken req a).msix = s.msix := rfl
@[simp] theorem State.timeTaken_sat (s : State) (req a : Nat) : (s.timeTaken req a).sat = s.sat := rfl
@[simp] theorem State.timeTaken_host (s : State) (req a : Nat) : (s.timeTaken req a).host = s.host := rfl
@[simp] theorem State.timeTaken_cor (s : State) (req a : Nat) : (s.timeTaken req a).cor = s.cor := rfl
@[simp] theorem State.timeTaken_prune (s : State) (req a : Nat) : (s.timeTaken req a).prune = s.prune := rfl
@[simp] theorem State.timeTaken_bur (s : State) (req a : Nat) : (s.timeTaken req a).bur = s.bur := rfl
@[simp] theorem State.timeTaken_ttb (s : State) (req a : Nat) : (s.timeTaken req a).ttb = s.ttb := rfl
@[simp] theorem State.timeTaken_chn (s : State) (req a : Nat) : (s.timeTaken req a).chn = s.chn := rfl
@[simp] theorem State.timeTaken_sq (s : State) (req a : Nat) : (s.timeTaken req a).sq = s.sq := rfl
@[simp] theorem State.timeTaken_cmp (s : State) (req a : Nat) : (s.timeTaken req a).cmp = s.cmp := rfl
@[simp] theorem State.timeTaken_flw (s : State) (req a : Nat) : (s.timeTaken req a).flw = s.flw := rfl
@[simp] theorem State.timeTaken_tim (s : State) (req a : Nat) : (s.timeTaken req a).tim = s.tim := rfl
@[simp] theorem State.timeTaken_chk (s : State) (req a : Nat) : (s.timeTaken req a).chk = s.chk := rfl
@[simp] theorem State.timeTaken_cal (s : State) (req a : Nat) : (s.timeTaken req a).cal = s.cal := rfl
@[simp] theorem State.timeTaken_cel (s : State) (req a : Nat) : (s.timeTaken req a).cel = s.cel := rfl
@[simp] theorem State.timeTaken_lan (s : State) (req a : Nat) : (s.timeTaken req a).lan = s.lan := rfl
@[simp] theorem State.timeTaken_ring (s : State) (req a : Nat) : (s.timeTaken req a).ring = s.ring := rfl
@[simp] theorem State.timeTaken_tk (s : State) (req a : Nat) : (s.timeTaken req a).tk = s.tk := rfl
@[simp] theorem State.timeTaken_bel (s : State) (req a : Nat) : (s.timeTaken req a).bel = s.bel := rfl

/-! `State.setTime4` changes `regs` and nothing else. -/

@[simp] theorem State.setTime4_cycle (s : State) (a t : Nat) : (s.setTime4 a t).cycle = s.cycle := by unfold State.setTime4; split <;> simp only [State.setReg_cycle]
@[simp] theorem State.setTime4_mem (s : State) (a t : Nat) : (s.setTime4 a t).mem = s.mem := by unfold State.setTime4; split <;> simp only [State.setReg_mem]
@[simp] theorem State.setTime4_pending (s : State) (a t : Nat) : (s.setTime4 a t).pending = s.pending := by unfold State.setTime4; split <;> simp only [State.setReg_pending]
@[simp] theorem State.setTime4_lastRead (s : State) (a t : Nat) : (s.setTime4 a t).lastRead = s.lastRead := by unfold State.setTime4; split <;> simp only [State.setReg_lastRead]
@[simp] theorem State.setTime4_fresh (s : State) (a t : Nat) : (s.setTime4 a t).fresh = s.fresh := by unfold State.setTime4; split <;> simp only [State.setReg_fresh]
@[simp] theorem State.setTime4_grids (s : State) (a t : Nat) : (s.setTime4 a t).grids = s.grids := by unfold State.setTime4; split <;> simp only [State.setReg_grids]
@[simp] theorem State.setTime4_latches (s : State) (a t : Nat) : (s.setTime4 a t).latches = s.latches := by unfold State.setTime4; split <;> simp only [State.setReg_latches]
@[simp] theorem State.setTime4_staged (s : State) (a t : Nat) : (s.setTime4 a t).staged = s.staged := by unfold State.setTime4; split <;> simp only [State.setReg_staged]
@[simp] theorem State.setTime4_ctl (s : State) (a t : Nat) : (s.setTime4 a t).ctl = s.ctl := by unfold State.setTime4; split <;> simp only [State.setReg_ctl]
@[simp] theorem State.setTime4_tbs (s : State) (a t : Nat) : (s.setTime4 a t).tbs = s.tbs := by unfold State.setTime4; split <;> simp only [State.setReg_tbs]
@[simp] theorem State.setTime4_gal (s : State) (a t : Nat) : (s.setTime4 a t).gal = s.gal := by unfold State.setTime4; split <;> simp only [State.setReg_gal]
@[simp] theorem State.setTime4_msix (s : State) (a t : Nat) : (s.setTime4 a t).msix = s.msix := by unfold State.setTime4; split <;> simp only [State.setReg_msix]
@[simp] theorem State.setTime4_sat (s : State) (a t : Nat) : (s.setTime4 a t).sat = s.sat := by unfold State.setTime4; split <;> simp only [State.setReg_sat]
@[simp] theorem State.setTime4_host (s : State) (a t : Nat) : (s.setTime4 a t).host = s.host := by unfold State.setTime4; split <;> simp only [State.setReg_host]
@[simp] theorem State.setTime4_cor (s : State) (a t : Nat) : (s.setTime4 a t).cor = s.cor := by unfold State.setTime4; split <;> simp only [State.setReg_cor]
@[simp] theorem State.setTime4_prune (s : State) (a t : Nat) : (s.setTime4 a t).prune = s.prune := by unfold State.setTime4; split <;> simp only [State.setReg_prune]
@[simp] theorem State.setTime4_bur (s : State) (a t : Nat) : (s.setTime4 a t).bur = s.bur := by unfold State.setTime4; split <;> simp only [State.setReg_bur]
@[simp] theorem State.setTime4_ttb (s : State) (a t : Nat) : (s.setTime4 a t).ttb = s.ttb := by unfold State.setTime4; split <;> simp only [State.setReg_ttb]
@[simp] theorem State.setTime4_chn (s : State) (a t : Nat) : (s.setTime4 a t).chn = s.chn := by unfold State.setTime4; split <;> simp only [State.setReg_chn]
@[simp] theorem State.setTime4_sq (s : State) (a t : Nat) : (s.setTime4 a t).sq = s.sq := by unfold State.setTime4; split <;> simp only [State.setReg_sq]
@[simp] theorem State.setTime4_cmp (s : State) (a t : Nat) : (s.setTime4 a t).cmp = s.cmp := by unfold State.setTime4; split <;> simp only [State.setReg_cmp]
@[simp] theorem State.setTime4_flw (s : State) (a t : Nat) : (s.setTime4 a t).flw = s.flw := by unfold State.setTime4; split <;> simp only [State.setReg_flw]
@[simp] theorem State.setTime4_tim (s : State) (a t : Nat) : (s.setTime4 a t).tim = s.tim := by unfold State.setTime4; split <;> simp only [State.setReg_tim]
@[simp] theorem State.setTime4_chk (s : State) (a t : Nat) : (s.setTime4 a t).chk = s.chk := by unfold State.setTime4; split <;> simp only [State.setReg_chk]
@[simp] theorem State.setTime4_cal (s : State) (a t : Nat) : (s.setTime4 a t).cal = s.cal := by unfold State.setTime4; split <;> simp only [State.setReg_cal]
@[simp] theorem State.setTime4_cel (s : State) (a t : Nat) : (s.setTime4 a t).cel = s.cel := by unfold State.setTime4; split <;> simp only [State.setReg_cel]
@[simp] theorem State.setTime4_lan (s : State) (a t : Nat) : (s.setTime4 a t).lan = s.lan := by unfold State.setTime4; split <;> simp only [State.setReg_lan]
@[simp] theorem State.setTime4_ring (s : State) (a t : Nat) : (s.setTime4 a t).ring = s.ring := by unfold State.setTime4; split <;> simp only [State.setReg_ring]
@[simp] theorem State.setTime4_tk (s : State) (a t : Nat) : (s.setTime4 a t).tk = s.tk := by unfold State.setTime4; split <;> simp only [State.setReg_tk]
@[simp] theorem State.setTime4_bel (s : State) (a t : Nat) : (s.setTime4 a t).bel = s.bel := by unfold State.setTime4; split <;> simp only [State.setReg_bel]

end Sys2Proof.Machine
end

