-- ==== Sys2Proof/Laws/Ops.lean ====
section
/-! SUPPORT. What the shared operations do to the register file, and what an occurrence, a refusal and the passing of time leave alone. -/

namespace Sys2Proof.Machine

/-! ### Words of the register file -/

@[simp] theorem State.reg_setReg (s : State) (a : Nat) (w : Word) : (s.setReg a w).reg a = w :=
  Tab.get_set_same resetValue s.regs a w

theorem State.reg_setReg_ne (s : State) {a b : Nat} (w : Word) (h : b ≠ a) : (s.setReg a w).reg b = s.reg b :=
  Tab.get_set_ne resetValue s.regs w h

/-- States with the same register file read alike. -/
theorem State.reg_congr {s t : State} (h : t.regs = s.regs) (a : Nat) : t.reg a = s.reg a := by unfold State.reg; rw [h]

@[simp] theorem State.reg_setF (s : State) (a hi lo v : Nat) : (s.setF a hi lo v).reg a = setFld (s.reg a) hi lo v := s.reg_setReg a _
theorem State.reg_setF_ne (s : State) {a b : Nat} (hi lo v : Nat) (h : b ≠ a) : (s.setF a hi lo v).reg b = s.reg b := s.reg_setReg_ne _ h
@[simp] theorem State.reg_setB (s : State) (a n : Nat) (b : Bool) : (s.setB a n b).reg a = setBit (s.reg a) n b := s.reg_setReg a _
theorem State.reg_setB_ne (s : State) {a b : Nat} (n : Nat) (x : Bool) (h : b ≠ a) : (s.setB a n x).reg b = s.reg b := s.reg_setReg_ne _ h
@[simp] theorem State.reg_incSat (s : State) (a k : Nat) : (s.incSat a k).reg a = satAdd 32 (s.reg a) k := by
  unfold State.incSat; rw [State.reg_setReg]
theorem State.reg_incSat_ne (s : State) {a b : Nat} (k : Nat) (h : b ≠ a) : (s.incSat a k).reg b = s.reg b := by
  unfold State.incSat; rw [State.reg_setReg_ne _ _ h]; split <;> rfl
@[simp] theorem State.reg_incWrap (s : State) (a k : Nat) : (s.incWrap a k).reg a = wd ((s.reg a).toNat + k) := s.reg_setReg a _
theorem State.reg_incWrap_ne (s : State) {a b : Nat} (k : Nat) (h : b ≠ a) : (s.incWrap a k).reg b = s.reg b := s.reg_setReg_ne _ h
@[simp] theorem State.reg_setReg64 (s : State) (a v : Nat) : (s.setReg64 a v).reg a = wd v := by
  unfold State.setReg64; rw [State.reg_setReg_ne _ _ (by omega), State.reg_setReg]
@[simp] theorem State.reg_setReg64_hi (s : State) (a v : Nat) : (s.setReg64 a v).reg (a + 4) = wd (v / 2 ^ 32) := by
  unfold State.setReg64; rw [State.reg_setReg]
theorem State.reg_setReg64_ne (s : State) {a b : Nat} (v : Nat) (h : b ≠ a) (h' : b ≠ a + 4) : (s.setReg64 a v).reg b = s.reg b := by
  unfold State.setReg64; rw [State.reg_setReg_ne _ _ h', State.reg_setReg_ne _ _ h]

/-- A 64-bit register reads the value it was given. -/
theorem State.reg64_setReg64 (s : State) {a v : Nat} (h : v < 2 ^ 64) : (s.setReg64 a v).reg64 a = v := by
  unfold State.reg64
  rw [State.reg_setReg64, State.reg_setReg64_hi]
  simp only [wd, BitVec.toNat_ofNat]
  omega

theorem writeMask_lt (a : Nat) : writeMask a < 2 ^ 32 := by
  unfold writeMask; split
  · decide
  · exact Nat.mod_lt _ (by decide)

@[simp] theorem State.reg_writeMasked (s : State) (a : Nat) (v : Word) :
    (s.writeMasked a v).reg a = wd (mergeMask (writeMask a) (s.reg a).toNat v.toNat) := s.reg_setReg a _
theorem State.reg_writeMasked_ne (s : State) {a b : Nat} (v : Word) (h : b ≠ a) : (s.writeMasked a v).reg b = s.reg b := s.reg_setReg_ne _ h

/-- A masked write takes the bits software sets and keeps the others (R7, R9). -/
theorem State.bit_writeMasked (s : State) (a : Nat) (v : Word) {n : Nat} (h : n < 32) :
    bit ((s.writeMasked a v).reg a) n = if nbit (writeMask a) n then bit v n else bit (s.reg a) n := by
  rw [State.reg_writeMasked, bit_merge _ _ (lt_trans (writeMask_lt a) (by norm_num)) h]

/-! ### Times -/

/-- Four words whose NS is below 10^9 come back from the time they stand for, bits 31:16 of word 0 aside. -/
theorem timeWords_wordsTime (w0 w1 w2 w3 : Word) (h : w1.toNat ≤ 999999999) :
    timeWords (wordsTime w0 w1 w2 w3) = [wd (w0.toNat % 65536), w1, w2, w3] := by
  have h2 := w2.isLt
  unfold timeWords wordsTime
  generalize hS : w2.toNat + 2 ^ 32 * w3.toNat = S
  have e1 : ((S * 1000000000 + w1.toNat) * 65536 + w0.toNat % 65536) / 65536 = S * 1000000000 + w1.toNat := by
    rw [Nat.mul_comm, Nat.mul_add_div (by decide), Nat.div_eq_of_lt (Nat.mod_lt _ (by decide)), Nat.add_zero]
  have e2 : ((S * 1000000000 + w1.toNat) * 65536 + w0.toNat % 65536) % 65536 = w0.toNat % 65536 := by
    rw [Nat.mul_comm, Nat.mul_add_mod, Nat.mod_mod]
  have e3 : (S * 1000000000 + w1.toNat) % 1000000000 = w1.toNat := by
    rw [Nat.mul_comm, Nat.mul_add_mod, Nat.mod_eq_of_lt (by omega)]
  have e4 : (S * 1000000000 + w1.toNat) / 1000000000 = S := by
    rw [Nat.mul_comm, Nat.mul_add_div (by decide), Nat.div_eq_of_lt (by omega), Nat.add_zero]
  have e5 : S / 2 ^ 32 = w3.toNat := by omega
  have e6 : wd S = w2 := by
    apply BitVec.eq_of_toNat_eq
    unfold wd
    rw [BitVec.toNat_ofNat]; omega
  have e7 (w : Word) : wd w.toNat = w := by unfold wd; simp
  dsimp only
  rw [e1, e2, e3, e4, e5, e6, e7, e7]

/-! ### Bytes of field memory -/

@[simp] theorem State.byte_setByte (s : State) (a : Nat) (b : Byte) : (s.setByte a b).byte a = b :=
  Tab.get_set_same memDefault s.mem a b

theorem State.byte_setByte_ne (s : State) {a c : Nat} (b : Byte) (h : c ≠ a) : (s.setByte a b).byte c = s.byte c :=
  Tab.get_set_ne memDefault s.mem b h

/-- States with the same field memory read alike. -/
theorem State.byte_congr {s t : State} (h : t.mem = s.mem) (a : Nat) : t.byte a = s.byte a := by unfold State.byte; rw [h]

/-! ### Occurrences (R57 to R64): the event words, the Gallery, the interrupt messages and the pulses change, nothing else -/

/-- `f` does not look at the Gallery, the interrupt messages, the pulses, or the words of the register file in `W`. -/
structure QuietOn {α : Type} (W : Nat → Bool) (f : State → α) : Prop where
  reg : ∀ s a w, W a = true → f (State.setReg s a w) = f s
  gal : ∀ s g, f { s with gal := g } = f s
  msix : ∀ s m, f { s with msix := m } = f s
  sat : ∀ s x, f { s with sat := x } = f s
  cor : ∀ s c, f { s with cor := c } = f s

/-- `f` does not look at what an occurrence changes. -/
abbrev Quiet {α : Type} (f : State → α) : Prop := QuietOn evWord f

/-- The words of `GAL[0]` that an occurrence may write. -/
structure GalWords (W : Nat → Bool) : Prop where
  raw : W (galBase + 0x10) = true
  pend : W (galBase + 0x14) = true
  lost : W (galBase + 0x50) = true

/-- An occurrence of `g` writes `EV_PEND`, and `EV_RAW` if `raw`, of its page. -/
def EvWords (W : Nat → Bool) (raw : Bool) (g : Nat) : Prop :=
  ∀ p, ordinalPage (g / 32) = some p → W (p + 0x14) = true ∧ (raw = true → W (p + 0x10) = true)

theorem ordinalPage_aligned {o p : Nat} (h : ordinalPage o = some p) : p % 0x1000 = 0 := by
  have all : ∀ g ∈ pageGroups, g.base % 0x1000 = 0 ∧ g.stride % 0x1000 = 0 := by decide
  unfold ordinalPage at h
  rw [Option.map_eq_some_iff] at h
  obtain ⟨g, hg, rfl⟩ := h
  obtain ⟨h1, h2⟩ := all g (List.mem_of_find?_eq_some hg)
  rw [Nat.add_mod, Nat.mul_mod, h1, h2, Nat.mul_zero]

theorem evWord_raw {o p : Nat} (h : ordinalPage o = some p) : evWord (p + 0x10) = true := by
  have := ordinalPage_aligned h; simp [evWord]; omega

theorem evWord_pend {o p : Nat} (h : ordinalPage o = some p) : evWord (p + 0x14) = true := by
  have := ordinalPage_aligned h; simp [evWord]; omega

theorem evWord_dropCount (d : EdgeDrop) : evWord (seqBase (d.seq % 16) 1 + 0x44) = true := by
  have := Nat.mod_lt d.seq (show 0 < 16 by decide); simp [evWord, seqBase]; omega

theorem evWord_dropInfo (d : EdgeDrop) : evWord (seqBase (d.seq % 16) 1 + 0x48) = true := by
  have := Nat.mod_lt d.seq (show 0 < 16 by decide); simp [evWord, seqBase]; omega

section Quiet

variable {α : Type} {W : Nat → Bool} {f : State → α} (q : QuietOn W f) (s : State)

include q

theorem QuietOn.incSat {a : Nat} (h : W a = true) (k : Nat) : f (s.incSat a k) = f s := by
  unfold State.incSat; rw [q.reg _ _ _ h]; split
  · exact q.gal ..
  · rfl

theorem QuietOn.noteSet (g : Nat) : f (s.noteSet g) = f s := by
  unfold State.noteSet; split
  · rfl
  · exact q.gal ..

theorem QuietOn.msixSend (v : Nat) : f (s.msixSend v) = f s := by
  unfold State.msixSend; split <;> exact q.msix ..

theorem QuietOn.request (o : Nat) : f (s.request o) = f s := by
  unfold State.request; split
  · rfl
  · split
    · exact q.msixSend ..
    · split
      · exact q.sat ..
      · rfl

theorem QuietOn.requestRise (o : Nat) (w : Word) : f (s.requestRise o w) = f s := by
  unfold State.requestRise; split
  · rfl
  · split
    · exact q.request ..
    · rfl

theorem QuietOn.pulse (g : Nat) : f (s.pulse g) = f s := by
  unfold State.pulse; split
  · split <;> exact q.sat ..
  · split
    · rfl
    · exact q.cor ..

theorem QuietOn.pend {raw : Bool} {g : Nat} (h : EvWords W raw g) : f (s.pend raw g) = f s := by
  unfold State.pend; split
  · rfl
  · next p hp =>
    split
    · have hw : f (if raw = true then ((s.setB (p + 0x14) (g % 32) true).setB (p + 0x10) (g % 32) true).noteSet g
          else s.setB (p + 0x14) (g % 32) true) = f s := by
        split
        · next hr => rw [q.noteSet, State.setB, q.reg _ _ _ ((h p hp).2 hr), State.setB, q.reg _ _ _ (h p hp).1]
        · rw [State.setB, q.reg _ _ _ (h p hp).1]
      dsimp only
      split
      · rw [q.requestRise, hw]
      · rw [q.pulse, q.requestRise, hw]
    · rfl

theorem QuietOn.counters {s₀ : State} (l : List Nat) (r : Bool × State) (p : Bool × State → Nat → Bool) (b : Bool × State → Nat → Bool)
    (x : Bool × State → Nat → Counter) (h : f r.2 = f s₀) :
    f (l.foldl (fun r k => if p r k then (b r k, r.2.setCounter k (x r k)) else r) r).2 = f s₀ := by
  induction l generalizing r with
  | nil => exact h
  | cons k l ih =>
    refine ih _ ?_
    dsimp only
    split
    · exact (q.gal ..).trans h
    · exact h

theorem QuietOn.countOcc (g : Nat) : f (s.countOcc g).2 = f s := by
  unfold State.countOcc; split
  · exact q.counters _ (false, s) (fun r k => (r.2.counter k).en && (r.2.counter k).mode = 0 && (r.2.counter k).source = g)
      (fun r k => r.1 || decide ((r.2.counter k).live + 1 = 2 ^ 48)) (fun r k => { (r.2.counter k).add 1 with hitAt := s.cycle + 1 }) rfl
  · rfl

omit q in
theorem GalWords.ev (hg : GalWords W) (b : Nat) (hb : b < 32) : EvWords W true (evNo 61 b) := by
  intro p hp
  have e : evNo 61 b / 32 = 61 := by unfold evNo; omega
  rw [e, show ordinalPage 61 = some galBase by decide, Option.some.injEq] at hp
  subst hp
  exact ⟨hg.pend, fun _ => hg.raw⟩

theorem QuietOn.occurG (hg : GalWords W) {raw : Bool} {g : Nat} (h : EvWords W raw g) : f (s.occurG raw g) = f s := by
  unfold State.occurG; split
  · exact q.pend _ h
  · dsimp only
    split
    · rw [q.countOcc, q.pend (g := evCntWrap) _ (hg.ev 4 (by decide)), q.countOcc, q.pend _ h]
    · rw [q.countOcc, q.pend _ h]

theorem QuietOn.traceEnd (hg : GalWords W) (c : Nat) : f (s.traceEnd c) = f s := by
  unfold State.traceEnd; rw [q.occurG _ hg (hg.ev 0 (by decide))]; exact q.gal ..

theorem QuietOn.traceWrite (hg : GalWords W) (k g : Nat) (raw : Word) : f (s.traceWrite k g raw) = f s := by
  have e (b : Nat) (hb : b < 32) (t : State) : f (t.occurG true (evNo 61 b)) = f t := q.occurG _ hg (hg.ev b hb)
  have e' (t : State) (k : Nat) : f (t.incSat (galBase + 0x50) k) = f t := q.incSat _ hg.lost k
  unfold State.traceWrite; dsimp only
  repeat' first
    | split | exact q.gal .. | rw [q.traceEnd _ hg] | rw [e _ (by decide)] | rw [e']

theorem QuietOn.traceOcc (hg : GalWords W) (g : Nat) : f (s.traceOcc g) = f s := by
  unfold State.traceOcc; split
  · split
    · rfl
    · exact q.traceWrite _ hg ..
  · rfl

/-- An occurrence changes nothing that `f` looks at. -/
theorem QuietOn.occur (hg : GalWords W) {g : Nat} (h : EvWords W true g) : f (s.occur g) = f s := by
  unfold State.occur; split
  · exact q.pend _ h
  · rw [q.traceOcc _ hg, q.occurG _ hg h]

theorem QuietOn.occurTest (hg : GalWords W) {g : Nat} (h : EvWords W false g) : f (s.occurTest g) = f s := by
  unfold State.occurTest; split
  · exact q.pend _ h
  · rw [q.traceOcc _ hg, q.occurG _ hg h]

end Quiet

theorem evWords (raw : Bool) (g : Nat) : EvWords evWord raw g := fun _ h => ⟨evWord_pend h, fun _ => evWord_raw h⟩

theorem galWords : GalWords evWord := ⟨by decide, by decide, by decide⟩

section Quiet

variable {α : Type} {f : State → α} (q : Quiet f) (s : State)

include q

theorem Quiet.occurG (raw : Bool) (g : Nat) : f (s.occurG raw g) = f s := QuietOn.occurG q s galWords (evWords raw g)
theorem Quiet.occur (g : Nat) : f (s.occur g) = f s := QuietOn.occur q s galWords (evWords true g)
theorem Quiet.occurTest (g : Nat) : f (s.occurTest g) = f s := QuietOn.occurTest q s galWords (evWords false g)

theorem Quiet.setLive (g : Nat) (b : Bool) : f (s.setLive g b) = f s := by
  unfold State.setLive; split
  · rfl
  · next p hp =>
    dsimp only
    split
    · rw [QuietOn.noteSet q, Quiet.occurTest q, State.setB, q.reg _ _ _ (evWord_raw hp)]
    · rw [State.setB, q.reg _ _ _ (evWord_raw hp)]

/-- A refusal (R27) changes `DENY_INFO` and `DENY_COUNT` besides. -/
theorem Quiet.deny (h : ∀ s w, f (State.setReg s (glbBase + 0x4C) w) = f s) (h' : ∀ s w, f (State.setReg s (glbBase + 0x50) w) = f s)
    (c o p : Nat) (x w : Bool) : f (s.deny c o p x w) = f s := by
  unfold State.deny; dsimp only
  have hi (t : State) : f (t.incSat (glbBase + 0x50) 1) = f t := by
    unfold State.incSat; rw [h']; split
    · exact q.gal ..
    · rfl
  rw [Quiet.occur q, hi]
  split
  · exact h ..
  · rfl

/-- The trace settles within the Gallery. -/
theorem Quiet.traceSettle : f s.traceSettle = f s := by
  unfold State.traceSettle; dsimp only; split
  · exact q.gal ..
  · rfl

/-- A dropped edge that is counted leaves its sequencer's words and an occurrence. -/
theorem Quiet.dropCount (d : EdgeDrop) : f (s.dropCount d) = f s := by
  unfold State.dropCount; dsimp only
  rw [Quiet.occur q]
  split
  · rw [q.reg _ _ _ (evWord_dropInfo d), QuietOn.incSat q _ (evWord_dropCount d)]
  · rw [QuietOn.incSat q _ (evWord_dropCount d)]

/-- The edges that fall due leave the list. -/
theorem Quiet.dropsDue (hd : ∀ s l, f (State.setDrops s l) = f s) : f s.dropsDue = f s := by
  unfold State.dropsDue; dsimp only
  generalize s.sq.drops.filter _ = l
  suffices h : ∀ (l : List EdgeDrop) (t : State), f (l.foldl State.dropCount t) = f t from (h ..).trans (hd ..)
  intro l
  induction l with
  | nil => exact fun _ => rfl
  | cons d l ih => exact fun t => (ih _).trans (Quiet.dropCount q t d)

/-- The clock and the MODE 1 counters. -/
theorem Quiet.run (ht : ∀ s n, f (State.tick s n) = f s) (n : Nat) : f (s.run n) = f s := by
  have e := QuietOn.counters q (s₀ := s) (Tab.keys s.gal.cnts) (false, s.tick n)
    (fun r k => (r.2.counter k).en && (r.2.counter k).mode = 1 && s.rawBit (r.2.counter k).source)
    (fun r k => r.1 || decide (2 ^ 48 ≤ (r.2.counter k).live + n)) (fun r k => (r.2.counter k).add n) (ht ..)
  unfold State.run; dsimp only
  split
  · split
    · rw [Quiet.occurG q]; exact e
    · exact e
  · exact ht ..

/-- The passing of time changes the cycle, the count with the fast clocks running, the Gallery and the edges that wait to be counted, and may be an
occurrence. -/
theorem Quiet.pass (ht : ∀ s n, f (State.tick s n) = f s) (hd : ∀ s l, f (State.setDrops s l) = f s) (n : Nat) : f (s.pass n) = f s := by
  unfold State.pass; rw [Quiet.dropsDue q _ hd, Quiet.run q _ ht, Quiet.traceSettle q]

theorem Quiet.passTo (ht : ∀ s n, f (State.tick s n) = f s) (hd : ∀ s l, f (State.setDrops s l) = f s) (c : Nat) : f (s.passTo c) = f s := by
  unfold State.passTo; split
  · exact Quiet.pass q _ ht hd _
  · rfl

end Quiet

theorem quiet_reg {a : Nat} (h : evWord a = false) : Quiet (·.reg a) where
  reg s b w hb := s.reg_setReg_ne w (by rintro rfl; rw [h] at hb; cases hb)
  gal _ _ := rfl
  msix _ _ := rfl
  sat _ _ := rfl
  cor _ _ := rfl

theorem quiet_cycle : Quiet (·.cycle) := ⟨fun s a w _ => s.setReg_cycle a w, fun _ _ => rfl, fun _ _ => rfl, fun _ _ => rfl, fun _ _ => rfl⟩
theorem quiet_mem : Quiet (·.mem) := ⟨fun s a w _ => s.setReg_mem a w, fun _ _ => rfl, fun _ _ => rfl, fun _ _ => rfl, fun _ _ => rfl⟩
theorem quiet_pending : Quiet (·.pending) := ⟨fun s a w _ => s.setReg_pending a w, fun _ _ => rfl, fun _ _ => rfl, fun _ _ => rfl, fun _ _ => rfl⟩
theorem quiet_lastRead : Quiet (·.lastRead) := ⟨fun s a w _ => s.setReg_lastRead a w, fun _ _ => rfl, fun _ _ => rfl, fun _ _ => rfl, fun _ _ => rfl⟩
theorem quiet_fresh : Quiet (·.fresh) := ⟨fun s a w _ => s.setReg_fresh a w, fun _ _ => rfl, fun _ _ => rfl, fun _ _ => rfl, fun _ _ => rfl⟩
theorem quiet_grids : Quiet (·.grids) := ⟨fun s a w _ => s.setReg_grids a w, fun _ _ => rfl, fun _ _ => rfl, fun _ _ => rfl, fun _ _ => rfl⟩
theorem quiet_latches : Quiet (·.latches) := ⟨fun s a w _ => s.setReg_latches a w, fun _ _ => rfl, fun _ _ => rfl, fun _ _ => rfl, fun _ _ => rfl⟩
theorem quiet_staged : Quiet (·.staged) := ⟨fun s a w _ => s.setReg_staged a w, fun _ _ => rfl, fun _ _ => rfl, fun _ _ => rfl, fun _ _ => rfl⟩
theorem quiet_ctl : Quiet (·.ctl) := ⟨fun s a w _ => s.setReg_ctl a w, fun _ _ => rfl, fun _ _ => rfl, fun _ _ => rfl, fun _ _ => rfl⟩
theorem quiet_tbs : Quiet (·.tbs) := ⟨fun s a w _ => s.setReg_tbs a w, fun _ _ => rfl, fun _ _ => rfl, fun _ _ => rfl, fun _ _ => rfl⟩
theorem quiet_host : Quiet (·.host) := ⟨fun s a w _ => s.setReg_host a w, fun _ _ => rfl, fun _ _ => rfl, fun _ _ => rfl, fun _ _ => rfl⟩
theorem quiet_prune : Quiet (·.prune) := ⟨fun s a w _ => s.setReg_prune a w, fun _ _ => rfl, fun _ _ => rfl, fun _ _ => rfl, fun _ _ => rfl⟩
theorem quiet_bur : Quiet (·.bur) := ⟨fun s a w _ => s.setReg_bur a w, fun _ _ => rfl, fun _ _ => rfl, fun _ _ => rfl, fun _ _ => rfl⟩
theorem quiet_ttb : Quiet (·.ttb) := ⟨fun s a w _ => s.setReg_ttb a w, fun _ _ => rfl, fun _ _ => rfl, fun _ _ => rfl, fun _ _ => rfl⟩
theorem quiet_chn : Quiet (·.chn) := ⟨fun s a w _ => s.setReg_chn a w, fun _ _ => rfl, fun _ _ => rfl, fun _ _ => rfl, fun _ _ => rfl⟩
theorem quiet_sq : Quiet (·.sq) := ⟨fun s a w _ => s.setReg_sq a w, fun _ _ => rfl, fun _ _ => rfl, fun _ _ => rfl, fun _ _ => rfl⟩
theorem quiet_cmp : Quiet (·.cmp) := ⟨fun s a w _ => s.setReg_cmp a w, fun _ _ => rfl, fun _ _ => rfl, fun _ _ => rfl, fun _ _ => rfl⟩
theorem quiet_flw : Quiet (·.flw) := ⟨fun s a w _ => s.setReg_flw a w, fun _ _ => rfl, fun _ _ => rfl, fun _ _ => rfl, fun _ _ => rfl⟩
theorem quiet_tim : Quiet (·.tim) := ⟨fun s a w _ => s.setReg_tim a w, fun _ _ => rfl, fun _ _ => rfl, fun _ _ => rfl, fun _ _ => rfl⟩
theorem quiet_chk : Quiet (·.chk) := ⟨fun s a w _ => s.setReg_chk a w, fun _ _ => rfl, fun _ _ => rfl, fun _ _ => rfl, fun _ _ => rfl⟩
theorem quiet_cal : Quiet (·.cal) := ⟨fun s a w _ => s.setReg_cal a w, fun _ _ => rfl, fun _ _ => rfl, fun _ _ => rfl, fun _ _ => rfl⟩
theorem quiet_cel : Quiet (·.cel) := ⟨fun s a w _ => s.setReg_cel a w, fun _ _ => rfl, fun _ _ => rfl, fun _ _ => rfl, fun _ _ => rfl⟩
theorem quiet_lan : Quiet (·.lan) := ⟨fun s a w _ => s.setReg_lan a w, fun _ _ => rfl, fun _ _ => rfl, fun _ _ => rfl, fun _ _ => rfl⟩
theorem quiet_ring : Quiet (·.ring) := ⟨fun s a w _ => s.setReg_ring a w, fun _ _ => rfl, fun _ _ => rfl, fun _ _ => rfl, fun _ _ => rfl⟩
theorem quiet_tk : Quiet (·.tk) := ⟨fun s a w _ => s.setReg_tk a w, fun _ _ => rfl, fun _ _ => rfl, fun _ _ => rfl, fun _ _ => rfl⟩
theorem quiet_bel : Quiet (·.bel) := ⟨fun s a w _ => s.setReg_bel a w, fun _ _ => rfl, fun _ _ => rfl, fun _ _ => rfl, fun _ _ => rfl⟩

@[simp] theorem State.occurG_cycle (s : State) (raw : Bool) (g : Nat) : (s.occurG raw g).cycle = s.cycle := Quiet.occurG quiet_cycle ..
@[simp] theorem State.occurG_mem (s : State) (raw : Bool) (g : Nat) : (s.occurG raw g).mem = s.mem := Quiet.occurG quiet_mem ..
@[simp] theorem State.occurG_pending (s : State) (raw : Bool) (g : Nat) : (s.occurG raw g).pending = s.pending := Quiet.occurG quiet_pending ..
@[simp] theorem State.occurG_lastRead (s : State) (raw : Bool) (g : Nat) : (s.occurG raw g).lastRead = s.lastRead := Quiet.occurG quiet_lastRead ..
@[simp] theorem State.occurG_fresh (s : State) (raw : Bool) (g : Nat) : (s.occurG raw g).fresh = s.fresh := Quiet.occurG quiet_fresh ..
@[simp] theorem State.occurG_grids (s : State) (raw : Bool) (g : Nat) : (s.occurG raw g).grids = s.grids := Quiet.occurG quiet_grids ..
@[simp] theorem State.occurG_latches (s : State) (raw : Bool) (g : Nat) : (s.occurG raw g).latches = s.latches := Quiet.occurG quiet_latches ..
@[simp] theorem State.occurG_staged (s : State) (raw : Bool) (g : Nat) : (s.occurG raw g).staged = s.staged := Quiet.occurG quiet_staged ..
@[simp] theorem State.occurG_ctl (s : State) (raw : Bool) (g : Nat) : (s.occurG raw g).ctl = s.ctl := Quiet.occurG quiet_ctl ..
@[simp] theorem State.occurG_tbs (s : State) (raw : Bool) (g : Nat) : (s.occurG raw g).tbs = s.tbs := Quiet.occurG quiet_tbs ..
@[simp] theorem State.occurG_host (s : State) (raw : Bool) (g : Nat) : (s.occurG raw g).host = s.host := Quiet.occurG quiet_host ..
@[simp] theorem State.occurG_prune (s : State) (raw : Bool) (g : Nat) : (s.occurG raw g).prune = s.prune := Quiet.occurG quiet_prune ..
@[simp] theorem State.occurG_bur (s : State) (raw : Bool) (g : Nat) : (s.occurG raw g).bur = s.bur := Quiet.occurG quiet_bur ..
@[simp] theorem State.occurG_ttb (s : State) (raw : Bool) (g : Nat) : (s.occurG raw g).ttb = s.ttb := Quiet.occurG quiet_ttb ..
@[simp] theorem State.occurG_chn (s : State) (raw : Bool) (g : Nat) : (s.occurG raw g).chn = s.chn := Quiet.occurG quiet_chn ..
@[simp] theorem State.occurG_sq (s : State) (raw : Bool) (g : Nat) : (s.occurG raw g).sq = s.sq := Quiet.occurG quiet_sq ..
@[simp] theorem State.occurG_cmp (s : State) (raw : Bool) (g : Nat) : (s.occurG raw g).cmp = s.cmp := Quiet.occurG quiet_cmp ..
@[simp] theorem State.occurG_flw (s : State) (raw : Bool) (g : Nat) : (s.occurG raw g).flw = s.flw := Quiet.occurG quiet_flw ..
@[simp] theorem State.occurG_tim (s : State) (raw : Bool) (g : Nat) : (s.occurG raw g).tim = s.tim := Quiet.occurG quiet_tim ..
@[simp] theorem State.occurG_chk (s : State) (raw : Bool) (g : Nat) : (s.occurG raw g).chk = s.chk := Quiet.occurG quiet_chk ..
@[simp] theorem State.occurG_cal (s : State) (raw : Bool) (g : Nat) : (s.occurG raw g).cal = s.cal := Quiet.occurG quiet_cal ..
@[simp] theorem State.occurG_cel (s : State) (raw : Bool) (g : Nat) : (s.occurG raw g).cel = s.cel := Quiet.occurG quiet_cel ..
@[simp] theorem State.occurG_lan (s : State) (raw : Bool) (g : Nat) : (s.occurG raw g).lan = s.lan := Quiet.occurG quiet_lan ..
@[simp] theorem State.occurG_ring (s : State) (raw : Bool) (g : Nat) : (s.occurG raw g).ring = s.ring := Quiet.occurG quiet_ring ..
@[simp] theorem State.occurG_tk (s : State) (raw : Bool) (g : Nat) : (s.occurG raw g).tk = s.tk := Quiet.occurG quiet_tk ..
@[simp] theorem State.occurG_bel (s : State) (raw : Bool) (g : Nat) : (s.occurG raw g).bel = s.bel := Quiet.occurG quiet_bel ..
@[simp] theorem State.occur_cycle (s : State) (g : Nat) : (s.occur g).cycle = s.cycle := Quiet.occur quiet_cycle ..
@[simp] theorem State.occur_mem (s : State) (g : Nat) : (s.occur g).mem = s.mem := Quiet.occur quiet_mem ..
@[simp] theorem State.occur_pending (s : State) (g : Nat) : (s.occur g).pending = s.pending := Quiet.occur quiet_pending ..
@[simp] theorem State.occur_lastRead (s : State) (g : Nat) : (s.occur g).lastRead = s.lastRead := Quiet.occur quiet_lastRead ..
@[simp] theorem State.occur_fresh (s : State) (g : Nat) : (s.occur g).fresh = s.fresh := Quiet.occur quiet_fresh ..
@[simp] theorem State.occur_grids (s : State) (g : Nat) : (s.occur g).grids = s.grids := Quiet.occur quiet_grids ..
@[simp] theorem State.occur_latches (s : State) (g : Nat) : (s.occur g).latches = s.latches := Quiet.occur quiet_latches ..
@[simp] theorem State.occur_staged (s : State) (g : Nat) : (s.occur g).staged = s.staged := Quiet.occur quiet_staged ..
@[simp] theorem State.occur_ctl (s : State) (g : Nat) : (s.occur g).ctl = s.ctl := Quiet.occur quiet_ctl ..
@[simp] theorem State.occur_tbs (s : State) (g : Nat) : (s.occur g).tbs = s.tbs := Quiet.occur quiet_tbs ..
@[simp] theorem State.occur_host (s : State) (g : Nat) : (s.occur g).host = s.host := Quiet.occur quiet_host ..
@[simp] theorem State.occur_prune (s : State) (g : Nat) : (s.occur g).prune = s.prune := Quiet.occur quiet_prune ..
@[simp] theorem State.occur_bur (s : State) (g : Nat) : (s.occur g).bur = s.bur := Quiet.occur quiet_bur ..
@[simp] theorem State.occur_ttb (s : State) (g : Nat) : (s.occur g).ttb = s.ttb := Quiet.occur quiet_ttb ..
@[simp] theorem State.occur_chn (s : State) (g : Nat) : (s.occur g).chn = s.chn := Quiet.occur quiet_chn ..
@[simp] theorem State.occur_sq (s : State) (g : Nat) : (s.occur g).sq = s.sq := Quiet.occur quiet_sq ..
@[simp] theorem State.occur_cmp (s : State) (g : Nat) : (s.occur g).cmp = s.cmp := Quiet.occur quiet_cmp ..
@[simp] theorem State.occur_flw (s : State) (g : Nat) : (s.occur g).flw = s.flw := Quiet.occur quiet_flw ..
@[simp] theorem State.occur_tim (s : State) (g : Nat) : (s.occur g).tim = s.tim := Quiet.occur quiet_tim ..
@[simp] theorem State.occur_chk (s : State) (g : Nat) : (s.occur g).chk = s.chk := Quiet.occur quiet_chk ..
@[simp] theorem State.occur_cal (s : State) (g : Nat) : (s.occur g).cal = s.cal := Quiet.occur quiet_cal ..
@[simp] theorem State.occur_cel (s : State) (g : Nat) : (s.occur g).cel = s.cel := Quiet.occur quiet_cel ..
@[simp] theorem State.occur_lan (s : State) (g : Nat) : (s.occur g).lan = s.lan := Quiet.occur quiet_lan ..
@[simp] theorem State.occur_ring (s : State) (g : Nat) : (s.occur g).ring = s.ring := Quiet.occur quiet_ring ..
@[simp] theorem State.occur_tk (s : State) (g : Nat) : (s.occur g).tk = s.tk := Quiet.occur quiet_tk ..
@[simp] theorem State.occur_bel (s : State) (g : Nat) : (s.occur g).bel = s.bel := Quiet.occur quiet_bel ..
@[simp] theorem State.occurTest_cycle (s : State) (g : Nat) : (s.occurTest g).cycle = s.cycle := Quiet.occurTest quiet_cycle ..
@[simp] theorem State.occurTest_mem (s : State) (g : Nat) : (s.occurTest g).mem = s.mem := Quiet.occurTest quiet_mem ..
@[simp] theorem State.occurTest_pending (s : State) (g : Nat) : (s.occurTest g).pending = s.pending := Quiet.occurTest quiet_pending ..
@[simp] theorem State.occurTest_lastRead (s : State) (g : Nat) : (s.occurTest g).lastRead = s.lastRead := Quiet.occurTest quiet_lastRead ..
@[simp] theorem State.occurTest_fresh (s : State) (g : Nat) : (s.occurTest g).fresh = s.fresh := Quiet.occurTest quiet_fresh ..
@[simp] theorem State.occurTest_grids (s : State) (g : Nat) : (s.occurTest g).grids = s.grids := Quiet.occurTest quiet_grids ..
@[simp] theorem State.occurTest_latches (s : State) (g : Nat) : (s.occurTest g).latches = s.latches := Quiet.occurTest quiet_latches ..
@[simp] theorem State.occurTest_staged (s : State) (g : Nat) : (s.occurTest g).staged = s.staged := Quiet.occurTest quiet_staged ..
@[simp] theorem State.occurTest_ctl (s : State) (g : Nat) : (s.occurTest g).ctl = s.ctl := Quiet.occurTest quiet_ctl ..
@[simp] theorem State.occurTest_tbs (s : State) (g : Nat) : (s.occurTest g).tbs = s.tbs := Quiet.occurTest quiet_tbs ..
@[simp] theorem State.occurTest_host (s : State) (g : Nat) : (s.occurTest g).host = s.host := Quiet.occurTest quiet_host ..
@[simp] theorem State.occurTest_prune (s : State) (g : Nat) : (s.occurTest g).prune = s.prune := Quiet.occurTest quiet_prune ..
@[simp] theorem State.occurTest_bur (s : State) (g : Nat) : (s.occurTest g).bur = s.bur := Quiet.occurTest quiet_bur ..
@[simp] theorem State.occurTest_ttb (s : State) (g : Nat) : (s.occurTest g).ttb = s.ttb := Quiet.occurTest quiet_ttb ..
@[simp] theorem State.occurTest_chn (s : State) (g : Nat) : (s.occurTest g).chn = s.chn := Quiet.occurTest quiet_chn ..
@[simp] theorem State.occurTest_sq (s : State) (g : Nat) : (s.occurTest g).sq = s.sq := Quiet.occurTest quiet_sq ..
@[simp] theorem State.occurTest_cmp (s : State) (g : Nat) : (s.occurTest g).cmp = s.cmp := Quiet.occurTest quiet_cmp ..
@[simp] theorem State.occurTest_flw (s : State) (g : Nat) : (s.occurTest g).flw = s.flw := Quiet.occurTest quiet_flw ..
@[simp] theorem State.occurTest_tim (s : State) (g : Nat) : (s.occurTest g).tim = s.tim := Quiet.occurTest quiet_tim ..
@[simp] theorem State.occurTest_chk (s : State) (g : Nat) : (s.occurTest g).chk = s.chk := Quiet.occurTest quiet_chk ..
@[simp] theorem State.occurTest_cal (s : State) (g : Nat) : (s.occurTest g).cal = s.cal := Quiet.occurTest quiet_cal ..
@[simp] theorem State.occurTest_cel (s : State) (g : Nat) : (s.occurTest g).cel = s.cel := Quiet.occurTest quiet_cel ..
@[simp] theorem State.occurTest_lan (s : State) (g : Nat) : (s.occurTest g).lan = s.lan := Quiet.occurTest quiet_lan ..
@[simp] theorem State.occurTest_ring (s : State) (g : Nat) : (s.occurTest g).ring = s.ring := Quiet.occurTest quiet_ring ..
@[simp] theorem State.occurTest_tk (s : State) (g : Nat) : (s.occurTest g).tk = s.tk := Quiet.occurTest quiet_tk ..
@[simp] theorem State.occurTest_bel (s : State) (g : Nat) : (s.occurTest g).bel = s.bel := Quiet.occurTest quiet_bel ..
@[simp] theorem State.setLive_cycle (s : State) (g : Nat) (b : Bool) : (s.setLive g b).cycle = s.cycle := Quiet.setLive quiet_cycle ..
@[simp] theorem State.setLive_mem (s : State) (g : Nat) (b : Bool) : (s.setLive g b).mem = s.mem := Quiet.setLive quiet_mem ..
@[simp] theorem State.setLive_pending (s : State) (g : Nat) (b : Bool) : (s.setLive g b).pending = s.pending := Quiet.setLive quiet_pending ..
@[simp] theorem State.setLive_lastRead (s : State) (g : Nat) (b : Bool) : (s.setLive g b).lastRead = s.lastRead := Quiet.setLive quiet_lastRead ..
@[simp] theorem State.setLive_fresh (s : State) (g : Nat) (b : Bool) : (s.setLive g b).fresh = s.fresh := Quiet.setLive quiet_fresh ..
@[simp] theorem State.setLive_grids (s : State) (g : Nat) (b : Bool) : (s.setLive g b).grids = s.grids := Quiet.setLive quiet_grids ..
@[simp] theorem State.setLive_latches (s : State) (g : Nat) (b : Bool) : (s.setLive g b).latches = s.latches := Quiet.setLive quiet_latches ..
@[simp] theorem State.setLive_staged (s : State) (g : Nat) (b : Bool) : (s.setLive g b).staged = s.staged := Quiet.setLive quiet_staged ..
@[simp] theorem State.setLive_ctl (s : State) (g : Nat) (b : Bool) : (s.setLive g b).ctl = s.ctl := Quiet.setLive quiet_ctl ..
@[simp] theorem State.setLive_tbs (s : State) (g : Nat) (b : Bool) : (s.setLive g b).tbs = s.tbs := Quiet.setLive quiet_tbs ..
@[simp] theorem State.setLive_host (s : State) (g : Nat) (b : Bool) : (s.setLive g b).host = s.host := Quiet.setLive quiet_host ..
@[simp] theorem State.setLive_prune (s : State) (g : Nat) (b : Bool) : (s.setLive g b).prune = s.prune := Quiet.setLive quiet_prune ..
@[simp] theorem State.setLive_bur (s : State) (g : Nat) (b : Bool) : (s.setLive g b).bur = s.bur := Quiet.setLive quiet_bur ..
@[simp] theorem State.setLive_ttb (s : State) (g : Nat) (b : Bool) : (s.setLive g b).ttb = s.ttb := Quiet.setLive quiet_ttb ..
@[simp] theorem State.setLive_chn (s : State) (g : Nat) (b : Bool) : (s.setLive g b).chn = s.chn := Quiet.setLive quiet_chn ..
@[simp] theorem State.setLive_sq (s : State) (g : Nat) (b : Bool) : (s.setLive g b).sq = s.sq := Quiet.setLive quiet_sq ..
@[simp] theorem State.setLive_cmp (s : State) (g : Nat) (b : Bool) : (s.setLive g b).cmp = s.cmp := Quiet.setLive quiet_cmp ..
@[simp] theorem State.setLive_flw (s : State) (g : Nat) (b : Bool) : (s.setLive g b).flw = s.flw := Quiet.setLive quiet_flw ..
@[simp] theorem State.setLive_tim (s : State) (g : Nat) (b : Bool) : (s.setLive g b).tim = s.tim := Quiet.setLive quiet_tim ..
@[simp] theorem State.setLive_chk (s : State) (g : Nat) (b : Bool) : (s.setLive g b).chk = s.chk := Quiet.setLive quiet_chk ..
@[simp] theorem State.setLive_cal (s : State) (g : Nat) (b : Bool) : (s.setLive g b).cal = s.cal := Quiet.setLive quiet_cal ..
@[simp] theorem State.setLive_cel (s : State) (g : Nat) (b : Bool) : (s.setLive g b).cel = s.cel := Quiet.setLive quiet_cel ..
@[simp] theorem State.setLive_lan (s : State) (g : Nat) (b : Bool) : (s.setLive g b).lan = s.lan := Quiet.setLive quiet_lan ..
@[simp] theorem State.setLive_ring (s : State) (g : Nat) (b : Bool) : (s.setLive g b).ring = s.ring := Quiet.setLive quiet_ring ..
@[simp] theorem State.setLive_tk (s : State) (g : Nat) (b : Bool) : (s.setLive g b).tk = s.tk := Quiet.setLive quiet_tk ..
@[simp] theorem State.setLive_bel (s : State) (g : Nat) (b : Bool) : (s.setLive g b).bel = s.bel := Quiet.setLive quiet_bel ..
@[simp] theorem State.deny_cycle (s : State) (c o p : Nat) (x w : Bool) : (s.deny c o p x w).cycle = s.cycle := Quiet.deny quiet_cycle s (fun s w => s.setReg_cycle _ w) (fun s w => s.setReg_cycle _ w) ..
@[simp] theorem State.deny_mem (s : State) (c o p : Nat) (x w : Bool) : (s.deny c o p x w).mem = s.mem := Quiet.deny quiet_mem s (fun s w => s.setReg_mem _ w) (fun s w => s.setReg_mem _ w) ..
@[simp] theorem State.deny_pending (s : State) (c o p : Nat) (x w : Bool) : (s.deny c o p x w).pending = s.pending := Quiet.deny quiet_pending s (fun s w => s.setReg_pending _ w) (fun s w => s.setReg_pending _ w) ..
@[simp] theorem State.deny_lastRead (s : State) (c o p : Nat) (x w : Bool) : (s.deny c o p x w).lastRead = s.lastRead := Quiet.deny quiet_lastRead s (fun s w => s.setReg_lastRead _ w) (fun s w => s.setReg_lastRead _ w) ..
@[simp] theorem State.deny_fresh (s : State) (c o p : Nat) (x w : Bool) : (s.deny c o p x w).fresh = s.fresh := Quiet.deny quiet_fresh s (fun s w => s.setReg_fresh _ w) (fun s w => s.setReg_fresh _ w) ..
@[simp] theorem State.deny_grids (s : State) (c o p : Nat) (x w : Bool) : (s.deny c o p x w).grids = s.grids := Quiet.deny quiet_grids s (fun s w => s.setReg_grids _ w) (fun s w => s.setReg_grids _ w) ..
@[simp] theorem State.deny_latches (s : State) (c o p : Nat) (x w : Bool) : (s.deny c o p x w).latches = s.latches := Quiet.deny quiet_latches s (fun s w => s.setReg_latches _ w) (fun s w => s.setReg_latches _ w) ..
@[simp] theorem State.deny_staged (s : State) (c o p : Nat) (x w : Bool) : (s.deny c o p x w).staged = s.staged := Quiet.deny quiet_staged s (fun s w => s.setReg_staged _ w) (fun s w => s.setReg_staged _ w) ..
@[simp] theorem State.deny_ctl (s : State) (c o p : Nat) (x w : Bool) : (s.deny c o p x w).ctl = s.ctl := Quiet.deny quiet_ctl s (fun s w => s.setReg_ctl _ w) (fun s w => s.setReg_ctl _ w) ..
@[simp] theorem State.deny_tbs (s : State) (c o p : Nat) (x w : Bool) : (s.deny c o p x w).tbs = s.tbs := Quiet.deny quiet_tbs s (fun s w => s.setReg_tbs _ w) (fun s w => s.setReg_tbs _ w) ..
@[simp] theorem State.deny_host (s : State) (c o p : Nat) (x w : Bool) : (s.deny c o p x w).host = s.host := Quiet.deny quiet_host s (fun s w => s.setReg_host _ w) (fun s w => s.setReg_host _ w) ..
@[simp] theorem State.deny_prune (s : State) (c o p : Nat) (x w : Bool) : (s.deny c o p x w).prune = s.prune := Quiet.deny quiet_prune s (fun s w => s.setReg_prune _ w) (fun s w => s.setReg_prune _ w) ..
@[simp] theorem State.deny_bur (s : State) (c o p : Nat) (x w : Bool) : (s.deny c o p x w).bur = s.bur := Quiet.deny quiet_bur s (fun s w => s.setReg_bur _ w) (fun s w => s.setReg_bur _ w) ..
@[simp] theorem State.deny_ttb (s : State) (c o p : Nat) (x w : Bool) : (s.deny c o p x w).ttb = s.ttb := Quiet.deny quiet_ttb s (fun s w => s.setReg_ttb _ w) (fun s w => s.setReg_ttb _ w) ..
@[simp] theorem State.deny_chn (s : State) (c o p : Nat) (x w : Bool) : (s.deny c o p x w).chn = s.chn := Quiet.deny quiet_chn s (fun s w => s.setReg_chn _ w) (fun s w => s.setReg_chn _ w) ..
@[simp] theorem State.deny_sq (s : State) (c o p : Nat) (x w : Bool) : (s.deny c o p x w).sq = s.sq := Quiet.deny quiet_sq s (fun s w => s.setReg_sq _ w) (fun s w => s.setReg_sq _ w) ..
@[simp] theorem State.deny_cmp (s : State) (c o p : Nat) (x w : Bool) : (s.deny c o p x w).cmp = s.cmp := Quiet.deny quiet_cmp s (fun s w => s.setReg_cmp _ w) (fun s w => s.setReg_cmp _ w) ..
@[simp] theorem State.deny_flw (s : State) (c o p : Nat) (x w : Bool) : (s.deny c o p x w).flw = s.flw := Quiet.deny quiet_flw s (fun s w => s.setReg_flw _ w) (fun s w => s.setReg_flw _ w) ..
@[simp] theorem State.deny_tim (s : State) (c o p : Nat) (x w : Bool) : (s.deny c o p x w).tim = s.tim := Quiet.deny quiet_tim s (fun s w => s.setReg_tim _ w) (fun s w => s.setReg_tim _ w) ..
@[simp] theorem State.deny_chk (s : State) (c o p : Nat) (x w : Bool) : (s.deny c o p x w).chk = s.chk := Quiet.deny quiet_chk s (fun s w => s.setReg_chk _ w) (fun s w => s.setReg_chk _ w) ..
@[simp] theorem State.deny_cal (s : State) (c o p : Nat) (x w : Bool) : (s.deny c o p x w).cal = s.cal := Quiet.deny quiet_cal s (fun s w => s.setReg_cal _ w) (fun s w => s.setReg_cal _ w) ..
@[simp] theorem State.deny_cel (s : State) (c o p : Nat) (x w : Bool) : (s.deny c o p x w).cel = s.cel := Quiet.deny quiet_cel s (fun s w => s.setReg_cel _ w) (fun s w => s.setReg_cel _ w) ..
@[simp] theorem State.deny_lan (s : State) (c o p : Nat) (x w : Bool) : (s.deny c o p x w).lan = s.lan := Quiet.deny quiet_lan s (fun s w => s.setReg_lan _ w) (fun s w => s.setReg_lan _ w) ..
@[simp] theorem State.deny_ring (s : State) (c o p : Nat) (x w : Bool) : (s.deny c o p x w).ring = s.ring := Quiet.deny quiet_ring s (fun s w => s.setReg_ring _ w) (fun s w => s.setReg_ring _ w) ..
@[simp] theorem State.deny_tk (s : State) (c o p : Nat) (x w : Bool) : (s.deny c o p x w).tk = s.tk := Quiet.deny quiet_tk s (fun s w => s.setReg_tk _ w) (fun s w => s.setReg_tk _ w) ..
@[simp] theorem State.deny_bel (s : State) (c o p : Nat) (x w : Bool) : (s.deny c o p x w).bel = s.bel := Quiet.deny quiet_bel s (fun s w => s.setReg_bel _ w) (fun s w => s.setReg_bel _ w) ..
@[simp] theorem State.pass_mem (s : State) (n : Nat) : (s.pass n).mem = s.mem := Quiet.pass quiet_mem s (fun _ _ => rfl) (fun _ _ => rfl) n
@[simp] theorem State.pass_pending (s : State) (n : Nat) : (s.pass n).pending = s.pending := Quiet.pass quiet_pending s (fun _ _ => rfl) (fun _ _ => rfl) n
@[simp] theorem State.pass_lastRead (s : State) (n : Nat) : (s.pass n).lastRead = s.lastRead := Quiet.pass quiet_lastRead s (fun _ _ => rfl) (fun _ _ => rfl) n
@[simp] theorem State.pass_fresh (s : State) (n : Nat) : (s.pass n).fresh = s.fresh := Quiet.pass quiet_fresh s (fun _ _ => rfl) (fun _ _ => rfl) n
@[simp] theorem State.pass_grids (s : State) (n : Nat) : (s.pass n).grids = s.grids := Quiet.pass quiet_grids s (fun _ _ => rfl) (fun _ _ => rfl) n
@[simp] theorem State.pass_latches (s : State) (n : Nat) : (s.pass n).latches = s.latches := Quiet.pass quiet_latches s (fun _ _ => rfl) (fun _ _ => rfl) n
@[simp] theorem State.pass_staged (s : State) (n : Nat) : (s.pass n).staged = s.staged := Quiet.pass quiet_staged s (fun _ _ => rfl) (fun _ _ => rfl) n
@[simp] theorem State.pass_ctl (s : State) (n : Nat) : (s.pass n).ctl = s.ctl := Quiet.pass quiet_ctl s (fun _ _ => rfl) (fun _ _ => rfl) n
@[simp] theorem State.pass_tbs (s : State) (n : Nat) : (s.pass n).tbs = s.tbs := Quiet.pass quiet_tbs s (fun _ _ => rfl) (fun _ _ => rfl) n
@[simp] theorem State.pass_host (s : State) (n : Nat) : (s.pass n).host = s.host := Quiet.pass quiet_host s (fun _ _ => rfl) (fun _ _ => rfl) n
@[simp] theorem State.pass_prune (s : State) (n : Nat) : (s.pass n).prune = s.prune := Quiet.pass quiet_prune s (fun _ _ => rfl) (fun _ _ => rfl) n
@[simp] theorem State.pass_bur (s : State) (n : Nat) : (s.pass n).bur = s.bur := Quiet.pass quiet_bur s (fun _ _ => rfl) (fun _ _ => rfl) n
@[simp] theorem State.pass_ttb (s : State) (n : Nat) : (s.pass n).ttb = s.ttb := Quiet.pass quiet_ttb s (fun _ _ => rfl) (fun _ _ => rfl) n
@[simp] theorem State.pass_chn (s : State) (n : Nat) : (s.pass n).chn = s.chn := Quiet.pass quiet_chn s (fun _ _ => rfl) (fun _ _ => rfl) n
@[simp] theorem State.pass_cmp (s : State) (n : Nat) : (s.pass n).cmp = s.cmp := Quiet.pass quiet_cmp s (fun _ _ => rfl) (fun _ _ => rfl) n
@[simp] theorem State.pass_flw (s : State) (n : Nat) : (s.pass n).flw = s.flw := Quiet.pass quiet_flw s (fun _ _ => rfl) (fun _ _ => rfl) n
@[simp] theorem State.pass_tim (s : State) (n : Nat) : (s.pass n).tim = s.tim := Quiet.pass quiet_tim s (fun _ _ => rfl) (fun _ _ => rfl) n
@[simp] theorem State.pass_chk (s : State) (n : Nat) : (s.pass n).chk = s.chk := Quiet.pass quiet_chk s (fun _ _ => rfl) (fun _ _ => rfl) n
@[simp] theorem State.pass_cal (s : State) (n : Nat) : (s.pass n).cal = s.cal := Quiet.pass quiet_cal s (fun _ _ => rfl) (fun _ _ => rfl) n
@[simp] theorem State.pass_lan (s : State) (n : Nat) : (s.pass n).lan = s.lan := Quiet.pass quiet_lan s (fun _ _ => rfl) (fun _ _ => rfl) n
@[simp] theorem State.pass_ring (s : State) (n : Nat) : (s.pass n).ring = s.ring := Quiet.pass quiet_ring s (fun _ _ => rfl) (fun _ _ => rfl) n
@[simp] theorem State.pass_tk (s : State) (n : Nat) : (s.pass n).tk = s.tk := Quiet.pass quiet_tk s (fun _ _ => rfl) (fun _ _ => rfl) n
@[simp] theorem State.pass_bel (s : State) (n : Nat) : (s.pass n).bel = s.bel := Quiet.pass quiet_bel s (fun _ _ => rfl) (fun _ _ => rfl) n
@[simp] theorem State.passTo_mem (s : State) (c : Nat) : (s.passTo c).mem = s.mem := Quiet.passTo quiet_mem s (fun _ _ => rfl) (fun _ _ => rfl) c
@[simp] theorem State.passTo_pending (s : State) (c : Nat) : (s.passTo c).pending = s.pending := Quiet.passTo quiet_pending s (fun _ _ => rfl) (fun _ _ => rfl) c
@[simp] theorem State.passTo_lastRead (s : State) (c : Nat) : (s.passTo c).lastRead = s.lastRead := Quiet.passTo quiet_lastRead s (fun _ _ => rfl) (fun _ _ => rfl) c
@[simp] theorem State.passTo_fresh (s : State) (c : Nat) : (s.passTo c).fresh = s.fresh := Quiet.passTo quiet_fresh s (fun _ _ => rfl) (fun _ _ => rfl) c
@[simp] theorem State.passTo_grids (s : State) (c : Nat) : (s.passTo c).grids = s.grids := Quiet.passTo quiet_grids s (fun _ _ => rfl) (fun _ _ => rfl) c
@[simp] theorem State.passTo_latches (s : State) (c : Nat) : (s.passTo c).latches = s.latches := Quiet.passTo quiet_latches s (fun _ _ => rfl) (fun _ _ => rfl) c
@[simp] theorem State.passTo_staged (s : State) (c : Nat) : (s.passTo c).staged = s.staged := Quiet.passTo quiet_staged s (fun _ _ => rfl) (fun _ _ => rfl) c
@[simp] theorem State.passTo_ctl (s : State) (c : Nat) : (s.passTo c).ctl = s.ctl := Quiet.passTo quiet_ctl s (fun _ _ => rfl) (fun _ _ => rfl) c
@[simp] theorem State.passTo_tbs (s : State) (c : Nat) : (s.passTo c).tbs = s.tbs := Quiet.passTo quiet_tbs s (fun _ _ => rfl) (fun _ _ => rfl) c
@[simp] theorem State.passTo_host (s : State) (c : Nat) : (s.passTo c).host = s.host := Quiet.passTo quiet_host s (fun _ _ => rfl) (fun _ _ => rfl) c
@[simp] theorem State.passTo_prune (s : State) (c : Nat) : (s.passTo c).prune = s.prune := Quiet.passTo quiet_prune s (fun _ _ => rfl) (fun _ _ => rfl) c
@[simp] theorem State.passTo_bur (s : State) (c : Nat) : (s.passTo c).bur = s.bur := Quiet.passTo quiet_bur s (fun _ _ => rfl) (fun _ _ => rfl) c
@[simp] theorem State.passTo_ttb (s : State) (c : Nat) : (s.passTo c).ttb = s.ttb := Quiet.passTo quiet_ttb s (fun _ _ => rfl) (fun _ _ => rfl) c
@[simp] theorem State.passTo_chn (s : State) (c : Nat) : (s.passTo c).chn = s.chn := Quiet.passTo quiet_chn s (fun _ _ => rfl) (fun _ _ => rfl) c
@[simp] theorem State.passTo_cmp (s : State) (c : Nat) : (s.passTo c).cmp = s.cmp := Quiet.passTo quiet_cmp s (fun _ _ => rfl) (fun _ _ => rfl) c
@[simp] theorem State.passTo_flw (s : State) (c : Nat) : (s.passTo c).flw = s.flw := Quiet.passTo quiet_flw s (fun _ _ => rfl) (fun _ _ => rfl) c
@[simp] theorem State.passTo_tim (s : State) (c : Nat) : (s.passTo c).tim = s.tim := Quiet.passTo quiet_tim s (fun _ _ => rfl) (fun _ _ => rfl) c
@[simp] theorem State.passTo_chk (s : State) (c : Nat) : (s.passTo c).chk = s.chk := Quiet.passTo quiet_chk s (fun _ _ => rfl) (fun _ _ => rfl) c
@[simp] theorem State.passTo_cal (s : State) (c : Nat) : (s.passTo c).cal = s.cal := Quiet.passTo quiet_cal s (fun _ _ => rfl) (fun _ _ => rfl) c
@[simp] theorem State.passTo_lan (s : State) (c : Nat) : (s.passTo c).lan = s.lan := Quiet.passTo quiet_lan s (fun _ _ => rfl) (fun _ _ => rfl) c
@[simp] theorem State.passTo_ring (s : State) (c : Nat) : (s.passTo c).ring = s.ring := Quiet.passTo quiet_ring s (fun _ _ => rfl) (fun _ _ => rfl) c
@[simp] theorem State.passTo_tk (s : State) (c : Nat) : (s.passTo c).tk = s.tk := Quiet.passTo quiet_tk s (fun _ _ => rfl) (fun _ _ => rfl) c
@[simp] theorem State.passTo_bel (s : State) (c : Nat) : (s.passTo c).bel = s.bel := Quiet.passTo quiet_bel s (fun _ _ => rfl) (fun _ _ => rfl) c

/-- `n` cycles on. -/
@[simp] theorem State.pass_cycle (s : State) (n : Nat) : (s.pass n).cycle = s.cycle + n := by
  have e := QuietOn.counters quiet_cycle (s₀ := s.traceSettle.tick n) (Tab.keys s.traceSettle.gal.cnts) (false, s.traceSettle.tick n)
    (fun r k => (r.2.counter k).en && (r.2.counter k).mode = 1 && s.traceSettle.rawBit (r.2.counter k).source)
    (fun r k => r.1 || decide (2 ^ 48 ≤ (r.2.counter k).live + n)) (fun r k => (r.2.counter k).add n) rfl
  have e' : (s.traceSettle.tick n).cycle = s.cycle + n := congrArg (· + n) (Quiet.traceSettle quiet_cycle s)
  unfold State.pass
  rw [Quiet.dropsDue quiet_cycle _ fun _ _ => rfl]
  unfold State.run; dsimp only
  split
  · split
    · rw [State.occurG_cycle]; exact e.trans e'
    · exact e.trans e'
  · exact e'

/-- A timed event happens at its time, or at once if that has gone by (log 2). -/
@[simp] theorem State.passTo_cycle (s : State) (c : Nat) : (s.passTo c).cycle = max s.cycle c := by
  unfold State.passTo; split
  · rw [State.pass_cycle]; omega
  · omega

/-- An occurrence changes no word but the event words. -/
theorem State.reg_occur (s : State) (g : Nat) {a : Nat} (h : evWord a = false) : (s.occur g).reg a = s.reg a := Quiet.occur (quiet_reg h) s g
theorem State.reg_setLive (s : State) (g : Nat) (b : Bool) {a : Nat} (h : evWord a = false) : (s.setLive g b).reg a = s.reg a :=
  Quiet.setLive (quiet_reg h) s g b

/-- The passing of time changes no word but the event words. -/
theorem State.reg_pass (s : State) (n : Nat) {a : Nat} (h : evWord a = false) : (s.pass n).reg a = s.reg a :=
  Quiet.pass (quiet_reg h) s (fun _ _ => rfl) (fun _ _ => rfl) n
theorem State.reg_passTo (s : State) (c : Nat) {a : Nat} (h : evWord a = false) : (s.passTo c).reg a = s.reg a :=
  Quiet.passTo (quiet_reg h) s (fun _ _ => rfl) (fun _ _ => rfl) c
theorem quiet_seqOf (q : Nat) : Quiet (·.seqOf q) := ⟨fun _ _ _ _ => rfl,
  fun _ _ => rfl, fun _ _ => rfl, fun _ _ => rfl, fun _ _ => rfl⟩
@[simp] theorem State.seqOf_passTo (s : State) (c q : Nat) : (s.passTo c).seqOf q = s.seqOf q :=
  Quiet.passTo (quiet_seqOf q) s (fun _ _ => rfl) (fun _ _ => rfl) c
theorem quiet_slice (d : Nat) : Quiet (·.slice d) := ⟨fun _ _ _ _ => rfl,
  fun _ _ => rfl, fun _ _ => rfl, fun _ _ => rfl, fun _ _ => rfl⟩
@[simp] theorem State.slice_passTo (s : State) (c d : Nat) : (s.passTo c).slice d = s.slice d :=
  Quiet.passTo (quiet_slice d) s (fun _ _ => rfl) (fun _ _ => rfl) c

/-- A refusal keeps `DENY_INFO` from the first one on and counts in `DENY_COUNT` (R27). -/
theorem State.reg_deny (s : State) (c o p : Nat) (x w : Bool) {a : Nat} (h : evWord a = false) (h1 : a ≠ glbBase + 0x4C)
    (h2 : a ≠ glbBase + 0x50) : (s.deny c o p x w).reg a = s.reg a :=
  Quiet.deny (quiet_reg h) s (fun s w => s.reg_setReg_ne w h1) (fun s w => s.reg_setReg_ne w h2) ..

/-! ### Units of the state: what a unit reads after it is set, and after another is -/

@[simp] theorem State.bell_setBell (s : State) (i : Nat) (x : Bell) : (s.setBell i x).bell i = x := Tab.get_set_same ..
theorem State.bell_setBell_ne (s : State) {i j : Nat} (x : Bell) (h : j ≠ i) : (s.setBell i x).bell j = s.bell j := Tab.get_set_ne _ _ _ h
@[simp] theorem State.edgesOf_setEdges (s : State) (i : Nat) (x : ChanEdges) : (s.setEdges i x).edgesOf i = x := Tab.get_set_same ..
theorem State.edgesOf_setEdges_ne (s : State) {i j : Nat} (x : ChanEdges) (h : j ≠ i) : (s.setEdges i x).edgesOf j = s.edgesOf j := Tab.get_set_ne _ _ _ h
@[simp] theorem State.pecOf_setPec (s : State) (i : Nat) (x : Pec) : (s.setPec i x).pecOf i = x := Tab.get_set_same ..
theorem State.pecOf_setPec_ne (s : State) {i j : Nat} (x : Pec) (h : j ≠ i) : (s.setPec i x).pecOf j = s.pecOf j := Tab.get_set_ne _ _ _ h
@[simp] theorem State.seqOf_setSeq (s : State) (i : Nat) (x : Seq) : (s.setSeq i x).seqOf i = x := Tab.get_set_same ..
theorem State.seqOf_setSeq_ne (s : State) {i j : Nat} (x : Seq) (h : j ≠ i) : (s.setSeq i x).seqOf j = s.seqOf j := Tab.get_set_ne _ _ _ h
@[simp] theorem State.slice_setSlice (s : State) (i : Nat) (x : Slice) : (s.setSlice i x).slice i = x := Tab.get_set_same ..
theorem State.slice_setSlice_ne (s : State) {i j : Nat} (x : Slice) (h : j ≠ i) : (s.setSlice i x).slice j = s.slice j := Tab.get_set_ne _ _ _ h
@[simp] theorem State.counter_setCounter (s : State) (i : Nat) (x : Counter) : (s.setCounter i x).counter i = x := Tab.get_set_same ..
theorem State.counter_setCounter_ne (s : State) {i j : Nat} (x : Counter) (h : j ≠ i) : (s.setCounter i x).counter j = s.counter j := Tab.get_set_ne _ _ _ h
@[simp] theorem State.lane_setLane (s : State) (i : Nat) (x : Lane) : (s.setLane i x).lane i = x := Tab.get_set_same ..
theorem State.lane_setLane_ne (s : State) {i j : Nat} (x : Lane) (h : j ≠ i) : (s.setLane i x).lane j = s.lane j := Tab.get_set_ne _ _ _ h
@[simp] theorem State.link_setLink (s : State) (i : Nat) (x : Link) : (s.setLink i x).link i = x := Tab.get_set_same ..
theorem State.link_setLink_ne (s : State) {i j : Nat} (x : Link) (h : j ≠ i) : (s.setLink i x).link j = s.link j := Tab.get_set_ne _ _ _ h
@[simp] theorem State.port_setPort (s : State) (i : Nat) (x : RingPort) : (s.setPort i x).port i = x := Tab.get_set_same ..
theorem State.port_setPort_ne (s : State) {i j : Nat} (x : RingPort) (h : j ≠ i) : (s.setPort i x).port j = s.port j := Tab.get_set_ne _ _ _ h
@[simp] theorem State.tb_setTb (s : State) (i : Nat) (x : TimeBase) : (s.setTb i x).tb i = x := Tab.get_set_same ..
theorem State.tb_setTb_ne (s : State) {i j : Nat} (x : TimeBase) (h : j ≠ i) : (s.setTb i x).tb j = s.tb j := Tab.get_set_ne _ _ _ h
@[simp] theorem State.task_setTask (s : State) (i : Nat) (x : Task) : (s.setTask i x).task i = x := Tab.get_set_same ..
theorem State.task_setTask_ne (s : State) {i j : Nat} (x : Task) (h : j ≠ i) : (s.setTask i x).task j = s.task j := Tab.get_set_ne _ _ _ h
@[simp] theorem State.queue_setQueue (s : State) (i : Nat) (x : List (List Word)) : (s.setQueue i x).queue i = x := Tab.get_set_same ..
theorem State.queue_setQueue_ne (s : State) {i j : Nat} (x : List (List Word)) (h : j ≠ i) : (s.setQueue i x).queue j = s.queue j := Tab.get_set_ne _ _ _ h
@[simp] theorem State.chkRun_setChkRun (s : State) (n : Nat) (x : ChkRun) : (s.setChkRun n x).chkRun n = x := by
  unfold State.setChkRun State.chkRun; simp only [State.setB_chk]; exact Tab.get_set_same ..
@[simp] theorem State.tdc_setTdc (s : State) (e : Nat) (x : Tdc) : (s.setTdc e x).tdc e = x := by
  unfold State.setTdc State.tdc; simp only [State.setB_tim, State.setF_tim]; exact Tab.get_set_same ..
@[simp] theorem State.dma_setDma (s : State) (c : Nat) (x : DmaChan) : (s.setDma c x).dma c = x := by
  unfold State.setDma State.dma State.hlkBusy; simp only [State.setB_host, State.setHost_host]; exact Tab.get_set_same ..
@[simp] theorem State.dlist_setDlist (s : State) (b : Nat) (l : List DlEntry) : (s.setDlist b l).dlist b = l := by
  unfold State.setDlist State.dlist; simp only [State.setB_ttb, State.setF_ttb, State.setTime4_ttb]; exact Tab.get_set_same ..
@[simp] theorem State.latch_setLatch (s : State) (r a : Nat) (v : Option Word) : (s.setLatch r a v).latch r a = v := Tab.get_set_same ..
theorem State.latch_setLatch_ne (s : State) {r a q b : Nat} (v : Option Word) (h : reqKey q b ≠ reqKey r a) :
    (s.setLatch r a v).latch q b = s.latch q b := Tab.get_set_ne _ _ _ h
@[simp] theorem State.stagedW_setStaged (s : State) (r a : Nat) (v : Option Word) : (s.setStaged r a v).stagedW r a = v := Tab.get_set_same ..
theorem State.stagedW_setStaged_ne (s : State) {r a q b : Nat} (v : Option Word) (h : reqKey q b ≠ reqKey r a) :
    (s.setStaged r a v).stagedW q b = s.stagedW q b := Tab.get_set_ne _ _ _ h

/-! ### Host accesses -/

/-- A write that reaches its page does what it does there. -/
theorem State.hostWrite_reaches {s : State} {req a : Nat} (h : s.Reaches req a) (v : Word) (k : State → State) : s.hostWrite req a v k = k s := by
  unfold State.hostWrite
  rw [if_neg (by rintro ⟨h1, h2⟩; rw [h.1 h1] at h2; cases h2), h.2]

/-- A read that reaches its page answers its value. -/
theorem State.hostRead_reaches {s : State} {req a : Nat} (h : s.Reaches req a) (k : State → Word × State) :
    s.hostRead req a k = (k s).2.setRead (k s).1 := by
  unfold State.hostRead
  rw [if_neg (by rintro ⟨h1, h2⟩; rw [h.1 h1] at h2; cases h2), h.2]

end Sys2Proof.Machine
end

