-- ==== Sys2Proof/Tests/Slice0.lean ====
section
/-! SUPPORT. The model's own tests. Each theorem of a command shows a state and operands that meet the hypotheses of its statements together,
and what one step makes of them, with the value its rule of spec/ gives; the last ones show that each check of well-formedness refuses something. -/

open Sys2Proof Sys2Proof.Machine

namespace Sys2Proof.Tests

set_option Elab.async false

/-- The state that a command leads to (the state itself where it does not complete). -/
def nx (c : Instr) (s : State) : State :=
  match exec c s with
  | .next t => t
  | _ => s

/-- A part that has booted: mode READY, the fast clocks running, both ends of the Satchel up. -/
def rdy : State :=
  { ctl := { mode := 5, rnHost := true, rnField := true, clocks := true, booted := true, fmi := true, fieldStat := 3 },
    sat := { hostUp := true, fieldUp := true } }

/-- Both ends of the Satchel's link and both ring links carry frames. -/
def linked : State :=
  { rdy with lan := { links := [(0, { rx := [0, 1], tx := 3, audit := 2, rxNext := 65535, replay := [(7, 2, []), (8, 2, [])] }),
      (1, { rx := [16], tx := 1, audit := 2, credit := [(2, 4), (3, 4), (4, 4)], owed := [(2, 1)] }), (2, { rx := [20], tx := 1, audit := 2 }),
      (3, { rx := [24, 25], tx := 3, audit := 2 })] }, ring := { closed := false, num := some 3, st := 1, n := 4 } }

/-- `s` with registers set. -/
def withRegs (l : List (Nat × Nat)) (s : State) : State := l.foldl (fun s p => s.setReg p.1 (wd p.2)) s

/-- The page kind, instance and offset of an address. -/
def kindAt (a : Nat) : Option (PageKind × Nat × Nat) := (pageOf a).map fun p => (p.1.kind, p.2.1, p.2.2)

/-- The same part in mode EXECUTE, which permits bursts and measurements. -/
def executing : State := { rdy with ctl := { rdy.ctl with mode := 8 } }

/-! ### The block as a whole, and register accesses -/

theorem test_resetCanonical : State.reset.Canonical ∧ State.reset.Balanced ∧ State.reset.reg (galBase + 0x40) = resetValue (galBase + 0x40) := by
  decide +kernel
theorem test_queueFront : ({ rdy with pending := [.traceArm, .traceStop] } : State).pending = .traceArm :: [.traceStop] := rfl
theorem test_idleCycle : rdy.pending = [] ∧ (rdy.pass 1).cycle = 1 ∧ (rdy.pass 1).regs = rdy.regs := by decide +kernel
theorem test_canonicalStep : rdy.Canonical ∧ (nx (.registerWrite 0 (flwBase + 8) 1 15) rdy).Canonical := by decide +kernel
theorem test_account : ({ rdy with bur := { accrued := 7, pool := 4, held := 1, measured := 2 } } : State).Balanced ∧
    (nx .bursarInterval { rdy with bur := { accrued := 7, pool := 4, held := 1, measured := 2, availW := 5 } }).Balanced := by decide +kernel

theorem test_absentPages : pageOf 0x2000000 = none ∧ 0x2000000 < 0x4000000 ∧ rdy.host.d3hot = false ∧
    ({ rdy with lastRead := 5 }.hostReadWord 0 0x2000000).lastRead = 0 ∧ (nx (.registerWrite 0 0x2000000 5 15) rdy).regs = rdy.regs := by decide +kernel
theorem test_badNs : writable (dlBase 0 + 0x4C) 4 = some (dlBase 0 + 0x40) ∧ dlBase 0 + 0x4C < tkpBase ∧ rdy.Reaches 0 (dlBase 0 + 0x4C) ∧
    let s := nx (.timeRegStageWrite 0 (dlBase 0 + 0x44) 1000000000) rdy
    999999999 < (s.commitWord 0 (dlBase 0 + 0x44)).toNat ∧ (nx (.timeRegCommit 0 (dlBase 0 + 0x4C) 0) s).time4 (dlBase 0 + 0x40) = 0 := by decide +kernel
theorem test_badNsSet : rdy.Reaches 0 (tbBase 2 + 0x1C) ∧
    let s := nx (.timeRegStageWrite 0 (tbBase 2 + 0x14) 1000000000) rdy
    999999999 < (s.commitWord 0 (tbBase 2 + 0x14)).toNat ∧ (nx (.timeBaseSet 0 2 0) s).tbs = rdy.tbs := by decide +kernel
theorem test_wrappedNs : ((rdy.setTime4 (dlBase 0 + 0x40) (unitsPerSec * 3 + 65536 * 999999999)).reg (dlBase 0 + 0x44)).toNat = 999999999 := by
  decide +kernel

/-- A channel's counter of 64 bits and a delay list's time, set for reading. -/
def rdyRead : State := withRegs [(dlBase 1 + 0x40, 7), (dlBase 1 + 0x44, 8), (corBase + 0x68, 9), (corBase + 0x6C, 10)] rdy

theorem test_timeRead : isWord0 (dlBase 1 + 0x40) 4 = true ∧ rdyRead.Reaches 0 (dlBase 1 + 0x40) ∧
    (nx (.timeRegWord0Read 0 (dlBase 1 + 0x40)) rdyRead).lastRead = 7 ∧
    (nx (.timeRegWord0Read 0 (dlBase 1 + 0x40)) rdyRead).latch 0 (dlBase 1 + 0x44) = some 8 := by decide +kernel
theorem test_wideRead : isWord0 (corBase + 0x68) 2 = true ∧ rdyRead.Reaches 1 (corBase + 0x68) ∧
    (nx (.reg64LowRead 1 (corBase + 0x68)) rdyRead).lastRead = 9 ∧
    (nx (.reg64LowRead 1 (corBase + 0x68)) rdyRead).latch 1 (corBase + 0x6C) = some 10 ∧
    (nx (.reg64LowRead 1 (corBase + 0x68)) rdyRead).latch 0 (corBase + 0x6C) = none := by decide +kernel
theorem test_rcRead : isRc (corBase + 0x64) = true ∧ wordsAt (corBase + 0x64) = none ∧ rdy.Reaches 0 (corBase + 0x64) ∧
    (nx (.rcRead 0 (corBase + 0x64)) (withRegs [(corBase + 0x64, 5)] rdy)).lastRead = 5 ∧
    (nx (.rcRead 0 (corBase + 0x64)) (withRegs [(corBase + 0x64, 5)] rdy)).reg (corBase + 0x64) = 0 := by decide +kernel
theorem test_timeStage : writable (dlBase 0 + 0x44) 4 = some (dlBase 0 + 0x40) ∧ rdy.Reaches 0 (dlBase 0 + 0x44) ∧
    (nx (.timeRegStageWrite 0 (dlBase 0 + 0x44) 5) rdy).stagedW 0 (dlBase 0 + 0x44) = some 5 := by decide +kernel
theorem test_wideStage : writable (seqBase 0 0 + 0x40) 2 = some (seqBase 0 0 + 0x40) ∧ kindAt (seqBase 0 0 + 0x40) = some (.seq0, 0, 0x40) ∧
    rdy.Reaches 0 (seqBase 0 0 + 0x40) ∧
    (nx (.reg64LowWrite 0 (seqBase 0 0 + 0x40) 0x60) rdy).stagedW 0 (seqBase 0 0 + 0x40) = some 0x60 := by decide +kernel
theorem test_timeCommit : let s := nx (.timeRegStageWrite 0 (dlBase 0 + 0x44) 999999999) rdy
    (s.commitWord 0 (dlBase 0 + 0x44)).toNat ≤ 999999999 ∧ s.Reaches 0 (dlBase 0 + 0x4C) ∧
    (nx (.timeRegCommit 0 (dlBase 0 + 0x4C) 0) s).time4 (dlBase 0 + 0x40) = 999999999 * 65536 := by decide +kernel
theorem test_wideCommit : writable (seqBase 0 0 + 0x44) 2 = some (seqBase 0 0 + 0x40) ∧ ringOfCfg (seqBase 0 0 + 0x40) = none ∧
    kindAt (seqBase 0 0 + 0x44) = some (.seq0, 0, 0x44) ∧
    let s := nx (.reg64LowWrite 0 (seqBase 0 0 + 0x40) 0x67) rdy
    s.Reaches 0 (seqBase 0 0 + 0x44) ∧ (nx (.reg64HighWrite 0 (seqBase 0 0 + 0x44) 1) s).reg64 (seqBase 0 0 + 0x40) =
      (0x67 + 2 ^ 32) &&& wmask64 (seqBase 0 0 + 0x40) := by decide +kernel
theorem test_partialWrite : (nx (.registerWrite 0 (galBase + 8) 1 7) rdy).reg (hlkBase + 0x54) = 1 ∧
    (nx (.registerWrite 0 (galBase + 10) 1 15) rdy).reg (hlkBase + 0x54) = 1 := by decide +kernel
theorem test_enWrite : kindAt (flwBase + 8) = some (.flw0, 0, 8) ∧ nbit (writeMask (flwBase + 8)) 0 = true ∧ rdy.Reaches 0 (flwBase + 8) ∧
    ((regAt (flwBase + 8)).map fun p => (p.1, p.2.1, p.2.2.1, p.2.2.2.1.words, p.2.2.2.1.acc, p.2.2.2.2)) = some (.flw0, 0, 8, 1, .rw, 0) ∧
    (nx (.registerWrite 0 (flwBase + 8) 1 15) rdy).getB (flwBase + 8) 0 = true := by decide +kernel
theorem test_evPendClear : kindAt corBase = some (.cor0, 0, 0) ∧ rdy.Reaches 0 (corBase + 0x14) ∧
    (nx (.evPendClear 0 corBase 0x10000) (withRegs [(corBase + 0x14, 0x10001), (corBase + 0x10, 0x10000)] rdy)).reg (corBase + 0x14) = 1 ∧
    nbit (liveMask .rng) 1 = true ∧ rdy.Reaches 0 (rngBase + 0x14) ∧
    (nx (.evPendClear 0 rngBase 2) (withRegs [(rngBase + 0x14, 2), (rngBase + 0x10, 2)] rdy)).reg (rngBase + 0x10) = 2 := by decide +kernel
theorem test_evEn : (nx (.evEnWrite 0 corBase 0xFFFFFFFF) rdy).reg (corBase + 0x18) = wd (writeMask (corBase + 0x18)) := by decide +kernel
theorem test_evTest : ordinalPage (ordinalAt corBase) = some corBase ∧ corBase ≠ galBase ∧ rdy.Reaches 0 (corBase + 0x20) ∧
    nbit (writeMask (corBase + 0x20)) 16 = true ∧ nbit (writeMask (corBase + 0x14)) 16 = true ∧
    (nx (.evTestWrite 0 corBase 0x10000) rdy).getB (corBase + 0x14) 16 = true ∧
    (nx (.evTestWrite 0 corBase 0x10000) rdy).reg (corBase + 0x10) = rdy.reg (corBase + 0x10) := by decide +kernel
theorem test_msix : let s : State := { rdy with msix := { pba := [(3, true)] } }
    s.msix.fnMask = false ∧ Tab.get (fun _ => false) s.msix.pba 3 = true ∧
    Tab.get (fun _ => 0) (nx (.msixUnmask (some 3)) s).msix.sent 3 = 1 ∧ (nx (.msixUnmask (some 3)) s).msix.pba = [] := by decide +kernel
theorem test_srst : kindAt galBase = some (.gal0, 0, 0) ∧ srstIgnored .gal0 = false ∧ rdy.getB (galBase + 8) 1 = false ∧ rdy.Reaches 0 (galBase + 8) ∧
    (nx (.pageSrst 0 galBase 2) rdy).getB (galBase + 8) 1 = true ∧ (nx (.pageSrst 0 galBase 2) rdy).getB (galBase + 0xC) 1 = false ∧
    srstHeld .gal0 = false ∧ pgStatZero .gal0 = false ∧
    (nx (.pageSrstDone galBase) (nx (.pageSrst 0 galBase 2) rdy)).getB (galBase + 0xC) 1 = true := by decide +kernel
theorem test_srstIgnored : kindAt sat0Base = some (.sat0, 0, 0) ∧ srstIgnored .sat0 = true ∧ rdy.Reaches 0 (sat0Base + 8) ∧
    (nx (.pageSrst 0 sat0Base 2) rdy).getB (sat0Base + 8) 1 = false := by decide +kernel

/-! ### Channels, desks, timesets, edge slots and PE_CTL -/

/-- A burst of sequencer 0 runs. -/
def bursting : State := withRegs [(seqBase 0 0 + 0xC, 1)] rdy

theorem test_configWrite : isConfigWord (dskBase 0 + 0x40) = true ∧ kindAt (dskBase 0 + 0x40) = some (.dsk, 0, 0x40) ∧
    (dskBase 0 + 0x40) % 0x1000 < 0x400 ∧ rdy.Reaches 0 (dskBase 0 + 0x40) ∧
    (nx (.chnDskConfigWrite 0 (dskBase 0 + 0x40) 1) rdy).eff (dskBase 0 + 0x40) = 1 ∧
    (nx (.chnDskConfigWrite 0 (dskBase 0 + 0x40) 1) bursting).reg (dskBase 0 + 0x40) = 1 ∧
    (nx (.chnDskConfigWrite 0 (dskBase 0 + 0x40) 1) bursting).eff (dskBase 0 + 0x40) = 0 := by decide +kernel
theorem test_parkReserved : isConfigWord (chnBase 3 + 0x44) = true ∧ kindAt (chnBase 3 + 0x44) = some (.chn, 3, 0x44) ∧
    rdy.Reaches 0 (chnBase 3 + 0x44) ∧ parkRefused (wd (mergeMask (writeMask (chnBase 3 + 0x44)) (rdy.reg (chnBase 3 + 0x44)).toNat 5)) = true ∧
    (nx (.chnDskConfigWrite 0 (chnBase 3 + 0x44) 5) rdy).regs = [] ∧
    (nx (.chnDskConfigWrite 0 (chnBase 3 + 0x44) 2) rdy).reg (chnBase 3 + 0x44) = 2 := by decide +kernel
theorem test_stagedApply : let s := (nx (.chnDskConfigWrite 0 (dskBase 0 + 0x40) 1) bursting).setReg (seqBase 0 0 + 0xC) 0
    kindAt (dskBase 0) = some (.dsk, 0, 0) ∧ (pageOf (dskBase 0)).map (fun p => pageBase p.1.kind p.2.1) = some (dskBase 0) ∧ s.eff (dskBase 0 + 0x40) = 0 ∧
    ((s.stagedIn (dskBase 0)).any fun a => (s.namedSeqs a ++ ((s.stagedIn (dskBase 0)).foldl (fun s a => s.dropForce a) s).namedSeqs a).any
      s.burstRuns) = false ∧ (nx (.stagedConfigApply (dskBase 0)) s).eff (dskBase 0 + 0x40) = 1 := by decide +kernel
theorem test_timesetStaged : let s := nx (.reg64LowWrite 0 (tsAddr 0 2) 2560) bursting
    let t := nx (.timesetCommit 0 0 2 0) s
    s.Reaches 0 (tsAddr 0 2 + 4) ∧ t.reg64 (tsAddr 0 2) = 2560 ∧ t.eff64 (tsAddr 0 2) = rdy.reg64 (tsAddr 0 2) ∧
    t.getB (seqBase 0 1 + 0x40) 0 = true ∧ (t.setReg (seqBase 0 0 + 0xC) 0).burstRuns 0 = false ∧
    (nx (.stagedSeqConfigApply 0) (t.setReg (seqBase 0 0 + 0xC) 0)).eff (tsAddr 0 2) = 2560 ∧
    (nx (.stagedSeqConfigApply 0) (t.setReg (seqBase 0 0 + 0xC) 0)).getB (seqBase 0 1 + 0x40) 0 = false := by decide +kernel
theorem test_timesetRefused : ((rdy.commitWord 0 (tsAddr 0 255)).toNat &&& wmask64 (tsAddr 0 255)) % 2 ^ 37 < 1280 ∨
    (nx (.timesetCommit 0 0 255 0) (nx (.reg64LowWrite 0 (tsAddr 0 255) 1279) rdy)).reg64 (tsAddr 0 255) = rdy.reg64 (tsAddr 0 255) := by decide +kernel
theorem test_timesetEdges :
    (nx (.timesetCommit 0 0 255 0) (nx (.reg64LowWrite 0 (tsAddr 0 255) 1280) rdy)).reg64 (tsAddr 0 255) = 1280 ∧
    (nx (.timesetCommit 0 15 0 0x10) (nx (.reg64LowWrite 0 (tsAddr 15 0) 0) rdy)).reg64 (tsAddr 15 0) = 2 ^ 36 ∧
    (nx (.timesetCommit 0 15 0 0x10) (nx (.reg64LowWrite 0 (tsAddr 15 0) 1) rdy)).reg64 (tsAddr 15 0) = rdy.reg64 (tsAddr 15 0) := by
  decide +kernel
theorem test_page2 : kindAt (seqBase 0 2 + 0xC0) = some (.seq2, 0, 0xC0) ∧ bursting.Reaches 0 (seqBase 0 2 + 0xC0) ∧
    seqBase 0 2 + 0xC0 ≠ seqBase 0 2 + 0x40 ∧ (nx (.seqPage2Write 0 (seqBase 0 2 + 0xC0) 1) bursting).reg (seqBase 0 2 + 0xC0) = 1 ∧
    (nx (.seqPage2Write 0 (seqBase 0 2 + 0xC0) 1) bursting).eff (seqBase 0 2 + 0xC0) = 0 ∧
    (nx (.seqPage2Write 0 (seqBase 0 2 + 0xC0) 1) bursting).getB (seqBase 0 2 + 0x40) 0 = true ∧
    (nx (.seqPage2Write 0 (seqBase 0 2 + 0xC0) 1) rdy).eff (seqBase 0 2 + 0xC0) = 1 := by decide +kernel
theorem test_edgeSlot : let a := chnBase 255 + 0x400 + 8 * 383
    rdy.Reaches 0 (a + 4) ∧
    (nx (.edgeSlotCommit 0 255 383 0x112) (nx (.reg64LowWrite 0 a 7) rdy)).reg64 a = (7 + 2 ^ 32 * 0x112) &&& wmask64 a ∧
    ((7 + 2 ^ 32 * 0xF00) &&& wmask64 a) / 2 ^ 40 = 15 ∧
    (nx (.edgeSlotCommit 0 255 383 0xF00) (nx (.reg64LowWrite 0 a 7) rdy)).reg64 a = rdy.reg64 a := by decide +kernel
theorem test_peUp : let s : State := { rdy with chn := { peDown := [(4, true)], peDue := [(4, 1600)] } }
    Tab.get (fun _ => 0) s.chn.peDue 4 ≠ 0 ∧ s.peOn 4 = false ∧ (nx (.peClusterPowerUpDone 4) s).peOn 4 = true ∧
    (nx (.peClusterPowerUpDone 4) s).cycle = 1600 := by decide +kernel

/-- Desk 8 is enabled, with two bytes in `PEC_TX` of its first bus. -/
def pecReady : State := withRegs [(dskBase 8 + 8, 1), (pecBase 2 + 0x40, 0xA5)] rdy

theorem test_pecStart : bit (0x07000201 : Word) 0 = true ∧ bit (0x07000201 : Word) 1 = false ∧ pecReady.Reaches 0 (pecBase 2) ∧
    pecReady.getB (dskBase (8 * (2 / 2)) + 8) 0 = true ∧ (pecReady.pecOf 2).busy = false ∧ fld (0x07000201 : Word) 31 24 = 7 ∧
    fld (0x07000201 : Word) 14 8 = 2 ∧ (nx (.pecStart 2 0x07000201) pecReady).reg (pecBase 2 + 4) = 1 ∧
    ((nx (.pecStart 2 0x07000201) pecReady).pecOf 2).busy = true ∧ ((nx (.pecStart 2 0x07000201) pecReady).pecOf 2).period = 16 := by decide +kernel
theorem test_pecBad : fld (0x06000201 : Word) 31 24 = 6 ∧ fld (0x07004101 : Word) 14 8 = 65 ∧
    (nx (.pecStart 2 0x06000201) pecReady).getF (pecBase 2 + 4) 3 1 = 3 ∧ (nx (.pecStart 2 0x07004101) pecReady).getF (pecBase 2 + 4) 3 1 = 3 ∧
    (nx (.pecStart 2 0x07000001) pecReady).getF (pecBase 2 + 4) 3 1 = 3 := by decide +kernel
theorem test_pecEnds : let s := nx (.pecStart 2 0x07000201) pecReady
    let late : State := { s with cycle := (s.pecOf 2).commitAt }
    (s.pecOf 2).busy = true ∧ s.cycle < (s.pecOf 2).commitAt ∧ late.Reaches 0 (pecBase 2) ∧ (late.pecOf 2).commitAt ≤ late.cycle ∧
    ((nx (.pecAbort 2 2) late).pecOf 2).noop = true ∧ ((nx (.pecAbort 2 2) s).pecOf 2).busy = false ∧
    fld ((nx (.pecAbort 2 2) s).reg (pecBase 2 + 4)) 7 0 = 4 ∧
    (nx (.pecTransferEnd 2 [1, 2]) s).reg (pecBase 2 + 4) = 0x202 ∧ (nx (.pecTransferEnd 2 []) (nx (.pecAbort 2 2) late)).reg (pecBase 2 + 4) = 0x208 := by
  decide +kernel

/-! ### Record rings and the host link -/

/-- The fail log as a ring of 1,024 slots with two records in it. -/
def logRing : State := withRegs [(RecRing.log.regs.wr, 2)] rdy

theorem test_ringRead : logRing.Reaches 0 RecRing.log.regs.rd ∧ logRing.ringUnread .log = 2 ∧ 
    (nx (.ringReadPointerWrite 0 RecRing.log.regs.rd 2) logRing).reg RecRing.log.regs.rd = 2 ∧
    (nx (.ringReadPointerWrite 0 RecRing.log.regs.rd 3) logRing).reg RecRing.log.regs.rd = 0 := by decide +kernel
theorem test_ringReconfig : let s := (nx (.registerWrite 0 RecRing.log.regs.size 2048 15) (logRing.setReg (seqBase 0 0 + 0xC) 1)).setReg (seqBase 0 0 + 0xC) 0
    ringNo 0 = .log ∧ s.ringStaged (ringNo 0) = true ∧ s.writersIdle (ringNo 0) = true ∧
    (nx (.ringReconfigApply 0) s).reg RecRing.log.regs.wr = 0 ∧ (nx (.ringReconfigApply 0) s).eff RecRing.log.regs.size = 2048 := by decide +kernel
theorem test_flr : (nx .pcieFlr (withRegs [(hlkBase + 0x54, 3)] rdy)).reg (hlkBase + 0x54) = resetValue (hlkBase + 0x54) ∧
    (nx .pcieD3hotEntry rdy).host.d3hot = true ∧ (nx .pcieD0Entry (nx .pcieD3hotEntry rdy)).host.d3hot = false := by decide +kernel
theorem test_link : (nx (.pcieLinkChange true true 16 5) rdy).reg (hlkBase + 0x40) = (nx (.pcieLinkChange true true 80 21) rdy).reg (hlkBase + 0x40) := by
  decide +kernel

/-- DMA channel 1 with its page enabled. -/
def dmaReady : State := withRegs [(dmaBase 1 / 0x1000 * 0x1000 + 8, 1), (dmaBase 1, 0x40), (dmaBase 1 + 0xC, 9)] linked

/-- DMA channel 1 in a state, with a descriptor's words. -/
def dmaIn (st : Nat) (ws : List Word) : State := { dmaReady with host := { dma := [(1, { st := st, words := ws })] } }

theorem test_dmaStart : dmaReady.host.d3hot = false ∧ (dmaReady.dma 1).st = 0 ∧ dmaReady.startAllowed .dma (dmaBase 1) = true ∧
    ((nx (.dmaCtrlStart 1) dmaReady).dma 1).st = 1 ∧ (nx (.dmaCtrlStart 1) dmaReady).reg64 (dmaBase 1 + 0x20) = 0x40 ∧
    (nx (.dmaCtrlStart 1) dmaReady).bur.waits = [⟨4, 1, true, 0, 9, 0⟩] := by decide +kernel
theorem test_dmaAbort : ((dmaIn 2 []).dma 1).st ≠ 0 ∧ ((nx (.dmaCtrlAbort 1) (dmaIn 2 [])).dma 1).st = 0 ∧
    (nx (.dmaCtrlAbort 1) (dmaIn 2 [])).getF (dmaBase 1 + 0x10) 3 0 = 2 := by decide +kernel
theorem test_dmaErrors : ((dmaIn 3 [0, 0, 0, 0, 8, 2, 0, 0]).dma 1).toHost = false ∧ ((dmaIn 3 [0, 0, 0, 0, 8, 2, 0, 0]).dma 1).len = 8 ∧
    (nx (.dmaHostCompletionError 1) (dmaIn 3 [0, 0, 0, 0, 8, 2, 0, 0])).getF (dmaBase 1 + 0x10) 3 0 = 5 ∧
    (nx (.dmaHostCompletionError 1) (dmaIn 3 [0, 0, 0, 0, 8, 3, 0, 0])).getF (dmaBase 1 + 0x10) 3 0 = 6 ∧
    (nx (.pcieCompletionTimeout 1) (dmaIn 3 [0, 0, 0, 0, 8, 2, 0, 0])).getF (dmaBase 1 + 0x10) 3 0 = 5 ∧
    (nx (.pcieCompletionTimeout 1) (dmaIn 3 [0, 0, 0, 0, 8, 2, 0, 0])).cycle = completionTimeout := by decide +kernel
theorem test_bar2 : rdy.host.d3hot = false ∧ rdy.fieldVisible = true ∧ rdy.prune.stage < 3 ∧ rdy.ctl.mode ≠ 4 ∧
    (rdy.portRun 2 false (rdy.reg64 (hlkBase + 0x48) + 0xFF) 3).isSome = true ∧
    (rdy.portEach 2 true (bar2Accesses (rdy.reg64 (hlkBase + 0x48) + 0x100) [some 0xAB, some 0xCD])).any
      (fun u => u.answers (u.reg64 (hlkBase + 0x48) + 0x100) && u.answers (u.reg64 (hlkBase + 0x48) + 0x101)) = true ∧
    (nx (.bar2Access 0x100 true [some 0xAB, some 0xCD] 0) rdy).mem = [(0x100, 0xAB), (0x101, 0xCD)] ∧
    (nx (.bar2Access 0xFF false [] 3) (nx (.bar2Access 0x100 true [some 0xAB, some 0xCD] 0) rdy)).host.bar2 = [0, 0xAB, 0xCD] := by decide +kernel
theorem test_dmaDescriptor : let s : State := (dmaIn 2 []).writeWords 0 [0, 0, 0, 0, 8, 0x80000002, 0, 0]
    (s.dma 1).st = 2 ∧ s.satReady true 3 1 = true ∧ s.satReady false 3 1 = true ∧ (s.portRun 2 false (s.reg64 (dmaBase 1 + 0x20)) 32).any (fun u =>
      u.readOk (s.reg64 (dmaBase 1 + 0x20)) 32 && bit ((u.words (s.reg64 (dmaBase 1 + 0x20)) 8).getD 5 0) 31 &&
      bit ((u.words (s.reg64 (dmaBase 1 + 0x20)) 8).getD 5 0) 1) = true ∧
    ((nx (.dmaDescriptorReadDone 1) s).dma 1).st = 3 ∧ ((nx (.dmaDescriptorReadDone 1) s).dma 1).len = 8 := by decide +kernel
theorem test_dmaMoves : let s : State := dmaIn 3 [0, 0, 0x100, 0, 3, 0x80000002, 0, 0]
    let t := nx (.hostReadCompletion 1 [1, 2, 3]) s
    (s.dma 1).moved + (s.dma 1).inbound.length + 3 ≤ (s.dma 1).len ∧ (t.dma 1).inbound = [1, 2, 3] ∧
    (t.portRun 2 true ((t.dma 1).fieldAddr + (t.dma 1).moved) 2).isSome = true ∧ t.dmaTurn 1 2 = true ∧ t.satReady true 3 1 = true ∧
    ((nx (.satchelDmaData 1 2) t).dma 1).moved = 2 ∧ ((nx (.satchelDmaData 1 2) t).dma 1).inbound = [3] ∧
    (nx (.satchelDmaData 1 2) t).mem.length = 2 := by decide +kernel
theorem test_dmaToHost : let s : State := (dmaIn 3 [0, 0, 0, 0, 2, 0x80000003, 0, 0]).writeWords 0 [0x0201]
    (s.dma 1).toHost = true ∧ (s.dma 1).moved + 2 ≤ (s.dma 1).len ∧ s.dmaTurn 1 2 = true ∧ s.satReady false 3 1 = true ∧
    (s.portRun 2 false ((s.dma 1).fieldAddr + (s.dma 1).moved) 2).any (fun u =>
      !((List.range 2).any fun i => u.mapped ((s.dma 1).fieldAddr + (s.dma 1).moved + i) &&
        !(u.readOk ((s.dma 1).fieldAddr + (s.dma 1).moved + i) 1))) = true ∧
    ((nx (.satchelDmaData 1 2) s).dma 1).moved = 2 ∧ (nx (.satchelDmaData 1 2) s).host.out.length = 1 := by decide +kernel
theorem test_dmaDone : let s (w : Nat) : State := { dmaReady with host := { dma := [(1, { st := 3, words := [0, 0, 0, 0, 8, wd w, 0x60, 0], moved := 8 })] } }
    ((s 0x80000002).dma 1).moved = ((s 0x80000002).dma 1).len ∧ (s 0x80000002).satReady true 3 1 = true ∧ (s 0x80000000).satReady true 3 1 = true ∧
    ((nx (.dmaDescriptorComplete 1) (s 0x80000002)).dma 1).st = 0 ∧
    (nx (.dmaDescriptorComplete 1) (s 0x80000002)).getF (dmaBase 1 + 0x10) 3 0 = 1 ∧
    ((nx (.dmaDescriptorComplete 1) (s 0x80000000)).dma 1).st = 2 ∧
    (nx (.dmaDescriptorComplete 1) (s 0x80000000)).reg64 (dmaBase 1 + 0x20) = 0x60 ∧
    (nx (.dmaDescriptorComplete 1) (s 0x80000000)).reg (dmaBase 1 + 0x14) = 1 := by decide +kernel

/-- Flash operations are enabled, with an address set. -/
def flashReady : State := withRegs [(hlkBase + 8, 1), (hlkBase + 0x58, 0x1200000)] rdy

theorem test_flashOps : flashReady.host.op = none ∧ flashReady.getB (hlkBase + 8) 0 = true ∧ flashReady.startAllowed .flash (hlkBase + 0x5C) = true ∧
    flashReady.flashProtected (flashReady.getF (hlkBase + 0x58) 25 0) = false ∧ flashReady.getF (hlkBase + 0x58) 25 0 % 256 + 256 ≤ 256 ∧
    (nx (.flashRead 1) flashReady).host.op.map (fun o => (o.op, o.addr, o.len)) = some (0, 0x1200000, 1) ∧
    (nx (.flashProgram 256) flashReady).host.op.map (fun o => (o.op, o.addr, o.len)) = some (1, 0x1200000, 256) ∧
    (nx (.flashErase 1) flashReady).host.op.map (fun o => (o.op, o.addr, o.len)) = some (2, 0x1200000, 1) ∧
    (nx (.flashErase 1) flashReady).getB (hlkBase + 0x60) 4 = true := by decide +kernel
theorem test_flashEnds : let s (o : Nat) : State := { rdy with host := { op := some ⟨o, 0x10, 2, [1, 0xFF]⟩, flash := [(9, 4), (65536, 5)] } }
    (nx (.flashOpEnd true) (s 1)).reg (hlkBase + 0x60) = 1 ∧ (nx (.flashOpEnd true) (s 1)).host.flash = [(9, 4), (16, 1), (65536, 5)] ∧
    (nx (.flashOpEnd false) (s 1)).reg (hlkBase + 0x60) = 5 := by decide +kernel

/-! ### The Corridor, the Bursar and the Timetable -/

/-- Two pulses on their way, one already at input 130 from source 300. -/
def pulsing : State := { rdy with cor := { pulses := [⟨300, 5, false⟩, ⟨301, 3, false⟩], routed := [(130, 300, 4)] } }

theorem test_pulseArrives : nextPulse pulsing.cor.pulses = some ⟨301, 3, false⟩ ∧
    (nx .corridorPulseArrive (withRegs [(selAddr 184, 301)] pulsing)).cor.routed = [(130, 300, 4), (184, 301, 5)] ∧
    (nx .corridorPulseArrive pulsing).cycle = 3 ∧ (nx .corridorPulseArrive pulsing).cor.pulses = [⟨300, 5, false⟩] := by decide +kernel
theorem test_pulseGated : pulsing.cor.routed.find? (fun p => p.1 = 130) = some (130, 300, 4) ∧
    let s := withRegs [(selAddr 130, 2 ^ 31 + 300 * 65536)] pulsing
    s.getB (selAddr 130) 31 = true ∧ s.getF (selAddr 130) 27 16 = 300 ∧ (nx (.consumerPulse 130) s).reg64 (corBase + 0x70) = 1 := by decide +kernel
theorem test_pulseStorm : let s := withRegs [(selAddr 130, 300), (corBase + 0x40, 2)] pulsing
    let s : State := { s with cor := { s.cor with window := [(130, 2)] } }
    s.getF (corBase + 0x40) 15 0 ≤ s.windowCount 130 ∧ (nx (.consumerPulse 130) s).getB (selAddr 130) 31 = true ∧
    (nx (.consumerPulse 130) s).getF (selAddr 130) 27 16 = 300 ∧ (nx (.consumerPulse 130) s).getB (corBase + 0x14) 16 = true ∧
    (nx (.consumerPulse 130) s).reg64 (corBase + 0x70) = 1 := by decide +kernel
theorem test_pulseDelivered : let s := withRegs [(selAddr 130, 300), (corBase + 0x40, 1)] pulsing
    s.windowCount 130 < s.getF (corBase + 0x40) 15 0 ∧ (nx (.consumerPulse 130) s).reg64 (corBase + 0x68) = 1 ∧
    (nx (.consumerPulse 130) s).windowCount 130 = 1 := by decide +kernel
theorem test_stormWindow : (nx .stormWindowBoundary rdy).cycle = rdy.nextGrid 0 800 ∧ rdy.nextGrid 0 800 = 0 ∧ ({ rdy with cycle := 1 } : State).nextGrid 0 800 = 800 ∧
    (nx .stormWindowBoundary { rdy with cor := { window := [(130, 2)] } }).cor.window = [] := by decide +kernel
theorem test_selector : consumerReal 215 = true ∧ consumerReal 185 = false ∧ rdy.Reaches 0 (selAddr 215) ∧
    (nx (.selectorWrite 215 0xFFFFFFFF) rdy).reg (selAddr 215) = 0xFFF := by decide +kernel
theorem test_gpeMode : rdy.Reaches 0 (corBase + 0x54) ∧ (nx (.gpeOutModeWrite 0xC0000000) rdy).regs = [] ∧
    (nx (.gpeOutModeWrite 0x80000006) rdy).reg (corBase + 0x54) = 0x80000006 := by decide +kernel
theorem test_gpeIn : rdy.ctl.mode ≠ 4 ∧ rdy.prune.stage < 4 ∧ rdy.gpeMatch 15 true = true ∧
    (nx (.gpeInEdge 15 true) rdy).getB (corBase + 0x4C) 15 = true ∧ (nx (.gpeInEdge 15 true) rdy).getB (corBase + 0x14) 15 = true ∧
    (nx (.gpeInEdge 15 false) rdy).getB (corBase + 0x14) 15 = false := by decide +kernel

/-- The part rests in RECESS, with every wake source but those of the host enabled. -/
def resting : State := { rdy with ctl := { rdy.ctl with mode := 4, prior := 5, recess := .resting, clocks := false } }

theorem test_gpeWake : let s := withRegs [(selAddr 184, evNo 47 7), (glbBase + 0x64, 2 ^ 21)] resting
    s.gpeMatch 7 true = true ∧ s.inputSource 184 = evNo 47 7 ∧ s.getB (glbBase + 0x64) 21 = true ∧
    (nx (.gpeInRecessEdge 7 true) s).ctl.recess = .locking ∧ (nx (.gpeInRecessEdge 7 true) s).cor.gpeWake = [7] ∧
    s.inputSource 184 ≠ evNo 47 8 ∧ (nx (.gpeInRecessEdge 8 true) s).reg (corBase + 0x64) = 1 ∧
    (nx (.gpeInRecessEdge 8 true) s).ctl = s.ctl := by decide +kernel
theorem test_gpePulseEnd : let s : State := { withRegs [(corBase + 0x60, 8)] rdy with cor := { gpeDue := [(3, 99)] } }
    (nx (.gpeOutPulseEnd 3) s).reg (corBase + 0x60) = 0 ∧ (nx (.gpeOutPulseEnd 3) s).cycle = 99 := by decide +kernel

theorem test_interval : let s : State := { withRegs [(burBase + 0x50, 100), (burBase + 0x40, 80)] rdy with bur := { pool := 90, availW := 30, accrued := 90 } }
    (nx .bursarInterval s).bur.pool = 120 ∧ (nx .bursarInterval s).bur.effW = 80 ∧ (nx .bursarInterval s).bur.fixedW = 61 ∧
    (nx .bursarInterval s).bur.availW = 19 ∧ (nx .bursarInterval s).cycle = 0 ∧ (nx .bursarInterval (nx .bursarInterval s)).cycle = 800 ∧
    (nx .bursarInterval (nx .bursarInterval s)).bur.pool = 120 := by decide +kernel
/-- Sensor 9 counts, and reads 3 °C above a SOFT of 50 °C. -/
def warm : State := withRegs [(bur1Base + 0x50, 512), (sensorAddr 9, 2 ^ 31 + 424), (bur1Base + 0x40, 400), (bur1Base + 0x48, 0x0405)] rdy
theorem test_thermal : rdy.hottest = none ∧ warm.hottest = some 9 ∧ warm.sensorVal 9 = 424 ∧ warm.softW = 400 ∧
    (240 : Int) - 5 * (((424 - 400 : Int).toNat + 7) / 8 : Nat) = 225 ∧ (nx .thermalTargetStep warm).bur.thermW = 236 ∧
    (nx .thermalTargetStep { warm with bur := { thermW := 227 } }).bur.thermW = 225 ∧
    (nx .thermalTargetStep { warm with bur := { thermW := 223 } }).bur.thermW = 225 ∧ (nx .thermalTargetStep { warm with cycle := 1 }).cycle = 800000 := by decide +kernel
theorem test_sensors : (nx (.sensorSample ([(1, 5)] ++ [(63, 4095)]) 12000 70000 9) rdy).reg (sensorAddr 63) = wd (2 ^ 31 + 4095) ∧
    (nx (.sensorSample ([(1, 5)] ++ [(63, 4095)]) 12000 70000 9) rdy).reg (pwrBase + 0x60) = 4464 := by decide +kernel
theorem test_admit : let s : State := { withRegs [(burBase + 0x50, 100)] rdy with bur := { pool := 50, accrued := 50, availW := 1, waits := [⟨2, 3, true, 0, 40, 0⟩] } }
    (∀ k, (s.task k).st ≠ 2) ∧ (⟨2, 3, true, 0, 40, 0⟩ : Wait).auto = false ∧ ((min 40 s.poolMax : Nat) : Int) ≤ s.bur.pool ∧
    (nx .bursarAdmit s).bur.declared = 40 ∧ (nx .bursarAdmit s).bur.waits = [] ∧ (nx .bursarAdmit s).reg (burBase + 0x80) = 1 ∧
    (nx .bursarAdmit s).bur.pool = 10 := ⟨fun _ => show (0 : Nat) ≠ 2 by decide, by decide +kernel⟩
/-- Slot 5 holds a NOP task that waits for 2 pulses of port 4. -/
def nopTask : Task := { img := [0, 0, 0, 0, 0x40040002, 0, 0, 0], cnt := [3, 0, 0, 0] }
def withTask (t : Task) (s : State) : State := { s with ttb := { s.ttb with tasks := [(5, t)] } }
/-- The Timetable's page is enabled. -/
def ttbOn : State := withRegs [(ttbBase + 8, 1)] rdy
theorem test_dispatch : (∀ k, k ≠ 5 → ((withTask { nopTask with st := 2 } ttbOn).task k).st ≠ 2) ∧
    ({ nopTask with st := 2 } : Task).exec = 0 ∧ ({ nopTask with st := 2 } : Task).energy = 0 ∧
    ((nx .taskDispatch (withTask { nopTask with st := 2 } ttbOn)).task 5).st = 3 ∧
    ((nx .taskDispatch (withTask { nopTask with st := 2 } ttbOn)).task 5).ended = some (1, false) ∧
    (nx .taskDispatch (withTask { nopTask with st := 2 } ttbOn)).reg (ttbBase + 0x88) = 1 ∧
    ((nx .taskDispatch (withTask { nopTask with st := 2 } ttbOn)).task 5).cnt = [1, 0, 0, 0] ∧
    ((nx .taskDispatch (withTask { nopTask with st := 2 } rdy)).task 5).st = 2 :=
  ⟨fun k h => by simp [withTask, State.task, Tab.get, h], by decide +kernel⟩
def selTask (t : Task) : State := withRegs [(ttbBase + 0x40, 5)] (withTask t rdy)
theorem test_taskImage : (selTask nopTask).getF (ttbBase + 0x40) 11 0 = 5 ∧ (selTask nopTask).Reaches 0 (ttbBase + 0x70) ∧
    (selTask nopTask).Reaches 0 (ttbBase + 0x44 + 4 * 7) ∧ ((nx (.taskImageWrite 7 9) (selTask nopTask)).task 5).word 7 = 9 ∧
    (nx (.taskImageWrite 7 9) (selTask { nopTask with st := 1 })).reg (ttbBase + 0x74) = 1 ∧
    ((nx (.taskImageWrite 7 9) (selTask { nopTask with st := 1 })).task 5).word 7 = 0 := by decide +kernel
theorem test_taskArm : nopTask.imageOk = true ∧ ((nx .taskArm (selTask nopTask)).task 5).st = 2 ∧
    ((nx .taskArm (selTask { nopTask with cnt := [1, 0, 0, 0] })).task 5).st = 1 ∧
    ((nx .taskDisarm (selTask { nopTask with st := 1 })).task 5).st = 0 ∧
    ((nx .taskDisarm (selTask { nopTask with st := 3 })).task 5).toIdle = true := by decide +kernel
theorem test_taskAdd : nopTask.kind 0 ≠ 0 ∧ nopTask.counter 0 + 65532 ≤ 65535 ∧
    ((nx (.taskAdd 0 65532) (selTask nopTask)).task 5).cnt = [65535, 0, 0, 0] ∧
    ((nx .taskAbort (selTask { nopTask with st := 2 })).task 5).outcome = 3 ∧
    ((nx .taskClear (selTask nopTask)).task 5).cnt = [0, 0, 0, 0] ∧ (nx .taskClear (selTask nopTask)).reg64 (ttbBase + 0x90) = 3 := by decide +kernel
theorem test_push : rdy.Reaches 0 (sqBase 7 + 0x24) ∧ rdy.reg (sqBase 7 + 0x28) ≠ 0 ∧ (nx (.sqPush 7) rdy).queue 7 = [List.replicate 9 0] ∧
    (nx (.sqPush 7) (withRegs [(sqBase 7 + 0x28, 0)] rdy)).reg (sqBase 7 + 0x2C) = 1 ∧
    (nx (.sqPush 7) (withRegs [(sqBase 7 + 0x28, 0)] rdy)).queue 7 = [] := by decide +kernel
/-- Queue 2 holds a SUBMIT of slot 5 or a CANCEL of another kind. -/
def queued (w : Nat) (t : Task) : State := let s := withTask t rdy; { s with ttb := { s.ttb with queues := [(2, [[wd w, 0, 0, 0, 0, 0x40040002, 0, 0, 0]])] } }
theorem test_submit : fld (0x10000005 : Word) 31 28 = 1 ∧ fld (0x10000005 : Word) 11 0 = 5 ∧
    ((nx (.taskSubmit 2) (queued 0x10000005 { nopTask with img := [] })).task 5).st = 2 ∧
    (nx (.taskSubmit 2) (queued 0x10000005 { nopTask with img := [] })).queue 2 = [] := by decide +kernel
theorem test_arrivalPort : let s := withRegs [(ttbBase + 0x200 + 4 * 127, 2)] rdy
    ((∀ i, (s.task i).st ≠ 4) ∧ ∀ q, s.queue q = []) ∧ (∀ p', p' < 128 → p' ≠ 127 → s.reg (ttbBase + 0x200 + 4 * p') = 0) ∧
    (s.portTargets 127).find? s.saturates = none ∧ (nx .arrivalApply s).reg (ttbBase + 0x200 + 4 * 127) = 1 ∧
    (nx .arrivalApply s).ttb.lastPort = 127 := ⟨⟨fun _ => show (0 : Nat) ≠ 4 by decide, fun _ => rfl⟩, by decide +kernel⟩
theorem test_arrivalQueue : let s := queued 0x20000005 nopTask
    ((∀ i, (s.task i).st ≠ 4) ∧ ∀ q', q' ≠ 2 → s.queue q' = []) ∧ (∀ p, p < 128 → s.reg (ttbBase + 0x200 + 4 * p) = 0) ∧
    fld (0x20000005 : Word) 31 28 ∈ [1, 2, 3, 6] ∧ (nx .arrivalApply s).queue 2 = [] ∧
    (nx .arrivalApply s).reg (sqBase 2 + 0x28) = wd ((s.reg (sqBase 2 + 0x28)).toNat + 1) ∧ (nx .arrivalApply s).reg (sqBase 2 + 0x30) = 1 ∧
    (nx .arrivalApply s).ttb.lastQueue = 2 :=
  ⟨⟨fun i => by by_cases h : i = 5 <;> simp [queued, withTask, State.task, Tab.get, nopTask, h],
    fun q h => by simp [queued, withTask, State.queue, Tab.get, h]⟩, by decide +kernel⟩
theorem test_complete : let s := withTask { nopTask with st := 3, ended := some (1, true) } rdy
    s.completionTargets 5 1 = [] ∧ ((nx (.taskComplete 5 7) s).task 5).outcome = 1 ∧ ((nx (.taskComplete 5 7) s).task 5).noop = true ∧
    ((nx (.taskComplete 5 7) s).task 5).st = 2 ∧
    ((nx (.taskComplete 5 7) (withTask { nopTask with st := 3, ended := some (1, true), toIdle := true } rdy)).task 5).st = 0 ∧
    ((nx (.taskComplete 5 7) (withTask { nopTask with st := 3, ended := some (1, true), cnt := [0, 0, 0, 0] } rdy)).task 5).st = 1 := by
  decide +kernel
theorem test_ageStep : ((nx (.taskAgeStep 5) (withTask { nopTask with st := 2, since := 9 } rdy)).task 5).aged = 1 ∧
    (nx (.taskAgeStep 5) (withTask { nopTask with st := 2, since := 9 } rdy)).cycle = 800008 := by decide +kernel
/-- TB0 counts from 0. -/
def counting : State := { rdy with tbs := [(0, { counting := true })] }
theorem test_insert : let s := withRegs [(dlBase 0 + 0x44, 50), (dlBase 0 + 0x50, 2 ^ 31), (dlBase 0 + 0x54, 6)] counting
    s.Reaches 0 (dlBase 0 + 0x58) ∧ (s.tbSrc 0).counting = true ∧ fld (s.reg (dlBase 0 + 0x50)) 31 30 = 2 ∧
    s.tbNow 0 + s.tickUnits < s.time4 (dlBase 0 + 0x40) ∧ (nx (.dlInsert 0) s).dlist 0 = [⟨50 * 65536, 0x80000000, 6, false, false⟩] ∧
    (nx (.dlInsert 0) s).getF (dlBase 0 + 0x5C) 31 28 = 1 := by decide +kernel
/-- Delay list 0 holds two entries of tags 6 and 8. -/
def listed : State := { counting with ttb := { lists := [(0, [⟨50, 0x80000000, 6, false, false⟩, ⟨60 * 65536 * 10, 0x80000001, 8, false, false⟩])] } }
theorem test_cancel : listed.Reaches 0 (dlBase 0 + 0x58) ∧
    (nx (.dlCancel 0) (withRegs [(dlBase 0 + 0x54, 8)] listed)).dlist 0 = [⟨50, 0x80000000, 6, false, false⟩] ∧
    (nx (.dlCancel 0) (withRegs [(dlBase 0 + 0x54, 8)] listed)).reg (dlBase 0 + 0x60) = 1 ∧ (nx (.dlCancelAll 0) listed).dlist 0 = [] ∧
    (nx (.dlCancelAll 0) listed).reg (dlBase 0 + 0x60) = 2 := by decide +kernel
theorem test_tickFires : let listed : State := { listed with cycle := 1 }
    (listed.tbSrc 0).counting = true ∧ Tab.get (fun _ => 0) (nx .timetableTick listed).ttb.due 0 = 1 ∧
    (nx .timetableTick listed).cycle = 8 ∧ (nx (.delayEntryFire 0) (nx .timetableTick listed)).getB (ttbBase + 0x14) 8 = true ∧
    ((nx (.delayEntryFire 0) (nx .timetableTick listed)).dlist 0).length = 1 := by decide +kernel

/-! ### Supplies, pruning, modes and resets -/

def pruned (st : Nat) (s : State) : State := { s with prune := { s.prune with stage := st, judged := st, measured := st } }
theorem test_tickPrunes : let s : State := { rdy with prune := { below := [3, 0, 0, 0, 0] } }
    s.ctl.supplies = true ∧ stageEntry 2 ≤ stageEntry 1 - 1 ∧ 9000 ≤ stageEntry 1 - 1 ∧ s.prune.below.length = 5 ∧
    s.prune.below.getD 0 0 = 3 ∧ s.stageDue ≤ 1 ∧ (nx (.alwaysOnTick (stageEntry 1 - 1) 31) s).prune.stage = 1 ∧
    (nx (.alwaysOnTick (stageEntry 1) 31) s).prune.stage = 0 := by decide +kernel
theorem test_tickShows : rdy.stageDue ≤ rdy.prune.stage ∧ (nx (.alwaysOnTick 70000 0xFF) rdy).getF (pwrBase + 0x40) 31 16 = 65535 ∧
    (nx (.alwaysOnTick 11400 0xFF) rdy).reg (pwrBase + 0x58) = 31 ∧ (nx (.alwaysOnTick 11400 0xFF) { rdy with cycle := 1 }).cycle = 80 := by decide +kernel
theorem test_climb : let s : State := { rdy with prune := { stage := 2, climbing := true } }
    (nx .pruneClimbTimer s).prune.stage = 1 := by decide +kernel
theorem test_force : rdy.Reaches 0 (pwrBase + 0x44) ∧ (nx (.pruneForceWrite 5) rdy).regs = [] ∧ (nx (.pruneForceWrite 2) rdy).prune.stage = 2 ∧
    (nx (.pruneForceWrite 1) rdy).prune.stage = 1 := by decide +kernel
theorem test_clockRestart : let s : State := { rdy with ctl := { rdy.ctl with clocks := false, restart := some 7 } }
    (nx .clockRestartDone s).ctl.clocks = true ∧ (nx .clockRestartDone s).cycle = 32007 ∧ (nx .clockRestartDone s).ctl.restart = none := by decide +kernel
theorem test_holdRelease : let s : State := { rdy with ctl := { rdy.ctl with mode := 1, pruneHold := true, clocks := false }, prune := { aboveFrom := some 5 } }
    s.ctl.pgField = true ∧ s.ctl.rnField = true ∧ (nx .fieldHoldRelease s).ctl.pruneHold = false ∧ (nx .fieldHoldRelease s).cycle = 800005 ∧
    (nx .fieldHoldRelease s).ctl.mode = 2 := by decide +kernel
theorem test_bootWitness : let s : State := { rdy with ctl := { rdy.ctl with mode := 2 } }
    s.ctl.mode = 2 ∧ s.ctl.fmi = true ∧ ∀ c, c < 10 → s.celState c ≠ 1 := by decide +kernel
theorem test_rsPop : let s : State := { rdy with prune := { queue := [⟨false, false, 0, 1, 0, 0, 4, 9⟩] } }
    s.Reaches 0 (pwrBase + 0x88) ∧ (nx (.rsPop 1) s).prune.queue = [] := by decide +kernel
theorem test_modeReq : rdy.Reaches 0 (glbBase + 0x44) ∧ rdy.ctl.hostMode = none ∧ rdy.ctl.pend = none ∧
    (nx (.modeReq 11) rdy).ctl.pend = some ⟨11, false, true⟩ ∧ (nx (.modeReqAbort 6) rdy).ctl.pend = some ⟨6, true, true⟩ ∧
    (nx (.modeReq 10) (withRegs [(glbBase + 0x68, 1)] rdy)).ctl.pend = some ⟨10, false, true⟩ ∧ (nx (.modeReq 10) rdy).ctl.pend = none ∧
    (nx (.modeReq 7) (nx (.modeReq 11) rdy)).reg (glbBase + 0x50) = 1 ∧ (nx (.modeReq 7) (nx (.modeReq 11) rdy)).ctl.pend = some ⟨11, false, true⟩ := by
  decide +kernel
theorem test_quiescence : let s := nx (.modeReq 6) rdy
    s.forbidden 6 = false ∧ (nx .modeQuiescence s).ctl.mode = 6 ∧ (nx .modeQuiescence s).cycle = 4 ∧ (nx .modeQuiescence s).ctl.pend = none := by
  decide +kernel
theorem test_recessEntry : let s : State := { rdy with cycle := 10, ctl := { rdy.ctl with pend := some ⟨4, false, true⟩ } }
    s.forbidden 4 = false ∧ s.wakeDue (s.cycle + 8000) = false ∧ (nx .modeQuiescence s).ctl.recess = .entering ∧
    (nx .modeQuiescence s).ctl.recessAt = 10 ∧ (nx .modeQuiescence s).ctl.wakeHeld = false ∧
    (nx .recessEntryDone (nx .modeQuiescence s)).ctl.mode = 4 ∧ (nx .recessEntryDone (nx .modeQuiescence s)).ctl.prior = 5 ∧
    (nx .recessEntryDone (nx .modeQuiescence s)).cycle = 8010 ∧ (nx .recessEntryDone (nx .modeQuiescence s)).ctl.clocks = false := by decide +kernel
theorem test_recessWake : let s : State := withRegs [(glbBase + 0x64, 2 ^ 16)] { resting with tbs := [(0, { counting := true })], ttb := listed.ttb }
    s.getB (glbBase + 0x64) (16 + 0) = true ∧ (s.tbSrc 0).counting = true ∧ (s.nextEntry 0).isSome = true ∧
    (nx (.recessWakeDue 0) s).ctl.recess = .locking ∧ (nx (.recessWakeDue 0) s).ctl.recessAt = (nx (.recessWakeDue 0) s).cycle := by decide +kernel
theorem test_recessExit : let s : State := { resting with ctl := { resting.ctl with recess := .locking, recessAt := 100 } }
    (nx .recessPllLocked s).ctl.recess = .fine ∧ (nx .recessPllLocked s).ctl.clocks = true ∧ (nx .recessPllLocked s).cycle = 20100 ∧
    (nx .recessPllLocked s).ctl.fineRelock = true ∧ (nx .recessPllLocked s).ctl.held = [] ∧
    (nx .recessExitDone (nx .recessPllLocked s)).ctl.mode = 5 ∧ (nx .recessExitDone (nx .recessPllLocked s)).cycle = 32100 := by decide +kernel
theorem test_accessWakes : resting.gate flwBase = .recess ∧
    (nx (.hostAccessInRecess 0 flwBase true 1) (withRegs [(glbBase + 0x64, 2 ^ 20)] resting)).ctl.recess = .locking ∧
    (nx (.hostAccessInRecess 0 flwBase true 1) (withRegs [(glbBase + 0x64, 2 ^ 20)] resting)).ctl.held.length = 1 ∧
    (withRegs [(glbBase + 0x64, 2 ^ 20)] resting).getB (glbBase + 0x64) 20 = true ∧ (withRegs [(glbBase + 0x64, 0)] resting).getB (glbBase + 0x64) 20 = false ∧
    (nx (.hostAccessInRecess 0 flwBase true 1) (withRegs [(glbBase + 0x64, 0)] resting)).reg (glbBase + 0x50) = 1 := by decide +kernel
theorem test_autoCfg : rdy.Reaches 0 (glbBase + 0x68) ∧ (nx (.autoCfgWrite 1) rdy).getB (glbBase + 0x68) 0 = true ∧
    (nx (.autoCfgWrite 1) rdy).sat.flowDown = [.autoEn true] ∧ (nx (.autoCfgWrite 0) rdy).sat.flowDown = [.autoEn false] := by decide +kernel
theorem test_fieldLoss : (rdy.link 0).up = false ∧ rdy.sat.fieldUp = true ∧
    (nx .fieldSatchelLoss { rdy with ctl := { rdy.ctl with mode := 6 } }).ctl.pend = some ⟨5, false, false⟩ ∧
    (nx .fieldSatchelLoss { rdy with ctl := { rdy.ctl with autoEn := true } }).ctl.pend = some ⟨10, false, false⟩ ∧
    (nx .fieldSatchelLoss rdy).sat.fieldUp = false := by decide +kernel

/-- A bank whose two images boot. -/
def goodPair : ImagePair := ⟨true, true, true, true, true, 1, 2, 1, 2, 1, 0⟩
def badPair : ImagePair := { goodPair with fmiSig := false }
/-- Field memory and a time base hold something. -/
def used : State := { rdy with mem := [(7, 9)], ring := { st := 3 } }

theorem test_partReset : pairResult goodPair = 0 ∧ pairResult badPair = 3 ∧
    (nx (.resetCtrlPart 0xB007 badPair goodPair) used).mem = [] ∧ (nx (.resetCtrlPart 0xB007 badPair goodPair) used).ctl.mode = 2 ∧
    (nx (.resetCtrlPart 0xB007 badPair goodPair) used).ring = {} := by decide +kernel
theorem test_partResetBad : (nx (.resetCtrlPart 0xB007 badPair badPair) used).ctl.hostMode = some 3 ∧
    (nx (.resetCtrlPart 0xB007 badPair badPair) used).getF (glbBase + 0x54) 15 12 = 1 := by decide +kernel
theorem test_bankSwitch : (nx (.resetCtrlBankSwitch 0xB007 goodPair goodPair) used).getF (glbBase + 0x54) 1 0 = 1 ∧
    (nx (.resetCtrlBankSwitch 0xB007 goodPair goodPair) used).ctl.booted = true := by decide +kernel
theorem test_fieldReset : (nx (.resetCtrlField 0xB007) used).mem = [] ∧ (nx (.resetCtrlField 0xB007) used).ctl.mode = 2 ∧
    (nx (.resetCtrlField 0xB007) used).ctl.clocks = false ∧ 0xB006 % 65536 ≠ 0xB007 ∧ (nx (.resetCtrlField 0xB006) used).mem = used.mem := by decide +kernel
theorem test_hostRelease : State.reset.ctl.supHost = true ∧ State.reset.ctl.pgHost = true ∧ State.reset.ctl.rnHost = false ∧
    (nx (.hostResetRelease goodPair badPair) .reset).ctl.booted = true ∧ (nx (.hostResetRelease goodPair badPair) .reset).ctl.rnHost = true ∧
    (nx (.hostResetRelease goodPair badPair) .reset).ctl.fieldStat =
      (if State.reset.ctl.supplies then if (nx (.hostResetRelease goodPair badPair) .reset).ctl.mode = 2 then 2 else 1 else 0) := by
  decide +kernel
theorem test_pllLocked : let s : State := { rdy with cycle := 77, ctl := { rdy.ctl with mode := 2, clocks := false, fmi := false } }
    s.ctl.booted = true ∧ s.ctl.pruneHold = false ∧ (nx .fieldPllLocked s).cycle = 0 ∧ (nx .fieldPllLocked s).ctl.clocks = true ∧
    (nx (.fmiReceived true) (nx .fieldPllLocked s)).ctl.fmi = true ∧ (nx (.fmiReceived true) (nx .fieldPllLocked s)).celState 9 = 1 ∧
    (nx (.fmiReceived false) (nx .fieldPllLocked s)).ctl.hostMode = some 3 ∧
    (nx (.fmiReceived false) (nx .fieldPllLocked s)).getF (glbBase + 0x54) 15 12 = 3 := by decide +kernel
theorem test_powerGood : rdy.ctl.pgField = true ∧ (nx (.powerGoodFall true) used).ctl.mode = 1 ∧ (nx (.powerGoodFall true) used).mem = [] ∧
    (nx (.powerGoodFall true) used).ctl.pruneHold = true ∧ (nx (.powerGoodFall false) used).ctl.hostMode = some 1 ∧
    (nx (.powerGoodFall false) used).ctl.rnHost = false ∧ (nx (.powerGoodFall false) used).mem = used.mem ∧
    (nx (.powerGoodRise true) { rdy with ctl := { rdy.ctl with pgField := false } }).ctl.pgField = true := by decide +kernel
theorem test_resetN : (nx (.resetNAssert true) used).ctl.mode = 1 ∧ (nx (.resetNAssert true) used).mem = [] ∧
    (nx (.resetNAssert false) used).ctl.hostMode = some 1 ∧ (nx (.resetNAssert false) used).mem = used.mem ∧
    State.reset.ctl.rnField = false ∧ (nx .fieldResetRelease (nx (.resetNAssert true) used)).ctl.rnField = true ∧
    (nx .fieldResetRelease (nx (.resetNAssert true) used)).ctl.mode = 2 := by decide +kernel
theorem test_supplies : (nx (.supplyLoss true) used).ctl.supplies = false ∧ (nx (.supplyLoss true) used).mem = [] ∧
    (nx (.supplyLoss false) used).ctl.supHost = false ∧ (nx (.supplyReturn true) (nx (.supplyLoss true) used)).ctl.mode = 1 ∧
    (nx (.supplyReturn false) (nx (.supplyLoss false) used)).ctl.hostMode = some 1 := by decide +kernel

/-! ### The memory controllers -/

/-- Every controller is ACTIVE. -/
def memUp : State := (List.range 10).foldl (fun s c => s.setCelState c 2) rdy
def training : State := (List.range 2).foldl (fun s c => s.setCelState c 1) rdy

theorem test_training : training.celState 0 = 1 ∧ training.celState 1 = 1 ∧
    (nx (.memTrainingDone 0 0xFFFFFFFF true 1 5 2 3200 350 []) training).reg (celBase 0 + 0x40) = 0x0FFF1FFF ∧
    (nx (.memTrainingDone 0 0xFFFFFFFF true 1 5 2 3200 350 []) training).celState 0 = 2 ∧
    (nx (.memTrainingDone 0 0xFFFFFFFF true 1 5 2 3200 350 []) training).reg (celBase 0 + 0x44) = wd (5 * 65536 + 2 * 256 + 1) ∧
    (nx (.memTrainingDone 0 0xFFFFFFFF false 1 5 2 3200 350 []) training).getF (celBase 0 + 0x44) 3 0 = 10 := by decide +kernel
theorem test_selfRefresh : let s : State := { memUp with ctl := { memUp.ctl with mode := 4, recess := .resting, clocks := false } }
    s.celState 3 = 2 ∧ s.selfRefreshDue = true ∧ (s.cel.queue.any fun r => r.ctl = 3) = false ∧ (nx (.selfRefreshEntry 3) s).celState 3 = 3 ∧
    memUp.selfRefreshDue = false := by decide +kernel
theorem test_owedNone : ∀ k, memUp.owedOf k ≤ 0 := fun _ => show (0 : Int) ≤ 0 by decide
theorem test_selfRefreshExit : (memUp.setCelState 8 3).celState 8 = 3 ∧ (memUp.setCelState 8 3).selfRefreshDue = false ∧ ctlNear 8 = true ∧
    (nx (.selfRefreshExit 8) (memUp.setCelState 8 3)).celState 8 = 2 := by decide +kernel
/-- Controller 8 scrubs. -/
def scrubbing : State := memUp.setB (celBase 8 + 0x68) 31 true
theorem test_scrub : scrubbing.getB (celBase 8 + 0x68) 31 = true ∧ scrubbing.celState 8 = 2 ∧ scrubbing.mapped 0x40 = true ∧
    scrubbing.ctlOf 0x40 = 8 ∧ scrubbing.marked 0x40 = false ∧ (0x40 : Nat) ∉ (scrubbing.scrubPass 8).2 ∧
    Tab.get (fun _ => (0, [])) (nx (.scrubAccess 8 0x47 1) scrubbing).cel.scrub 8 = ((scrubbing.scrubPass 8).1, [0x40]) ∧
    (nx (.scrubAccess 8 0x40 1) scrubbing).reg (celBase 8 + 0x50) = 1 ∧ (nx (.scrubAccess 8 0x40 1) scrubbing).mem = [] := by decide +kernel
theorem test_refresh : 256 * (64 * 8 + 31) + 0 ∈ memUp.rankKeys 8 31 ∧ (nx (.trefiTick 8 31 0) memUp).owedOf (256 * (64 * 8 + 31)) = 1 ∧
    memUp.refreshable (256 * (64 * 8 + 31)) = true ∧ memUp.held (256 * (64 * 8 + 31)) = false ∧
    Tab.get (fun _ => 0) memUp.cel.refUntil (256 * (64 * 8 + 31)) = 0 ∧ memUp.targeted 8 (256 * (64 * 8 + 31)) 3 = false ∧
    (nx (.refreshComplete 8 31 0 none) memUp).owedOf (256 * (64 * 8 + 31)) = -1 ∧
    Tab.get (fun _ => []) (nx (.refreshComplete 8 31 0 (some 3)) memUp).cel.swept (256 * (64 * 8 + 31)) = [3] := by decide +kernel
/-- Every bank index of controller 8's pseudo-channel 31 but 3 has been refreshed; or the rank is refreshed whole until cycle 50. -/
def sweeping : State :=
  { memUp with cel := { memUp.cel with swept := [(256 * (64 * 8 + 31), (List.range (bankCount 8)).filter (· ≠ 3))] } }
def forced : State := { memUp with cel := { memUp.cel with refUntil := [(256 * (64 * 8 + 31), 50)] } }
theorem test_refreshSweep : 3 < bankCount 8 ∧ (∀ i, i < bankCount 8 → i ≠ 3 → i ∈ Tab.get (fun _ => []) sweeping.cel.swept (256 * (64 * 8 + 31))) ∧
    sweeping.refreshable (256 * (64 * 8 + 31)) = true ∧ sweeping.targeted 8 (256 * (64 * 8 + 31)) 3 = false ∧
    (nx (.refreshComplete 8 31 0 (some 3)) sweeping).owedOf (256 * (64 * 8 + 31)) = -1 ∧
    (nx (.refreshComplete 8 31 0 none) forced).cel.refUntil = [] ∧ (nx (.refreshComplete 8 31 0 none) forced).cycle = 50 := by decide +kernel
theorem test_holdEnd : let s : State := { memUp with cel := { memUp.cel with hold := [(256 * (64 * 8 + 1), 40)] } }
    (s.cel.queue.any fun x => x.realTime && decide (x.rankKey = 256 * (64 * 8 + 1) + 0)) = false ∧
    (nx (.realtimeHoldEnd 8 1 0) s).cel.hold = [] ∧ (nx (.realtimeHoldEnd 8 1 0) s).cycle = 40 := by decide +kernel
theorem test_temperature : (nx (.dramTempPoll 8 86 0) memUp).getB (celBase 8 + 0x48) 16 = true ∧
    (nx (.dramTempPoll 8 84 0) (nx (.dramTempPoll 8 86 0) memUp)).getB (celBase 8 + 0x48) 16 = true ∧
    (nx (.dramTempPoll 8 83 0) (nx (.dramTempPoll 8 86 0) memUp)).getB (celBase 8 + 0x48) 16 = false ∧
    (nx (.dramTempPoll 0 20 86) memUp).getB (celBase 0 + 0x48) 16 = true := by decide +kernel
theorem test_unmappedRead : memUp.mapped (0x000C00000000 / 64 * 64) = false ∧
    (nx (.portRequest 2 0x000C00000000 false 60 [0, 0, 0, 0]) memUp).cel.data = List.replicate 64 0xFF ∧
    (nx (.portRequest 2 0x000C00000000 false 60 [0, 0, 0, 0]) memUp).getB (celBase (storeCtl true) + 0x14) 0 = isNear 0x000C00000000 ∧
    (nx (.portRequest 4 0 false 60 [0, 0, 0, 0]) memUp).cel = memUp.cel := by decide +kernel
/-- A read request is queued at controller 8. -/
def reading : State := nx (.portRequest 2 0x47 false 4 []) { memUp with mem := [(0x41, 5)] }
theorem test_request : memUp.mapped (0x47 / 64 * 64) = true ∧ memUp.cel.ports = [] ∧ (memUp.decodeReq (0x47 / 64 * 64)).ctl < 10 ∧
    2 ∈ memUp.portOrder (memUp.decodeReq (0x47 / 64 * 64)).ctl ∧
    memUp.eligible { memUp.decodeReq (0x47 / 64 * 64) with port := 2, write := false, off := 4, data := [], since := memUp.cycle } = true ∧
    reading.cel.queue.length = 1 ∧ reading.cel.ports = [] ∧ memUp.Canonical ∧ memUp.answers (0x47 / 64 * 64 + 4) = true ∧
    (nx (.portRequest 2 0x47 true 4 [8]) memUp).mem = [(0x44, 8)] := by decide +kernel
theorem test_issue : reading.celState 8 = 2 ∧ (reading.cel.queue.map fun x => (x.ctl, x.unit, x.flight, reading.inRefresh x)) = [(8, 1, false, false)] ∧
    ((nx (.memoryIssue 8 1 0) reading).cel.queue.map fun x => x.flight) = [true] ∧
    (nx (.memoryReadComplete 8 1 0) (nx (.memoryIssue 8 1 0) reading)).cel.data = [0, 5] ++ List.replicate 62 0 ∧
    (nx (.memoryReadComplete 8 1 0) (nx (.memoryIssue 8 1 0) reading)).cel.queue = [] ∧
    (nx (.memoryReadComplete 8 1 0) (nx (.memoryIssue 8 1 0) reading)).cel.marked = false ∧
    (nx (.memoryReadComplete 8 1 2) (nx (.memoryIssue 8 1 0) reading)).cel.marked = true ∧
    (nx (.memoryIssue 8 1 0) (nx (.portRequest 2 0x47 true 4 [8]) memUp)).cel.queue = [] := by decide +kernel
theorem test_mapMask : let a := celBase (storeCtl true) + 0x140 + 8 * 10
    let s := nx (.reg64LowWrite 0 a 0x24000) memUp
    (mapBase true).length = 11 ∧ s.Reaches 0 (a + 4) ∧ maskOk true 10 ((s.commitWord 0 a).toNat % 2 ^ 40) = true ∧
    (nx (.mapMaskCommit 0 true 10 0) s).reg64 a = 0x24000 ∧ (nx (.mapMaskCommit 0 true 10 0) s).mapMask true 10 = memUp.mapMask true 10 ∧
    (nx (.mapMaskCommit 0 true 10 0) s).getB (celBase (storeCtl true) + 0x100) 4 = true ∧ maskOk true 10 0x20000 = false ∧
    (nx (.mapMaskCommit 0 true 10 0) (nx (.reg64LowWrite 0 a 0x20000) memUp)).regs = memUp.regs ∧
    (nx (.mapApply true) (nx (.mapMaskCommit 0 true 10 0) s)).mapMask true 10 = 0x24000 ∧
    (nx (.mapApply true) (nx (.mapMaskCommit 0 true 10 0) s)).getB (celBase (storeCtl true) + 0x100) 4 = false := by decide +kernel
theorem test_regulator : rdy.Reaches 0 (regCfg true 5) ∧ (nx (.regCfgWrite true 5 0x80000001) rdy).regs = [] ∧
    (nx (.regCfgWrite true 5 0x80010001) rdy).reg (regCfg true 5) = 0x80010001 ∧
    (nx (.regCfgWrite true 5 0x80010001) rdy).bucket true 5 = (nx (.regCfgWrite true 5 0x80010001) rdy).bucketFull true 5 ∧
    (nx (.regCfgWrite true 5 1) rdy).reg (regCfg true 5) = 1 := by decide +kernel

/-! ### The pattern sequencer and the decanters -/

/-- A descriptor of 8 granules whose END is `e`, with its TARGET and its LCSEL. -/
def segDesc (e target lcsel : Nat) : Desc := [0, 0x10000000, 8, wd (e * 2 ^ 24 + lcsel * 2 ^ 28), wd target, 3, 0, 0, 0, 0]
/-- Sequencer 2 in a state, with a table of three descriptors, the first ending as `e` says. -/
def seqIn (st e : Nat) : Seq := { st := st, len := 3, descs := [(0, segDesc e 2 1), (1, segDesc 6 0 0), (2, segDesc 6 0 0)] }
def withSeq (x : Seq) (s : State) : State := (s.setSeq 2 x).setB (seqBase 2 0 + 0xC) 0 (decide (x.st ≠ 0))
/-- Field memory holds that table's first two descriptors at 0; sequencer 2 is enabled. -/
def seqReady : State := withRegs [(seqBase 2 0 + 8, 1), (seqBase 2 0 + 0x50, 2), (seqBase 2 0 + 0x5C, 30)]
  ((executing.writeWords 0 (segDesc 0 0 0)).writeWords 64 (segDesc 6 0 0))

theorem test_burstStart : let u := (seqReady.writeMasked (seqBase 2 0 + 0x54) 1).seqAdmit 2 (seqReady.getF (seqBase 2 0 + 0x58) 19 0) false
    fld (1 : Word) 5 4 = 0 ∧ seqReady.Reaches 0 (seqBase 2 0 + 0x54) ∧ seqReady.burstRuns 2 = false ∧
    seqReady.startAllowed .burst (seqBase 2 0 + 0x54) = true ∧ (u.seqOf 2).start < (u.seqOf 2).len ∧
    u.descCause 2 (u.seqOf 2).len (Tab.get (fun _ => []) (u.seqOf 2).descs (u.seqOf 2).start) = 0 ∧ (u.seqWalk 2).noFit 2 = false ∧
    ((nx (.burstCtrlStart 2 1) seqReady).seqOf 2).st = 1 ∧ ((nx (.burstCtrlStart 2 1) seqReady).seqOf 2).adm = [0, 1] ∧
    (nx (.burstCtrlStart 2 1) seqReady).bur.waits = [⟨1, 2, true, 0, 30, 0⟩] := by decide +kernel
theorem test_burstStop : let s := withSeq (seqIn 3 0) rdy
    s.burstRuns 2 = true ∧ (s.seqOf 2).stop = none ∧ ((nx (.burstCtrlStop 2 2) s).seqOf 2).stop = some 0 ∧
    ((nx (.burstCtrlStop 2 2) (withSeq (seqIn 2 0) rdy)).seqOf 2).st = 0 ∧
    (nx (.burstCtrlStop 2 2) (withSeq (seqIn 2 0) rdy)).getF (seqBase 2 0 + 0x60) 3 0 = 3 := by decide +kernel
theorem test_burstAbort : ((nx (.burstCtrlAbort 2 4) (withSeq (seqIn 3 0) rdy)).seqOf 2).abort = some 184320 ∧
    ((nx (.burstCtrlAbort 2 4) (withSeq (seqIn 1 0) rdy)).seqOf 2).st = 0 ∧
    (nx (.burstCtrlAbort 2 4) (withSeq { seqIn 4 0 with park := some (0, 1) } rdy)).getB (seqBase 2 0 + 0x60) 4 = true := by decide +kernel
theorem test_jump : let s := withSeq { seqIn 3 0 with inst := 4, s0 := 10 ^ 9, t := 10 ^ 9 } rdy
    (s.seqOf 2).slot = none ∧ s.onTime 2 = true ∧ ((nx (.jmpReqWrite 2 7) s).seqOf 2).slot = some ⟨7, 4⟩ ∧
    (nx (.jmpReqWrite 2 7) s).reg (seqBase 2 0 + 0x6C) = 121 ∧
    (nx (.jmpReqWrite 2 7) (withSeq (seqIn 2 0) rdy)).getF (seqBase 2 0 + 0x6C) 2 0 = 5 ∧
    (nx (.jmpReqWrite 2 7) (withSeq (seqIn 2 0) rdy)).reg (seqBase 2 0 + 0x74) = 1 := by decide +kernel
theorem test_descriptorArrives : let s := withSeq { seqIn 1 0 with descs := [] } seqReady
    Tab.get (fun _ => []) ((nx (.descriptorArrival 2 1) s).seqOf 2).descs 1 = segDesc 6 0 0 ∧
    Tab.get (fun _ => []) ((nx (.descriptorArrival 2 1) s).seqOf 2).descs 1 = s.readDesc 0 1 := by decide +kernel
theorem test_cpDecides : let s (e : Nat) (x : Seq → Seq) : State := withSeq (x { seqIn 3 e with cp := some 81920 }) rdy
    (s 0 id).validDesc 2 0 = some (segDesc 0 2 1) ∧
    ((nx (.commitPoint 2) (s 0 fun x => { x with stop := some 3 })).seqOf 2).succ = some (.stop 2) ∧
    ((nx (.commitPoint 2) (s 0 fun x => { x with slot := some ⟨5, 0⟩, jmp := [0, 0, 0, 0, 0, 1] })).seqOf 2).succ = some (.seg 1 false) ∧
    ((nx (.commitPoint 2) (s 0 id)).seqOf 2).succ = some (.seg 1 false) ∧
    ((nx (.commitPoint 2) (s 1 id)).seqOf 2).succ = some (.seg 2 false) ∧
    (nx (.commitPoint 2) (s 1 id)).reg (seqBase 2 0 + 0xA4) = 2 ∧ (nx (.commitPoint 2) (s 1 id)).getB (seqBase 2 0 + 0x88) 9 = true := by
  decide +kernel
theorem test_loopEnds : let s := withRegs [(seqBase 2 0 + 0x88, 2 ^ 9), (seqBase 2 0 + 0xA4, 1)] (withSeq { seqIn 3 1 with cp := some 81920 } rdy)
    s.getB (seqBase 2 0 + 0x88) (8 + 1) = true ∧ ((nx (.commitPoint 2) s).seqOf 2).succ = some (.seg 1 false) ∧
    (nx (.commitPoint 2) s).reg (seqBase 2 0 + 0xA4) = 0 ∧ (nx (.commitPoint 2) s).getB (seqBase 2 0 + 0x88) 9 = false := by decide +kernel
/-- Timeset 0 of sequencer 2 has a period of 2,560 ET. -/
def timed : State := withRegs [(tsAddr 2 0, 2560)] rdy
theorem test_cpSet : let x : Seq := { seqIn 3 0 with g := 2, begun := true, s0 := 900, t := 900 + 64 * 2560 }
    let s := withSeq x timed
    s.lacking 2 = ([], []) ∧ s.tsPeriod 2 0 = 2560 ∧ (s.seqOf 2).g + 6 = Desc.len (segDesc 0 2 1) ∧
    ((nx (.granuleJudge 2) s).seqOf 2).cp = some (900 + 64 * 2560) := by decide +kernel
theorem test_armed : let s : State := { withSeq (seqIn 1 0) rdy with bur := { runs := [⟨1, 2, true, 0, 0, 0⟩] } }
    s.admitted 1 2 = true ∧ s.resident 2 (fun _ => true) = true ∧ s.leadMet 2 = true ∧
    ((nx (.burstAdmissionComplete 2) s).seqOf 2).st = 2 ∧ ((nx (.burstAdmissionComplete 2) s).seqOf 2).sAt = some 675840 ∧
    (nx (.burstAdmissionComplete 2) s).getF (seqBase 2 0 + 0x60) 11 8 = 2 ∧
    ((nx (.burstSReached 2) (nx (.burstAdmissionComplete 2) s)).seqOf 2).st = 3 ∧
    ((nx (.burstSReached 2) (nx (.burstAdmissionComplete 2) s)).seqOf 2).t = 675840 ∧
    (nx (.burstSReached 2) (nx (.burstAdmissionComplete 2) s)).cycle = 33 := by decide +kernel
theorem test_segmentStart : let s := withSeq { seqIn 3 0 with opening := true, iter := 4 } rdy
    (s.validDesc 2 0).isSome = true ∧ ((nx (.segmentStart 2) s).seqOf 2).opening = false ∧
    (nx (.segmentStart 2) s).reg (seqBase 2 0 + 0x80) = wd (2 ^ 31) ∧ (nx (.segmentStart 2) s).reg (seqBase 2 0 + 0x84) = 4 := by decide +kernel
theorem test_granule : let s := withSeq { seqIn 3 0 with t := 81920 * 9 } timed
    s.lacking 2 = ([], []) ∧ ((nx (.granuleJudge 2) s).seqOf 2).g = 1 ∧ ((nx (.granuleJudge 2) s).seqOf 2).t = 81920 * 10 ∧
    ((nx (.granuleJudge 2) s).seqOf 2).outv = 32 ∧ (nx (.granuleJudge 2) s).cycle = 36 := by decide +kernel
theorem test_underrun : let s := withSeq { seqIn 3 0 with desks := [0], t := 81920 * 9 } timed
    (s.lacking 2).1 = [0] ∧ s.getB (seqBase 2 0 + 0x78) 0 = false ∧ ((nx (.granuleJudge 2) s).seqOf 2).park = some (81920 * 9, 4) := by decide +kernel
theorem test_shedInstance : let x : Seq := { seqIn 3 6 with g := 8, begun := true, t := 4096, succ := some (.seg 1 false), shed := true }
    (rdy.seqShed 2).seqOf 2 = rdy.seqOf 2 ∧ (((withSeq { x with shed := false } rdy).seqShed 2).seqOf 2) = x ∧
    ((nx (.granuleJudge 2) (withSeq x timed)).seqOf 2).park = some (4096, 6) ∧
    ((nx (.burstCtrlAbort 2 4) (withSeq { x with succ := none } rdy)).seqOf 2).abort = some 184320 := by decide +kernel
theorem test_lastInstance : let s := withSeq { seqIn 3 6 with g := 8, begun := true, t := 4096, succ := some (.stop 1) } timed
    (s.seqOf 2).g = Desc.len (Tab.get (fun _ => []) (s.seqOf 2).descs (s.seqOf 2).idx) ∧ ((nx (.granuleJudge 2) s).seqOf 2).park = some (4096, 1) := by
  decide +kernel
theorem test_park : let s := withSeq { seqIn 3 6 with park := some (409600, 1) } rdy
    ((nx (.parkPoint 2) s).seqOf 2).st = 4 ∧ (nx (.parkPoint 2) s).cycle = 20 ∧ (nx (.parkPoint 2) s).burstCommitted 2 = true ∧
    ((nx (.parkComplete 2 0) (nx (.parkPoint 2) s)).seqOf 2).st = 0 ∧
    (nx (.parkComplete 2 0) (nx (.parkPoint 2) s)).getF (seqBase 2 0 + 0x60) 3 0 = 1 ∧
    (nx (.parkComplete 2 0) (nx (.parkPoint 2) s)).getB (seqBase 2 0 + 0x14) 1 = true := by decide +kernel
/-- Desk 0 belongs to sequencer 2, whose burst waits for its first block. -/
def refilling : State := withRegs [(dskBase 0 + 0x40, 2)] (withSeq { seqIn 1 6 with desks := [0], adm := [0], specG := 0 } rdy)
theorem test_refill : refilling.dskSeq 0 = 2 ∧ refilling.wanted 2 0 = some (.lock, 0, 0) ∧ (refilling.slice 0).heads = [] ∧
    ((nx (.refillBlockArrival 0 0) refilling).slice 0).locked = [⟨0, 0, 0, List.replicate 64 0, false, false⟩] := by decide +kernel
def staging : State := withSeq { seqIn 1 6 with desks := [0], stageSize := 4096, stageBase := 0x100000, descs := [(0, [0, 0x10000400, 8, 0x06000200, 0, 0, 0, 0, 0, 0])] } rdy
theorem test_stager : (staging.stageNext 2).isSome = true ∧
    ((nx (.stagerBlockCopy 2) staging).seqOf 2).staged = [⟨0, 0, 0, 0x100000, 64⟩] ∧ ((nx (.stagerBlockCopy 2) staging).seqOf 2).ringAt = 64 := by
  decide +kernel
theorem test_flush : let s : State := { rdy with sq := { slices := [(3, { retained := [⟨0, 0, 0, [], false, false⟩] })] } }
    s.Reaches 0 (decBase + 0x44) ∧ s.burstRuns (s.dskSeq 3) = false ∧ ((nx (.decFlushWrite 1) s).slice 3).retained = [] := by decide +kernel

/-! ### Compare, capture and check units -/

/-- Channel 4 is an I/O of site 0, with both comparators open; sequencer 0's burst has judged a strobe of it. -/
def strobed (d : Nat) : State := withRegs [(chnBase 4 + 0x40, 3), (chnBase 4 + 0x48, d)]
  { rdy with sq := { seqs := [(0, { st := 3, siteEn := 1, jobs := [⟨0, 0, 0, 0, 0, 4096, 2560, [⟨4, 0, [.strobe 3 5000], false⟩], false, false, 0, true⟩] })] } }

theorem test_verdicts : ((nx (.verdictsFormed 0 []) (strobed 0)).seqOf 0).jobs = [] ∧
    (nx (.verdictsFormed 0 []) (strobed 0)).cycle = (4096 + 2560 + 1966080) / 20480 + 1 := by decide +kernel
theorem test_strobeFails : (strobed 0).chnFunc 4 = 3 ∧ (strobed 0).chnSite 4 = 0 ∧
    levelCode (bit ((strobed 0).eff (chnBase 4 + 0x48)) 2 && (true != bit ((strobed 0).eff (chnBase 4 + 0x48)) 5),
      bit ((strobed 0).eff (chnBase 4 + 0x48)) 3 && (false != bit ((strobed 0).eff (chnBase 4 + 0x48)) 6)) ≠ 3 ∧
    (nx (.verdictsFormed 0 [⟨4, true, false, []⟩]) (strobed 0)).reg64 (siteBlock 0 + 8) = 1 ∧
    (nx (.verdictsFormed 0 [⟨4, true, false, []⟩]) (strobed 0)).getB (siteBlock 0) 31 = true := by decide +kernel
/-- Sequencer 0 runs a MATCH segment, with the result of iteration 5 ready. -/
def matching : Seq := { (seqIn 3 4) with run := 2, mReady := [(2, 5, [1], 81920)] }
theorem test_matchMet : let s := rdy.setSeq 0 matching
    (s.validDesc 0 (s.seqOf 0).idx).isSome = true ∧ bit (s.eff (seqBase 0 2 + 0xC0)) 0 = false ∧ s.maskSites 0 0 = [] ∧
    ((nx (.matchResultReady 0) s).seqOf 0).mMet = some (5, 81920) ∧ ((nx (.matchResultReady 0) s).seqOf 0).mReady = [] ∧
    (nx (.matchResultReady 0) s).cycle = 5 := by decide +kernel
theorem test_logRecord : let s : State := { rdy with cmp := { ends := [[1, 2, 3, 4, 5, 6, 7, 8]] } }
    1 ≤ s.ringRoom .log ∧ (nx .failLogRecordWritten s).reg (cmpBase + 0x54) = 1 ∧ (nx .failLogRecordWritten s).mem.length = 8 ∧
    (s.setReg (cmpBase + 0x54) 1023).ringRoom .log = 0 ∧ (nx .failLogRecordWritten (s.setReg (cmpBase + 0x54) 1023)).cmp.lost.count = 1 ∧
    (nx .failLogRecordWritten (s.setReg (cmpBase + 0x54) 1023)).reg64 (cmpBase + 0x60) = 1 ∧
    (nx .failLogRecordWritten (s.setReg (cmpBase + 0x54) 1023)).mem = [] := by decide +kernel
theorem test_captureBlock : (nx (.captureBlockWritten 3) { rdy with cmp := { capq := [(3, [⟨0, 0x80, [1, 0, 2], 0⟩])] } }).mem = [(0x80, 1), (0x82, 2)] := by
  decide +kernel
/-- Slot 0 watches channel 4 in a burst of sequencer 0. -/
def watching (e : EcapSlot) : State := withRegs [(chnBase 4 + 0x40, 3), (cmpBase + 0x68, 1)]
  { rdy with sq := { seqs := [(0, { st := 3, begun := true, siteEn := 1, ecapSel := [0x80000004] })] }, cmp := { slots := [(0, e)] } }
theorem test_edgeCapture : (watching {}).ecapSeq 0 = some 0 ∧
    (Tab.get (fun _ => ({} : EcapSlot)) (nx (.ecapTransition 0 5000 0 1) (watching {})).cmp.slots 0).queue.length = 1 ∧
    (Tab.get (fun _ => ({} : EcapSlot)) (nx (.ecapTransition 0 5000 0 1) (watching {})).cmp.slots 0).lastAt = some 5000 ∧
    (5000 - 3362) * 10 < 16384 ∧ (nx (.ecapTransition 0 5000 0 1) (watching { lastAt := some 3362 })).reg (cmpBase + 0x84) = 1 ∧
    Tab.get (fun _ => ({} : EcapSlot)) (nx (.ecapTransition 0 5000 0 1) (watching { lastAt := some 3362 })).cmp.slots 0 =
      { lastAt := some 3362, merged := 1 } := by decide +kernel
theorem test_ecapWritten : (watching { queue := [[1, 2, 3, 4]] }).ringFull .ecap = false ∧
    (nx (.ecapRecordWritten 0) (watching { queue := [[1, 2, 3, 4]] })).reg (cmpBase + 0x78) = 1 := by decide +kernel
theorem test_cmpSrst : let s := withRegs [(cmpBase + 8, 2), (cmpBase + 0x54, 9)] rdy
    s.getB (cmpBase + 0x1000 * 0 + 8) 1 = true ∧ (∀ q, q < 16 → s.burstRuns q = false) ∧ (nx (.cmpSrstApply 0) s).reg (cmpBase + 0x54) = 0 ∧
    (nx (.cmpSrstApply 2) (withRegs [(cmpBase + 0x2008, 2)] rdy)).getB (cmpBase + 0x2008) 1 = false := by decide +kernel
theorem test_sigSrst : let s := withRegs [(sigBase 31 + 8, 2), (sigCtx 31 15 + 0x10, 3)] rdy
    (nx (.sigSrstApply 31) s).getB (sigBase 31 + 8) 1 = false ∧ s.burstRuns (s.dskSeq 31) = false ∧
    (nx (.sigSrstApply 31) s).reg (sigCtx 31 15 + 0x10) = resetValue (sigCtx 31 15 + 0x10) := by decide +kernel
/-- Check unit 7 folds CRC-32, enabled. -/
def chkReady : State := withRegs [(chkBase 7 + 8, 1), (chkBase 7 + 0x40, 0x120), (chkBase 7 + 0x48, 0x04C11DB7), (chkBase 7 + 0x50, 0xFFFFFFFF),
  (chkBase 7 + 0x88, 12), (chkBase 7 + 0x80, 3)] rdy
def chkBusy : State := { chkReady with chk := [(7, { active := true, began := 100 })] }
theorem test_chkFeed : chkReady.Reaches 0 (chkBase 7 + 0x90) ∧ chkReady.chkWidth 7 = 32 ∧
    (nx (.chkFeedB 7 0x31) chkReady).reg64 (chkBase 7 + 0x68) = crcBytes 32 0x04C11DB7 true 0xFFFFFFFF [0x31] % 2 ^ 64 ∧
    (nx (.chkFeedW 7 0x34333231) chkReady).reg64 (chkBase 7 + 0x68) = crcBytes 32 0x04C11DB7 true 0xFFFFFFFF [0x31, 0x32, 0x33, 0x34] % 2 ^ 64 ∧
    (nx (.chkFeedH 7 0x3231) chkBusy).reg (chkBase 7 + 0x9C) = 1 := by decide +kernel
theorem test_chkInit : (nx (.chkLoadInit 7 4) chkReady).reg64 (chkBase 7 + 0x68) = 0xFFFFFFFF ∧
    (nx (.chkCheck 7 8) chkReady).getB (chkBase 7 + 0x8C) 6 = true ∧ chkReady.waiting 3 7 = false ∧
    chkReady.startAllowed .chk (chkBase 7) = true ∧ (nx (.chkStart 7 1) chkReady).bur.waits = [⟨3, 7, true, 0, 12, 0⟩] ∧
    (nx (.chkAbort 7 2) chkBusy).getF (chkBase 7 + 0x8C) 3 0 = 2 := by decide +kernel
theorem test_chkCommit : (nx (.chkRunCommit 7 0) chkBusy).getF (chkBase 7 + 0x8C) 3 0 = 1 ∧ (nx (.chkRunCommit 7 0) chkBusy).cycle = 101 ∧
    (nx (.chkRunCommit 7 0) chkBusy).reg64 (chkBase 7 + 0x68) = crcBytes 32 0x04C11DB7 true 0xFFFFFFFF [0, 0, 0] % 2 ^ 64 := by decide +kernel
theorem test_chkCfg : chkReady.Reaches 0 (chkBase 7 + 0x40) ∧ (nx (.chkRegWrite 0 (chkBase 7 + 0x40) 65) chkReady).regs = chkReady.regs ∧
    (nx (.chkRegWrite 0 (chkBase 7 + 0x40) 64) chkReady).getF (chkBase 7 + 0x40) 6 0 = 64 ∧
    (nx (.chkRegWrite 0 (chkBase 7 + 0x40) 7) chkReady).regs = chkReady.regs ∧
    (nx (.chkRegWrite 0 (chkBase 7 + 0x40) 8) (withRegs [(chkBase 7 + 0x68, 0x1FF)] chkReady)).reg64 (chkBase 7 + 0x68) = 0xFF := by decide +kernel

/-! ### Time measurement -/

/-- Engine 63 runs in a mode, its input A on the channel comparator of channel 4. -/
def tdcIn (m : Nat) (x : Tdc → Tdc) : State :=
  { executing with tim := { engines := [(63, x { st := 2, cfg := wd (m * 2 ^ 24), srcA := 1, count := 4, gate := 400, tmo := 100 })] } }

theorem test_edgeIgnored : ((rdy.tdc 63).st ≠ 2 ∧ (rdy.tdc 63).st ≠ 3) ∧ (nx (.tdcInputEdge 1 9 true) rdy).tim = rdy.tim := by decide +kernel
theorem test_stamp : let s := tdcIn 1 id
    edgeTaken (fld (s.tdc 63).cfg 21 20) (true != s.sourceInv (s.tdc 63).srcA) = true ∧ s.sourceLive (s.tdc 63).srcA = true ∧
    bit (s.tdc 63).cfg 16 = false ∧ (s.tdc 63).srcB ≠ (s.tdc 63).srcA ∧ (s.tdc 63).t0 ≤ 10300 / 5120 ∧
    ((nx (.tdcInputEdge 1 10300 true) s).tdc 63).fifo.map (fun a => (a.et, a.isB)) = [(10300, false)] ∧
    ((nx (.tdcInputEdge 1 10300 true) s).tdc 63).lastA = some 10300 ∧
    (((nx (.tdcInputEdge 1 10300 true) s).tdcFlush 63).tdc 63).out.map (·.take 2) = [[wd (2 * 256 + 3), 0]] ∧
    (((nx (.tdcInputEdge 1 10300 true) s).tdcFlush 63).tdc 63).fifo = [] := by decide +kernel
theorem test_deadTime : let s := tdcIn 1 fun x => { x with lastA := some 4000 }
    (10553 - 4000) * 10 < 65536 ∧ ((nx (.tdcInputEdge 1 10553 true) s).tdc 63).deadA = true ∧
    (nx (.tdcInputEdge 1 10553 true) s).reg (tdcBase 63 + 0x30) = 1 ∧ (nx (.tdcInputEdge 1 10554 true) s).reg (tdcBase 63 + 0x30) = 0 := by
  decide +kernel
theorem test_fifoFull : let s := tdcIn 1 fun x => { x with formed := 4, fifo := List.replicate 32 ⟨0, false, false, false, false⟩ }
    32 ≤ (s.tdc 63).fifo.length ∧ (s.tdc 63).full = true ∧ (nx (.tdcInputEdge 1 10553 true) s).reg (tdcBase 63 + 0x34) = 1 ∧
    (nx (.tdcInputEdge 1 10553 true) s).getB (timBase + 0x14) 5 = true ∧ (nx (.tdcInputEdge 1 10553 true) s).reg (timBase + 0x68) = 1 := by decide +kernel
theorem test_gateEnd : let s := tdcIn 5 fun x => { x with edges := 9, opened := 40 * 5120 }
    (s.tdc 63).full = false ∧ (s.tdc 63).mode = 5 ∧ ((nx (.tdcGateEnd 63) s).tdc 63).out.map (·.getD 0 0) = [9] ∧
    ((nx (.tdcGateEnd 63) s).tdc 63).opened = 440 * 5120 ∧ ((nx (.tdcGateEnd 63) s).tdc 63).edges = 0 ∧ (nx (.tdcGateEnd 63) s).cycle = 110 := by decide +kernel
/-- An edge record of instant 0. -/
def edge0 : TdcEdge := ⟨0, false, false, false, false⟩
theorem test_tdcTimeout : let s := tdcIn 2 fun x => { x with armed := some edge0 }
    (s.tdc 63).tmo ≠ 0 ∧ ((nx (.tdcTimeout 63) s).tdc 63).armed = none ∧ (nx (.tdcTimeout 63) s).cycle = 25 ∧
    ((nx (.tdcTimeout 63) s).tdc 63).out.map (fun r => (bit (r.getD 3 0) 2, bit (r.getD 3 0) 0)) = [(true, false)] := by decide +kernel
/-- Engine 63's page is enabled, with MODE `m`. -/
def tdcReady (m : Nat) : State := withRegs [(tdcBase 63 / 0x1000 * 0x1000 + 8, 1), (tdcBase 63, m * 2 ^ 24), (tdcBase 63 + 0x24, 8)] executing
theorem test_tdcStart : (tdcReady 1).Reaches 0 (tdcBase 63 + 0x20) ∧ (tdcReady 1).startAllowed .tim (tdcBase 63) = true ∧
    ((nx (.tdcStart 63 1) (tdcReady 3)).tdc 63).st = 1 ∧ (nx (.tdcStart 63 1) (tdcReady 3)).bur.waits = [⟨2, 63, true, 0, 8, 0⟩] ∧
    (nx (.tdcStart 63 1) (tdcReady 7)).getF (tdcBase 63 + 0x28) 3 0 = 5 ∧ (nx (.tdcStart 63 1) (tdcReady 0)).getF (tdcBase 63 + 0x28) 3 0 = 5 := by
  decide +kernel
theorem test_tdcStop : (nx (.tdcStop 63 2) (tdcIn 1 id)).getF (tdcBase 63 + 0x28) 3 0 = 2 ∧ ((nx (.tdcStop 63 2) (tdcIn 1 id)).tdc 63).st = 0 ∧ ((tdcIn 1 id).tdc 63).counted = false ∧
    ((nx (.tdcStop 63 2) (tdcIn 4 id)).tdc 63).st = 3 ∧ (nx (.tdcAbort 63 4) (tdcIn 4 id)).getF (tdcBase 63 + 0x28) 3 0 = 3 ∧
    (tdcIn 1 id).Reaches 0 (tdcBase 63 + 0x20) := by decide +kernel
theorem test_tdcRecord : let s := tdcIn 1 fun x => { x with out := [[1, 2, 3, 4]], formed := 4, lastA := some 3 }
    s.ringFull .res = false ∧ (s.tdc 63).counted = true ∧ s.tdcTurn = some 63 ∧ (s.tdcSlot.ringPush .res (wordBytes [1, 2, 3, 4])).isSome = true ∧ (nx (.tdcRecordWritten 63 0) s).reg (timBase + 0x5C) = 1 ∧
    (nx (.tdcRecordWritten 63 0) s).reg (tdcBase 63 + 0x2C) = 1 ∧ (nx (.tdcRecordWritten 63 0) s).mem.length = 4 ∧
    (nx (.tdcRecordWritten 63 0) s).getF (tdcBase 63 + 0x28) 3 0 = 1 := by decide +kernel
theorem test_reference : (nx .ocxoWarmReached rdy).getB (timBase + 0x40) 0 = true ∧
    (nx .ocxoRegulationLost (nx .ocxoWarmReached rdy)).getB (timBase + 0x40) 0 = false ∧ (nx .refInDetected rdy).getB (timBase + 0x40) 1 = true := by
  decide +kernel
theorem test_refSwitch : let s := nx (.refSelWrite 1) (nx .refInDetected rdy)
    rdy.Reaches 0 (timBase + 0x44) ∧ s.tim.switchReq = some true ∧ (∀ q, q < 16 → s.burstRuns q = false) ∧
    (∀ e, e < 64 → (s.tdc e).st ≠ 2 ∧ (s.tdc e).st ≠ 3) ∧ s.getB (timBase + 0x40) 1 = true ∧ s.tim.switchDue = none ∧
    (nx .refSwitchApply s).getB (timBase + 0x40) 2 = true ∧ (nx .refSwitchApply s).tim.switchDue = some 32000 ∧
    (nx .refSwitchDone (nx .refSwitchApply s)).cycle = 32000 ∧ (nx .refSwitchDone (nx .refSwitchApply s)).getB (timBase + 0x40) 3 = false ∧
    (nx .refInLoss (nx .refSwitchDone (nx .refSwitchApply s))).getB (timBase + 0x40) 2 = false ∧
    (nx .refInLoss (nx .refSwitchDone (nx .refSwitchApply s))).ctl.fineLoss = (32000, 44000) ∧
    (nx .refSwitchApply s).ctl.fineSwitch = (20000, 32000) := by decide +kernel
theorem test_counters : let s := withRegs [(timBase + 0x70 + 4 * 7, 2 ^ 31), (timBase + 0x6C, 3)] executing
    let s : State := { s with tim := { fcLive := [(7, 99)], fcNext := [(7, 2)] } }
    s.getB (timBase + 0x70 + 4 * 7) 31 = true ∧ s.fcRuns = true ∧ (nx (.fcGateEnd 7) s).reg (timBase + 0x90 + 4 * 7) = 99 ∧
    Tab.get (fun _ => 0) (nx (.fcGateEnd 7) s).tim.fcLive 7 = 2 ∧ (nx (.fcGateEnd 7) s).cycle = 2400 ∧ s.Reaches 0 (timBase + 0x6C) ∧ (nx (.fcConfigWrite 0 (timBase + 0x6C) 0x70000) s).regs = s.regs ∧
    (nx (.fcConfigWrite 0 (timBase + 0x6C) 7) s).getF (timBase + 0x6C) 15 0 = 7 := by decide +kernel
theorem test_fcEdge : let s := withRegs [(timBase + 0x70 + 4 * 7, 2 ^ 31 + 1), (timBase + 0x6C, 3)] executing
    s.sourceLive 1 = true ∧ (true != s.sourceInv 1) = true ∧ s.fcRuns = true ∧ 20480 / 20480 < s.fcDue 7 ∧
    Tab.get (fun _ => 0) (nx (.tdcInputEdge 1 20480 true) s).tim.fcLive 7 = 1 ∧ (nx (.tdcInputEdge 1 20480 false) s).tim = s.tim := by decide +kernel
theorem test_coarseWrap : (nx .coarseCountWrap { rdy with cycle := 2 ^ 46 - 3 }).cycle = 2 ^ 46 ∧
    (nx .coarseCountWrap { rdy with cycle := 2 ^ 46 - 3 }).beats = 0 ∧ (nx .coarseCountWrap { rdy with cycle := 2 ^ 46 - 3 }).getB (timBase + 0x10) 3 = true := by
  decide +kernel

/-! ### Flow services -/

/-- A step of a kind (and a source) for site 3. -/
def stepOf (k src : Nat) : FlowStep := { node := 0, words := [wd (k * 2 ^ 28 + src * 2 ^ 24), 7, 8, 0, 0, 0, 0, 0] }
def withStep (x : FlowStep) (s : State) : State := { s with flw := { s.flw with step := some x } }
/-- Site 3 is open. -/
def opened : State := nx .flowOpenCommit (withStep (stepOf 1 0) executing)

theorem test_stepStart : let s := withRegs [(flwBase + 8, 1), (flwBase + 0x84, 6)] executing
    s.Reaches 0 (flwBase + 0x88) ∧ s.flowBusy = false ∧ s.startAllowed .flowNode flwBase = true ∧
    (nx .flowStepStart s).bur.waits = [⟨6, 0, true, 0, 6, 0⟩] ∧ rdy.startAllowed .flowNode flwBase = false ∧
    (nx .flowStepStart rdy).reg (glbBase + 0x50) = 1 ∧ (nx .flowStepStart rdy).bur.waits = [] := by decide +kernel
theorem test_stepAbort : (nx .flowStepAbort (withStep (stepOf 1 0) executing)).reg (flwBase + 0x8C) = 2 ∧
    (nx .flowStepAbort (withStep (stepOf 1 0) executing)).flw.step = none := by decide +kernel
theorem test_open : ((withStep (stepOf 1 0) executing).stepRead.bind fun u => u.flw.step) = some (stepOf 1 0) ∧ executing.getB (flwBase + 0xA0) 31 = false ∧ executing.dlogRoom 2 = true ∧ executing.stepSites (stepOf 1 0) = [3] ∧
    opened.cardState 3 = 1 ∧ opened.reg (card 3 + 4) = 1 ∧ opened.reg (flwBase + 0x94) = 1 ∧ opened.flw.step = none := by decide +kernel
theorem test_openNoSlot : let s := withRegs ((List.range 4).map fun i => (flwBase + 0xA0 + 4 * i, 2 ^ 31)) executing
    (∀ i, i < 4 → s.getB (flwBase + 0xA0 + 4 * i) 31 = true) ∧ (nx .flowOpenCommit (withStep (stepOf 1 0) s)).reg (flwBase + 0x94) = 0 ∧
    (nx .flowOpenCommit (withStep (stepOf 1 0) s)).reg (flwBase + 0x8C) = 1 := by decide +kernel
/-- A limit of 0 to 5 on the fails of the latest burst; FAIL_BIN 9. -/
def limitStep : FlowStep := { stepOf 2 0 with limits := [(0, [0, 0, 5, 0, 0xC0000000, 0, 9, 0])], bins := [(9, some 0x80000000)] }
theorem test_limitBadBin : let x : FlowStep := { limitStep with bins := [(9, some 0)] }
    let s (v : Nat) : State := withStep x (withRegs [(card 3 + 8, 1), (card 3 + 0x18, v)] opened)
    (s 6).binCause x = 5 ∧ (s 4).binCause x = 0 ∧ (s 6).dlogRoom 64 = true ∧ (nx .flowLimitCommit (s 6)).reg (flwBase + 0x8C) = 4 ∧
    (nx .flowLimitCommit (s 6)).reg (card 3 + 0x2C) = 0 ∧ (nx .flowLimitCommit (s 4)).reg (flwBase + 0x8C) = 1 := by decide +kernel
theorem test_limit : let s (v : Nat) : State := withStep limitStep (withRegs [(card 3 + 8, 1), (card 3 + 0x18, v)] opened)
    (s 6).binCause limitStep = 0 ∧ (s 4).binCause limitStep = 0 ∧
    ((s 6).limitResults limitStep).map (fun r => (r.1, r.2.2.2.2)) = [(3, .high)] ∧
    ((s 4).limitResults limitStep).map (fun r => (r.1, r.2.2.2.2)) = [(3, .pass)] ∧ (s 6).dlogRoom 1 = true ∧
    (nx .flowLimitCommit (s 6)).reg (card 3 + 0x2C) = 1 ∧ (nx .flowLimitCommit (s 6)).getB (card 3) 16 = true ∧
    (nx .flowLimitCommit (s 6)).getF (card 3) 9 0 = 9 ∧ (nx .flowLimitCommit (s 6)).reg (card 3 + 0xC) = 1 ∧
    (nx .flowLimitCommit (s 4)).reg (card 3) = (s 4).reg (card 3) ∧ (nx .flowLimitCommit (s 4)).reg (card 3 + 0x2C) = 1 := by decide +kernel
theorem test_bin : let x : FlowStep := { stepOf 3 0 with bins := [(7, some 0xC01F1234)] }
    let s := withStep x opened
    s.stepSites x = [3] ∧ s.binOf x 3 = 7 ∧ s.dlogRoom 5 = true ∧ (x.bins.find? fun p => p.1 = s.binOf x 3) = some (7, some 0xC01F1234) ∧
    (nx .flowBinCommit s).cardState 3 = 2 ∧ (nx .flowBinCommit s).getF (card 3) 9 0 = 7 ∧ (nx .flowBinCommit s).getF (card 3) 25 21 = 31 ∧
    (nx .flowBinCommit s).getB (card 3) 26 = true ∧ (nx .flowBinCommit s).reg (flwBase + 0x100 + 4 * 31) = 1 := by decide +kernel
theorem test_post : let s : State := { withTask nopTask rdy with flw := { post := some 0x20000005 } }
    fld (0x20000005 : Word) 31 28 = 2 ∧ (s.task 5).imageOk = true ∧ ((nx .flowPost s).task 5).st = 2 ∧ (nx .flowPost s).flw.post = none := by decide +kernel
theorem test_dlog : let s (wr ctl : Nat) : State := withRegs [(flwBase + 0x6C, wr), (flwBase + 0x74, ctl)] { rdy with flw := { queue := [List.replicate 16 1] } }
    1 ≤ (s 0 1).ringRoom .dlog ∧ (nx .dlogRecordWritten (s 0 1)).reg (flwBase + 0x6C) = 1 ∧ (nx .dlogRecordWritten (s 0 1)).mem.length = 16 ∧
    (s 1023 1).ringRoom .dlog = 0 ∧ (nx .dlogRecordWritten (s 1023 1)).flw.queue.length = 1 ∧
    (nx .dlogRecordWritten (s 1023 3)).flw.queue = [] ∧ (nx .dlogRecordWritten (s 1023 3)).flw.lost = 1 := by decide +kernel
theorem test_handler : let s (l : List Nat) : State := withRegs [(flwBase + 0x98, 2), (flwBase + 0xA8, 5)] { rdy with flw := { handler := [(2, l, 40)] } }
    (nx .handlerSiteStep (s [3, 4])).flw.handler = [(2, [4], 1640)] ∧ (nx .handlerSiteStep (s [3, 4])).cycle = 40 ∧
    (nx .handlerSiteStep (s [])).flw.handler = [] ∧ (nx .handlerSiteStep (s [])).reg (flwBase + 0xA8) = 0 := by decide +kernel

/-! ### Calibration -/

/-- Item 1 is requested, with its page enabled. -/
def calReady (code : Nat) : State := withRegs [(vinBase + 8, 1), (vinBase + 0x40, code), (vinBase + 0x4C, 7), (vinBase + 0x44, 1)] { rdy with ctl := { rdy.ctl with mode := 7 } }
theorem test_item : (calReady 1).Reaches 0 (vinBase + 0x48) ∧ (calReady 1).getB (vinBase + 0xC) 0 = false ∧
    (calReady 1).startAllowed (itemClass 1) vinBase = true ∧ (calReady 1).badItem 1 = false ∧ (calReady 1).slotFor = some 0 ∧
    (nx .itemStart (calReady 1)).cal.item.map (fun i => (i.code, i.slot, i.parent, i.running)) = some (1, 0, none, false) ∧
    (nx .itemStart (calReady 1)).bur.waits = [⟨5, 0, true, 0, 7, 0⟩] ∧ (calReady 200).badItem 200 = true ∧
    (calReady 200).startAllowed (itemClass 200) vinBase = true ∧ (nx .itemStart (calReady 200)).getF (vinBase + 0x50) 3 0 = 4 ∧
    (nx .itemAbort (nx .itemStart (calReady 1))).getF (vinBase + 0x50) 3 0 = 2 ∧ (nx .itemAbort (nx .itemStart (calReady 1))).cal.item = none := by
  decide +kernel
theorem test_itemRuns : ({ code := 1, slot := 15, trigger := 0, parent := none, mask := 0, running := true } : CalItem).running = true ∧
    ({ code := 1, slot := 15, trigger := 0, parent := none, mask := 0, running := true } : CalItem).slot < 16 := by decide
theorem test_engineReleased : let s : State := { rdy with tim := { calHeld := [3, 9], engines := [(9, { st := 4 })] } }
    s.tim.calHeld.contains 9 = true ∧ (s.tdc 9).st = 4 ∧ ((nx (.calEngineRelease 9) s).tdc 9).st = 0 ∧ (nx (.calEngineRelease 9) s).tim.calHeld = [3] := by
  decide +kernel
/-- Slot 4 holds vintage 3, the newest. -/
def vintaged : State := withRegs [(slotId 4, 3), (vin1Base + 0xE4, 2 ^ 31 + 4), (slotFlags 4, 2 ^ 30)] rdy
theorem test_adopt : vintaged.newest = some 4 ∧ vintaged.burstRuns (vintaged.dskSeq 31) = false ∧
    (nx (.deskAdoptVintage 31) vintaged).deskSlot 31 = some 4 ∧ (nx (.deskAdoptVintage 31) vintaged).deskSlot 30 = none := by decide +kernel
theorem test_slotFlags : rdy.Reaches 0 (slotFlags 15) ∧ (nx (.slotFlagsWrite 15 0xFFFFFFFF) rdy).getB (slotFlags 15) 31 = true ∧
    (nx (.slotFlagsWrite 15 0x80000000) rdy).getB (slotFlags 15) 30 = false := by decide +kernel
theorem test_slotSaves : vintaged.getB (slotFlags 4) 30 = true ∧ vintaged.reg (slotId 4) ≠ 0 ∧ vintaged.slotSaved 4 = false := by decide +kernel

/-! ### Lanes and links -/

def withLane (n : Nat) (x : Lane) (s : State) : State := { s with lan := { s.lan with lanes := Tab.set (fun _ => {}) s.lan.lanes n x } }
def withLink (l : Nat) (k : Link) (s : State) : State := { s with lan := { s.lan with links := Tab.set (fun _ => {}) s.lan.links l k } }

theorem test_detect : ((nx (.laneDetect 39) (withLane 39 { st := 1 } rdy)).lane 39).st = 2 := by decide +kernel
/-- A TS set of lane 15 in TRAIN that asks for C−1 + 1 as number 44 (R325). -/
def tsBytes : List Byte := [0xBC, 0x4A, 15, 2, 2, 0, 44, 0, 0, 0, 63, 0xB5, 0xB5, 0xB5, 0xB5, 0xB5]
theorem test_txRequest : readTs tsBytes = some (2, 0, 44) ∧ tsSet 15 2 2 0 44 0 0 0 = tsBytes ∧
    ((nx (.tsReceived 39 tsBytes) (withLane 39 { st := 2, cm1 := 3 } rdy)).lane 39).cm1 = 4 ∧
    ((nx (.tsReceived 39 tsBytes) (withLane 39 { st := 2, cm1 := 16 } rdy)).lane 39).cm1 = 16 ∧
    ((nx (.tsReceived 39 tsBytes) (withLane 39 { st := 2 } rdy)).lane 39).echo = 44 := by decide +kernel
theorem test_trial : ((nx (.trainTrialEnd 0 24 30) (withLane 0 { st := 2, trialAt := 5 } rdy)).lane 0).st = 3 ∧
    (nx (.trainTrialEnd 0 24 30) (withLane 0 { st := 2, trialAt := 5 } rdy)).cycle = 38405 ∧
    ((nx (.trainTrialEnd 0 23 30) (withLane 0 { st := 2, trials := 1033 } rdy)).lane 0).trials = 1034 ∧
    ((nx (.trainTrialEnd 0 24 29) (withLane 0 { st := 2, trials := 1034 } rdy)).lane 0).st = 7 := by decide +kernel
theorem test_lock : ((nx (.laneSymbolLock 0) (withLane 0 { st := 3 } rdy)).lane 0).st = 4 ∧
    ((nx (.laneSymbolLock 0) { withLane 0 { st := 3, slept := true } rdy with cycle := 16000 }).lane 0).st = 4 ∧
    ((nx (.laneSymbolLock 0) { withLane 0 { st := 3, slept := true } rdy with cycle := 16001 }).lane 0).st = 3 ∧
    ((nx (.lockTimeout 0) (withLane 0 { st := 3, trials := 9 } rdy)).lane 0).st = 2 ∧ (nx (.lockTimeout 0) (withLane 0 { st := 3 } rdy)).cycle = 80000 ∧
    ((nx (.sleepLockTimeout 0) (withLane 0 { st := 3, slept := true } rdy)).lane 0).st = 2 ∧
    (nx (.sleepLockTimeout 0) (withLane 0 { st := 3, slept := true } rdy)).cycle = 16000 := by decide +kernel
/-- A CAPS set of major `m` and link type West (R325). -/
def capsBytes (m : Byte) : List Byte := [0xF7, 0, 1, 7, 3, m, 0, 3, 0xB5, 0xB5, 0xB5, 0xB5, 0xB5, 0xB5, 0xB5, 0xB5]
theorem test_caps : let s := withLink 1 { capsOwn := 0x01000702 } (withLane 16 { st := 4 } rdy)
    readCaps (capsBytes 1) = some ⟨0, 1, 7, 3, 1, 0, 3⟩ ∧ (3 : Nat) = (fld (s.link 1).capsOwn 1 0) ^^^ 1 ∧ linkOf 16 = 1 ∧ (∀ m, m ∈ lanesOf 1 → m ≠ 16 → (s.lane m).st < 4 ∨ 6 < (s.lane m).st) ∧
    ((nx (.capsReceived 16 (capsBytes 1) 32) s).lane 16).st = 5 ∧ ((nx (.capsReceived 16 (capsBytes 1) 32) s).lane 16).deskew = 32 ∧
    ((nx (.capsReceived 16 (capsBytes 1) 32) s).link 1).rx = [16] ∧ ((nx (.capsReceived 16 (capsBytes 2) 32) s).lane 16).held = true ∧
    ((nx (.capsReceived 16 (capsBytes 2) 32) s).lane 16).st = 4 := by decide +kernel
theorem test_lockLoss : let s (l : List Nat) : State := withLink 1 { rx := [16, 17], tx := 3, audit := 2 } (withLane 17 { st := 5, matched := true } (withLane 16 { st := 5, matched := true, drops := l } rdy))
    ((nx (.laneLockLoss 16 1) (s [0, 0])).lane 16).st = 2 ∧ (nx (.laneLockLoss 16 1) (s [0, 0])).reg (linkBlock 1 + 0x1C) = 1 ∧
    ((nx (.laneLockLoss 16 1) (s [0, 0])).link 1).rx = [17] ∧ ((nx (.laneLockLoss 16 1) (s [0, 0, 0])).lane 16).st = 7 := by decide +kernel
/-- A frame with one header word and no payload, on one lane, as the next of the Satchel's field end. -/
def oneFrame : List Byte := frameBytes [0x60000000, 0] []
theorem test_frames : let s := withLink 0 { linked.link 0 with rx := [0] } linked
    let lanes := stripe 1 oneFrame
    (s.link 0).up = true ∧ (s.link 0).audit = 2 ∧ (s.link 0).re = none ∧
    readFrame (sofSet 6 65535) lanes (eofSet 0) = some (65535, [0, 0, 0, 0x60, 0, 0, 0, 0]) ∧
    ((nx (.laneFrameReceived 0 (sofSet 6 65535) lanes (eofSet 0)) s).link 0).rxNext = 0 ∧
    readFrame (sofSet 6 65535) lanes edbSet = none ∧ ((nx (.laneFrameReceived 0 (sofSet 6 65535) lanes edbSet) s).link 0).rxNext = 65535 ∧
    ((nx (.laneFrameReceived 0 (sofSet 6 65535) lanes edbSet) s).link 0).ackSent = some (65534, true) := by decide +kernel
/-- The check value of CRC-32: that of the nine characters 1 to 9 is 0xCBF43926. -/
theorem test_crc32 : crc32 [0x31, 0x32, 0x33, 0x34, 0x35, 0x36, 0x37, 0x38, 0x39] = 0xCBF43926 := by decide +kernel
theorem test_stripedFrame : readFrame (sofSet 2 9) (stripe 16 (frameBytes [7, 8, 9] [1, 2, 3])) (eofSet (padBytes 16 (frameBytes [7, 8, 9] [1, 2, 3]).length)) =
    some (9, [7, 0, 0, 0, 8, 0, 0, 0, 9, 0, 0, 0, 1, 2, 3]) ∧ (stripe 16 (frameBytes [7, 8, 9] [1, 2, 3])).map List.length = List.replicate 16 2 := by
  decide +kernel
theorem test_ack : readAck [0x9C, 7, 0, 0] = some (7, false) ∧ readAck [0x9C, 7, 0, 1] = some (7, true) ∧ ackSet 263 true = [0x9C, 7, 1, 1] ∧
    ((nx (.ackReceived 0 [0x9C, 7, 0, 0]) linked).link 0).replay = [(8, 2, [])] ∧
    (nx (.ackReceived 0 [0x9C, 7, 0, 1]) linked).reg (linkBlock 0 + 0x24) = 1 ∧
    linked.framesFlow 0 = true ∧ (nx (.replayTimeout 0) linked).cycle = 8000 ∧ ((nx (.replayTimeout 0) linked).link 0).replay.length = 2 ∧
    (nx (.replayTimeout 0) linked).reg (linkBlock 0 + 0x24) = 1 := by decide +kernel
theorem test_stripe : readStripe [0x1C, 2, 12, 0, 7, 0, 0xB5, 0xB5] = some (2, 12, 7) ∧ stripeSet 2 12 7 = [0x1C, 2, 12, 0, 7, 0, 0xB5, 0xB5] ∧
    (linked.link 0).up = true ∧ 12 < 2 ^ laneCount 0 ∧ (bitsOf 16 12).length = 2 ∧ 2 ∈ permitted 0 ∧ (linked.link 0).tx ≠ 12 ∧
    ((nx (.stripeReceived 0 (stripeSet 2 3 7)) linked).link 0).replay = [(8, 2, [])] := by decide +kernel
/-- The map of an end whose last lane is lost: the far end takes the STRIPE of width 0, and the link is down (R332). -/
theorem test_stripeEmpty : readStripe (stripeSet 0 0 7) = some (0, 0, 7) ∧
    ((nx (.stripeReceived 3 (stripeSet 0 0 7)) linked).link 3).tx = 0 ∧ ((nx (.stripeReceived 3 (stripeSet 0 0 7)) linked).link 3).up = false := by
  decide +kernel
/-- AUDIT of class 6, LAST, 255 buffers, frame 1: SUM is 6 × 16 + 1 + 255 + 1 + 8 × 0xB5 modulo 256 (R423). -/
def auditBytes : List Byte := [0xDC, 0x61, 255, 0, 1, 0] ++ List.replicate 8 0xB5 ++ [0, 0x09]
theorem test_audit : let s := withLink 0 { rx := [0], tx := 1, audit := 1, auditAt := 9 } rdy
    readAudit auditBytes = some ⟨6, false, true, 255, 1⟩ ∧ (⟨6, false, true, 255, 1⟩ : AuditSet).symbols = auditBytes ∧
    ((nx (.auditReceived 0 auditBytes) s).link 0).audit = 2 ∧ (nx (.auditReceived 0 auditBytes) s).getF (sat1Base + 0x44 + 4 * 6) 7 0 = 255 ∧
    readAudit (auditBytes.set 15 8) = none ∧ ((nx (.auditReceived 0 (auditBytes.set 15 8)) s).link 0).audit = 1 ∧
    (nx (.auditTimeout 0) s).cycle = 1609 := by decide +kernel
theorem test_restripe : let s := withLink 0 { rx := [0], tx := 1, audit := 2, re := some ⟨1, 0, 0, 2⟩ } rdy
    (∀ p, p ∈ [((0 : Nat), (32 : Nat))] → p.2 ≤ 32) ∧ ((nx (.restripeComplete 0 [(0, 32)]) s).link 0).re = none ∧
    (nx (.restripeComplete 0 [(0, 32)]) s).reg (linkBlock 0 + 0x20) = 1 := by decide +kernel
theorem test_widen : let s := withRegs [(linkBlock 0, 1)] (withLane 1 { st := 4, matched := true } (withLane 0 { st := 5, matched := true }
      (withLink 0 { rx := [0], tx := 1, audit := 2 } rdy)))
    s.linkCtrl 0 0 = true ∧ (permitted 0).reverse.find? (fun w => decide ((s.link 0).rx.length < w)) = some 2 ∧
    2 ≤ (s.link 0).rx.length + ((s.available 0).filter fun n => (s.lane n).st = 4).length ∧ ((nx (.widenTimerExpire 0) s).link 0).rx = [0, 1] := by
  decide +kernel
theorem test_filler : let s := withRegs [(linkBlock 0, 2)] linked
    s.linkCtrl 0 1 = true ∧ (nx (.fillerDue 0) s).cycle = 512 ∧ ((nx (.fillerDue 0) s).lane 1).prbs = fillerNext 1 0 := by decide +kernel
theorem test_freeze : ((nx (.idleSetReceived 9) (withLane 9 { st := 5, idleRun := 4095 } rdy)).lane 9).st = 6 ∧
    ((nx (.idleSetReceived 9) (withLane 9 { st := 4, idleRun := 65535 } rdy)).lane 9).idleRun = 65535 ∧
    ((nx (.fillerReceived 9) (withLane 9 { st := 6, idleRun := 4100 } rdy)).lane 9).st = 5 ∧
    ((nx (.laneFreeze 9) (withLane 9 { st := 5, idleRun := 4096 } rdy)).lane 9).st = 6 := by decide +kernel
/-- Lane 1 is one of two lanes of the Satchel's map. -/
def twoLanes : State := withLane 0 { st := 5, matched := true } (withLane 1 { st := 5, matched := true } linked)
theorem test_disable : twoLanes.Reaches 0 (lanePage 1 + 0x40) ∧ twoLanes.laneNeeded 1 = false ∧ ((nx (.laneDisableWrite 0 1 2) twoLanes).lane 1).st = 0 ∧
    ((nx (.laneDisableWrite 0 1 2) twoLanes).link 0).rx = [0] ∧ ((nx (.laneRetrainWrite 0 1 1) twoLanes).lane 1).st = 2 ∧
    (withLane 1 { st := 7 } twoLanes).laneNeeded 1 = false ∧ ((nx (.laneRetrainWrite 0 1 1) (withLane 1 { st := 7 } twoLanes)).lane 1).st = 1 := by
  decide +kernel
theorem test_needed : let s := withLink 1 { rx := [16], tx := 1, audit := 2 } (withLane 16 { st := 5, matched := true } rdy)
    s.laneNeeded 16 = true ∧ (nx (.laneDisableWrite 0 16 2) s).regs = [] ∧ ((nx (.laneRetrainWrite 0 16 1) s).lane 16).st = 5 := by decide +kernel
/-- DIAG, with lane 1's page and the shared page enabled. -/
def diagReady : State := withRegs [(lanePage 1 + 8, 1), (lanePage 1 + 0x64, 2 ^ 24)] { twoLanes with ctl := { twoLanes.ctl with mode := 11 } }
theorem test_diag : diagReady.Reaches 0 (lanePage 1 + 0x60) ∧ diagReady.startAllowed .diag (lanePage 1 + 0x60) = true ∧
    ((nx (.diagStart 1 1) diagReady).lane 1).diag = some (false, 2 ^ 25, (2 ^ 25 + 19) / 20) ∧ (nx (.diagStart 1 1) diagReady).getB (lanePage 1 + 0xC) 0 = true ∧
    (nx (.diagStart 1 17) diagReady).reg (lanePage 1 + 0x68) = 4 ∧ twoLanes.startAllowed .diag (lanePage 1 + 0x60) = false ∧
    (nx (.diagStart 1 1) twoLanes).reg (glbBase + 0x50) = 1 := by decide +kernel
theorem test_diagEnds : let s := nx (.diagStart 1 1) diagReady
    (nx (.diagAbort 1 2) s).reg (lanePage 1 + 0x68) = 2 ∧ (nx (.diagComplete 1 (2 ^ 30)) s).reg64 (lanePage 1 + 0x70) = 2 ^ 25 ∧
    (nx (.diagComplete 1 (2 ^ 30)) s).reg64 (lanePage 1 + 0x78) = 2 ^ 25 ∧ (nx (.diagComplete 1 (2 ^ 30)) s).reg (lanePage 1 + 0x68) = 1 := by decide +kernel

/-! ### The ring, time bases and Bells -/

/-- The body of a ring frame with a header. -/
def ringBody (dest src hops cls typ : Nat) : List Byte :=
  ({ dest := dest, src := src, hops := hops, cls := cls, typ := typ } : RingHead).words.flatMap fun w => bytesLE 4 w.toNat
theorem test_ringHead : ringBody 9 8 1 4 15 = [0x4F, 1, 8, 9, 0, 0, 0, 0, 0, 0, 0, 0] ∧
    bodyRing (ringBody 9 8 1 4 15) = { dest := 9, src := 8, hops := 1, cls := 4, typ := 15 } := by decide +kernel
theorem test_badFrame : linked.carries 0 = true ∧ frameTypeOk 4 15 = false ∧
    (nx (.ringFrameForward 0 (ringBody 9 8 1 4 15)) linked).reg (rngBase + 0x5C) = 1 := by decide +kernel
theorem test_frameHome : frameTypeOk 2 0 = true ∧
    (nx (.ringFrameForward 0 (ringBody 9 3 1 2 0)) linked).reg (rngBase + 0x5C) = 1 ∧
    (nx (.ringFrameForward 0 (ringBody 9 8 127 2 0)) linked).reg (rngBase + 0x5C) = 1 ∧
    (nx (.ringFrameForward 0 (ringBody 0xFF 3 127 2 0)) linked).regs = [] := by decide +kernel
/-- A frame for another node: no credit at West yet; with one it leaves; wrapped where only this port carries frames. -/
theorem test_frameForward : let u := withLink 2 { linked.link 2 with credit := [(2, 1)] } linked
    linked.carries 1 = true ∧ linked.canSend 2 2 = false ∧ linked.ring.wait = [] ∧ linked.ownFrame (bodyRing (ringBody 9 8 126 2 0)) [] = false ∧
    (nx (.ringFrameForward 0 (ringBody 9 8 126 2 0)) linked).ring.wait.map (fun f => (f.port, f.hops, f.origin)) = [(1, 127, some 0)] ∧
    u.canSend 2 2 = true ∧ ((nx (.ringFrameForward 0 (ringBody 9 8 126 2 0)) u).link 2).replay.map (·.2.1) = [2] ∧
    (nx (.ringFrameForward 0 (ringBody 9 8 126 2 0)) u).ring.wait = [] ∧
    (nx (.ringFrameForward 0 (ringBody 9 8 126 2 0)) (withLink 2 {} linked)).ring.wait = [] ∧
    ((nx (.ringFrameForward 0 (ringBody 9 8 126 2 0)) (withLink 2 {} linked)).link 1).replay.map (fun f => bit (bodyWord f.2.2 2) 22) = [true] := by
  decide +kernel
/-- One read credit waits at the Satchel's field end; the host end holds 5 of its own. -/
theorem test_satCreditTimer : let s := (withLink 0 { linked.link 0 with owed := [(1, 3)], replay := [] } linked).setF (satCreditReg true 1) 7 0 5
    s.framesFlow 0 = true ∧ s.getF (satCreditReg true 1) 23 16 = 32 ∧ (nx (.creditReturnTimer 2) s).satCredit true 1 = 8 ∧
    ((nx (.creditReturnTimer 2) s).link 0).owed = [] := by decide +kernel
theorem test_credits : linked.ring.wait = [] ∧ Tab.get (fun _ => 0) ((nx (.creditFrameReceived 0 1 2 3) linked).link 1).credit 4 = 7 ∧
    (linked.link 1).owed ≠ [] ∧ linked.framesFlow 1 = true ∧ ((nx (.creditReturnTimer 0) linked).link 1).owed = [] ∧
    (nx (.creditReturnTimer 0) linked).cycle = 160 := by decide +kernel
/-- The master of the ring, its page enabled. -/
def master : State :=
  { linked with regs := [(rngBase + 8, 1), (rngBase + 0x48, 78), (rngBase + 0x4C, 0)], ring := { linked.ring with master := true } }
/-- The page not enabled: START is refused, and counted. -/
theorem test_rollDenied : let s := withRegs [(rngBase + 8, 0)] master
    s.Reaches 0 (rngBase + 0x54) ∧ s.ring.master = true ∧ s.getB (rngBase + 8) 0 = false ∧ (nx (.rollCtrlStart 0 1) s).ring = s.ring ∧
    (nx (.rollCtrlStart 0 1) s).reg (glbBase + 0x50) = 1 := by decide +kernel
theorem test_rollStart : master.Reaches 0 (rngBase + 0x54) ∧ master.getB (rngBase + 8) 0 = true ∧ master.carries 0 = true ∧ (nx (.rollCtrlStart 0 1) master).ring.collect = some [] ∧
    (nx (.rollCtrlStart 0 1) master).ring.rollSeq = 1 ∧ (nx (.rollCtrlStart 0 0) master).ring = master.ring ∧
    (nx (.rollReqReceived 1) master).ring.collect = some [] ∧ (nx (.rollReqReceived 1) linked).ring = linked.ring := by decide +kernel
theorem test_rollCall : linked.ring.rollSeen ≠ some 5 ∧ (nx (.rollcallReceived 1 5) linked).ring.rollSeen = some 5 ∧
    ((nx (.rollcallReceived 1 5) linked).port 1).cnt = 0 ∧ ((nx (.rollcallReceived 1 5) linked).port 1).dreq.isSome = true ∧
    ((nx (.helloReceived 1 (2 ^ 64 + 9)) linked).port 1).nbrUid = 9 := by decide +kernel
/-- FORMED of two nodes, this one number 5. -/
def twoNodes : Formed := { roll := 1, n := 1, wrapped := true, split := false, idx := 0, pairs := [(0, 77), (5, 78)] }
theorem test_formed : let s : State := { linked with regs := [(rngBase + 0x48, 78), (rngBase + 0x4C, 0)] }
    s.ring.forming = [] ∧ s.ring.master = false ∧ s.carries 0 = true ∧ readFormed twoNodes.payload = some twoNodes ∧
    (nx (.formedReceived 0 twoNodes.payload false false) s).ring.num = some 5 ∧
    (nx (.formedReceived 0 twoNodes.payload false false) s).ring.st = 2 := by decide +kernel
/-- The roster of a node. -/
def rosterOf (uid : Nat) (m : Bool) : Roster := { uid := uid, num := 0, master := m, recess := false, left := false, bypA := 1, bypB := 2, eastUid := 3, eastDelay := 4, westUid := 5, westDelay := 6 }
theorem test_roster : let s := nx (.rollCtrlStart 0 1) master
    readRoster (rosterOf 77 false).payload = some (rosterOf 77 false) ∧ s.uid ≠ 77 ∧ s.ring.collect = some [] ∧ s.carries 1 = true ∧
    (nx (.rosterReceived 1 (rosterOf 77 false).payload) s).ring.collect = some [rosterOf 77 false] := by decide +kernel
/-- A master of a lower UID is seen: this one, with two masters permitted, gives way. -/
theorem test_clash : let s : State := withRegs [(rngBase + 0x40, 1)] { master with ring := { master.ring with rollSeen := some 4 } }
    readRoster (rosterOf 77 true).payload = some (rosterOf 77 true) ∧ s.carries 1 = true ∧ s.getB (rngBase + 0x40) 0 = true ∧ s.ring.clash ≠ s.ring.rollSeen ∧
    (nx (.rosterReceived 1 (rosterOf 77 true).payload) s).ring.master = false := by decide +kernel
theorem test_rosterAlone : ({ rdy with ring := { collect := some [], master := true } } : State).carries 0 = false ∧
    ([] : List Roster).filter (·.uid ≠ rdy.uid) = [] := ⟨by decide +kernel, rfl⟩
theorem test_split : let s : State := { linked with ring := { linked.ring with changeAt := some 9 } }
    s.getB (rngBase + 0x40) 0 = false ∧ (nx .splitTimeout s).ring.st = 3 ∧ (nx .splitTimeout s).ring.changeAt = none ∧
    (nx .splitTimeout s).cycle = 9 + 4 * s.syncCycles := by decide +kernel
theorem test_bypass : let s := withRegs [(rngBase + 0x40, 2)] linked
    s.bypassHeld = true ∧ s.ring.closed = false ∧ (nx .bypassClose s).ring.closed = true ∧ ((nx .bypassClose s).link 1).up = false ∧
    rdy.bypassHeld = false ∧ rdy.ring.closed = true ∧ 4 ≤ rdy.ctl.mode ∧ (nx .bypassOpen rdy).ring.closed = false := by decide +kernel
theorem test_exchange : (linked.port 0).cnt = 16 ∧ (nx (.delayExchangeTimer 0) linked).cycle = 800000 ∧
    ((nx (.delayExchangeTimer 0) linked).port 0).dreq = some (1, 800000 * 20480) := by decide +kernel
theorem test_rollExchange : let s : State := { linked with lan := { links := [(1, { rx := [16], tx := 1, audit := 2 })] }, ring := { linked.ring with exchanging := true, ports := [(0, { cnt := 3 })] } }
    s.carries 1 = false ∧ s.carries 0 = true ∧ (nx .rollcallExchangeTimer s).cycle = 800 ∧ ((nx .rollcallExchangeTimer s).port 0).dreq.isSome = true := by
  decide +kernel
theorem test_sets : dreqSet 3 = [0x7C, 2, 3, 0, 0, 0, 0, 0, 0, 0, 0, 0, 0, 0, 0, 0] ∧ drespSet 258 3 = [0x7C, 3, 2, 1, 0, 0, 0, 0, 0, 0, 3, 0, 0, 0, 0, 0] ∧
    (⟨unitsPerSec + 1, 2, true, false, 3, true⟩ : SyncSet).symbols = [0x7C, 1, 1, 0, 0, 0, 0, 0x40, 0, 0, 0, 0, 0, 0x80, 0xD0, 0x40] ∧
    (⟨2, 7, 255, true⟩ : BellSet).symbols = [0x5C, 0x72, 255, 1] := by decide +kernel
theorem test_dreq : (linked.link 2).up = true ∧ readDreq (dreqSet 1) = some 1 ∧
    ((nx (.dreqReceived 1 (dreqSet 1) 1000 5000) linked).port 1).turn = some (1, (linked.frameInterval 1000 5000).toNat) ∧
    ((nx (.dreqReceived 1 (dreqSet 1) 1000 5000) linked).port 1).timeOut = drespSet (linked.frameInterval 1000 5000).toNat 1 ∧
    ((nx (.dreqReceived 1 (dreqSet 1) 1000 5001) (nx (.dreqReceived 1 (dreqSet 1) 1000 5000) linked)).port 1).turn =
      some (1, (linked.frameInterval 1000 (5000 + 80 * 20480)).toNat) := by decide +kernel
def asked (c : Nat) (m : Int) : State := { linked with ring := { linked.ring with ports := [(0, { cnt := c, sum := m, dreq := some (255, 1000) })] } }
theorem test_dresp : readDresp (drespSet 200 255) = some (200, 255) ∧ ((nx (.drespReceived 0 (drespSet 200 255) 9000) (asked 14 100)).port 0).cnt = 15 ∧
    ((nx (.drespReceived 0 (drespSet 200 255) 9000) (asked 14 100)).port 0).sum = 100 + ((asked 14 100).frameInterval 1000 9000 - 200) / 2 ∧
    (nx (.drespReceived 0 (drespSet 200 255) 9000) (asked 15 100)).reg (rngBase + 0x64) =
      wd (unsext 32 ((100 + ((asked 15 100).frameInterval 1000 9000 - 200) / 2) / 16)) ∧
    ((nx (.drespReceived 0 (drespSet 200 255) 9000) (asked 15 100)).port 0).changed = false ∧
    (nx (.drespReceived 0 (drespSet 200 255) 9000) (withRegs [(rngBase + 0x64, 100)] (asked 16 0))).reg (rngBase + 0x64) =
      wd (unsext 32 (100 + ((((asked 16 0).frameInterval 1000 9000 - 200) / 2 : Int) - 100) / 16)) := by decide +kernel
theorem test_syncSend : let s : State := { master with tbs := [(0, { counting := true, base := 7 })] }
    (nx .syncSendTimer s).cycle = s.syncCycles ∧ (nx .syncSendTimer s).ring.syncSeq = 1 ∧
    ((nx .syncSendTimer s).port 1).timeOut =
      (⟨(nx .syncSendTimer s).tbAt 0 ((nx .syncSendTimer s).cycle * 20480), 0, false, false, 0, false⟩ : SyncSet).symbols := by decide +kernel
def synced : State := { linked with tbs := [(0, { counting := true })] }
/-- A SYNC of two hops. -/
def syncOf (hold : Bool) : SyncSet := ⟨5000000, 2, hold, false, 9, false⟩
theorem test_syncReceived : (synced.link 1).up = true ∧ synced.ring.master = false ∧ synced.ring.first = true ∧ synced.syncChosen 0 2 = true ∧ readSync (syncOf false).symbols = some (syncOf false) ∧
    ((nx (.syncReceived 0 (syncOf false).symbols 0 1000) synced).port 0).sync = some ⟨2, false, 0⟩ ∧
    (nx (.syncReceived 0 (syncOf true).symbols 0 1000) synced).tbs = synced.tbs ∧
    (nx (.syncReceived 0 (syncOf false).symbols 0 1000) synced).tbValue 0 = synced.tbValue 0 + ((synced.syncTime (syncOf false) : Int) + synced.delayIn 0 - (synced.tb 0).atEt 0) ∧
    (nx (.syncReceived 0 (syncOf false).symbols 0 1000) synced).ring.first = false ∧
    (readSync ((nx (.syncReceived 0 (syncOf false).symbols 0 1000) synced).port 1).timeOut).map SyncSet.hops = some 3 := by decide +kernel
/-- The ring ends at West: the SYNC goes back East with no hop more (R362). -/
theorem test_syncWrap : let t := nx (.syncReceived 0 (syncOf false).symbols 0 1000) (withLink 2 {} synced)
    (withLink 2 {} synced).carries 1 = false ∧ (readSync (t.port 0).timeOut).map (fun y => (y.hops, y.wrapped)) = some (2, true) := by decide +kernel
theorem test_syncLoss : synced.getB (rngBase + 0x40) 0 = false ∧ ((nx .syncLossTimeout synced).tb 0).holdover = true ∧
    (nx .syncLossTimeout synced).cycle = 4 * synced.syncCycles := by decide +kernel
theorem test_export : let s := withRegs [(rngBase + 0x80, 2 ^ 15)] linked
    s.getB (rngBase + 0x80) 15 = true ∧ (nx (.exportFrameReceived 1 15 false) s).getB (rngBase + 0x14) 31 = true ∧
    (nx (.exportFrameReceived 1 15 false) { s with ctl := { s.ctl with mode := 4 } }).reg (rngBase + 0x84) = 1 := by decide +kernel
theorem test_exportSend : let s := withRegs [(rngBase + 0x140 + 4 * 15, 2), (rngBase + 0x100 + 4 * 15, 0xFF)] linked
    s.canSend 1 2 = true ∧ s.ring.num.isSome = true ∧ (nx (.exportSend 15) s).reg (rngBase + 0x140 + 4 * 15) = 1 ∧
    Tab.get (fun _ => 0) ((nx (.exportSend 15) s).link 1).credit 2 = 3 := by decide +kernel
theorem test_stateWake : (nx (.stateFrameReceived 0 63 true) linked).ring.recess = [(63, true)] ∧
    let s := withRegs [(glbBase + 0x64, 2 ^ 22)] { linked with ctl := resting.ctl }
    s.ctl.mode = 4 ∧ s.getB (glbBase + 0x64) 22 = true ∧ s.carries 1 = true ∧ (nx (.wakeFrameReceived 1) s).ctl.recess = .locking := by decide +kernel
theorem test_wakeSend : let s : State := { rdy with ring := { num := some 3 } }
    s.Reaches 0 (rngBase + 0x88) ∧ s.carries 0 = false ∧ s.carries 1 = false ∧
    (nx (.wakeSendWrite 0 0xFF) s).ring.wait = [{ port := 0, cls := 3, typ := 5, dest := 0xFF }] := by decide +kernel
theorem test_data : let s := linked.setReg (rngBase + 0xB0) 255
    linked.ringFull .drx = false ∧ linked.storeUp (isNear (linked.ringSlot .drx 0)) = true ∧ (nx (.dataFrameReceived 1 [1, 2] [5] 0) linked).reg (rngBase + 0xB0) = 1 ∧
    (nx (.dataFrameReceived 1 [1, 2] [5] 0) linked).ring.rx = [] ∧ (linked.setReg (rngBase + 0xB0) (wd (linked.ringSize .drx - 1))).ringFull .drx = true ∧
    (nx (.dataFrameReceived 1 [1, 2] [5] 0) (linked.setReg (rngBase + 0xB0) (wd (linked.ringSize .drx - 1)))).ring.rx.length = 1 ∧
    (nx .drxSlotWrite ((nx (.dataFrameReceived 1 [1, 2] [5] 0) (linked.setReg (rngBase + 0xB0) (wd (linked.ringSize .drx - 1)))).setReg (rngBase + 0xB0) 0)).reg (rngBase + 0xB0) = 1 ∧
    s.ring.rx = [] := by decide +kernel
/-- A DATA frame of two bytes to every node is set up. -/
def dtxReady (n : Nat) : State := withRegs [(rngBase + 0x98, 0xFF008000 + n)] { linked with mem := [(1, 7)] }
/-- The frame of `dtxReady 2`. -/
def dtxTwo (data : Option (List Byte)) : Dtx := { dest := 0xFF, id := 0, tsReq := true, addr := 0, len := 2, data := data }
/-- It waits: with room in the FLW port's bucket its payload is read at once; with none it waits for it. -/
def dtxWaits (s : State) : State := State.setReg { s with ring := { s.ring with dtx := some (dtxTwo none) } } (rngBase + 0xA0) 16
theorem test_dtx : (dtxReady 2).Reaches 0 (rngBase + 0x9C) ∧ ((dtxWaits (dtxReady 2)).portRun 3 false 0 2).isSome = true ∧ (dtxReady 2).readOk 0 2 = true ∧
    (dtxReady 256).readOk ((dtxReady 256).reg64 (rngBase + 0x90)) 256 = true ∧
    (nx (.dtxGo 0 1) (dtxReady 2)).ring.dtx = some (dtxTwo (some [0, 7])) ∧ (nx (.dtxGo 0 1) (dtxReady 2)).reg (rngBase + 0xA0) = 16 ∧
    (nx (.dtxGo 0 1) (dtxReady 257)).reg (rngBase + 0xA0) = 2 ∧ (nx (.dtxGo 0 1) (dtxReady 257)).ring.dtx = none := by decide +kernel
theorem test_dtxSent : let s := nx (.dtxGo 0 1) (dtxReady 2)
    s.ring.dtx = some (dtxTwo (some [0, 7])) ∧ s.canSend 1 4 = true ∧ s.carries 0 = true ∧ Tab.get (fun _ => false) s.ring.recess 0xFF = false ∧ (nx (.dtxSofSent 500) s).reg (rngBase + 0xA0) = 1 ∧
    (nx (.dtxSofSent 500) s).ring.tsq.length = 1 ∧ (nx (.dtxSofSent 500) s).ring.dtx = none ∧
    (nx (.tsqPop 0 1) (nx (.dtxSofSent 500) s)).ring.tsq = [] := by decide +kernel
theorem test_pps : let s : State := { rdy with cycle := 10, tbs := [(1, { counting := true })], tk := { ppsSet := some 3 } }
    (s.tb 1).follow = none ∧ (nx (.ppsEdge true 819200) s).tk.ppsSet = none ∧ (nx (.ppsEdge true 819200) s).tk.ppsAt = 10 ∧
    (nx (.ppsEdge true 819200) s).tbValue 1 = s.tbValue 1 + ((3 * unitsPerSec : Nat) - (s.tb 1).atEt 819200) ∧
    (nx (.ppsEdge false 819200) s).tk.ppsSet = some 3 ∧ ((nx .ppsLossTimeout s).tb 1).holdover = true ∧ (nx .ppsLossTimeout s).cycle = 880000000 := by
  decide +kernel
theorem test_set : let s : State := { master with tbs := [(0, { counting := true })] }
    s.Reaches 0 (tbBase 0 + 0x1C) ∧ s.commitTimeBad 0 (tbBase 0 + 0x10) = false ∧ (s.tb 0).follow = none ∧
    (nx (.timeBaseSet 0 0 0) (nx (.timeRegStageWrite 0 (tbBase 0 + 0x14) 5) s)).tbValue 0 = 5 * 65536 ∧
    (nx (.timeBaseSet 0 0 0) (nx (.timeRegStageWrite 0 (tbBase 0 + 0x14) 5) s)).ring.stepLeft = 4 ∧
    (nx (.timeRegStageWrite 0 (tbBase 1 + 0x14) 5) s).commitTimeValue 0 (tbBase 1 + 0x10) 0 % unitsPerSec ≠ 0 ∧
    (nx (.timeBaseSet 0 1 0) (nx (.timeRegStageWrite 0 (tbBase 1 + 0x14) 5) s)).tk = s.tk := by decide +kernel
theorem test_conversion : rdy.Reaches 0 (tkpBase + 0x44) ∧ (∀ b, b < 4 → (rdy.tbSrc b).counting = false) ∧
    (nx (.convBeatWrite 0 9) (withRegs [(tkpBase + 0x4C, 1)] rdy)).reg (tkpBase + 0x4C) = 0 := by decide +kernel
theorem test_bellArm : rdy.Reaches 0 (bellBase 15 + 0x10) ∧ fld (0x171 : Word) 1 0 = 1 ∧ bit (0x171 : Word) 8 = true ∧
    ((nx (.bellArm 0 15 0x171) rdy).bell 15).st = 1 ∧ ((nx (.bellArm 0 15 0x171) rdy).bell 15).gen = 7 ∧
    (nx (.bellArm 0 15 0x171) rdy).reg (rngBase + 0x198) = 241 ∧ ((nx (.bellDisarm 0 15 2) (nx (.bellArm 0 15 0x171) rdy)).bell 15).st = 0 := by decide +kernel
theorem test_bellTooLate : let s : State := { linked with tbs := [(0, { counting := true, base := 100 })] }
    s.time4 (bellBase 0) ≤ s.tbNow 0 + s.bellGuard ∧ (nx (.bellArm 0 0 0x71) s).reg (rngBase + 0x198) = 2 ∧
    let u := withRegs [(bellBase 0 + 8, 5)] s
    u.tbNow 0 + u.bellGuard < u.time4 (bellBase 0) ∧ ((nx (.bellArm 0 0 0x71) u).bell 0).st = 1 ∧
    ((nx (.bellArm 0 0 0x71) u).bell 0).time = u.time4 (bellBase 0) := by decide +kernel
/-- The Bell sets to be repeated: Bell, GEN, copies left, due. -/
def left (s : State) : List (Nat × Nat × Nat × Nat) := s.bel.repeats.map fun r => (r.1, r.2.1, r.2.2.2.2.1, r.2.2.2.2.2)
theorem test_bellRing : linked.Reaches 0 (rngBase + 0x1A0) ∧ linked.ring.closed = false ∧ ((nx (.bellRingWrite 0 0x72) linked).bell 2).latch = some (7, 3) ∧
    left (nx (.bellRingWrite 0 0x72) linked) = [(2, 7, 2, 80)] ∧ (nx (.bellRingWrite 0 0x72) linked).reg (rngBase + 0x198) = 36 ∧
    left (nx .bellRepeatSend (nx (.bellRingWrite 0 0x72) linked)) = [(2, 7, 1, 160)] ∧
    left (nx .bellRepeatSend (nx .bellRepeatSend (nx (.bellRingWrite 0 0x72) linked))) = [] := by decide +kernel
theorem test_bellSet : let s : State := { linked with bel := { bells := [(2, { st := 1, gen := 7 })] } }
    let x (gen : Nat) (c : Bool) : List Byte := (⟨2, gen, 255, c⟩ : BellSet).symbols
    (s.link 2).up = true ∧ readBell (x 7 true) = some ⟨2, 7, 255, true⟩ ∧ s.carries 0 = true ∧ s.ring.num ≠ some 255 ∧
    ((nx (.bellSetReceived 1 (x 7 false)) s).bell 2).latch = some (7, 255) ∧ ((nx (.bellSetReceived 1 (x 7 true)) s).bell 2).st = 4 ∧
    ((nx (.bellSetReceived 1 (x 6 true)) s).bell 2).st = 1 ∧ ((nx (.bellSetReceived 1 (x 7 true)) s).link 1).sent = [x 7 true] := by decide +kernel
theorem test_bellDecision : let s : State := { synced with bel := { bells := [(2, { st := 1, gen := 7 })] } }
    (s.bell 2).latch = none ∧ ((nx (.bellDecision 2) s).bell 2).st = 3 ∧ (nx (.bellDecision 2) s).reg (rngBase + 0x194) = 1 := by decide +kernel
theorem test_bellIn : let s : State := { synced with bel := { bells := [(2, { st := 1, pin := true, armAt := 3 })] } }
    3 * 20480 ≤ 61440 ∧ ((nx (.bellInEdge 61440) s).bell 2).st ≠ 1 ∧ (nx (.bellInEdge 61440) s).cycle = 4 := by decide +kernel
theorem test_bellS : let s : State := { synced with bel := { bells := [(2, { st := 2, sAt := [409600, 819200] })] } }
    ((nx (.bellInstantS 2) s).bell 2).sAt = [819200] ∧ (nx (.bellInstantS 2) s).cycle = 20 ∧ (nx (.bellInstantS 2) s).getB (rngBase + 0x10) 8 = true := by decide +kernel

/-! ### The Satchel and the Gallery -/

theorem test_regRead : let s := { linked.setReg (corBase + 0x40) 0x1234 with sat := rdy.sat }
    s.regrdOk 5 false (corBase + 0x40) 4 = true ∧ (nx (.satchelRegrdRequest 5 false (corBase + 0x40) 4) s).sat.reads.map (·.data) = [[0x34, 0x12, 0, 0]] ∧
    s.satUp = true ∧ ((nx (.satchelRegrdRequest 5 false (corBase + 0x40) 4) s).sat.reads.all fun r => s.satReady false 1 (completionMsgs r).length) = true ∧
    (nx (.satchelRegrdRequest 5 false (corBase + 0x40) 4) s).satCredit true 1 = s.satCredit true 1 - 1 ∧ 1 ≤ s.satCredit true 1 ∧ (nx (.satchelRegrdCompletion 5) (nx (.satchelRegrdRequest 5 false (corBase + 0x40) 4) s)).lastRead = 0x1234 ∧
    (nx (.satchelRegrdCompletion 5) (nx (.satchelRegrdRequest 5 false (corBase + 0x40) 4) s)).sat.reads = [] := by decide +kernel
theorem test_postedWrite : hostPage (flwBase + 8) = false ∧ linked.satUp = true ∧ linked.satReady true 2 1 = true ∧ linked.Reaches 0 (flwBase + 8) ∧
    bit (wd (ofBytesLE [1, 0, 0, 0])) 1 = false ∧ (nx (.satchelRegwr false (flwBase + 8) [1, 0, 0, 0]) linked).getB (flwBase + 8) 0 = true := by decide +kernel
/-- A register write of 4 bytes to 0x123456780 as it is in a frame: header, address, data. -/
theorem test_satMsg : (writeMsg 0x123456780 [1, 2, 3, 4]).words.length = 4 ∧
    readSat (((writeMsg 0x123456780 [1, 2, 3, 4]).words.flatMap fun x => bytesLE 4 x.toNat) ++ [1, 2, 3, 4]) = writeMsg 0x123456780 [1, 2, 3, 4] := by decide +kernel
theorem test_satTime : linked.satReady false 5 1 = true ∧ (nx .satchelTime { linked with sat := { linked.sat with timeTx := [(9, true, false)] } }).sat.hostTime = some (9, true, false) ∧
    (nx .satchelTimeSend linked).cycle = 800000 ∧ (nx .satchelTimeSend linked).sat.timeTx.length = 1 ∧
    (nx (.hostSensorReadingSend [(60, 5)]) linked).cycle = 800000 ∧ (nx (.hostSensorReadingSend [(3, 5)]) linked).sat.flowDown = [.sensors []] := by decide +kernel
/-- With no credit of its class no FLOW message crosses. -/
theorem test_satNoCredit : (linked.setF (satCreditReg true 6) 7 0 0).satReady true 6 1 = false ∧ linked.satReady true 6 1 = true := by decide +kernel
theorem test_satFlow : linked.satReady false 6 1 = true ∧ (linked.dma 7).st = 0 ∧ linked.host.d3hot = false ∧ modePermits .dma linked.ctl.mode linked.prune.stage = true ∧ (nx (.satchelFlow false) { linked with sat := { linked.sat with flowDown := [.autoEn true] } }).ctl.autoEn = true ∧
    ((nx (.satchelFlow true) { linked with sat := { linked.sat with flowUp := [.dmaStart 7 0x60] } }).dma 7).st = 2 ∧
    (nx (.satchelFlow true) { linked with sat := { linked.sat with flowUp := [.dmaStart 7 0x60] } }).sat.flowUp = [] ∧
    ({ rdy with sat := {} } : State).satUp = false := by decide +kernel
theorem test_satEvents : let s : State := { linked with sat := { linked.sat with evtTx := [(47, 8, some 3)], evtRx := [77] }, msix := { unmasked := [(3, true)] } }
    s.satReady false 4 1 = true ∧ s.satReady true 4 1 = true ∧ s.msix.fnMask = false ∧ Tab.get (fun _ => 0) (nx .satchelEventToHost s).sat.shadow 47 = 8 ∧ (nx .satchelEventToHost s).msix.sent = [(3, 1)] ∧
    (nx .satchelEventToField s).cor.pulses = [⟨77, 0, false⟩] ∧ (nx .satchelEventToField s).sat.evtRx = [] := by decide +kernel
theorem test_satDown : let s := withLink 3 {} linked
    (s.link 3).up = false ∧ (nx .satchelLinkDown s).sat.hostUp = false ∧ (nx .satchelLinkDown s).reg (sat0Base + 0x60) = 1 ∧
    (nx .satchelLinkDown s).ctl.hostMode = some 3 := by decide +kernel
theorem test_satUp : let s : State := { linked with cycle := 1600000, sat := {}, ctl := { linked.ctl with hostMode := some 3 } }
    s.satUp = false ∧ (nx .satchelLinkUp s).satUp = true ∧ (nx .satchelLinkUp s).reg (sat0Base + 0x6C) = 2 ∧ (nx .satchelLinkUp s).ctl.hostMode = none ∧
    (nx .satchelLinkUp s).getF (glbBase + 0x54) 15 12 = 0 := by decide +kernel
theorem test_traceArm : rdy.Reaches 0 (galBase + 0x44) ∧ (nx .traceArm rdy).gal.trace.st = 2 ∧ (nx .traceArm (withRegs [(galBase + 0x40, 0x10000)] rdy)).gal.trace.st = 1 ∧
    (nx .traceStop (nx .traceArm rdy)).gal.trace.st = 4 ∧ (nx .traceStop (nx .traceArm rdy)).gal.trace.cause = 1 ∧
    (nx .traceArm (nx .traceArm rdy)).gal = (nx .traceArm rdy).gal ∧ (nx .traceStop (nx .traceArm rdy)).getB (galBase + 0x10) 0 = true := by decide +kernel
theorem test_spill : let s : State := { rdy with gal := { trace := { st := 4, cfg := 0x80000000, recs := [⟨1, false, false, 3, 0, 0, 9⟩] } } }
    s.ringFull .spill = false ∧ s.prune.stage < 3 ∧ (s.ringRun .spill (s.ringSlot .spill 0) 32).isSome = true ∧
    (s.ringPush .spill (wordBytes (s.gal.trace.recs.flatMap TraceRec.words))).isSome = true ∧ (nx .spillRecordWritten s).gal.trace.recs = [] ∧ (nx .spillRecordWritten s).reg (galBase + 0x64) = 1 := by
  decide +kernel
theorem test_counts : let s : State := { rdy with gal := { cnts := [(0, { live := 5, ovf := true, en := true })] } }
    s.Reaches 0 (gal1Base + 0x4C) ∧ ((nx .counterSnap s).counter 0).shadow = 5 ∧ ((nx .counterClearAll s).counter 0).live = 0 ∧ s.cntSel = 0 ∧
    s.Reaches 0 (gal1Base + 0x44) ∧ ((nx (.cntCfgWrite 0x90000123) s).counter 0).mode = 1 ∧ ((nx (.cntCfgWrite 0x90000123) s).counter 0).source = 0x123 ∧
    ((nx (.cntCfgWrite 0xA0000123) s).counter 0).source = 0 ∧ ((nx (.cntCfgWrite 0xA0000123) s).counter 0).ovf = false := by decide +kernel
theorem test_tap : Tab.get (fun _ => 0) (nx (.tapGaladdr 1 (2 ^ 32 + 8)) rdy).gal.tapAddr 1 = 8 ∧
    (nx (.tapGaldata 1) { rdy with ctl := { rdy.ctl with mode := 1 } }).lastRead = 0 ∧
    Tab.get (fun _ => 0) (nx (.tapGaldata 1) (nx (.tapGaladdr 1 0xFFFFFFFC) rdy)).gal.tapAddr 1 = 0 ∧
    (nx (.tapGaldata 0) { rdy with sat := { fieldUp := true } }).lastRead = 0xFFFFFFFF := by decide +kernel

/-! ### Words and Roll calls -/

/-- The worked example of chapter 18: node 3 of a ring of eight whose node 2 is powered down, after the roll call in which the link closes over
the bypass, and after the next one. -/
def bypassing : State :=
  let s : State := { linked with regs := [(rngBase + 0x48, 3), (rngBase + 0x4C, 0)] }
  (s.setRing { s.ring with known := [0, 1, 2, 3, 4, 5, 6, 7], byp := [(2, 4260, 4096)] }).setPort 1 { s.port 1 with nbrUid := 1 }
/-- The roster of its FORMED: numbers and UIDs. -/
def sevenNodes : List (Nat × Nat) := [(0, 0), (1, 1), (3, 3), (4, 4), (5, 5), (6, 6), (7, 7)]
theorem test_bypassed : let t := bypassing.applyFormed false false sevenNodes false false
    let u := t.applyFormed false false sevenNodes false false
    (t.port 1).bypassed = 1 ∧ (t.port 1).asymUnknown = false ∧ t.reg (rngBase + 0x78) = 328 ∧ (t.port 0).bypassed = 0 ∧
    t.ring.known = [0, 1, 2, 3, 4, 5, 6, 7] ∧ (u.port 1).bypassed = 1 ∧ u.reg (rngBase + 0x78) = 328 := by decide +kernel
/-- A broadcast's credit returns once both its slot is written and its copy has left (R376). -/
theorem test_broadcastCredit : let s := nx (.dataFrameReceived 1 [wd (0xFF000000 + 8 * 2 ^ 16), 0] [] 0) (nx (.creditFrameReceived 0 0 0 3) linked)
    let t := nx (.ringFrameForward 1 (ringBody 0xFF 8 1 4 0)) s
    (s.link 2).owed = [] ∧ (s.link 2).copied = -1 ∧ (t.link 2).owed = [(4, 1)] ∧ (t.link 2).copied = 0 ∧ t.buffersHeld 2 4 = 0 := by decide +kernel
theorem test_rosterOther : rdy.uid + 1 ≠ rdy.uid := Nat.succ_ne_self _
theorem test_illFormedRoster : (.rosterReceived 2 (rosterOf 0 false).payload : Instr).wf = false ∧ (.rosterReceived 1 [] : Instr).wf = false ∧
    (.rosterReceived 1 (rosterOf 0 false).payload : Instr).wf = true := by decide +kernel
theorem test_noWordSpells : decodeTableWord 32 0xFFFFFFFF = none ∧ rdy.withFetchWord 32 7 = rdy := ⟨rfl, rfl⟩

/-! ### Ill-formed commands -/

theorem test_illFormed1 : ([
   .timeRegWord0Read 3 0, .timeRegWord0Read 0 0x4000000, .timeRegWord0Read 0 2, .timeRegStageWrite 3 0 0, .timeRegStageWrite 0 0x4000000 0,
    .timeRegStageWrite 0 2 0, .timeRegCommit 3 0 0, .timeRegCommit 0 0x4000000 0, .timeRegCommit 0 2 0, .reg64LowRead 3 0,
    .reg64LowRead 0 0x4000000, .reg64LowRead 0 2, .reg64LowWrite 3 0 0, .reg64LowWrite 0 0x4000000 0, .reg64LowWrite 0 2 0,
    .reg64HighWrite 3 0 0, .reg64HighWrite 0 0x4000000 0, .reg64HighWrite 0 2 0, .registerWrite 3 0 0 0, .registerWrite 0 (2 ^ 26) 0 0,
    .registerWrite 0 0 0 16, .rcRead 3 0, .rcRead 0 0x4000000, .rcRead 0 2, .evPendClear 3 0 0, .evPendClear 0 0x4000000 0,
    .evPendClear 0 0x800 0, .evEnWrite 3 0 0, .evEnWrite 0 0x4000000 0, .evEnWrite 0 0x800 0, .evTestWrite 3 0 0,
    .evTestWrite 0 0x4000000 0, .evTestWrite 0 0x800 0, .pageSrst 3 0 0, .pageSrst 0 0x4000000 0, .pageSrst 0 0x800 0,
    .pageSrstDone 0x4000000, .pageSrstDone 0x800, .msixUnmask (some 256), .sensorSample [] 65536 0 0] : List Instr).all (fun c => !c.wf) = true := by decide +kernel
theorem test_illFormed2 : ([
   .sensorSample [] 0 65536 0, .sensorSample [] 0 0 65536, .sensorSample ([(64, 0)]) 0 0 0, .sensorSample ([(0, 4096)]) 0 0 0,
    .alwaysOnTick 65536 0, .alwaysOnTick 0 32, .modeReq 16, .modeReqAbort 16, .recessWakeDue 4, .hostAccessInRecess 3 0 false 0,
    .hostAccessInRecess 0 0x4000000 false 0, .hostAccessInRecess 0 2 false 0,
    .resetCtrlPart 65536 (⟨true, true, true, true, true, 0, 0, 0, 0, 0, 0⟩) (⟨true, true, true, true, true, 0, 0, 0, 0, 0, 0⟩),
    .resetCtrlField 65536,
    .resetCtrlBankSwitch 65536 (⟨true, true, true, true, true, 0, 0, 0, 0, 0, 0⟩) (⟨true, true, true, true, true, 0, 0, 0, 0, 0, 0⟩),
    .memTrainingDone 10 0 false 1 0 0 0 0 [], .memTrainingDone 0 0 false 1 (2 ^ 16) 0 0 0 [],
    .memTrainingDone 0 0 false 1 0 (2 ^ 8) 0 0 [], .memTrainingDone 0 0 false 1 0 0 (2 ^ 16) 0 [],
    .memTrainingDone 0 0 false 1 0 0 0 (2 ^ 16) [], .memTrainingDone 0 0 false 0 0 0 0 0 [], .memTrainingDone 0 0 false 9 0 0 0 0 [],
    .memTrainingDone 0 0 false 1 0 0 0 0 [64], .bootComplete (2 ^ 32) [], .chnDskConfigWrite 3 0 0, .chnDskConfigWrite 0 0x4000000 0,
    .chnDskConfigWrite 0 2 0, .stagedConfigApply 0x4000000, .stagedConfigApply 0x800, .peClusterPowerUpDone 32, .pecStart 8 0,
    .pecAbort 8 0, .pecTransferEnd 8 [], .timesetCommit 3 0 0 0, .timesetCommit 0 16 0 0, .timesetCommit 0 0 256 0, .seqPage2Write 3 0 0,
    .seqPage2Write 0 0x4000000 0, .seqPage2Write 0 2 0, .stagedSeqConfigApply 16] : List Instr).all (fun c => !c.wf) = true := by decide +kernel
theorem test_illFormed3 : ([
   .edgeSlotCommit 3 0 0 0, .edgeSlotCommit 0 256 0 0, .edgeSlotCommit 0 0 384 0, .burstCtrlStart 16 0, .burstCtrlStop 16 0,
    .burstCtrlAbort 16 0, .jmpReqWrite 16 0, .burstAdmissionComplete 16, .burstSReached 16, .segmentStart 16, .commitPoint 16,
    .descriptorArrival 16 0, .descriptorArrival 0 1048576, .matchResultReady 16, .granuleJudge 16, .parkPoint 16, .parkComplete 16 0,
    .parkComplete 0 (2 ^ 32), .refillBlockArrival 32 0, .refillBlockArrival 0 3, .stagerBlockCopy 16, .verdictsFormed 16 [],
    .ringReadPointerWrite 3 0 0, .ringReadPointerWrite 0 0x4000000 0, .ringReadPointerWrite 0 2 0, .ringReconfigApply 6,
    .captureBlockWritten 32, .ecapTransition 16 0 0 0, .ecapTransition 0 0 4 0, .ecapTransition 0 0 0 4, .ecapRecordWritten 16,
    .cmpSrstApply 3, .sigSrstApply 32, .chkFeedB 8 0, .chkFeedH 8 0, .chkFeedW 8 0, .chkLoadInit 8 0, .chkCheck 8 0, .chkStart 8 0,
    .chkAbort 8 0] : List Instr).all (fun c => !c.wf) = true := by decide +kernel
theorem test_illFormed4 : ([
   .chkRunCommit 8 0, .chkRunCommit 0 (2 ^ 32), .chkRegWrite 3 0 0, .chkRegWrite 0 0x4000000 0, .chkRegWrite 0 2 0,
    .tdcInputEdge 0x300 0 false, .tdcStart 64 0, .tdcStop 64 0, .tdcAbort 64 0, .tdcRecordWritten 64 0, .tdcRecordWritten 0 (2 ^ 32),
    .tdcTimeout 64, .tdcGateEnd 64, .fcGateEnd 8, .fcConfigWrite 3 0 0, .fcConfigWrite 0 0x4000000 0, .fcConfigWrite 0 2 0,
    .portRequest 6 0 false 0 [], .portRequest 0 (2 ^ 48) false 0 [], .portRequest 0 0 false 64 [],
    .portRequest 0 0 false 0 (List.replicate 65 0), .memoryIssue 10 0 0, .memoryIssue 0 32 0, .memoryIssue 0 0 3,
    .memoryReadComplete 10 0 0, .memoryReadComplete 0 64 0, .memoryReadComplete 0 0 3, .trefiTick 10 0 0, .trefiTick 0 64 0,
    .trefiTick 0 0 32, .refreshComplete 10 0 0 none, .refreshComplete 0 64 0 none, .refreshComplete 0 0 32 none,
    .refreshComplete 0 0 0 (some 32), .realtimeHoldEnd 10 0 0, .realtimeHoldEnd 0 64 0, .realtimeHoldEnd 0 0 32, .dramTempPoll 10 0 0,
    .selfRefreshEntry 10, .selfRefreshExit 10] : List Instr).all (fun c => !c.wf) = true := by decide +kernel
theorem test_illFormed5 : ([
   .mapMaskCommit 3 false 0 0, .mapMaskCommit 0 false 11 0, .scrubAccess 10 0 0, .scrubAccess 0 (2 ^ 48) 0, .scrubAccess 0 0 3,
    .regCfgWrite false 6 0, .taskImageWrite 8 0, .taskSubmit 8, .taskAdd 4 0, .taskAdd 0 65536, .sqPush 8, .taskComplete 4096 0,
    .taskComplete 0 (2 ^ 32), .taskAgeStep 4096, .dlInsert 4, .dlCancel 4, .dlCancelAll 4, .delayEntryFire 4, .consumerPulse 512,
    .selectorWrite 512 0, .gpeInEdge 16 false, .gpeInRecessEdge 16 false, .gpeOutPulseEnd 16, .itemCommit [] [] (2 ^ 32),
    .calEngineRelease 64, .deskAdoptVintage 32, .slotFlagsWrite 16 0, .vintageFlashSave 16, .laneDisableWrite 3 0 0,
    .laneDisableWrite 0 24 0, .laneRetrainWrite 3 0 0, .laneRetrainWrite 0 24 0, .laneDetect 40, .tsReceived 40 (List.replicate 16 0),
    .tsReceived 0 [], .trainTrialEnd 40 0 0, .laneSymbolLock 40, .lockTimeout 40, .capsReceived 40 (List.replicate 16 0) 0,
    .capsReceived 0 [] 0] : List Instr).all (fun c => !c.wf) = true := by decide +kernel
theorem test_illFormed6 : ([
   .laneLockLoss 40 0, .laneFrameReceived 4 (List.replicate 4 0) [] (List.replicate 4 0),
    .laneFrameReceived 0 (List.replicate 4 0) (List.replicate 17 []) (List.replicate 4 0), .laneFrameReceived 0 [] [] (List.replicate 4 0),
    .laneFrameReceived 0 (List.replicate 4 0) [] [], .ackReceived 4 (List.replicate 4 0), .ackReceived 0 [], .replayTimeout 4,
    .stripeReceived 4 (List.replicate 8 0), .stripeReceived 0 [], .auditReceived 4 (List.replicate 16 0), .auditReceived 0 [],
    .auditTimeout 4, .restripeComplete 4 [], .widenTimerExpire 4, .fillerDue 4, .idleSetReceived 40, .fillerReceived 40, .laneFreeze 40,
    .sleepLockTimeout 40, .diagStart 24 0, .diagAbort 24 0, .diagComplete 24 0, .ringFrameForward 2 (List.replicate 12 0),
    .ringFrameForward 0 (List.replicate 269 0), .ringFrameForward 0 [], .creditFrameReceived 2 0 0 0, .creditFrameReceived 0 256 0 0,
    .creditFrameReceived 0 0 256 0, .creditFrameReceived 0 0 0 256, .creditReturnTimer 4, .exportFrameReceived 2 0 false,
    .exportFrameReceived 0 16 false, .exportSend 16, .rollCtrlStart 3 0, .rollReqReceived 2, .rollcallReceived 2 0,
    .rollcallReceived 0 (2 ^ 32), .helloReceived 2 0, .helloReceived 0 (2 ^ 64)] : List Instr).all (fun c => !c.wf) = true := by decide +kernel
theorem test_illFormed7 : ([
   .rosterReceived 2 (List.replicate 40 0), .rosterReceived 0 [], .formedReceived 2 [] false false,
    .formedReceived 0 (List.replicate 257 0) false false, .stateFrameReceived 2 0 false, .stateFrameReceived 0 64 false,
    .wakeFrameReceived 2, .wakeSendWrite 3 0, .dataFrameReceived 2 [] [] 0, .dataFrameReceived 0 [] (List.replicate 257 0) 0, .dtxGo 3 0,
    .tsqPop 3 0, .delayExchangeTimer 2, .dreqReceived 2 (List.replicate 16 0) 0 0, .dreqReceived 0 [] 0 0,
    .drespReceived 2 (List.replicate 16 0) 0, .drespReceived 0 [] 0, .syncReceived 2 (List.replicate 16 0) 0 0, .syncReceived 0 [] 0 0,
    .timeBaseSet 3 0 0, .timeBaseSet 0 4 0, .convBeatWrite 3 0, .bellArm 3 0 0, .bellArm 0 16 0, .bellDisarm 3 0 0, .bellDisarm 0 16 0,
    .bellRingWrite 3 0, .bellSetReceived 2 (List.replicate 4 0), .bellSetReceived 0 [], .bellDecision 16, .pcieLinkChange false false 64 0,
    .pcieLinkChange false false 0 16, .bar2Access (2 ^ 36) false [] 0, .bar2Access 0 false [] 4097,
    .bar2Access 0 false (List.replicate 4097 none) 0, .dmaCtrlStart 8, .dmaCtrlAbort 8, .dmaDescriptorReadDone 8, .dmaDescriptorComplete 8,
    .dmaHostCompletionError 8] : List Instr).all (fun c => !c.wf) = true := by decide +kernel
theorem test_illFormed8 : ([
   .satchelRegrdRequest 32 false 0 0, .satchelRegrdRequest 0 false (2 ^ 36) 0, .satchelRegrdRequest 0 false 0 4097,
    .satchelRegrdCompletion 32, .satchelRegwr false (2 ^ 36) [], .satchelRegwr false 0 (List.replicate 257 0), .satchelDmaData 8 0,
    .satchelDmaData 0 257, .flashRead 512, .flashProgram 512, .flashErase 512, .tapGaladdr 2 0, .tapGaladdr 0 (2 ^ 32), .tapGaldata 2,
    .hostSensorReadingSend ([(64, 0)]), .hostSensorReadingSend ([(0, 4096)]), .bellInstantS 16, .hostReadCompletion 8 [],
    .pcieCompletionTimeout 8] : List Instr).all (fun c => !c.wf) = true := by decide +kernel
theorem test_wellFormed : ([
   .timeRegWord0Read 0 0, .timeRegStageWrite 0 0 0, .timeRegCommit 0 0 0, .reg64LowRead 0 0, .reg64LowWrite 0 0 0, .reg64HighWrite 0 0 0,
    .registerWrite 0 0 0 0, .rcRead 0 0, .evPendClear 0 0 0, .evEnWrite 0 0 0, .evTestWrite 0 0 0, .pageSrst 0 0 0, .pageSrstDone 0,
    .msixUnmask none, .sensorSample [] 0 0 0, .alwaysOnTick 0 0, .modeReq 0, .modeReqAbort 0, .recessWakeDue 0,
    .hostAccessInRecess 0 0 false 0, .memTrainingDone 0 0 false 1 0 0 0 0 [], .tsReceived 0 (List.replicate 16 0),
    .capsReceived 0 (List.replicate 16 0) 0, .laneFrameReceived 0 (List.replicate 4 0) [] (List.replicate 4 0),
    .ackReceived 0 (List.replicate 4 0), .stripeReceived 0 (List.replicate 8 0), .auditReceived 0 (List.replicate 16 0),
    .ringFrameForward 0 (List.replicate 12 0), .rosterReceived 0 (List.replicate 40 0), .dreqReceived 0 (List.replicate 16 0) 0 0,
    .drespReceived 0 (List.replicate 16 0) 0, .syncReceived 0 (List.replicate 16 0) 0 0, .bellSetReceived 0 (List.replicate 4 0)] : List Instr).all Instr.wf = true := by decide +kernel

end Sys2Proof.Tests
end

section
/-! Rules of 00_scope.md: accesses of absent pages (R2, R48), and the NS of times (R4, R5). -/

namespace Sys2Proof.Machine

/-! ### Absent pages (R2, R48) -/

/-- A reserved address, and one of a unit that the member does not have, is absent whatever the field side's state (R48). -/
theorem State.gate_absent (s : State) {a : Nat} (h : pageOf a = none) : s.gate a = .absent := by
  unfold State.gate; rw [h]

/-- A read of an absent page that the endpoint takes answers 0 and has no effect besides. -/
theorem State.hostRead_absent {s : State} {req a : Nat} (hd : req = 0 → s.host.d3hot = false) (h : pageOf a = none)
    (k : State → Word × State) : s.hostRead req a k = s.setRead 0 := by
  have hAwake : ¬(req = 0 ∧ s.host.d3hot = true) := fun ⟨hr, hs⟩ => Bool.false_ne_true ((hd hr).symm.trans hs)
  unfold State.hostRead
  rw [if_neg hAwake, s.gate_absent h]

/-- What a read answers is a part of its own. -/
theorem State.setRead_sameBut (s : State) (w : Word) : SameBut [.lastRead] s (s.setRead w) := by
  intro p hp
  cases p with
  | lastRead => exact absurd (List.mem_singleton_self _) hp
  | _ => rfl

/-- A write of an absent page goes nowhere. -/
theorem routeOut_absent {a : Nat} (h : pageOf a = none) (req : Nat) (v : Word) (s : State) : routeOut req a v s = .next s := by
  unfold routeOut; rw [h]

/-- The D3hot state that a requester other than the endpoint passes by is put back after its write (R395). -/
theorem State.routeWrite_absent (s : State) {a : Nat} (h : pageOf a = none) (req : Nat) (v : Word) : s.routeWrite req a v = s := by
  unfold State.routeWrite
  dsimp only
  rw [routeOut_absent h, routeOut_absent h]
  split <;> rfl

/-- A whole write of an aligned word of BAR0 is routed to its page (R49). -/
theorem exec_registerWrite_whole {a : Nat} (hlt : a < 0x4000000) (hal : a % 4 = 0) (req : Nat) (v : Word) (s : State) :
    exec (.registerWrite req a v 15) s = .next (s.routeWrite req a v) := by
  change execRegisterWrite req a v 15 s = _
  unfold execRegisterWrite
  rw [if_neg (by omega), if_neg (by omega)]

/-! ### The NS of a time (R4, R5) -/

/-- Word 1 of a time register is the whole nanoseconds within the second (R4). -/
theorem State.reg_setTime4_ns (s : State) (a n : Nat) : (s.setTime4 a n).reg (a + 4) = wd (n / 65536 % 1000000000) := by
  unfold State.setTime4 timeWords
  dsimp only
  rw [State.reg_setReg_ne _ _ (by omega), State.reg_setReg_ne _ _ (by omega), State.reg_setReg]

/-- The part never produces an NS above 999,999,999 (R5). -/
theorem State.setTime4_ns_le (s : State) (a n : Nat) : ((s.setTime4 a n).reg (a + 4)).toNat ≤ 999999999 := by
  rw [State.reg_setTime4_ns]
  unfold wd
  rw [BitVec.toNat_ofNat]
  omega

theorem State.commitTimeBad_iff (s : State) (req a : Nat) :
    s.commitTimeBad req a = true ↔ 999999999 < (s.commitWord req (a + 4)).toNat := decide_eq_true_iff

/-- A refused commit of a time register leaves the state as it is, the staged words too (R5). -/
theorem State.commitTime_bad {s : State} {req a : Nat} (h : s.commitTimeBad req a = true) (v : Word) : s.commitTime req a v = s := by
  unfold State.commitTime; rw [if_pos h]

/-- A refused commit of the `SET` of a time base neither steps the base nor takes the staged words (R5). -/
theorem State.tbSet_bad {s : State} {req b : Nat} (h : s.commitTimeBad req (tbBase b + 0x10) = true) (v : Word) :
    s.tbSet req b v = s := by
  unfold State.tbSet
  dsimp only
  rw [if_pos h]

/-- A commit of a time register below the time bases that reaches its page is the plain one. -/
theorem exec_timeRegCommit_plain {s : State} {req a : Nat} (hw : writable (a + 12) 4 = some a) (hlt : a + 12 < tkpBase)
    (hr : s.Reaches req (a + 12)) (v : Word) : exec (.timeRegCommit req (a + 12) v) s = .next (s.commitTime req a v) := by
  change execTimeRegCommit req (a + 12) v s = _
  unfold execTimeRegCommit
  rw [hw]
  dsimp only
  rw [if_neg (fun h => h rfl), if_neg (Nat.not_le.mpr hlt), State.hostWrite_reaches hr]

/-- A commit of the `SET` of a time base that reaches its page is the base's own (R371). -/
theorem exec_timeBaseSet_reaches {s : State} {req b : Nat} (hb : b < 4) (hr : s.Reaches req (tbBase b + 0x1C)) (v : Word) :
    exec (.timeBaseSet req b v) s = .next (s.tbSet req b v) := by
  change execTimeBaseSet req b v s = _
  unfold execTimeBaseSet
  rw [if_pos hb, State.hostWrite_reaches hr]

end Sys2Proof.Machine
end

section
/-! The obligations of 00_scope.md about absent pages and time values. -/

open Sys2Proof Sys2Proof.Machine

/-- Settles O8: the address is absent whatever the state of the part, for reads and for writes alike. -/
theorem absentPagesReadZero : Obligations.AbsentPagesReadZero := by
  intro req a v s hp hlt hal hd
  have hread : s.hostReadWord req a = s.setRead 0 := State.hostRead_absent hd hp _
  refine ⟨?_, ?_, ?_⟩
  · rw [hread, State.setRead_lastRead]
  · rw [hread]; exact s.setRead_sameBut 0
  · rw [exec_registerWrite_whole hlt hal, s.routeWrite_absent hp]

/-- Settles O9: both commits look at the NS before anything else, and the words of a time are made with an NS below 10^9. -/
theorem timeValuesKeepTheirNs : Obligations.TimeValuesKeepTheirNs := by
  refine ⟨?_, ?_, ?_⟩
  · intro req a v s hw hlt hr hns
    have hbad : s.commitTimeBad req a = true := (s.commitTimeBad_iff req a).mpr hns
    rw [exec_timeRegCommit_plain hw hlt hr, State.commitTime_bad hbad]
  · intro req b v s hb hr hns
    have hbad : s.commitTimeBad req (tbBase b + 0x10) = true := (s.commitTimeBad_iff req (tbBase b + 0x10)).mpr hns
    rw [exec_timeBaseSet_reaches hb hr, State.tbSet_bad hbad]
  · exact fun a n s => s.setTime4_ns_le a n

end

section
/-! Rules of 06_segments_sequencer.md: what the passing of time and a judged granule leave of a sequencer (R107, R109, R151). -/

namespace Sys2Proof.Machine

/-! ### The passing of time: descriptors and blocks stay as they are -/

/-- The two words of a timeset are no words that an occurrence writes (R86). -/
theorem evWord_tsAddr (q : Nat) {t : Nat} (h : t < 256) : evWord (tsAddr q t) = false ∧ evWord (tsAddr q t + 4) = false := by
  constructor <;> simp [evWord, tsAddr, seqBase, galBase] <;> omega

theorem State.eff_passTo (s : State) (c : Nat) {a : Nat} (h : evWord a = false) : (s.passTo c).eff a = s.eff a := by
  unfold State.eff; rw [State.passTo_chn, State.reg_passTo _ _ h]

theorem State.tsPeriod_passTo (s : State) (c q : Nat) {t : Nat} (h : t < 256) : (s.passTo c).tsPeriod q t = s.tsPeriod q t := by
  obtain ⟨hlo, hhi⟩ := evWord_tsAddr q h
  unfold State.tsPeriod State.eff64
  rw [State.eff_passTo _ _ hlo, State.eff_passTo _ _ hhi]

theorem Desc.ts_lt (d : Desc) : Desc.ts d < 256 := Nat.mod_lt _ (by decide)

theorem State.descCause_passTo (s : State) (c q len : Nat) (d : Desc) : (s.passTo c).descCause q len d = s.descCause q len d := by
  unfold State.descCause; rw [State.tsPeriod_passTo _ _ _ (Desc.ts_lt d)]

/-- A descriptor that passed R107 still passes it later. -/
theorem State.validDesc_passTo (s : State) (c q i : Nat) : (s.passTo c).validDesc q i = s.validDesc q i := by
  unfold State.validDesc; simp only [State.seqOf_passTo, State.descCause_passTo]

theorem State.lacking_passTo (s : State) (c q : Nat) : (s.passTo c).lacking q = s.lacking q := by
  unfold State.lacking; simp only [State.seqOf_passTo, State.slice_passTo]

/-- A valid descriptor is the one on the die. -/
theorem State.get_of_validDesc {s : State} {q i : Nat} {d : Desc} (h : s.validDesc q i = some d) :
    Tab.get (fun _ => []) (s.seqOf q).descs i = d := by
  unfold State.validDesc at h
  dsimp only at h
  split at h
  · cases h
  · split at h
    · exact Option.some.inj h
    · cases h

/-! ### Absorbed blocks: the buffers change, the sequencers do not (R138, R141) -/

@[simp] theorem State.seqOf_setSlice (s : State) (d q : Nat) (x : Slice) : (s.setSlice d x).seqOf q = s.seqOf q := rfl

@[simp] theorem State.seqOf_place (s : State) (d q : Nat) (p : Place) (k : Block) : (s.place d p k).seqOf q = s.seqOf q := rfl

@[simp] theorem State.seqOf_absorb (s : State) (q d fuel r : Nat) : (s.absorb q d fuel).seqOf r = s.seqOf r := by
  induction fuel generalizing s with
  | zero => rfl
  | succ fuel ih =>
    unfold State.absorb
    dsimp only
    split
    · rfl
    · split
      · rfl
      · split
        · rw [ih, State.seqOf_place, State.seqOf_setSlice]
        · split
          · rw [ih, State.seqOf_place, State.seqOf_setSlice]
          · rfl

@[simp] theorem State.seqOf_absorbAll (s : State) (q r : Nat) : (s.absorbAll q).seqOf r = s.seqOf r := by
  unfold State.absorbAll
  generalize (s.seqOf q).desks = l
  induction l generalizing s with
  | nil => rfl
  | cons d l ih => rw [List.foldl_cons, ih, State.seqOf_absorb]

/-! ### Judged granules (R151) -/

/-- Six granules before the end, the output of a granule records its start as the commit point (R109). -/
theorem State.outputGranule_cp (s : State) (q : Nat) (d : Desc) : ((s.outputGranule q d).seqOf q).cp =
    if (s.seqOf q).g + 6 = Desc.len d then some (s.seqOf q).t else (s.seqOf q).cp := by
  unfold State.outputGranule; rw [State.seqOf_setSeq]

/-- A granule that every source desk holds whole is output, with no abort and no episode of STRETCH. -/
theorem State.judgeNext_whole {s : State} {q : Nat} {d : Desc} (hd : s.validDesc q (s.seqOf q).idx = some d)
    (hl : s.lacking q = ([], [])) (ha : (s.seqOf q).abort = none) (hs : (s.seqOf q).stretching = false) :
    s.judgeNext q = (s.outputGranule q d).absorbAll q := by
  simp [State.judgeNext, hd, hl, ha, hs]

/-- Within an instance whose commit point is not yet reached, GRANULE_JUDGE judges the next granule in the cycle of its first vector. -/
theorem exec_granuleJudge_within {s : State} {q : Nat} {d : Desc} (hst : (s.seqOf q).st = 3) (hpark : (s.seqOf q).park = none)
    (hopen : (s.seqOf q).opening = false) (hd : s.validDesc q (s.seqOf q).idx = some d) (hg : (s.seqOf q).g ≠ Desc.len d)
    (hcp : (s.seqOf q).cp = none) :
    exec (.granuleJudge q) s = .next ((s.passTo ((s.seqOf q).t / 20480)).judgeNext q) := by
  change execGranuleJudge q s = _
  unfold execGranuleJudge
  dsimp only
  rw [State.get_of_validDesc hd, if_neg (by simp [hst, hpark, hopen]), if_neg (fun h => hg h.2), if_neg (by simp [hcp])]

/-- A granule `g` that lies six before the end of its segment starts (n − 192) × P after the instance does, with n = 32 × LEN (R109). -/
theorem granule_offset_of_six_before_end {g len : Nat} (p : Nat) (h : g + 6 = len) : 32 * g * p = (32 * len - 192) * p := by
  rw [show 32 * len - 192 = 32 * g by omega]

end Sys2Proof.Machine
end

section
/-! The obligation of 06_segments_sequencer.md about the place of the commit point. -/

open Sys2Proof Sys2Proof.Machine

/-- Settles O39: the granule that is judged is output, and the output of granule LEN − 6 records its start as the commit point; the two
bounds are this start measured in granules from S and from the end. -/
theorem commitPointsLieSixGranulesBeforeTheEnd : Obligations.CommitPointsLieSixGranulesBeforeTheEnd := by
  intro q p d s hst hpark hopen hd habort hstretch hcp hlack _ hlen hg ht
  have hoff := granule_offset_of_six_before_end p hg
  refine ⟨_, exec_granuleJudge_within hst hpark hopen hd (by omega) hcp, ?_, ?_, ?_⟩
  · have hjudge : (s.passTo ((s.seqOf q).t / 20480)).judgeNext q =
        ((s.passTo ((s.seqOf q).t / 20480)).outputGranule q d).absorbAll q := by
      apply State.judgeNext_whole
      · rw [State.validDesc_passTo, State.seqOf_passTo, hd]
      · rw [State.lacking_passTo, hlack]
      · rw [State.seqOf_passTo, habort]
      · rw [State.seqOf_passTo, hstretch]
    rw [hjudge, State.seqOf_absorbAll, State.outputGranule_cp, State.seqOf_passTo, if_pos hg, ht, hoff]
  · have hmin : 2 * 32 * p ≤ 32 * (s.seqOf q).g * p := Nat.mul_le_mul_right p (by omega)
    omega
  · have hend : 32 * Desc.len d * p = 32 * (s.seqOf q).g * p + 6 * (32 * p) := by rw [← hg]; ring
    omega

end

section
/-! SUPPORT. The Bursar's account (13_bursar.md, R274), and the operations that leave it alone. -/

namespace Sys2Proof.Machine

/-- The account obeys ACCRUED_TOTAL = pool + `HELD` + `MEASURED_TOTAL` (R274). -/
def Bursar.Balanced (b : Bursar) : Prop := b.accrued = b.pool + b.held + b.measured

/-- Every part but the Bursar's, as a set of parts. -/
def allButBur : Nat := 0x3FFEFFFF

theorem Keeps.bur_eq {s t : State} (k : Keeps allButBur s t) : t.bur = s.bur := k.same .bur rfl

@[simp] theorem State.ite_bur {c : Prop} [Decidable c] (s t : State) : (if c then s else t).bur = if c then s.bur else t.bur :=
  apply_ite State.bur c s t

theorem State.foldl_bur {α : Type} {f : State → α → State} (hf : ∀ s x, (f s x).bur = s.bur) (l : List α) (s : State) :
    (l.foldl f s).bur = s.bur := by
  induction l generalizing s with
  | nil => rfl
  | cons x l ih => rw [List.foldl_cons, ih, hf]

section Frame
variable (s : State)

/-! ### Events, time and ports -/

@[simp] theorem State.toGrid_bur (g l : Nat) : (s.toGrid g l).bur = s.bur := Keeps.bur_eq (State.toGrid_keeps (by rfl) (.refl _ s) ..)
@[simp] theorem State.denyStart_bur (a : Nat) : (s.denyStart a).bur = s.bur := Keeps.bur_eq (State.denyStart_keeps (by rfl) (.refl _ s) ..)
@[simp] theorem State.resyncRec_bur (r : Resync) : (s.resyncRec r).bur = s.bur :=
  Keeps.bur_eq (State.resyncRec_keeps (by rfl) (.refl _ s) ..)
@[simp] theorem State.resync_bur (cause kind page sub : Nat) (amount : Int) : (s.resync cause kind page sub amount).bur = s.bur :=
  Keeps.bur_eq (State.resync_keeps (by rfl) (.refl _ s) ..)
@[simp] theorem State.budget_bur : s.budget.bur = s.bur := Keeps.bur_eq (State.budget_keeps (by rfl) (.refl _ s))
theorem State.portRun_bur {s t : State} {p : Nat} {write : Bool} {a n : Nat} (e : s.portRun p write a n = some t) : t.bur = s.bur :=
  Keeps.bur_eq (OptKeeps.of e (State.portRun_keeps (by rfl) (.refl _ s) ..))
@[simp] theorem State.looseRun_bur (write : Bool) (a n : Nat) : (s.looseRun write a n).bur = s.bur :=
  Keeps.bur_eq (State.looseRun_keeps (by rfl) (.refl _ s) ..)
@[simp] theorem State.wake_bur (byReq : Bool) : (s.wake byReq).bur = s.bur := Keeps.bur_eq (State.wake_keeps (by rfl) (.refl _ s) ..)

/-! ### Register accesses, channels and record rings -/

@[simp] theorem State.take64_bur (req a : Nat) (v : Word) : (s.take64 req a v).2.bur = s.bur :=
  Keeps.bur_eq (State.take64_keeps (by rfl) (.refl _ s) ..)
@[simp] theorem State.dropStaging_bur (p : Nat) : (s.dropStaging p).bur = s.bur :=
  Keeps.bur_eq (State.dropStaging_keeps (by rfl) (.refl _ s) ..)
@[simp] theorem State.pinsMove_bur (old : State) : (s.pinsMove old).bur = s.bur :=
  Keeps.bur_eq (State.pinsMove_keeps (by rfl) (.refl _ s) ..)
@[simp] theorem State.configWrite_bur (a : Nat) (v : Word) : (s.configWrite a v).bur = s.bur :=
  Keeps.bur_eq (State.configWrite_keeps (by rfl) (.refl _ s) ..)
@[simp] theorem State.rwWrite_bur (a : Nat) (v : Word) : (s.rwWrite a v).bur = s.bur :=
  Keeps.bur_eq (State.rwWrite_keeps (by rfl) (.refl _ s) ..)
@[simp] theorem State.pecAbort_bur (b : Nat) : (s.pecAbort b).bur = s.bur := Keeps.bur_eq (State.pecAbort_keeps (by rfl) (.refl _ s) ..)
@[simp] theorem State.ringThresh_bur (r : RecRing) : (s.ringThresh r).bur = s.bur :=
  Keeps.bur_eq (State.ringThresh_keeps (by rfl) (.refl _ s) ..)
theorem State.ringPush_bur {s t : State} {r : RecRing} {bytes : List Byte} (e : s.ringPush r bytes = some t) : t.bur = s.bur :=
  Keeps.bur_eq (OptKeeps.of e (State.ringPush_keeps (by rfl) (.refl _ s) ..))
@[simp] theorem State.traceStop_bur (cause : Nat) : (s.traceStop cause).bur = s.bur :=
  Keeps.bur_eq (State.traceStop_keeps (by rfl) (.refl _ s) ..)
@[simp] theorem State.galLost_bur : s.galLost.bur = s.bur := Keeps.bur_eq (State.galLost_keeps (by rfl) (.refl _ s))

/-! ### The Timetable, decanters and comparators -/

@[simp] theorem State.cmdFail_bur (cause source op i : Nat) : (s.cmdFail cause source op i).bur = s.bur :=
  Keeps.bur_eq (State.cmdFail_keeps (by rfl) (.refl _ s) ..)
@[simp] theorem State.matchOpen_bur (k : Nat) : (s.matchOpen k).bur = s.bur := Keeps.bur_eq (State.matchOpen_keeps (by rfl) (.refl _ s) ..)
@[simp] theorem State.overdraw_bur (w : Wait) : (s.overdraw w).bur = s.bur := Keeps.bur_eq (State.overdraw_keeps (by rfl) (.refl _ s) ..)
@[simp] theorem State.meter_bur (m : Option Nat) : (s.meter m).2.bur = s.bur := Keeps.bur_eq (State.meter_keeps (by rfl) (.refl _ s) ..)
@[simp] theorem State.matchHolds_bur : s.matchHolds.bur = s.bur := Keeps.bur_eq (State.matchHolds_keeps (by rfl) (.refl _ s))
@[simp] theorem State.queuesClear_bur (cause : Nat) : (s.queuesClear cause).bur = s.bur :=
  Keeps.bur_eq (State.queuesClear_keeps (by rfl) (.refl _ s) ..)
@[simp] theorem State.dlistReset_bur (b : Nat) : (s.dlistReset b).bur = s.bur :=
  Keeps.bur_eq (State.dlistReset_keeps (by rfl) (.refl _ s) ..)
@[simp] theorem State.absorbAll_bur (q : Nat) : (s.absorbAll q).bur = s.bur := Keeps.bur_eq (State.absorbAll_keeps (by rfl) (.refl _ s) ..)
@[simp] theorem State.retainAll_bur (q : Nat) : (s.retainAll q).bur = s.bur := Keeps.bur_eq (State.retainAll_keeps (by rfl) (.refl _ s) ..)
@[simp] theorem State.dropRetained_bur (d : Nat) : (s.dropRetained d).bur = s.bur :=
  Keeps.bur_eq (State.dropRetained_keeps (by rfl) (.refl _ s) ..)
@[simp] theorem State.hostMemWrite_bur (a : Nat) (bytes : List Byte) : (s.hostMemWrite a bytes).bur = s.bur :=
  Keeps.bur_eq (State.hostMemWrite_keeps (by rfl) (.refl _ s) ..)
@[simp] theorem State.captureStop_bur : s.captureStop.bur = s.bur := Keeps.bur_eq (State.captureStop_keeps (by rfl) (.refl _ s))
@[simp] theorem State.cmpClear_bur (h cause : Nat) : (s.cmpClear h cause).bur = s.bur :=
  Keeps.bur_eq (State.cmpClear_keeps (by rfl) (.refl _ s) ..)
@[simp] theorem State.sigClear_bur (d cause : Nat) : (s.sigClear d cause).bur = s.bur :=
  Keeps.bur_eq (State.sigClear_keeps (by rfl) (.refl _ s) ..)

/-! ### Flow services, check units and time measurement -/

@[simp] theorem State.dlogFull_bur : s.dlogFull.bur = s.bur := Keeps.bur_eq (State.dlogFull_keeps (by rfl) (.refl _ s))
@[simp] theorem State.dlogPut_bur (kind st ins : Nat) (body : List Word) : (s.dlogPut kind st ins body).bur = s.bur :=
  Keeps.bur_eq (State.dlogPut_keeps (by rfl) (.refl _ s) ..)
@[simp] theorem State.cardEntries_bur (q result : Nat) : (s.cardEntries q result).bur = s.bur :=
  Keeps.bur_eq (State.cardEntries_keeps (by rfl) (.refl _ s) ..)
@[simp] theorem State.siteEnable_bur (st : Nat) (b : Bool) : (s.siteEnable st b).bur = s.bur :=
  Keeps.bur_eq (State.siteEnable_keeps (by rfl) (.refl _ s) ..)
@[simp] theorem State.enableAgain_bur : s.enableAgain.bur = s.bur := Keeps.bur_eq (State.enableAgain_keeps (by rfl) (.refl _ s))
@[simp] theorem State.issuePost_bur (w : Word) : (s.issuePost w).bur = s.bur := Keeps.bur_eq (State.issuePost_keeps (by rfl) (.refl _ s) ..)
@[simp] theorem State.closeSlot_bur (i : Nat) : (s.closeSlot i).bur = s.bur := Keeps.bur_eq (State.closeSlot_keeps (by rfl) (.refl _ s) ..)
theorem State.stepRead_bur {s t : State} (e : s.stepRead = some t) : t.bur = s.bur :=
  Keeps.bur_eq (OptKeeps.of e (State.stepRead_keeps (by rfl) (.refl _ s)))
@[simp] theorem State.cardsClear_bur (h cause : Nat) : (s.cardsClear h cause).bur = s.bur :=
  Keeps.bur_eq (State.cardsClear_keeps (by rfl) (.refl _ s) ..)
@[simp] theorem State.flowClear_bur (cause : Nat) : (s.flowClear cause).bur = s.bur :=
  Keeps.bur_eq (State.flowClear_keeps (by rfl) (.refl _ s) ..)
@[simp] theorem State.setChkRun_bur (n : Nat) (r : ChkRun) : (s.setChkRun n r).bur = s.bur :=
  Keeps.bur_eq (State.setChkRun_keeps (by rfl) (.refl _ s) ..)
@[simp] theorem State.chkFold_bur (n : Nat) (l : List Byte) : (s.chkFold n l).bur = s.bur :=
  Keeps.bur_eq (State.chkFold_keeps (by rfl) (.refl _ s) ..)
@[simp] theorem State.chkRefuse_bur (n : Nat) : (s.chkRefuse n).bur = s.bur := Keeps.bur_eq (State.chkRefuse_keeps (by rfl) (.refl _ s) ..)
@[simp] theorem State.chkCompare_bur (n : Nat) : (s.chkCompare n).bur = s.bur :=
  Keeps.bur_eq (State.chkCompare_keeps (by rfl) (.refl _ s) ..)
@[simp] theorem State.chkBegin_bur (n : Nat) : (s.chkBegin n).bur = s.bur := Keeps.bur_eq (State.chkBegin_keeps (by rfl) (.refl _ s) ..)
@[simp] theorem State.setTdc_bur (e : Nat) (x : Tdc) : (s.setTdc e x).bur = s.bur :=
  Keeps.bur_eq (State.setTdc_keeps (by rfl) (.refl _ s) ..)
@[simp] theorem State.tdcDrain_bur (e : Nat) (upTo : Option Nat) (n : Nat) : (s.tdcDrain e upTo n).bur = s.bur :=
  Keeps.bur_eq (State.tdcDrain_keeps (by rfl) (.refl _ s) ..)
@[simp] theorem State.tdcFlush_bur (e : Nat) : (s.tdcFlush e).bur = s.bur := Keeps.bur_eq (State.tdcFlush_keeps (by rfl) (.refl _ s) ..)
@[simp] theorem State.tdcResume_bur (e : Nat) : (s.tdcResume e).bur = s.bur := Keeps.bur_eq (State.tdcResume_keeps (by rfl) (.refl _ s) ..)
@[simp] theorem State.tdcBegin_bur (e : Nat) : (s.tdcBegin e).bur = s.bur := Keeps.bur_eq (State.tdcBegin_keeps (by rfl) (.refl _ s) ..)
@[simp] theorem State.tdcSlot_bur : s.tdcSlot.bur = s.bur := Keeps.bur_eq (State.tdcSlot_keeps (by rfl) (.refl _ s))
@[simp] theorem State.fcResume_bur (old : State) : (s.fcResume old).bur = s.bur :=
  Keeps.bur_eq (State.fcResume_keeps (by rfl) (.refl _ s) ..)

/-! ### Memory stores, calibration and the host link -/

@[simp] theorem State.setCelState_bur (c v : Nat) : (s.setCelState c v).bur = s.bur :=
  Keeps.bur_eq (State.setCelState_keeps (by rfl) (.refl _ s) ..)
@[simp] theorem State.selfRefreshAll_bur : s.selfRefreshAll.bur = s.bur := Keeps.bur_eq (State.selfRefreshAll_keeps (by rfl) (.refl _ s))
@[simp] theorem State.celReset_bur (c : Nat) : (s.celReset c).bur = s.bur := Keeps.bur_eq (State.celReset_keeps (by rfl) (.refl _ s) ..)
@[simp] theorem State.calState_bur (st : Nat) : (s.calState st).bur = s.bur := Keeps.bur_eq (State.calState_keeps (by rfl) (.refl _ s) ..)
@[simp] theorem State.calReturn_bur (e : Nat) : (s.calReturn e).bur = s.bur := Keeps.bur_eq (State.calReturn_keeps (by rfl) (.refl _ s) ..)
@[simp] theorem State.calAccept_bur (code trigger slot : Nat) : (s.calAccept code trigger slot).bur = s.bur :=
  Keeps.bur_eq (State.calAccept_keeps (by rfl) (.refl _ s) ..)
@[simp] theorem State.calBegin_bur : s.calBegin.bur = s.bur := Keeps.bur_eq (State.calBegin_keeps (by rfl) (.refl _ s))
@[simp] theorem State.writeVintage_bur (it : CalItem) (id : Nat) (meas : List (Nat × List Byte)) (trips : List (Nat × Int × Bool)) :
    (s.writeVintage it id meas trips).bur = s.bur :=
  Keeps.bur_eq (State.writeVintage_keeps (by rfl) (.refl _ s) ..)
@[simp] theorem State.installNewest_bur (i id temp : Nat) : (s.installNewest i id temp).bur = s.bur :=
  Keeps.bur_eq (State.installNewest_keeps (by rfl) (.refl _ s) ..)
@[simp] theorem State.bar2_bur (off : Nat) (write : Bool) (data : List (Option Byte)) (len : Nat) :
    (s.bar2 off write data len).bur = s.bur :=
  Keeps.bur_eq (State.bar2_keeps (by rfl) (.refl _ s) ..)
@[simp] theorem State.hlkBusy_bur : s.hlkBusy.bur = s.bur := Keeps.bur_eq (State.hlkBusy_keeps (by rfl) (.refl _ s))
@[simp] theorem State.setDma_bur (c : Nat) (x : DmaChan) : (s.setDma c x).bur = s.bur :=
  Keeps.bur_eq (State.setDma_keeps (by rfl) (.refl _ s) ..)
@[simp] theorem State.dmaSet_bur (c addr st : Nat) (task : Bool) : (s.dmaSet c addr st task).bur = s.bur :=
  Keeps.bur_eq (State.dmaSet_keeps (by rfl) (.refl _ s) ..)
@[simp] theorem State.dmaBegin_bur (c : Nat) : (s.dmaBegin c).bur = s.bur := Keeps.bur_eq (State.dmaBegin_keeps (by rfl) (.refl _ s) ..)
@[simp] theorem State.dmaSpoil_bur (c : Nat) : (s.dmaSpoil c).bur = s.bur := Keeps.bur_eq (State.dmaSpoil_keeps (by rfl) (.refl _ s) ..)
@[simp] theorem State.dmaShare_bur (c n : Nat) : (s.dmaShare c n).bur = s.bur := Keeps.bur_eq (State.dmaShare_keeps (by rfl) (.refl _ s) ..)
@[simp] theorem State.flashGo_bur (op len : Nat) : (s.flashGo op len).bur = s.bur :=
  Keeps.bur_eq (State.flashGo_keeps (by rfl) (.refl _ s) ..)

/-! ### Sequencers, the Bursar and the Corridor -/

@[simp] theorem State.seqState_bur (q st : Nat) : (s.seqState q st).bur = s.bur :=
  Keeps.bur_eq (State.seqState_keeps (by rfl) (.refl _ s) ..)
@[simp] theorem State.descErr_bur (q cause i : Nat) : (s.descErr q cause i).bur = s.bur :=
  Keeps.bur_eq (State.descErr_keeps (by rfl) (.refl _ s) ..)
@[simp] theorem State.underrunRec_bur (q cause desk seg voff at0 : Nat) : (s.underrunRec q cause desk seg voff at0).bur = s.bur :=
  Keeps.bur_eq (State.underrunRec_keeps (by rfl) (.refl _ s) ..)
@[simp] theorem State.seqAdmit_bur (q start : Nat) (bell : Bool) : (s.seqAdmit q start bell).bur = s.bur :=
  Keeps.bur_eq (State.seqAdmit_keeps (by rfl) (.refl _ s) ..)
@[simp] theorem State.seqWalk_bur (q : Nat) : (s.seqWalk q).bur = s.bur := Keeps.bur_eq (State.seqWalk_keeps (by rfl) (.refl _ s) ..)
@[simp] theorem State.judgeNext_bur (q : Nat) : (s.judgeNext q).bur = s.bur := Keeps.bur_eq (State.judgeNext_keeps (by rfl) (.refl _ s) ..)
@[simp] theorem State.commitDue_bur (q : Nat) : (s.commitDue q).bur = s.bur := Keeps.bur_eq (State.commitDue_keeps (by rfl) (.refl _ s) ..)
@[simp] theorem State.abortRun_bur (q : Nat) : (s.abortRun q).bur = s.bur := Keeps.bur_eq (State.abortRun_keeps (by rfl) (.refl _ s) ..)
@[simp] theorem State.takeReadings_bur (l : List (Nat × Nat)) : (s.takeReadings l).bur = s.bur :=
  Keeps.bur_eq (State.takeReadings_keeps (by rfl) (.refl _ s) ..)
@[simp] theorem State.tempNow_bur : s.tempNow.2.bur = s.bur := Keeps.bur_eq (State.tempNow_keeps (by rfl) (.refl _ s))
@[simp] theorem State.nextReady_bur : s.nextReady.bur = s.bur := Keeps.bur_eq (State.nextReady_keeps (by rfl) (.refl _ s))
@[simp] theorem State.gpeSoftware_bur : s.gpeSoftware.bur = s.bur := Keeps.bur_eq (State.gpeSoftware_keeps (by rfl) (.refl _ s))
@[simp] theorem State.selReset_bur : s.selReset.bur = s.bur := Keeps.bur_eq (State.selReset_keeps (by rfl) (.refl _ s))
@[simp] theorem State.corReset_bur : s.corReset.bur = s.bur := Keeps.bur_eq (State.corReset_keeps (by rfl) (.refl _ s))
@[simp] theorem State.corStop_bur (records : Bool) : (s.corStop records).bur = s.bur :=
  Keeps.bur_eq (State.corStop_keeps (by rfl) (.refl _ s) ..)

/-! ### Links and the ring -/

@[simp] theorem State.satSend_bur (host : Bool) (m : SatMsg) : (s.satSend host m).bur = s.bur :=
  Keeps.bur_eq (State.satSend_keeps (by rfl) (.refl _ s) ..)
@[simp] theorem State.rollBusy_bur (b : Bool) : (s.rollBusy b).bur = s.bur := Keeps.bur_eq (State.rollBusy_keeps (by rfl) (.refl _ s) ..)
@[simp] theorem State.portLive_bur : s.portLive.bur = s.bur := Keeps.bur_eq (State.portLive_keeps (by rfl) (.refl _ s))
@[simp] theorem State.rollStart_bur : s.rollStart.bur = s.bur := Keeps.bur_eq (State.rollStart_keeps (by rfl) (.refl _ s))
@[simp] theorem State.sendState_bur : s.sendState.bur = s.bur := Keeps.bur_eq (State.sendState_keeps (by rfl) (.refl _ s))
@[simp] theorem State.linkInit_bur (l kind major minor : Nat) : (s.linkInit l kind major minor).bur = s.bur :=
  Keeps.bur_eq (State.linkInit_keeps (by rfl) (.refl _ s) ..)
@[simp] theorem State.ringLanesInit_bur : s.ringLanesInit.bur = s.bur := Keeps.bur_eq (State.ringLanesInit_keeps (by rfl) (.refl _ s))
@[simp] theorem State.lanesSleep_bur : s.lanesSleep.bur = s.bur := Keeps.bur_eq (State.lanesSleep_keeps (by rfl) (.refl _ s))
@[simp] theorem State.laneCtrl_bur (n : Nat) (v : Word) : (s.laneCtrl n v).bur = s.bur :=
  Keeps.bur_eq (State.laneCtrl_keeps (by rfl) (.refl _ s) ..)
@[simp] theorem State.diagAbort_bur (n : Nat) : (s.diagAbort n).bur = s.bur := Keeps.bur_eq (State.diagAbort_keeps (by rfl) (.refl _ s) ..)
@[simp] theorem State.laneReset_bur (n : Nat) : (s.laneReset n).bur = s.bur := Keeps.bur_eq (State.laneReset_keeps (by rfl) (.refl _ s) ..)
@[simp] theorem State.linkReset_bur (l : Nat) : (s.linkReset l).bur = s.bur := Keeps.bur_eq (State.linkReset_keeps (by rfl) (.refl _ s) ..)
@[simp] theorem State.ringCfg_bur (v : Word) : (s.ringCfg v).bur = s.bur := Keeps.bur_eq (State.ringCfg_keeps (by rfl) (.refl _ s) ..)
@[simp] theorem State.ringReset_bur : s.ringReset.bur = s.bur := Keeps.bur_eq (State.ringReset_keeps (by rfl) (.refl _ s))
@[simp] theorem State.tbCfg_bur (b : Nat) (v : Word) : (s.tbCfg b v).bur = s.bur := Keeps.bur_eq (State.tbCfg_keeps (by rfl) (.refl _ s) ..)
@[simp] theorem State.bellReset_bur : s.bellReset.bur = s.bur := Keeps.bur_eq (State.bellReset_keeps (by rfl) (.refl _ s))

/-! ### Modes, resets and pruning -/

@[simp] theorem State.modeDeny_bur (cause : Nat) : (s.modeDeny cause).bur = s.bur :=
  Keeps.bur_eq (State.modeDeny_keeps (by rfl) (.refl _ s) ..)
@[simp] theorem State.recessExit_bur : s.recessExit.bur = s.bur := Keeps.bur_eq (State.recessExit_keeps (by rfl) (.refl _ s))
@[simp] theorem State.hostGone_bur : s.hostGone.bur = s.bur := Keeps.bur_eq (State.hostGone_keeps (by rfl) (.refl _ s))
@[simp] theorem State.eraseRegs_bur (host part : Bool) : (s.eraseRegs host part).bur = s.bur :=
  Keeps.bur_eq (State.eraseRegs_keeps (by rfl) (.refl _ s) ..)
@[simp] theorem State.fieldState_bur (v : Nat) : (s.fieldState v).bur = s.bur :=
  Keeps.bur_eq (State.fieldState_keeps (by rfl) (.refl _ s) ..)
@[simp] theorem State.fieldDown_bur : s.fieldDown.bur = s.bur := Keeps.bur_eq (State.fieldDown_keeps (by rfl) (.refl _ s))
@[simp] theorem State.enablePages_bur (host : Bool) : (s.enablePages host).bur = s.bur :=
  Keeps.bur_eq (State.enablePages_keeps (by rfl) (.refl _ s) ..)
@[simp] theorem State.fieldStart_bur (byHost : Bool) : (s.fieldStart byHost).bur = s.bur :=
  Keeps.bur_eq (State.fieldStart_keeps (by rfl) (.refl _ s) ..)
@[simp] theorem State.decClear_bur : s.decClear.bur = s.bur := Keeps.bur_eq (State.decClear_keeps (by rfl) (.refl _ s))
@[simp] theorem State.climbed_bur (k n : Nat) : (s.climbed k n).bur = s.bur := Keeps.bur_eq (State.climbed_keeps (by rfl) (.refl _ s) ..)
@[simp] theorem State.climbCount_bur (mv : Nat) : (s.climbCount mv).bur = s.bur :=
  Keeps.bur_eq (State.climbCount_keeps (by rfl) (.refl _ s) ..)
@[simp] theorem State.pruneStat_bur : s.pruneStat.bur = s.bur := Keeps.bur_eq (State.pruneStat_keeps (by rfl) (.refl _ s))
@[simp] theorem State.pwrReset_bur : s.pwrReset.bur = s.bur := Keeps.bur_eq (State.pwrReset_keeps (by rfl) (.refl _ s))

/-! ### Accesses of the host and the Satchel -/

@[simp] theorem State.hostReadWord_bur (req a : Nat) : (s.hostReadWord req a).bur = s.bur :=
  Keeps.bur_eq (State.hostReadWord_keeps (by rfl) (.refl _ s) ..)
@[simp] theorem State.ringSrst_bur (r : RecRing) : (s.ringSrst r).bur = s.bur := Keeps.bur_eq (State.ringSrst_keeps (by rfl) (.refl _ s) ..)
@[simp] theorem State.softResetOn_bur (p : Nat) (on : Nat → Bool) : (s.softResetOn p on).bur = s.bur :=
  Keeps.bur_eq (State.softResetOn_keeps (by rfl) (.refl _ s) ..)
@[simp] theorem State.srstConfig_bur (p : Nat) : (s.srstConfig p).bur = s.bur :=
  Keeps.bur_eq (State.srstConfig_keeps (by rfl) (.refl _ s) ..)
@[simp] theorem State.srstSeq_bur (q n : Nat) : (s.srstSeq q n).bur = s.bur := Keeps.bur_eq (State.srstSeq_keeps (by rfl) (.refl _ s) ..)
@[simp] theorem State.sliceWrite_bur (d : Nat) (v : Word) : (s.sliceWrite d v).bur = s.bur :=
  Keeps.bur_eq (State.sliceWrite_keeps (by rfl) (.refl _ s) ..)
@[simp] theorem State.underrunClear_bur (q : Nat) : (s.underrunClear q).bur = s.bur :=
  Keeps.bur_eq (State.underrunClear_keeps (by rfl) (.refl _ s) ..)
@[simp] theorem State.ringBaseWrite_bur (r : RecRing) (v : Nat) : (s.ringBaseWrite r v).bur = s.bur :=
  Keeps.bur_eq (State.ringBaseWrite_keeps (by rfl) (.refl _ s) ..)
@[simp] theorem State.ringSizeWrite_bur (r : RecRing) (v : Word) : (s.ringSizeWrite r v).bur = s.bur :=
  Keeps.bur_eq (State.ringSizeWrite_keeps (by rfl) (.refl _ s) ..)
@[simp] theorem State.accessErr_bur (a : Nat) : (s.accessErr a).bur = s.bur := Keeps.bur_eq (State.accessErr_keeps (by rfl) (.refl _ s) ..)
@[simp] theorem State.flowSend_bur (toField : Bool) : (s.flowSend toField).bur = s.bur :=
  Keeps.bur_eq (State.flowSend_keeps (by rfl) (.refl _ s) ..)
@[simp] theorem State.hostDetention_bur : s.hostDetention.bur = s.bur := Keeps.bur_eq (State.hostDetention_keeps (by rfl) (.refl _ s))
@[simp] theorem State.flushReads_bur : s.flushReads.bur = s.bur := Keeps.bur_eq (State.flushReads_keeps (by rfl) (.refl _ s))
@[simp] theorem State.loseWrites_bur : s.loseWrites.bur = s.bur := Keeps.bur_eq (State.loseWrites_keeps (by rfl) (.refl _ s))
@[simp] theorem State.resend_bur : s.resend.bur = s.bur := Keeps.bur_eq (State.resend_keeps (by rfl) (.refl _ s))

end Frame

end Sys2Proof.Machine
end

section
/-! SUPPORT. The rule for each operation that the Bursar's account passes through: it keeps the account balanced. A run that is settled (R272)
moves energy between the terms of R274; the other operations here reach the account through that rule alone, or touch no term. -/

namespace Sys2Proof.Machine

theorem Bursar.balanced_mk (pool held accrued : Int) (declared measured bypass nextAt : Nat) (head : Option (Nat × Nat × Bool × Nat))
    (waits runs : List Wait) (effW thermW fixedW availW : Nat) (hard : Bool) :
    Bursar.Balanced ⟨pool, held, accrued, declared, measured, bypass, nextAt, head, waits, runs, effW, thermW, fixedW, availW, hard⟩ ↔
      accrued = pool + held + measured := .rfl

/-- Every next state of an outcome has its account in balance. -/
structure OutBalanced (o : Out) : Prop where
  balanced : ∀ t, o = .next t → t.bur.Balanced

@[simp] theorem outBalanced_next (s : State) : OutBalanced (.next s) ↔ s.bur.Balanced :=
  ⟨fun h => h.balanced s rfl, fun h => ⟨fun t e => by cases e; exact h⟩⟩

theorem outBalanced_ite {c : Prop} [Decidable c] {o p : Out} (ho : OutBalanced o) (hp : OutBalanced p) :
    OutBalanced (if c then o else p) := by
  split
  · exact ho
  · exact hp

theorem OutKeeps.balanced {s : State} {o : Out} (k : OutKeeps allButBur s o) (h : s.bur.Balanced) : OutBalanced o :=
  ⟨fun t e => by rw [(k.keeps t e).bur_eq]; exact h⟩

theorem State.foldl_balanced {α : Type} {f : State → α → State} (hf : ∀ s x, s.bur.Balanced → (f s x).bur.Balanced) (l : List α)
    {s : State} (h : s.bur.Balanced) : (l.foldl f s).bur.Balanced := by
  induction l generalizing s with
  | nil => exact h
  | cons x l ih => exact ih (hf s x h)

theorem State.ite_balanced {c : Prop} [Decidable c] {s t : State} (hs : s.bur.Balanced) (ht : t.bur.Balanced) :
    (if c then s else t).bur.Balanced := by
  split
  · exact hs
  · exact ht

section Account
variable {s : State} (h : s.bur.Balanced)
include h

/-! ### Operations with an operation as operand -/

theorem State.hostWrite_balanced (req a : Nat) (v : Word) {k : State → State} (hk : ∀ s, s.bur.Balanced → (k s).bur.Balanced) :
    (s.hostWrite req a v k).bur.Balanced := by
  unfold State.hostWrite
  split
  · exact h
  · split
    · exact hk s h
    · exact h
    · exact h
    · rwa [Keeps.bur_eq (State.recessAccess_keeps (by rfl) (.refl _ s) req a true v)]
    · rwa [State.deny_bur]

theorem State.taskCmd_balanced (v : Word) {k : Nat → State → State} (hk : ∀ i s, s.bur.Balanced → (k i s).bur.Balanced) :
    (s.taskCmd v k).bur.Balanced :=
  State.hostWrite_balanced h _ _ _ fun _ ht => hk _ _ ht

theorem State.resetCtrl_balanced (key bits : Nat) {k : State → State} (hk : ∀ s, s.bur.Balanced → (k s).bur.Balanced) :
    (s.resetCtrl key bits k).bur.Balanced :=
  State.hostWrite_balanced h _ _ _ fun t ht => State.ite_balanced (hk t ht) ht

theorem outState_balanced {o : Out} (ho : OutBalanced o) : (outState s o).bur.Balanced := by
  unfold outState
  split
  · exact ho.balanced _ rfl
  · exact h

theorem bothOut_balanced (b c : Bool) {f g : State → Out} (hf : OutBalanced (f s)) (hg : ∀ t, t.bur.Balanced → OutBalanced (g t)) :
    OutBalanced (bothOut b c f g s) := by
  unfold bothOut
  extract_lets t
  have ht : t.bur.Balanced := State.ite_balanced (outState_balanced h hf) h
  split
  · exact hg t ht
  · rwa [outBalanced_next]

/-! ### Settling a run (R272) -/

/-- pool + (E − M), `HELD` − E and `MEASURED_TOTAL` + M add up to what the terms did. -/
theorem State.settle_balanced (w : Wait) (m : Nat) : (s.settle w m).bur.Balanced := by
  have hSum : s.bur.accrued = s.bur.pool + w.energy - m + (s.bur.held - w.energy) + (s.bur.measured + m : Nat) := by
    unfold Bursar.Balanced at h; omega
  unfold State.settle
  dsimp only
  split
  · rw [State.overdraw_bur]; exact hSum
  · exact hSum

theorem State.endRun_balanced (c u outcome : Nat) (noop : Bool) (m : Option Nat) : (s.endRun c u outcome noop m).bur.Balanced := by
  unfold State.endRun
  split
  · exact h
  · refine State.ite_balanced (State.settle_balanced ?_ ..) ?_
    · rwa [State.meter_bur]
    · rwa [State.setTask_bur]

theorem execTaskComplete_balanced (i m : Nat) : OutBalanced (execTaskComplete i m s) := by
  unfold execTaskComplete
  extract_lets t s1 s2 _
  rw [outBalanced_next]
  split
  · exact h
  · extract_lets s3 s4 s5
    have h1 : s1.bur.Balanced := by rwa [State.passTo_bur]
    have h2 : s2.bur.Balanced := by
      unfold s2
      split
      · exact State.settle_balanced h1 ..
      · exact h1
    have h5 : s5.bur.Balanced := by simpa [s5, s4, s3] using h2
    exact State.ite_balanced (State.ite_balanced (by simpa using h5) h5) h

theorem State.orphanRun_balanced (i : Nat) : (s.orphanRun i).bur.Balanced := by
  unfold State.orphanRun
  split
  · exact h
  · refine State.ite_balanced (State.settle_balanced ?_ ..) h
    rwa [State.meter_bur]

theorem State.slotsClear_balanced (cause : Nat) : (s.slotsClear cause).bur.Balanced := by
  unfold State.slotsClear
  extract_lets s1 n s2 s3 _
  have h1 : s1.bur.Balanced := State.foldl_balanced (fun _ i hs => State.orphanRun_balanced hs i) _ h
  have h2 : s2.bur.Balanced := by rwa [State.resync_bur]
  have h3 : s3.bur.Balanced := by rwa [State.foldl_bur (fun _ _ => by rw [State.setReg_bur, State.resync_bur])]
  clear_value s3
  exact h3

theorem State.abortTask_balanced {ab : Task → State → State} (hab : ∀ t s, s.bur.Balanced → (ab t s).bur.Balanced) (i : Nat) :
    (s.abortTask ab i).bur.Balanced := by
  unfold State.abortTask
  extract_lets t
  split
  · rwa [State.setTask_bur]
  · rwa [State.setTask_bur]
  · split
    · exact hab _ _ (by rwa [State.setTask_bur])
    · rwa [State.setTask_bur]
  · rwa [State.setTask_bur]
  · exact h

theorem State.slotsReset_balanced {ab : Task → State → State} (hab : ∀ t s, s.bur.Balanced → (ab t s).bur.Balanced) :
    (s.slotsReset ab).bur.Balanced :=
  State.slotsClear_balanced (State.foldl_balanced (fun _ i hs => State.abortTask_balanced hs hab i) _ h) 1

/-! ### Direct starts that wait, and those taken back -/

theorem State.waitStart_balanced (cls unit energy : Nat) : (s.waitStart cls unit energy).bur.Balanced := h

theorem State.withdraw_balanced (cls unit : Nat) : (s.withdraw cls unit).bur.Balanced := h

/-! ### Flow steps (R279 to R292) -/

theorem State.stepEnd_balanced (result outcome : Nat) (m : Option Nat) : (s.stepEnd result outcome m).bur.Balanced := by
  unfold State.stepEnd
  exact State.endRun_balanced (by simpa using h) ..

theorem State.badNode_balanced (cause node : Nat) (m : Option Nat) : (s.badNode cause node m).bur.Balanced := by
  unfold State.badNode
  refine State.stepEnd_balanced ?_ ..
  rwa [State.occur_bur, State.ite_bur, State.setReg_bur, ite_self]

theorem State.flowBegin_balanced (node : Nat) : (s.flowBegin node).bur.Balanced := by
  unfold State.flowBegin
  extract_lets reads
  split
  · exact State.badNode_balanced (by rwa [State.foldl_bur (by simp)]) ..
  · simpa using h

theorem execFlowStepStart_balanced : OutBalanced (execFlowStepStart s) := by
  unfold execFlowStepStart
  rw [outBalanced_next]
  refine State.hostWrite_balanced h _ _ _ fun s hs => State.ite_balanced hs (State.ite_balanced ?_ (State.waitStart_balanced hs ..))
  rwa [State.denyStart_bur]

theorem State.flowAbort_balanced : s.flowAbort.bur.Balanced := by
  have hWithdrawn := State.withdraw_balanced h 6 0
  unfold State.flowAbort
  split_ifs
  · exact State.stepEnd_balanced h ..
  · simpa using hWithdrawn
  · simpa using h
  · exact h

theorem execFlowStepAbort_balanced : OutBalanced (execFlowStepAbort s) := by
  unfold execFlowStepAbort
  rw [outBalanced_next]
  exact State.hostWrite_balanced h _ _ _ fun _ hs => State.flowAbort_balanced hs

theorem State.stepRead_balanced : (s.stepRead.getD s).bur.Balanced := by
  cases e : s.stepRead with
  | none => exact h
  | some t => rw [Option.getD_some, State.stepRead_bur e]; exact h

theorem execFlowOpenCommit_balanced : OutBalanced (execFlowOpenCommit s) := by
  unfold execFlowOpenCommit
  extract_lets s1 ins
  have h1 : s1.bur.Balanced := State.stepRead_balanced h
  rw [outBalanced_next]
  split
  · exact h1
  · refine State.ite_balanced h1 ?_
    split
    · exact State.stepEnd_balanced (by simpa using h1) ..
    · extract_lets sites clash mask s2 s3 s4 s5 s6 s7 s8
      have h4 : s4.bur = s3.bur := State.foldl_bur (fun _ _ => by simp -implicitDefEqProofs [State.foldl_bur]) _ _
      have h8 : s8.bur.Balanced := by simpa [s8, s7, s6, s5, h4, s3, s2] using h1
      exact State.ite_balanced h1 (State.stepEnd_balanced h8 ..)

theorem execFlowLimitCommit_balanced : OutBalanced (execFlowLimitCommit s) := by
  unfold execFlowLimitCommit
  extract_lets s1
  have h1 : s1.bur.Balanced := State.stepRead_balanced h
  rw [outBalanced_next]
  split
  · exact h1
  · extract_lets rs lvl written s2
    have h2 : s2.bur = s1.bur := State.foldl_bur (fun _ _ => by simp -implicitDefEqProofs) _ _
    refine State.ite_balanced h1 (State.ite_balanced h1 (State.ite_balanced (State.badNode_balanced h1 ..) (State.stepEnd_balanced ?_ ..)))
    rwa [State.issuePost_bur, h2]

theorem execFlowBinCommit_balanced : OutBalanced (execFlowBinCommit s) := by
  unfold execFlowBinCommit
  extract_lets s1
  have h1 : s1.bur.Balanced := State.stepRead_balanced h
  rw [outBalanced_next]
  split
  · exact h1
  · extract_lets sites s2 s3
    have h2 : s2.bur = s1.bur := State.foldl_bur (fun _ _ => by simp -implicitDefEqProofs) _ _
    have h3 : s3.bur = s2.bur := State.foldl_bur (by simp) _ _
    refine State.ite_balanced h1 (State.ite_balanced h1 (State.stepEnd_balanced ?_ ..))
    rwa [State.issuePost_bur, h3, h2]

end Account
end Sys2Proof.Machine
end

section
/-! SUPPORT. Check units, time measurement, calibration and the DMA channels keep the account of the Bursar balanced. -/

namespace Sys2Proof.Machine

section Account
variable {s : State} (h : s.bur.Balanced)
include h

/-! ### Check units (R190 to R195) -/

theorem State.chkEnd_balanced (n r outcome : Nat) (noop : Bool) (m : Option Nat) : (s.chkEnd n r outcome noop m).bur.Balanced := by
  unfold State.chkEnd
  exact State.endRun_balanced (by simpa using h) ..

theorem State.chkAbort_balanced (n : Nat) : (s.chkAbort n).bur.Balanced := by
  have hWithdrawn := State.withdraw_balanced h 3 n
  unfold State.chkAbort
  split_ifs
  · exact State.chkEnd_balanced h ..
  · exact State.chkEnd_balanced hWithdrawn ..
  · rwa [State.setF_bur]
  · exact h

theorem State.chkFinish_balanced (n : Nat) (m : Option Nat) : (s.chkFinish n m).bur.Balanced := by
  unfold State.chkFinish
  exact State.chkEnd_balanced (State.ite_balanced (by rwa [State.chkCompare_bur]) h) ..

theorem State.chkStart_balanced (n : Nat) : (s.chkStart n).bur.Balanced := by
  unfold State.chkStart
  extract_lets a
  split_ifs
  · exact h
  · rwa [State.denyStart_bur]
  · exact State.chkFinish_balanced (by rwa [State.pass_bur, State.chkBegin_bur]) ..
  · exact State.waitStart_balanced h ..

theorem State.chkCtrl_balanced (n : Nat) (v : Word) : (s.chkCtrl n v).bur.Balanced := by
  unfold State.chkCtrl
  extract_lets a s1 s2
  have h1 : s1.bur.Balanced := State.ite_balanced (by rwa [State.setReg64_bur]) h
  have h2 : s2.bur.Balanced := State.ite_balanced (by rwa [State.chkCompare_bur]) h1
  split_ifs
  · exact State.chkAbort_balanced h n
  · rwa [State.chkRefuse_bur]
  · exact h
  · exact State.chkStart_balanced h2 n
  · exact h2

theorem chkCtrlOp_balanced (n : Nat) (v : Word) (p : Bool) : OutBalanced (.next (chkCtrlOp n v p s)) := by
  rw [outBalanced_next]
  unfold chkCtrlOp
  exact State.ite_balanced (State.hostWrite_balanced h _ _ _ fun _ hs => State.chkCtrl_balanced hs n v) h

theorem execChkRunCommit_balanced (n m : Nat) : OutBalanced (execChkRunCommit n m s) := by
  unfold execChkRunCommit
  extract_lets r a src len
  rw [outBalanced_next]
  refine State.ite_balanced h ?_
  split
  · exact h
  · next t e =>
    have ht : t.bur.Balanced := by rwa [State.portRun_bur e, State.passTo_bur]
    exact State.chkFinish_balanced (by simpa using ht) ..

/-! ### Time measurement (R203 to R212) -/

theorem State.tdcEnd_balanced (e result outcome : Nat) (m : Option Nat) : (s.tdcEnd e result outcome m).bur.Balanced := by
  unfold State.tdcEnd
  exact State.endRun_balanced (by simpa using h) ..

theorem State.tdcStart_balanced (e : Nat) : (s.tdcStart e).bur.Balanced := by
  unfold State.tdcStart
  extract_lets
  refine State.ite_balanced (State.endRun_balanced ?_ ..) ?_
  · rwa [State.occur_bur, State.setF_bur]
  · rwa [State.setReg_bur, State.setTdc_bur]

theorem State.tdcStop_balanced (e : Nat) : (s.tdcStop e).bur.Balanced := by
  unfold State.tdcStop
  extract_lets x
  split_ifs
  · exact h
  · exact State.tdcEnd_balanced h ..
  · rwa [State.setTdc_bur]
  · rwa [State.setTdc_bur]
  · exact State.tdcEnd_balanced h ..
  · rwa [State.setTdc_bur]

theorem State.tdcAbort_balanced (e : Nat) : (s.tdcAbort e).bur.Balanced := by
  unfold State.tdcAbort
  extract_lets x
  split_ifs
  · exact State.tdcEnd_balanced (State.withdraw_balanced (by rwa [State.setTdc_bur]) ..) ..
  · rwa [State.setF_bur]
  · exact h

theorem State.tdcCtrl_balanced (e : Nat) (v : Word) : (s.tdcCtrl e v).bur.Balanced := by
  have hStarted := State.tdcStart_balanced h e
  unfold State.tdcCtrl
  extract_lets x s1
  split_ifs
  · exact State.tdcAbort_balanced h e
  · exact State.tdcStop_balanced h e
  · rwa [State.denyStart_bur]
  · exact State.waitStart_balanced hStarted ..
  · exact hStarted
  · exact h

theorem State.hostTdcCtrl_balanced (e : Nat) (v : Word) : (s.hostWrite 0 (tdcBase e + 0x20) v fun s => s.tdcCtrl e v).bur.Balanced :=
  State.hostWrite_balanced h _ _ _ fun _ hs => State.tdcCtrl_balanced hs e v

theorem execTdcStart_balanced (e : Nat) (v : Word) : OutBalanced (execTdcStart e v s) := by
  unfold execTdcStart
  rw [outBalanced_next]
  exact State.ite_balanced (State.hostTdcCtrl_balanced h e v) h

theorem execTdcStop_balanced (e : Nat) (v : Word) : OutBalanced (execTdcStop e v s) := by
  unfold execTdcStop
  rw [outBalanced_next]
  exact State.ite_balanced (State.hostTdcCtrl_balanced h e v) h

theorem execTdcAbort_balanced (e : Nat) (v : Word) : OutBalanced (execTdcAbort e v s) := by
  unfold execTdcAbort
  rw [outBalanced_next]
  exact State.ite_balanced (State.hostTdcCtrl_balanced h e v) h

theorem State.tdcCommit_balanced (e m : Nat) : (s.tdcCommit e m).bur.Balanced := by
  unfold State.tdcCommit
  extract_lets x
  split_ifs
  · rwa [State.tdcDrain_bur, State.tdcResume_bur]
  · exact State.tdcEnd_balanced (by rwa [State.incSat_bur]) ..
  · exact State.tdcEnd_balanced h ..

theorem execTdcRecordWritten_balanced (e m : Nat) : OutBalanced (execTdcRecordWritten e m s) := by
  unfold execTdcRecordWritten
  rw [outBalanced_next]
  extract_lets s1 idx
  have h1 : s1.bur.Balanced := State.ite_balanced (by rwa [State.tdcFlush_bur]) h
  refine State.ite_balanced h ?_
  split
  · exact h1
  · refine State.ite_balanced h1 ?_
    split
    · exact h1
    · next t e =>
      have ht : t.bur.Balanced := by rwa [State.ringPush_bur e, State.tdcSlot_bur]
      exact State.tdcCommit_balanced (by simpa using ht) ..

/-! ### Calibration (R314 to R320) -/

theorem State.calEnd_balanced (result outcome : Nat) (m : Option Nat) : (s.calEnd result outcome m).bur.Balanced := by
  unfold State.calEnd
  extract_lets _ s1 s2 s3
  have h2 : s2.bur.Balanced := by rwa [State.setF_bur, State.calState_bur, State.setCal_bur]
  have h3 : s3.bur.Balanced := by rwa [State.foldl_bur fun _ _ => State.calReturn_bur ..]
  exact State.endRun_balanced (by rwa [State.occur_bur]) ..

theorem State.calStart_balanced (code trigger : Nat) (admitted : Bool) : (s.calStart code trigger admitted).bur.Balanced := by
  unfold State.calStart
  extract_lets zero
  have hZero : (zero s).bur.Balanced := by rwa [State.setReg_bur]
  refine State.ite_balanced (State.calEnd_balanced hZero ..) ?_
  split
  · exact State.calEnd_balanced hZero ..
  · extract_lets s1
    have h1 : s1.bur.Balanced := by rwa [State.calAccept_bur]
    exact State.ite_balanced (by rwa [State.calBegin_bur]) h1

theorem execItemStart_balanced : OutBalanced (execItemStart s) := by
  unfold execItemStart
  rw [outBalanced_next]
  refine State.hostWrite_balanced h _ _ _ fun s hs => ?_
  extract_lets code s1
  have h1 : s1.bur.Balanced := State.calStart_balanced hs ..
  split_ifs
  · exact hs
  · rwa [State.denyStart_bur]
  · exact State.waitStart_balanced h1 ..
  · exact h1

theorem State.calAbort_balanced : s.calAbort.bur.Balanced := by
  unfold State.calAbort
  split
  · exact State.calEnd_balanced (State.withdraw_balanced h ..) ..
  · exact State.ite_balanced (by rwa [State.setF_bur]) h

theorem execItemAbort_balanced : OutBalanced (execItemAbort s) := by
  unfold execItemAbort
  rw [outBalanced_next]
  exact State.hostWrite_balanced h _ _ _ fun _ hs => State.calAbort_balanced hs

theorem execItemCommit_balanced (meas : List (Nat × List Byte)) (trips : List (Nat × Int × Bool)) (m : Nat) :
    OutBalanced (execItemCommit meas trips m s) := by
  unfold execItemCommit
  rw [outBalanced_next]
  split
  · exact h
  · extract_lets id s1 _ s2 s3
    exact State.ite_balanced h (State.calEnd_balanced (by simpa [s3, s2, s1] using h) ..)

theorem State.calTemp_balanced (v : Word) : (s.calTemp v).bur.Balanced := by
  unfold State.calTemp
  extract_lets s1 t _ s2 _ s3 _
  have h2 : s2.bur.Balanced := by
    unfold s2
    split
    · rwa [State.setCal_bur, State.setReg_bur]
    · rwa [State.setReg_bur]
  have h3 : s3.bur.Balanced := by rwa [State.occur_bur, State.setCal_bur]
  split_ifs
  · exact h2
  · exact h3
  · exact State.waitStart_balanced (by rwa [State.setCal_bur]) ..
  · rwa [State.setCal_bur]

/-! ### DMA channels (R398 to R402) -/

theorem State.dmaEnd_balanced (c result : Nat) : (s.dmaEnd c result).bur.Balanced := by
  unfold State.dmaEnd
  extract_lets x s1
  have h1 : s1.bur.Balanced := by rwa [State.occur_bur, State.setF_bur, State.setDma_bur]
  exact State.ite_balanced h1 (State.endRun_balanced h1 ..)

theorem execDmaCtrlStart_balanced (c : Nat) : OutBalanced (execDmaCtrlStart c s) := by
  unfold execDmaCtrlStart
  rw [outBalanced_next]
  refine State.ite_balanced (State.hostWrite_balanced h _ _ _ fun s hs => ?_) h
  split_ifs
  · exact hs
  · rwa [State.denyStart_bur]
  · exact State.waitStart_balanced (by rwa [State.dmaSet_bur]) ..

theorem State.dmaAbort_balanced (c : Nat) : (s.dmaAbort c).bur.Balanced := by
  unfold State.dmaAbort
  split_ifs
  · exact State.dmaEnd_balanced (State.withdraw_balanced (by rwa [State.dmaSpoil_bur]) ..) ..
  · rwa [State.setF_bur]
  · exact h

theorem State.dmaTaskAbort_balanced (c : Nat) : (s.dmaTaskAbort c).bur.Balanced := by
  unfold State.dmaTaskAbort
  exact State.ite_balanced (State.endRun_balanced (by exact h) ..) (State.dmaAbort_balanced h c)

theorem execDmaCtrlAbort_balanced (c : Nat) : OutBalanced (execDmaCtrlAbort c s) := by
  unfold execDmaCtrlAbort
  rw [outBalanced_next]
  exact State.ite_balanced (State.hostWrite_balanced h _ _ _ fun _ hs => State.dmaAbort_balanced hs c) h

theorem execDmaHostCompletionError_balanced (c : Nat) : OutBalanced (execDmaHostCompletionError c s) := by
  unfold execDmaHostCompletionError
  rw [outBalanced_next]
  exact State.ite_balanced (State.dmaEnd_balanced h ..) h

theorem execPcieCompletionTimeout_balanced (c : Nat) : OutBalanced (execPcieCompletionTimeout c s) := by
  unfold execPcieCompletionTimeout
  extract_lets x
  rw [outBalanced_next]
  exact State.ite_balanced (State.dmaEnd_balanced (by rwa [State.passTo_bur]) ..) h

theorem State.dmaAbortForbidden_balanced : s.dmaAbortForbidden.bur.Balanced := by
  unfold State.dmaAbortForbidden
  exact State.foldl_balanced (fun _ c hs => State.ite_balanced (State.dmaTaskAbort_balanced hs c) hs) _ h

theorem State.dmaAbortAll_balanced : s.dmaAbortAll.bur.Balanced := by
  unfold State.dmaAbortAll
  exact State.foldl_balanced (fun _ c hs => State.ite_balanced (State.dmaAbort_balanced hs c) hs) _ h

theorem State.hlkReset_balanced : s.hlkReset.bur.Balanced := by
  unfold State.hlkReset
  extract_lets s1
  have h1 : s1.bur.Balanced := State.dmaAbortAll_balanced h
  clear_value s1
  simpa using h1

theorem execPcieFlr_balanced : OutBalanced (execPcieFlr s) := by
  unfold execPcieFlr
  rw [outBalanced_next]
  exact State.hlkReset_balanced h

theorem execPcieD3hotEntry_balanced : OutBalanced (execPcieD3hotEntry s) := by
  unfold execPcieD3hotEntry
  rw [outBalanced_next, State.setHost_bur]
  exact State.hlkReset_balanced h

end Account
end Sys2Proof.Machine
end

section
/-! SUPPORT. Bursts, the Bursar itself and the Timetable keep the account of the Bursar balanced (13_bursar.md, 12_timetable.md). -/

namespace Sys2Proof.Machine

section Account
variable {s : State} (h : s.bur.Balanced)
include h

/-! ### Bursts (R125 to R130) -/

theorem State.burstEnd_balanced (q result : Nat) (m : Option Nat) : (s.burstEnd q result m).bur.Balanced := by
  unfold State.burstEnd
  exact State.endRun_balanced (by simpa using h) ..

theorem State.endNoOutput_balanced (q result : Nat) : (s.endNoOutput q result).bur.Balanced := by
  unfold State.endNoOutput
  extract_lets s1 s2
  have h1 : s1.bur.Balanced := State.withdraw_balanced h 1 q
  clear_value s1
  exact State.burstEnd_balanced (State.ite_balanced (by exact h1) h1) ..

theorem State.seqStart_balanced (q start : Nat) (bell direct : Bool) : (s.seqStart q start bell direct).bur.Balanced := by
  unfold State.seqStart
  extract_lets s1 x c s2 s3
  have h1 : s1.bur.Balanced := by rwa [State.seqAdmit_bur]
  have h2 : s2.bur.Balanced := by rwa [State.seqWalk_bur]
  have h3 : s3.bur.Balanced := by rwa [State.absorbAll_bur]
  clear_value s1 s2 s3
  split_ifs
  · exact State.endNoOutput_balanced (by rwa [State.descErr_bur]) ..
  · exact State.endNoOutput_balanced (by rwa [State.descErr_bur]) ..
  · exact State.endNoOutput_balanced (by rwa [State.underrunRec_bur]) ..
  · exact State.waitStart_balanced h3 ..
  · exact h3

theorem State.seqAbort_balanced (q : Nat) : (s.seqAbort q).bur.Balanced := by
  unfold State.seqAbort
  extract_lets s1 x noop
  have h1 : s1.bur.Balanced := by rwa [State.commitDue_bur]
  have hNoop : (noop s1).bur.Balanced := by rwa [State.setB_bur]
  split
  · exact State.ite_balanced h1 hNoop
  · exact State.endNoOutput_balanced h1 ..
  · exact State.endNoOutput_balanced h1 ..
  · split
    · exact hNoop
    · exact hNoop
    · exact h1
    · rwa [State.abortRun_bur]
  · exact hNoop

theorem State.seqShed_balanced (q : Nat) : (s.seqShed q).bur.Balanced := by
  unfold State.seqShed
  extract_lets x
  split
  · exact State.endNoOutput_balanced h ..
  · exact State.endNoOutput_balanced h ..
  · exact State.ite_balanced h (by rwa [State.setSeq_bur])
  · exact h

theorem State.seqStop_balanced (q : Nat) : (s.seqStop q).bur.Balanced := by
  unfold State.seqStop
  extract_lets x
  split
  · exact State.endNoOutput_balanced h ..
  · exact State.endNoOutput_balanced h ..
  · exact State.ite_balanced h (by rwa [State.setSeq_bur])
  · exact h

theorem State.burstCtrl_balanced (q : Nat) (v : Word) : (s.burstCtrl q v).bur.Balanced := by
  unfold State.burstCtrl
  extract_lets a s1 busy
  have h1 : s1.bur.Balanced := by rwa [State.writeMasked_bur]
  split_ifs
  · exact State.seqAbort_balanced h1 q
  · exact State.seqStop_balanced h1 q
  · exact h1
  · exact h1
  · rwa [State.denyStart_bur]
  · exact State.seqStart_balanced h1 ..

theorem State.hostBurstCtrl_balanced (q : Nat) (v : Word) :
    (s.hostWrite 0 (seqBase q 0 + 0x54) v fun s => s.burstCtrl q v).bur.Balanced :=
  State.hostWrite_balanced h _ _ _ fun _ hs => State.burstCtrl_balanced hs q v

theorem execBurstCtrlStart_balanced (q : Nat) (v : Word) : OutBalanced (execBurstCtrlStart q v s) := by
  unfold execBurstCtrlStart
  rw [outBalanced_next]
  exact State.ite_balanced (State.hostBurstCtrl_balanced h q v) h

theorem execBurstCtrlStop_balanced (q : Nat) (v : Word) : OutBalanced (execBurstCtrlStop q v s) := by
  unfold execBurstCtrlStop
  rw [outBalanced_next]
  exact State.ite_balanced (State.hostBurstCtrl_balanced h q v) h

theorem execBurstCtrlAbort_balanced (q : Nat) (v : Word) : OutBalanced (execBurstCtrlAbort q v s) := by
  unfold execBurstCtrlAbort
  rw [outBalanced_next]
  exact State.ite_balanced (State.hostBurstCtrl_balanced h q v) h

theorem execGranuleJudge_balanced (q : Nat) : OutBalanced (execGranuleJudge q s) := by
  unfold execGranuleJudge
  extract_lets x d ends
  have hEnds (r : Nat) : (ends r).bur.Balanced := by rwa [State.setSeq_bur, State.passTo_bur]
  have hJudged : ((s.passTo (x.t / 20480)).judgeNext q).bur.Balanced := by rwa [State.judgeNext_bur, State.passTo_bur]
  rw [outBalanced_next]
  refine State.ite_balanced h (State.ite_balanced ?_ (State.ite_balanced h hJudged))
  split
  · exact h
  · exact hEnds _
  · exact State.ite_balanced (hEnds 6) (by rwa [State.judgeNext_bur, State.setSeq_bur, State.passTo_bur])

theorem execParkComplete_balanced (q m : Nat) : OutBalanced (execParkComplete q m s) := by
  unfold execParkComplete
  extract_lets x
  rw [outBalanced_next]
  split
  · exact h
  · exact State.ite_balanced (State.burstEnd_balanced (by rwa [State.passTo_bur]) ..) h

/-! ### Accrual, refill and heat (R264 to R266, R275 to R277) -/

theorem State.burValues_balanced : s.burValues.bur.Balanced := by
  unfold State.burValues
  extract_lets b m eff fixed s1
  rw [State.setLive_bur, State.setBur_bur, Bursar.balanced_mk]
  exact h

/-- What an interval adds to the pool it adds to the accrual (R264). -/
theorem execBursarInterval_balanced : OutBalanced (execBursarInterval s) := by
  unfold execBursarInterval
  extract_lets s1 b add
  have h1 : s1.bur.Balanced := by rwa [State.toGrid_bur]
  clear_value s1
  rw [outBalanced_next]
  refine State.ite_balanced (State.burValues_balanced ?_) h1
  rw [State.setBur_bur, Bursar.balanced_mk]
  change s1.bur.accrued + add = s1.bur.pool + add + s1.bur.held + s1.bur.measured
  unfold Bursar.Balanced at h1
  omega

omit h in
/-- A refill counts as accrual, whatever the account held before (R266, R277). -/
theorem State.burFill_balanced (s : State) : s.burFill.bur.Balanced := by
  unfold State.burFill
  rw [State.setBur_bur, Bursar.balanced_mk]
  simp

omit h in
theorem State.burReset_balanced (s : State) (cause : Nat) : (s.burReset cause).bur.Balanced :=
  State.burFill_balanced _

theorem State.heat_balanced : s.heat.bur.Balanced := by
  unfold State.heat
  extract_lets s1 s2 was now _ s3 s4
  have h1 : s1.bur.Balanced := by
    unfold s1
    split <;> rwa [State.setReg_bur]
  have h2 : s2.bur.Balanced := by rwa [State.setLive_bur]
  clear_value s2
  have h3 : s3.bur.Balanced := by
    rw [State.setBur_bur, Bursar.balanced_mk]
    exact h2
  clear_value s3
  have h4 : s4.bur.Balanced :=
    State.ite_balanced (State.foldl_balanced (fun _ q hs => State.seqShed_balanced hs q) _ (by rwa [State.incSat_bur])) h3
  rwa [State.setLive_bur]

theorem State.hostStale_balanced (stale : Bool) : (s.hostStale stale).bur.Balanced := by
  unfold State.hostStale
  refine State.heat_balanced ?_
  rwa [State.foldl_bur fun _ _ => by rw [State.ite_bur, State.setB_bur, ite_self]]

theorem execSensorSample_balanced (readings : List (Nat × Nat)) (coreMv core10mA fieldP : Nat) :
    OutBalanced (execSensorSample readings coreMv core10mA fieldP s) := by
  unfold execSensorSample
  extract_lets s1 s2 r s3
  have h1 : s1.bur.Balanced := by rwa [State.toGrid_bur]
  have h2 : s2.bur.Balanced := State.heat_balanced (by rwa [State.takeReadings_bur])
  have hr : r.2.bur.Balanced := by rwa [State.tempNow_bur]
  have h3 : s3.bur.Balanced := State.calTemp_balanced hr _
  clear_value s1 s3
  rw [outBalanced_next]
  exact State.ite_balanced (by rwa [State.setReg_bur, State.setReg_bur, State.setReg_bur]) h1

theorem execThermalTargetStep_balanced : OutBalanced (execThermalTargetStep s) := by
  unfold execThermalTargetStep
  extract_lets s1 _ above target ramp t
  have h1 : s1.bur.Balanced := by rwa [State.toGrid_bur]
  clear_value s1
  rw [outBalanced_next]
  refine State.ite_balanced ?_ h1
  rw [State.setBur_bur, Bursar.balanced_mk]
  exact h1

/-! ### Dispatch and admission (R252, R253, R269 to R271) -/

theorem State.startUnit_balanced (t : Task) : (s.startUnit t).bur.Balanced := by
  unfold State.startUnit
  extract_lets u
  split
  · exact State.ite_balanced (State.endRun_balanced h ..) (State.seqStart_balanced h ..)
  · rw [State.tdcBegin_bur]; exact State.tdcStart_balanced h u
  · rwa [State.chkBegin_bur]
  · exact h
  · exact State.calStart_balanced h ..
  · exact State.flowBegin_balanced h _
  · exact h

theorem State.dispatch_balanced (i : Nat) : (s.dispatch i).bur.Balanced := by
  unfold State.dispatch
  exact State.startUnit_balanced (by rwa [State.inc64_bur, State.setTask_bur]) _

theorem State.beginDirect_balanced (w : Wait) : (s.beginDirect w).bur.Balanced := by
  unfold State.beginDirect
  split
  · exact h
  · rwa [State.tdcBegin_bur]
  · rwa [State.chkBegin_bur]
  · rwa [State.dmaBegin_bur]
  · exact State.ite_balanced (State.calStart_balanced h ..) (by rwa [State.calBegin_bur])
  · exact State.flowBegin_balanced h _

/-- What admission takes from the pool it holds (R270). -/
theorem State.admitWait_balanced (w : Wait) : (s.admitWait w).bur.Balanced := by
  unfold State.admitWait
  extract_lets b run s1 s2
  have h1 : s1.bur.Balanced := by
    rw [State.setBur_bur, Bursar.balanced_mk]
    change s.bur.accrued = s.bur.pool - w.energy + (s.bur.held + w.energy) + s.bur.measured
    unfold Bursar.Balanced at h
    omega
  clear_value s1
  have h2 : s2.bur.Balanced := by rwa [State.incWrap_bur]
  clear_value s2
  refine State.ite_balanced (State.beginDirect_balanced (State.ite_balanced ?_ h2) w) (State.dispatch_balanced h2 _)
  rwa [State.setCal_bur]

theorem State.dropAuto_balanced : s.dropAuto.bur.Balanced := by
  unfold State.dropAuto
  refine State.ite_balanced ?_ h
  rw [State.setCal_bur, State.setBur_bur, Bursar.balanced_mk]
  exact h

theorem State.bursarCycle_balanced : s.bursarCycle.2.bur.Balanced := by
  unfold State.bursarCycle
  extract_lets s1 l r _ s2 s3
  have h1 : s1.bur.Balanced := State.dropAuto_balanced (by rwa [State.nextReady_bur, State.passTo_bur])
  clear_value s1
  have h2 : s2.bur.Balanced := by
    rw [State.setBur_bur, Bursar.balanced_mk]
    exact h1
  clear_value s2
  have h3 : s3.bur.Balanced := by rwa [State.setLive_bur]
  clear_value s3
  split
  · exact State.admitWait_balanced h3 _
  · exact h3

theorem execBursarAdmit_balanced : OutBalanced (execBursarAdmit s) := by
  unfold execBursarAdmit
  rw [outBalanced_next]
  exact State.ite_balanced (State.bursarCycle_balanced h) h

theorem execTaskDispatch_balanced : OutBalanced (execTaskDispatch s) := by
  have hr := State.bursarCycle_balanced h
  unfold execTaskDispatch
  generalize s.bursarCycle = r at hr ⊢
  rw [outBalanced_next]
  refine State.ite_balanced h (State.ite_balanced hr ?_)
  split
  · refine State.dispatch_balanced ?_ _
    rw [State.setBur_bur, Bursar.balanced_mk]
    exact hr
  · exact hr

/-! ### Aborts of tasks, and the cycle of the matching store (R247, R255) -/

theorem State.abortUnit_balanced (t : Task) : (s.abortUnit t).bur.Balanced := by
  unfold State.abortUnit
  extract_lets u
  split
  · exact State.seqAbort_balanced h u
  · exact State.tdcAbort_balanced h u
  · exact State.chkAbort_balanced h u
  · exact State.dmaTaskAbort_balanced h u
  · exact State.calAbort_balanced h
  · exact State.flowAbort_balanced h
  · exact h

theorem execTaskAbort_balanced : OutBalanced (execTaskAbort s) := by
  unfold execTaskAbort
  rw [outBalanced_next]
  exact State.taskCmd_balanced h _ fun i _ hs => State.abortTask_balanced hs (fun t _ ht => State.abortUnit_balanced ht t) i

theorem State.applyEntry_balanced {ab : Task → State → State} (hab : ∀ t s, s.bur.Balanced → (ab t s).bur.Balanced)
    (q : Nat) (e : List Word) :
    (s.applyEntry ab q e).2.bur.Balanced ∧ ∀ t, (s.applyEntry ab q e).1 = some t → t.bur.Balanced := by
  have done {t : State} (ht : t.bur.Balanced) : ((some t, t) : Option State × State).2.bur.Balanced ∧
      ∀ u, ((some t, t) : Option State × State).1 = some u → u.bur.Balanced := ⟨ht, fun u e => by cases e; exact ht⟩
  unfold State.applyEntry
  extract_lets w0 i _
  split
  · exact done (by rwa [Keeps.bur_eq (State.submitTask_keeps (by rfl) (.refl _ s) ..)])
  · exact done (by rwa [Keeps.bur_eq (State.armTask_keeps (by rfl) (.refl _ s) ..)])
  · exact done (by rwa [Keeps.bur_eq (State.disarmTask_keeps (by rfl) (.refl _ s) ..)])
  · obtain ⟨hSame, hSome⟩ := State.addTask_both (pm := allButBur) (by rfl) (.refl _ s) q i (fld w0 27 26) (fld (e.getD 1 0) 15 0) true
    exact ⟨by rwa [hSame.bur_eq], fun t ht => by rwa [(hSome t ht).bur_eq]⟩
  · exact done (State.abortTask_balanced h hab i)
  · exact done (by rwa [Keeps.bur_eq (State.clearTask_keeps (by rfl) (.refl _ s) ..)])
  · exact done (by rwa [State.cmdFail_bur])

theorem State.serveQueue_balanced {ab : Task → State → State} (hab : ∀ t s, s.bur.Balanced → (ab t s).bur.Balanced) (q : Nat) :
    (s.serveQueue ab q).2.bur.Balanced := by
  unfold State.serveQueue
  split
  · exact h
  · next e l _ =>
    obtain ⟨hHeld, hApplied⟩ := State.applyEntry_balanced h hab q e
    split
    · next he => rw [he] at hHeld; exact hHeld
    · next he =>
      have ht := hApplied _ (by rw [he])
      simpa using ht

theorem serveFirst_balanced {serve : Nat → State → Bool × State} (hs : ∀ x s, s.bur.Balanced → (serve x s).2.bur.Balanced)
    (l : List Nat) : (serveFirst serve l s).bur.Balanced := by
  induction l generalizing s with
  | nil => exact h
  | cons x l ih =>
    unfold serveFirst
    exact State.ite_balanced (hs x s h) (ih (hs x s h))

theorem State.matchCycle_balanced {ab : Task → State → State} (hab : ∀ t s, s.bur.Balanced → (ab t s).bur.Balanced) :
    (s.matchCycle ab).bur.Balanced := by
  unfold State.matchCycle
  extract_lets s1 s2 left ports first r s3 src s4 s5
  have h2 : s2.bur.Balanced := State.ite_balanced (by rwa [State.matchHolds_bur, State.matchOpen_bur]) (by rwa [State.matchOpen_bur])
  have hServed : r.2.bur = s2.bur :=
    Keeps.bur_eq (serveUpTo_keeps (by rfl) _ (fun p _ hk => State.servePort_keeps (by rfl) hk p) (.refl _ s2) ..)
  have h3 : s3.bur.Balanced := by rwa [State.matchDone_bur, hServed]
  have h4 : s4.bur.Balanced := by
    unfold s4 src
    generalize s3 = t at h3 ⊢
    generalize first = o
    cases o <;> exact h3
  have h5 : s5.bur.Balanced := by
    unfold s5
    split
    · exact serveFirst_balanced h4 (fun q _ hs => State.serveQueue_balanced hs hab q) _
    · exact h4
  rwa [State.matchDone_bur]

theorem execArrivalApply_balanced : OutBalanced (execArrivalApply s) := by
  unfold execArrivalApply
  rw [outBalanced_next]
  exact State.ite_balanced (State.matchCycle_balanced h fun t _ ht => State.abortUnit_balanced ht t) h

end Account
end Sys2Proof.Machine
end

section
/-! SUPPORT. Modes, resets and pruning keep the account of the Bursar balanced, or start it anew (02_modes.md, 21_pruning_conservation.md). -/

namespace Sys2Proof.Machine

section Account
variable {s : State} (h : s.bur.Balanced)
include h

/-! ### Modes (R30 to R33) -/

theorem State.abortForbidden_balanced (m : Nat) : (s.abortForbidden m).bur.Balanced := by
  unfold State.abortForbidden
  extract_lets no s1 s2 s3 s4 s5 s6 s7
  have h1 : s1.bur.Balanced :=
    State.ite_balanced (State.foldl_balanced (fun _ q hs => State.ite_balanced (State.seqAbort_balanced hs q) hs) _ h) h
  clear_value s1
  have h2 : s2.bur.Balanced := State.ite_balanced (State.flowAbort_balanced h1) h1
  clear_value s2
  have h3 : s3.bur.Balanced :=
    State.ite_balanced (State.foldl_balanced (fun _ e hs => State.ite_balanced (State.tdcAbort_balanced hs e) hs) _ h2) h2
  clear_value s3
  have h4 : s4.bur.Balanced :=
    State.ite_balanced (State.foldl_balanced (fun _ n hs => State.ite_balanced (State.chkAbort_balanced hs n) hs) _ h3) h3
  clear_value s4
  have h5 : s5.bur.Balanced := State.ite_balanced (State.dmaAbortForbidden_balanced h4) h4
  clear_value s5
  have h6 : s6.bur.Balanced := State.ite_balanced (State.calAbort_balanced h5) h5
  clear_value s6
  have h7 : s7.bur.Balanced :=
    State.ite_balanced (State.foldl_balanced (fun _ n hs => State.ite_balanced (by rwa [State.diagAbort_bur]) hs) _ h6) h6
  clear_value s7
  exact State.ite_balanced (State.foldl_balanced (fun _ b hs => State.ite_balanced (by rwa [State.pecAbort_bur]) hs) _ h7) h7

theorem State.modePend_balanced (target : Nat) (abort : Bool) : (s.modePend target abort).bur.Balanced := by
  unfold State.modePend
  extract_lets _ s1
  have h1 : s1.bur.Balanced := by rwa [State.setCtl_bur]
  exact State.ite_balanced (State.abortForbidden_balanced h1 target) h1

theorem State.modeReq_balanced (target : Nat) (abort : Bool) : (s.modeReq target abort).bur.Balanced := by
  have hDenied (r : Nat) : (s.modeDeny r).bur.Balanced := by rwa [State.modeDeny_bur]
  unfold State.modeReq
  extract_lets m
  split
  · exact State.ite_balanced (State.abortForbidden_balanced (by rwa [State.setCtl_bur]) _) (hDenied 2)
  · split_ifs
    · exact hDenied 3
    · exact hDenied 3
    · rwa [State.wake_bur]
    · exact h
    · exact hDenied 3
    · exact hDenied 3
    · exact hDenied 5
    · exact State.modePend_balanced h 4 abort
    · exact hDenied 6
    · exact State.modePend_balanced h target abort

theorem execModeReq_balanced (target : Nat) : OutBalanced (execModeReq target s) := by
  unfold execModeReq
  rw [outBalanced_next]
  exact State.hostWrite_balanced h _ _ _ fun _ hs => State.modeReq_balanced hs _ _

theorem execModeReqAbort_balanced (target : Nat) : OutBalanced (execModeReqAbort target s) := by
  unfold execModeReqAbort
  rw [outBalanced_next]
  exact State.hostWrite_balanced h _ _ _ fun _ hs => State.modeReq_balanced hs _ _

/-! ### Losses, holds and resets of the two sides (R34 to R39, R46) -/

theorem State.dmaTasksFail_balanced : s.dmaTasksFail.bur.Balanced := by
  unfold State.dmaTasksFail
  refine State.foldl_balanced (fun t w ht => ?_) _ h
  rw [State.setTask_bur]
  exact State.settle_balanced ht ..

theorem execFieldSatchelLoss_balanced : OutBalanced (execFieldSatchelLoss s) := by
  unfold execFieldSatchelLoss
  rw [outBalanced_next]
  extract_lets _ s1
  have h1 : s1.bur.Balanced := h
  clear_value s1
  refine State.ite_balanced ?_ h
  rw [State.hostGone_bur]
  exact State.hostStale_balanced (State.dmaTasksFail_balanced (by rwa [State.occur_bur, State.incSat_bur])) true

omit h in
/-- The account starts anew with the field side: every term is 0. -/
theorem State.fieldErase_balanced (s : State) (part : Bool) : (s.fieldErase part).bur.Balanced := by
  unfold State.fieldErase
  exact (Bursar.balanced_mk ..).2 rfl

omit h in
theorem State.fieldHold_balanced (s : State) : s.fieldHold.bur.Balanced := by
  have hErased := State.fieldErase_balanced s false
  unfold State.fieldHold
  exact State.ite_balanced hErased (by rwa [State.fieldDown_bur])

theorem State.dmaForget_balanced : s.dmaForget.bur.Balanced := by
  unfold State.dmaForget
  exact State.foldl_balanced
    (fun _ c hs => State.ite_balanced (State.endRun_balanced (State.withdraw_balanced hs 4 c) ..) hs) _ h

theorem State.hostErase_balanced (part : Bool) : (s.hostErase part).bur.Balanced := by
  unfold State.hostErase
  extract_lets t
  have ht : t.bur.Balanced := by
    rw [State.eraseRegs_bur]
    exact State.dmaForget_balanced h
  clear_value t
  exact ht

omit h in
theorem State.detain_balanced (s : State) (cause : Nat) : (s.detain cause).bur.Balanced := by
  unfold State.detain
  extract_lets s1 _ s2
  have h1 : s1.bur.Balanced := State.fieldErase_balanced s false
  rwa [State.occur_bur, State.setF_bur, State.setCtl_bur]

theorem State.hostBoot_balanced (bankA bankB : ImagePair) : (s.hostBoot bankA bankB).bur.Balanced := by
  unfold State.hostBoot
  extract_lets preferB firstB _ s1 first second used r1 r2 results
  have h1 : s1.bur.Balanced := by rwa [State.enablePages_bur, State.setCtl_bur]
  clear_value s1
  generalize used = pair
  split
  · exact State.detain_balanced _ 1
  · extract_lets s2 s3 level _ s4 s5
    have h5 : s5.bur.Balanced := by
      unfold s5
      rwa [State.ite_bur, State.occur_bur, ite_self, State.setCtl_bur, State.setReg_bur, State.setReg_bur]
    clear_value s5
    refine State.ite_balanced ?_ ?_
    · rwa [State.linkInit_bur, State.setCtl_bur]
    · rwa [State.fieldDown_bur, State.fieldStart_bur, State.setCtl_bur]

theorem execHostResetRelease_balanced (bankA bankB : ImagePair) : OutBalanced (execHostResetRelease bankA bankB s) := by
  unfold execHostResetRelease
  rw [outBalanced_next]
  exact State.ite_balanced (State.hostBoot_balanced (by rwa [State.setCtl_bur]) ..) h

omit h in
theorem State.partReset_balanced (s : State) (bankA bankB : ImagePair) : (s.partReset bankA bankB).bur.Balanced := by
  unfold State.partReset
  refine State.hostBoot_balanced ?_ ..
  rw [State.setCtl_bur]
  exact State.fieldErase_balanced _ true

theorem execResetCtrlPart_balanced (key : Nat) (bankA bankB : ImagePair) : OutBalanced (execResetCtrlPart key bankA bankB s) := by
  unfold execResetCtrlPart
  rw [outBalanced_next]
  exact State.resetCtrl_balanced h _ _ fun t _ => State.partReset_balanced t bankA bankB

theorem execResetCtrlBankSwitch_balanced (key : Nat) (bankA bankB : ImagePair) :
    OutBalanced (execResetCtrlBankSwitch key bankA bankB s) := by
  unfold execResetCtrlBankSwitch
  rw [outBalanced_next]
  exact State.resetCtrl_balanced h _ _ fun _ _ => State.partReset_balanced _ bankA bankB

theorem execResetCtrlField_balanced (key : Nat) : OutBalanced (execResetCtrlField key s) := by
  unfold execResetCtrlField
  rw [outBalanced_next]
  refine State.resetCtrl_balanced h _ _ fun t _ => ?_
  rw [State.fieldStart_bur]
  exact State.fieldHold_balanced t

theorem State.hostHold_balanced : s.hostHold.bur.Balanced := State.hostErase_balanced h false

theorem execPowerGoodFall_balanced (field : Bool) : OutBalanced (execPowerGoodFall field s) := by
  unfold execPowerGoodFall
  rw [outBalanced_next]
  extract_lets _ s1
  have h1 : s1.bur.Balanced := State.fieldHold_balanced _
  clear_value s1
  split_ifs
  · exact h1
  · exact h
  · exact State.hostHold_balanced (by rwa [State.setCtl_bur])
  · exact h

theorem execResetNAssert_balanced (field : Bool) : OutBalanced (execResetNAssert field s) := by
  unfold execResetNAssert
  rw [outBalanced_next]
  split_ifs
  · exact State.fieldHold_balanced _
  · exact h
  · exact State.hostHold_balanced (by rwa [State.setCtl_bur])
  · exact h

theorem execSupplyLoss_balanced (field : Bool) : OutBalanced (execSupplyLoss field s) := by
  unfold execSupplyLoss
  rw [outBalanced_next]
  extract_lets s1 s2 s3 _ s4 s5
  have h1 : s1.bur.Balanced := State.fieldErase_balanced s true
  clear_value s1
  have h2 : s2.bur.Balanced := by rwa [State.setB_bur, State.setB_bur]
  clear_value s2
  have h3 : s3.bur.Balanced := h2
  clear_value s3
  have h4 : s4.bur.Balanced := by rwa [State.setCtl_bur]
  clear_value s4
  have h5 : s5.bur.Balanced := State.hostErase_balanced h true
  clear_value s5
  split_ifs
  · exact h4
  · rwa [State.fieldState_bur]
  · exact h
  · rwa [State.setCtl_bur]
  · exact h

theorem execFmiReceived_balanced (accepted : Bool) : OutBalanced (execFmiReceived accepted s) := by
  unfold execFmiReceived
  rw [outBalanced_next]
  refine State.ite_balanced (State.ite_balanced ?_ (State.detain_balanced s 3)) h
  rwa [State.ringLanesInit_bur, State.foldl_bur fun _ _ => State.setCelState_bur .., State.setReg_bur, State.setCtl_bur]

/-! ### Pruning (R413 to R420) -/

theorem State.shedOne_balanced : s.shedOne.bur.Balanced := by
  unfold State.shedOne
  extract_lets m _ s0 _ s1 kept _ s2
  have h1 : s1.bur.Balanced := by
    unfold s1
    split
    · exact h
    · refine State.ite_balanced ?_ ?_
      · rwa [State.modeDeny_bur, State.setCtl_bur]
      · rwa [State.setCtl_bur, State.setCtl_bur]
  clear_value s1
  exact State.calAbort_balanced (State.ite_balanced (by rwa [State.setCtl_bur]) h1)

theorem State.shedTwo_balanced : s.shedTwo.bur.Balanced := by
  unfold State.shedTwo
  extract_lets s1 s2
  have h1 : s1.bur.Balanced := State.foldl_balanced (fun _ q hs => State.seqShed_balanced hs q) _ h
  clear_value s1
  have h2 : s2.bur.Balanced := by rwa [State.traceStop_bur, State.captureStop_bur]
  clear_value s2
  exact State.ite_balanced (by rwa [State.setCtl_bur]) h2

theorem State.shedThree_balanced : s.shedThree.bur.Balanced := by
  unfold State.shedThree
  extract_lets s1 s2 s3 s4 rested _ s5
  have h1 : s1.bur.Balanced := State.foldl_balanced (fun _ e hs => State.tdcAbort_balanced hs e) _ h
  clear_value s1
  have h2 : s2.bur.Balanced := State.foldl_balanced (fun _ n hs => State.chkAbort_balanced hs n) _ h1
  clear_value s2
  have h3 : s3.bur.Balanced := by rwa [State.foldl_bur fun _ _ => State.pecAbort_bur ..]
  clear_value s3
  have h4 : s4.bur.Balanced := by
    rw [State.selfRefreshAll_bur]
    exact State.dmaAbortForbidden_balanced h3
  clear_value s4
  have h5 : s5.bur.Balanced := by rwa [State.setCtl_bur]
  exact State.ite_balanced h5 (by rwa [State.sendState_bur, State.lanesSleep_bur])

omit h in
/-- Stage 4 discards the account and fills it anew (R277). -/
theorem State.shedFour_balanced (s : State) : s.shedFour.bur.Balanced := by
  unfold State.shedFour
  extract_lets s1 s2 s3 s4 s5
  have h2 : s2.bur.Balanced := State.burReset_balanced _ 2
  clear_value s2
  have h5 : s5.bur.Balanced := by
    rw [State.foldl_bur fun _ _ => State.sigClear_bur ..]
    simpa [s4, s3] using h2
  clear_value s5
  rwa [State.galLost_bur, State.decClear_bur, State.corStop_bur]

theorem State.shed_balanced (k n : Nat) : (s.shed k n).bur.Balanced := by
  unfold State.shed
  extract_lets s1 s2 s3
  have h1 : s1.bur.Balanced := State.ite_balanced (State.shedOne_balanced h) h
  clear_value s1
  have h2 : s2.bur.Balanced := State.ite_balanced (State.shedTwo_balanced h1) h1
  clear_value s2
  have h3 : s3.bur.Balanced := State.ite_balanced (State.shedThree_balanced h2) h2
  clear_value s3
  exact State.ite_balanced (State.shedFour_balanced s3) h3

theorem State.setStage_balanced (n : Nat) : (s.setStage n).bur.Balanced := by
  unfold State.setStage
  extract_lets k old _ s1 s2 t
  have h2 : s2.bur.Balanced := State.ite_balanced (by rwa [State.incSat_bur, State.setPrune_bur]) (by rwa [State.setPrune_bur])
  clear_value s2
  have ht : t.bur.Balanced :=
    State.ite_balanced (State.ite_balanced (State.shed_balanced h2 k n) (by rwa [State.climbed_bur])) h2
  clear_value t
  exact State.ite_balanced h (by rwa [State.occur_bur, State.fcResume_bur, State.pinsMove_bur])

theorem execAlwaysOnTick_balanced (senseMv rails : Nat) : OutBalanced (execAlwaysOnTick senseMv rails s) := by
  unfold execAlwaysOnTick
  rw [outBalanced_next]
  extract_lets s1 s2 s3 s4 levels below _ s5 deep _ s6 _ s7 _ s8 s9
  have h4 : s4.bur.Balanced := by
    rwa [State.setLive_bur, State.setReg_bur, State.setF_bur, State.toGrid_bur]
  clear_value s4
  have h7 : s7.bur.Balanced := by
    unfold s7
    rwa [State.ite_bur, State.setPrune_bur, ite_self, State.setPrune_bur, State.setPrune_bur]
  clear_value s7
  have h8 : s8.bur.Balanced := by
    refine State.ite_balanced ?_ h7
    rw [State.setPrune_bur]
    exact State.setStage_balanced h7 _
  clear_value s8
  have h9 : s9.bur.Balanced := by rwa [State.pruneStat_bur, State.climbCount_bur]
  clear_value s9
  exact State.ite_balanced h (State.ite_balanced (State.fieldHold_balanced _) h9)

theorem execPruneClimbTimer_balanced : OutBalanced (execPruneClimbTimer s) := by
  have h1 : (s.passTo (s.prune.climbFrom + 800000)).bur.Balanced := by rwa [State.passTo_bur]
  unfold execPruneClimbTimer
  generalize s.passTo (s.prune.climbFrom + 800000) = s1 at h1 ⊢
  dsimp only
  rw [outBalanced_next]
  refine State.ite_balanced ?_ h
  rw [State.pruneStat_bur, State.climbCount_bur]
  exact State.setStage_balanced (by rwa [State.setPrune_bur]) _

theorem State.pruneForce_balanced (v : Nat) : (s.pruneForce v).bur.Balanced := by
  unfold State.pruneForce
  extract_lets old s1 _ _ s2
  have h1 : s1.bur.Balanced := by rwa [State.setReg_bur]
  clear_value s1
  have h2 : s2.bur.Balanced := by
    refine State.ite_balanced ?_ (State.ite_balanced ?_ h1)
    · rw [State.setPrune_bur]
      exact State.setStage_balanced h1 v
    · rwa [State.setPrune_bur]
  clear_value s2
  exact State.ite_balanced h (by rwa [State.pruneStat_bur, State.climbCount_bur])

theorem execPruneForceWrite_balanced (v : Word) : OutBalanced (execPruneForceWrite v s) := by
  unfold execPruneForceWrite
  rw [outBalanced_next]
  exact State.hostWrite_balanced h _ _ _ fun _ hs => State.pruneForce_balanced hs _

/-- The field side boots with a full pool (R266). -/
theorem execBootComplete_balanced (ms : Nat) (meas : List (Nat × List Byte)) : OutBalanced (execBootComplete ms meas s) := by
  unfold execBootComplete
  rw [outBalanced_next]
  extract_lets s1 s2 old _ s3 s4
  have h1 : s1.bur.Balanced := State.burValues_balanced (State.burFill_balanced _)
  clear_value s1
  have h3 : s3.bur.Balanced := by rwa [State.setCtl_bur, State.setReg_bur]
  clear_value s3
  have h4 : s4.bur.Balanced := by
    rw [State.fcResume_bur, State.pinsMove_bur]
    exact State.shed_balanced (State.ite_balanced h3 (by rwa [State.fieldState_bur])) ..
  clear_value s4
  exact State.ite_balanced (State.ite_balanced (by rwa [State.rollStart_bur]) (by rwa [State.portLive_bur])) h

end Account
end Sys2Proof.Machine
end

section
/-! SUPPORT. Soft resets, register writes and the Satchel keep the account of the Bursar balanced (03_register_pages.md, 20_host_satchel.md). -/

namespace Sys2Proof.Machine

section Account
variable {s : State} (h : s.bur.Balanced)
include h

/-! ### Page soft resets (R54) -/

theorem State.srstAbort_balanced (k : PageKind) (i : Nat) : (s.srstAbort k i).bur.Balanced := by
  unfold State.srstAbort
  split
  · exact State.ite_balanced (by rwa [State.foldl_bur fun _ _ => State.pecAbort_bur ..]) h
  · exact State.seqAbort_balanced h i
  · exact State.foldl_balanced (fun _ e hs => State.tdcAbort_balanced hs _) _ h
  · exact State.chkAbort_balanced h i
  · exact State.flowAbort_balanced h
  · exact State.calAbort_balanced h
  · rwa [State.laneReset_bur]
  · rwa [State.rollBusy_bur, State.setRing_bur]
  · exact h

theorem State.srstClear_balanced (k : PageKind) (i : Nat) : (s.srstClear k i).bur.Balanced := by
  unfold State.srstClear
  split
  · rwa [State.setEdges_bur]
  · rwa [State.underrunClear_bur]
  · rwa [State.underrunClear_bur]
  · rwa [State.budget_bur, State.foldl_bur fun _ _ => State.dropRetained_bur ..]
  · rw [State.ringSrst_bur, State.fcRestart_bur]
    exact h
  · refine State.foldl_balanced (fun t _ ht => ?_) _ h
    rwa [State.foldl_bur fun _ _ => State.setReg_bur ..]
  · rwa [State.celReset_bur]
  · exact State.slotsReset_balanced h fun t _ ht => State.abortUnit_balanced ht t
  · rwa [State.queuesClear_bur]
  · rwa [State.dlistReset_bur]
  · exact State.burReset_balanced s 1
  · exact State.heat_balanced h
  · rwa [State.ringSrst_bur, State.flowClear_bur]
  · rwa [State.cardsClear_bur]
  · rwa [State.corReset_bur]
  · rwa [State.selReset_bur]
  · rwa [State.linkReset_bur]
  · rwa [State.linkReset_bur, State.linkReset_bur]
  · rwa [State.ringSrst_bur, State.bellReset_bur, State.ringReset_bur]
  · rwa [State.setTime4_bur, State.setReg_bur]
  · rwa [State.ringSrst_bur, State.setReg_bur, State.setTrace_bur]
  · exact h
  · rwa [State.pwrReset_bur]
  · exact h

theorem State.srstApply_balanced (k : PageKind) (i p : Nat) : (s.srstApply k i p).bur.Balanced := by
  unfold State.srstApply
  extract_lets s1 s2
  have h1 : s1.bur.Balanced := State.srstAbort_balanced h k i
  clear_value s1
  have h2 : s2.bur.Balanced := by
    unfold s2
    split
    · rwa [State.srstConfig_bur]
    · rwa [State.srstConfig_bur]
    · rwa [State.srstSeq_bur]
    · rwa [State.srstSeq_bur]
    · rwa [State.sliceWrite_bur]
    · exact State.pruneForce_balanced h1 0
    · exact h1
  clear_value s2
  exact State.srstClear_balanced (by rwa [State.softResetOn_bur]) k i

theorem State.pageSrst_balanced (k : PageKind) (i p : Nat) (v : Word) : (s.pageSrst k i p v).bur.Balanced := by
  unfold State.pageSrst
  extract_lets s1 s2
  have h1 : s1.bur.Balanced := State.ite_balanced (by rwa [State.configWrite_bur]) (by rwa [State.setB_bur])
  clear_value s1
  have h2 : s2.bur.Balanced := State.ite_balanced h1 (State.srstApply_balanced h1 k i p)
  clear_value s2
  exact State.ite_balanced h1 (by rwa [State.setB_bur, State.setB_bur])

theorem execPageSrst_balanced (req page : Nat) (v : Word) : OutBalanced (execPageSrst req page v s) := by
  unfold execPageSrst
  rw [outBalanced_next]
  split
  · exact State.ite_balanced (State.hostWrite_balanced h _ _ _ fun _ hs => State.pageSrst_balanced hs ..) h
  · exact h

/-! ### Writes of registers (R7, R49 to R56) -/

theorem State.plain64_balanced (k : PageKind) (o a v : Nat) : (s.plain64 k o a v).bur.Balanced := by
  have hWritten : (s.commit64 a v).bur.Balanced := by rwa [State.commit64_bur]
  unfold State.plain64
  split
  · rwa [State.ringBaseWrite_bur]
  · split_ifs
    · exact hWritten
    · exact h
    · exact State.heat_balanced hWritten
    · rwa [State.enableAgain_bur]
    · exact hWritten

theorem execReg64HighWrite_balanced (req addr : Nat) (v : Word) : OutBalanced (execReg64HighWrite req addr v s) := by
  have hk := Keeps.refl allButBur s
  unfold execReg64HighWrite
  rw [outBalanced_next]
  split
  · refine State.ite_balanced h (outState_balanced h ?_)
    split
    · exact (execEdgeSlotCommit_keeps (by rfl) hk ..).balanced h
    · exact (execTimesetCommit_keeps (by rfl) hk ..).balanced h
    · exact (execMapMaskCommit_keeps (by rfl) hk ..).balanced h
    · exact (execChkRegWrite_keeps (by rfl) hk ..).balanced h
    · exact (execConvBeatWrite_keeps (by rfl) hk ..).balanced h
    · rw [outBalanced_next]
      exact State.hostWrite_balanced h _ _ _ fun t ht => State.plain64_balanced (by rwa [State.take64_bur]) ..
  · exact h

theorem State.afterWrite_balanced (k : PageKind) (o : Nat) : (s.afterWrite k o).bur.Balanced := by
  unfold State.afterWrite
  split
  · exact State.ite_balanced (by rwa [State.budget_bur]) h
  · exact State.ite_balanced (by rwa [State.setLive_bur]) h
  · exact State.ite_balanced (State.heat_balanced h) h
  · exact State.ite_balanced (by rwa [State.gpeSoftware_bur]) h
  · exact State.ite_balanced (by rwa [State.ringThresh_bur]) (State.ite_balanced (by rwa [State.ringThresh_bur]) h)
  · exact State.ite_balanced (by rwa [State.ringThresh_bur]) h
  · exact State.ite_balanced (by rwa [State.dlogFull_bur, State.ringThresh_bur]) h
  · exact State.ite_balanced (by rwa [State.ringThresh_bur]) h
  · exact h

theorem State.plainWrite_balanced (k : PageKind) (i o a : Nat) (v : Word) : (s.plainWrite k i o a v).bur.Balanced := by
  have hMasked : (s.writeMasked a v).bur.Balanced := by rwa [State.writeMasked_bur]
  unfold State.plainWrite
  split
  · rwa [State.ringSizeWrite_bur]
  · refine State.ite_balanced h ?_
    split
    · rwa [State.rwWrite_bur]
    · rwa [State.rwWrite_bur]
    · exact State.ite_balanced (by rwa [State.sliceWrite_bur]) hMasked
    · exact State.ite_balanced (by rwa [State.tbCfg_bur]) (State.ite_balanced (by rwa [State.tbCfg_bur]) hMasked)
    · exact State.ite_balanced (by rwa [State.ringCfg_bur]) hMasked
    · exact State.afterWrite_balanced hMasked k o

theorem plainOut_balanced (req a : Nat) (v : Word) : OutBalanced (plainOut req a v s) := by
  unfold plainOut
  rw [outBalanced_next]
  refine State.hostWrite_balanced h _ _ _ fun t ht => ?_
  split
  · exact State.ite_balanced (State.plainWrite_balanced ht ..) ht
  · exact ht

theorem routeHead_balanced (req p o : Nat) (v : Word) : OutBalanced (routeHead req p o v s) := by
  have hk := Keeps.refl allButBur s
  unfold routeHead
  split_ifs
  · exact execPageSrst_balanced h ..
  · exact (execEvPendClear_keeps (by rfl) hk ..).balanced h
  · exact (execEvEnWrite_keeps (by rfl) hk ..).balanced h
  · exact (execEvTestWrite_keeps (by rfl) hk ..).balanced h
  · exact plainOut_balanced h ..

theorem routeTask_balanced (req : Nat) (v : Word) : OutBalanced (routeTask req v s) := by
  have hk := Keeps.refl allButBur s
  unfold routeTask
  split
  · exact (execTaskArm_keeps (by rfl) hk).balanced h
  · exact (execTaskDisarm_keeps (by rfl) hk).balanced h
  · exact (execTaskAdd_keeps (by rfl) hk ..).balanced h
  · exact execTaskAbort_balanced h
  · exact (execTaskClear_keeps (by rfl) hk).balanced h
  · rw [outBalanced_next]
    exact State.hostWrite_balanced h _ _ _ fun t ht => by rwa [State.cmdFail_bur]

theorem routeGlb_balanced (req o a : Nat) (v : Word) : OutBalanced (routeGlb req o a v s) := by
  unfold routeGlb
  split_ifs
  · exact execModeReqAbort_balanced h _
  · exact execModeReq_balanced h _
  · exact (execAutoCfgWrite_keeps (by rfl) (.refl allButBur s) v).balanced h
  · exact execResetCtrlField_balanced h _
  · exact plainOut_balanced h ..

theorem routeHlk_balanced (req o a : Nat) (v : Word) : OutBalanced (routeHlk req o a v s) := by
  have hk := Keeps.refl allButBur s
  unfold routeHlk
  split_ifs
  · split
    · exact (execFlashRead_keeps (by rfl) hk ..).balanced h
    · exact (execFlashProgram_keeps (by rfl) hk ..).balanced h
    · exact (execFlashErase_keeps (by rfl) hk ..).balanced h
    · rw [outBalanced_next]
      exact State.hostWrite_balanced h _ _ _ fun t ht => by rwa [State.flashGo_bur]
  · exact execDmaCtrlAbort_balanced h _
  · exact execDmaCtrlStart_balanced h _
  · exact plainOut_balanced h ..
  · exact plainOut_balanced h ..

theorem routeDsk_balanced (req i o a : Nat) (v : Word) : OutBalanced (routeDsk req i o a v s) := by
  have hk := Keeps.refl allButBur s
  unfold routeDsk
  split_ifs
  · exact (execPecAbort_keeps (by rfl) hk ..).balanced h
  · exact (execPecStart_keeps (by rfl) hk ..).balanced h
  · exact (execChnDskConfigWrite_keeps (by rfl) hk ..).balanced h
  · exact plainOut_balanced h ..

theorem routeSeq_balanced (req q o a : Nat) (v : Word) : OutBalanced (routeSeq req q o a v s) := by
  unfold routeSeq
  split_ifs
  · exact execBurstCtrlAbort_balanced h ..
  · exact execBurstCtrlStart_balanced h ..
  · exact execBurstCtrlStop_balanced h ..
  · exact plainOut_balanced h ..
  · exact (execJmpReqWrite_keeps (by rfl) (.refl allButBur s) ..).balanced h
  · exact plainOut_balanced h ..

theorem routeTdc_balanced (req half o a : Nat) (v : Word) : OutBalanced (routeTdc req half o a v s) := by
  unfold routeTdc
  extract_lets e
  split_ifs
  · exact execTdcAbort_balanced h ..
  · exact execTdcStop_balanced h ..
  · exact execTdcStart_balanced h ..
  · exact plainOut_balanced h ..
  · exact plainOut_balanced h ..

theorem routeTtb_balanced (req page o a : Nat) (v : Word) : OutBalanced (routeTtb req page o a v s) := by
  have hk := Keeps.refl allButBur s
  unfold routeTtb
  split_ifs
  · exact (execTaskImageWrite_keeps (by rfl) hk ..).balanced h
  · exact routeTask_balanced h ..
  · exact plainOut_balanced h ..
  · exact (execSqPush_keeps (by rfl) hk ..).balanced h
  · exact plainOut_balanced h ..
  · exact (execDlInsert_keeps (by rfl) hk ..).balanced h
  · exact (execDlCancel_keeps (by rfl) hk ..).balanced h
  · exact (execDlCancelAll_keeps (by rfl) hk ..).balanced h
  · exact plainOut_balanced h ..

theorem execChkLoadInit_balanced (n : Nat) (v : Word) : OutBalanced (execChkLoadInit n v s) := chkCtrlOp_balanced h ..

theorem execChkCheck_balanced (n : Nat) (v : Word) : OutBalanced (execChkCheck n v s) := chkCtrlOp_balanced h ..

theorem execChkStart_balanced (n : Nat) (v : Word) : OutBalanced (execChkStart n v s) := chkCtrlOp_balanced h ..

theorem execChkAbort_balanced (n : Nat) (v : Word) : OutBalanced (execChkAbort n v s) := chkCtrlOp_balanced h ..

theorem routeChk_balanced (req n o a : Nat) (v : Word) : OutBalanced (routeChk req n o a v s) := by
  have hk := Keeps.refl allButBur s
  unfold routeChk
  split_ifs
  · exact execChkAbort_balanced h ..
  · exact execChkLoadInit_balanced h ..
  · exact execChkCheck_balanced h ..
  · exact execChkStart_balanced h ..
  · exact plainOut_balanced h ..
  · exact (execChkFeedB_keeps (by rfl) hk ..).balanced h
  · exact (execChkFeedH_keeps (by rfl) hk ..).balanced h
  · exact (execChkFeedW_keeps (by rfl) hk ..).balanced h
  · exact (execChkRegWrite_keeps (by rfl) hk ..).balanced h
  · exact plainOut_balanced h ..

theorem routeLane_balanced (req n o a : Nat) (v : Word) : OutBalanced (routeLane req n o a v s) := by
  have hk := Keeps.refl allButBur s
  unfold routeLane
  split_ifs
  · exact (execLaneDisableWrite_keeps (by rfl) hk ..).balanced h
  · exact (execLaneRetrainWrite_keeps (by rfl) hk ..).balanced h
  · rw [outBalanced_next]
    exact State.hostWrite_balanced h _ _ _ fun t ht => by rwa [State.laneCtrl_bur]
  · exact (execDiagAbort_keeps (by rfl) hk ..).balanced h
  · exact (execDiagStart_keeps (by rfl) hk ..).balanced h
  · exact plainOut_balanced h ..

theorem routeRng_balanced (req o a : Nat) (v : Word) : OutBalanced (routeRng req o a v s) := by
  have hk := Keeps.refl allButBur s
  unfold routeRng
  split_ifs
  · exact (execRollCtrlStart_keeps (by rfl) hk ..).balanced h
  · exact (execWakeSendWrite_keeps (by rfl) hk ..).balanced h
  · exact (execDtxGo_keeps (by rfl) hk ..).balanced h
  · exact (execTsqPop_keeps (by rfl) hk ..).balanced h
  · exact (execBellRingWrite_keeps (by rfl) hk ..).balanced h
  · exact (execBellArm_keeps (by rfl) hk ..).balanced h
  · exact (execBellDisarm_keeps (by rfl) hk ..).balanced h
  · exact plainOut_balanced h ..

theorem routeWord_balanced (req : Nat) (k : PageKind) (i o a : Nat) (v : Word) : OutBalanced (routeWord req k i o a v s) := by
  have hk := Keeps.refl allButBur s
  have hPlain := plainOut_balanced h req a v
  cases k with
  | glb0 => exact routeGlb_balanced h ..
  | hlk => exact routeHlk_balanced h ..
  | chn | dsk => exact routeDsk_balanced h ..
  | seq0 => exact routeSeq_balanced h ..
  | seq2 => exact outBalanced_ite ((execSeqPage2Write_keeps (by rfl) hk ..).balanced h) hPlain
  | dec0 => exact outBalanced_ite ((execDecFlushWrite_keeps (by rfl) hk ..).balanced h) hPlain
  | tim0 =>
    exact outBalanced_ite ((execRefSelWrite_keeps (by rfl) hk ..).balanced h)
      (outBalanced_ite ((execFcConfigWrite_keeps (by rfl) hk ..).balanced h) hPlain)
  | timE => exact routeTdc_balanced h ..
  | cel => exact outBalanced_ite ((execRegCfgWrite_keeps (by rfl) hk ..).balanced h) hPlain
  | ttb0 | ttb1 | ttbD => exact routeTtb_balanced h ..
  | flw0 =>
    exact outBalanced_ite (execFlowStepAbort_balanced h) (outBalanced_ite (execFlowStepStart_balanced h) hPlain)
  | cor0 => exact outBalanced_ite ((execGpeOutModeWrite_keeps (by rfl) hk ..).balanced h) hPlain
  | cor1 => exact outBalanced_ite ((execSelectorWrite_keeps (by rfl) hk ..).balanced h) hPlain
  | chk => exact routeChk_balanced h ..
  | vin0 => exact outBalanced_ite (execItemAbort_balanced h) (outBalanced_ite (execItemStart_balanced h) hPlain)
  | vin1 => exact outBalanced_ite ((execSlotFlagsWrite_keeps (by rfl) hk ..).balanced h) hPlain
  | lanL => exact routeLane_balanced h ..
  | rng => exact routeRng_balanced h ..
  | gal0 =>
    exact outBalanced_ite (bothOut_balanced h _ _ ((execTraceArm_keeps (by rfl) hk).balanced h) fun t ht =>
      (execTraceStop_keeps (by rfl) (.refl allButBur t)).balanced ht) hPlain
  | gal1 =>
    exact outBalanced_ite ((execCntCfgWrite_keeps (by rfl) hk ..).balanced h)
      (outBalanced_ite (bothOut_balanced h _ _ ((execCounterSnap_keeps (by rfl) hk).balanced h) fun t ht =>
        (execCounterClearAll_keeps (by rfl) (.refl allButBur t)).balanced ht) hPlain)
  | pwr => exact outBalanced_ite (execPruneForceWrite_balanced h v) (outBalanced_ite ((execRsPop_keeps (by rfl) hk ..).balanced h) hPlain)
  | glb1 | sat0 | fsh | sat1 | sig | seq1 | seq3 | decS | cmp0 | cmpS | bur0 | bur1 | flwS | lan0 | lan1 | tkp => exact hPlain

theorem routeOut_balanced (req a : Nat) (v : Word) : OutBalanced (routeOut req a v s) := by
  have hk := Keeps.refl allButBur s
  unfold routeOut
  split
  · rwa [outBalanced_next]
  · refine outBalanced_ite (routeHead_balanced h ..) ?_
    split
    · exact outBalanced_ite ((execTimeRegCommit_keeps (by rfl) hk ..).balanced h)
        ((execTimeRegStageWrite_keeps (by rfl) hk ..).balanced h)
    · split
      · exact outBalanced_ite ((execReg64LowWrite_keeps (by rfl) hk ..).balanced h) (execReg64HighWrite_balanced h ..)
      · split
        · exact (execRingReadPointerWrite_keeps (by rfl) hk ..).balanced h
        · exact routeWord_balanced h ..

theorem State.routeWrite_balanced (req a : Nat) (v : Word) : (s.routeWrite req a v).bur.Balanced := by
  have hRouted {t : State} (ht : t.bur.Balanced) : (outState t (routeOut req a v t)).bur.Balanced :=
    outState_balanced ht (routeOut_balanced ht req a v)
  unfold State.routeWrite
  extract_lets d _ t r
  have ht : t.bur.Balanced := by rwa [State.setHost_bur]
  have hr : r.bur.Balanced := hRouted ht
  exact State.ite_balanced (hRouted h) (by rwa [State.setHost_bur])

theorem execRegisterWrite_balanced (req addr : Nat) (v : Word) (enables : Nat) :
    OutBalanced (execRegisterWrite req addr v enables s) := by
  unfold execRegisterWrite
  rw [outBalanced_next]
  refine State.ite_balanced h (State.ite_balanced (State.ite_balanced h ?_) (State.routeWrite_balanced h ..))
  rwa [State.accessErr_bur]

theorem State.applyHeld_balanced (a : HeldAccess) : (s.applyHeld a).bur.Balanced := by
  unfold State.applyHeld
  refine State.ite_balanced ?_ (State.ite_balanced (State.routeWrite_balanced h ..) ?_)
  · rwa [State.bar2_bur]
  · rwa [State.hostReadWord_bur]

theorem execRecessExitDone_balanced : OutBalanced (execRecessExitDone s) := by
  unfold execRecessExitDone
  rw [outBalanced_next]
  refine State.ite_balanced (State.foldl_balanced (fun _ a hs => State.applyHeld_balanced hs a) _ ?_) h
  rwa [State.setCtl_bur, State.recessExit_bur]

/-! ### The Satchel (R398 to R407) -/

theorem execSatchelRegwr_balanced (isBar2 : Bool) (addr : Nat) (data : List Byte) :
    OutBalanced (execSatchelRegwr isBar2 addr data s) := by
  unfold execSatchelRegwr
  rw [outBalanced_next]
  extract_lets s1
  have h1 : s1.bur.Balanced := State.routeWrite_balanced (by rwa [State.satSend_bur]) ..
  clear_value s1
  split_ifs
  · rwa [State.bar2_bur, State.satSend_bur]
  · exact h
  · exact State.routeWrite_balanced h1 ..
  · exact h1
  · exact h
  · exact h

theorem execDmaDescriptorReadDone_balanced (c : Nat) : OutBalanced (execDmaDescriptorReadDone c s) := by
  unfold execDmaDescriptorReadDone
  rw [outBalanced_next]
  extract_lets a
  refine State.ite_balanced h ?_
  split
  · exact h
  · next t e =>
    have ht : t.bur.Balanced := by rwa [State.portRun_bur e]
    extract_lets _ x t1
    have h1 : t1.bur.Balanced := by rwa [State.satSend_bur, State.satSend_bur]
    exact State.ite_balanced (State.dmaEnd_balanced h1 ..) (by rwa [State.setDma_bur])

theorem execDmaDescriptorComplete_balanced (c : Nat) : OutBalanced (execDmaDescriptorComplete c s) := by
  unfold execDmaDescriptorComplete
  extract_lets x b done
  rw [outBalanced_next]
  refine State.ite_balanced h ?_
  split
  · exact h
  · next t e =>
    have ht : t.bur.Balanced := by rwa [State.portRun_bur e]
    extract_lets t1 t2 t3
    have h1 : t1.bur.Balanced := by rwa [State.hostMemWrite_bur, State.satSend_bur]
    have h2 : t2.bur.Balanced := by rwa [State.inc64_bur, State.incWrap_bur]
    have h3 : t3.bur.Balanced := State.ite_balanced (by rwa [State.occur_bur]) h2
    clear_value t3
    exact State.ite_balanced (State.dmaEnd_balanced h3 ..) (by rwa [State.setDma_bur, State.setReg64_bur])

theorem execSatchelDmaData_balanced (c n : Nat) : OutBalanced (execSatchelDmaData c n s) := by
  unfold execSatchelDmaData
  extract_lets x a msg cross
  rw [outBalanced_next]
  refine State.ite_balanced h (State.ite_balanced (State.ite_balanced h ?_) (State.ite_balanced h ?_))
  · split
    · exact h
    · next t e =>
      have ht : t.bur.Balanced := by rwa [State.portRun_bur e]
      have hCross (k : Nat) : (cross t k).bur.Balanced := by
        rwa [State.setDma_bur, State.setHost_bur, State.dmaShare_bur, State.satSend_bur]
      split
      · exact State.dmaEnd_balanced (State.ite_balanced ht (hCross _)) ..
      · exact hCross n
  · split
    · exact h
    · next t e =>
      have ht : t.bur.Balanced := by rwa [State.portRun_bur e]
      rwa [State.setDma_bur, State.hostMemWrite_bur, State.dmaShare_bur, State.satSend_bur]

theorem State.flowArrive_balanced (m : FlowMsg) : (s.flowArrive m).bur.Balanced := by
  unfold State.flowArrive
  split
  · refine State.ite_balanced ?_ ?_
    · rwa [State.setSat_bur]
    · rwa [State.dmaSet_bur]
  · exact State.ite_balanced (State.endRun_balanced h ..) h
  · rwa [State.setCtl_bur]
  · exact State.heat_balanced (by rwa [State.takeReadings_bur])
  · rwa [State.resyncRec_bur]

theorem execSatchelFlow_balanced (toHost : Bool) : OutBalanced (execSatchelFlow toHost s) := by
  unfold execSatchelFlow
  rw [outBalanced_next]
  refine State.ite_balanced h (State.ite_balanced ?_ ?_)
  · split
    · exact h
    · exact State.flowArrive_balanced (by rwa [State.setSat_bur, State.flowSend_bur]) _
  · split
    · exact h
    · exact State.flowArrive_balanced (by rwa [State.setSat_bur, State.flowSend_bur]) _

theorem State.chainsDown_balanced : s.chainsDown.bur.Balanced := by
  unfold State.chainsDown
  rw [State.setSat_bur]
  exact State.foldl_balanced
    (fun _ c hs => State.ite_balanced (State.dmaEnd_balanced (State.withdraw_balanced hs 4 c) c 7) hs) _ h

theorem execSatchelLinkDown_balanced : OutBalanced (execSatchelLinkDown s) := by
  unfold execSatchelLinkDown
  rw [outBalanced_next]
  extract_lets _ s1 s2 s3
  have h1 : s1.bur.Balanced := by rwa [State.setSat_bur]
  clear_value s1
  have h2 : s2.bur.Balanced := State.chainsDown_balanced (by rwa [State.loseWrites_bur, State.flushReads_bur])
  clear_value s2
  have h3 : s3.bur.Balanced := by rwa [State.occur_bur, State.incSat_bur]
  clear_value s3
  split_ifs
  · exact h
  · rwa [State.hostDetention_bur]
  · exact h3
  · exact State.detain_balanced s 2
  · rwa [State.hostDetention_bur]
  · exact h

theorem State.gapRecords_balanced : s.gapRecords.bur.Balanced := by
  unfold State.gapRecords
  extract_lets recs recs' _ s1 _ s2 n s3 _ s4
  have h1 : s1.bur.Balanced := h
  clear_value s1
  have h2 : s2.bur.Balanced := by rwa [State.setSat_bur]
  clear_value s2
  have h3 : s3.bur.Balanced := by rwa [State.resync_bur]
  clear_value s3
  have h4 : s4.bur.Balanced := by rwa [State.setSat_bur]
  clear_value s4
  exact State.ite_balanced (State.ite_balanced h4 (State.dmaTasksFail_balanced h4)) (by rwa [State.setSat_bur])

theorem execSatchelLinkUp_balanced : OutBalanced (execSatchelLinkUp s) := by
  unfold execSatchelLinkUp
  rw [outBalanced_next]
  extract_lets ms _ s1 s2 s3 _ s4 n _ s5 _ s6
  have h1 : s1.bur.Balanced := State.hostStale_balanced (by rwa [State.setSat_bur]) false
  clear_value s1
  have h2 : s2.bur.Balanced := by rwa [State.setReg_bur, State.setReg_bur]
  clear_value s2
  have h3 : s3.bur.Balanced := State.gapRecords_balanced (by rwa [State.resend_bur])
  clear_value s3
  have h5 : s5.bur.Balanced := by rwa [State.setSat_bur, State.inc64_bur, State.inc64_bur, State.setSat_bur]
  clear_value s5
  have h6 : s6.bur.Balanced := State.ite_balanced (by rwa [State.fieldState_bur, State.setF_bur, State.setCtl_bur]) h5
  clear_value s6
  exact State.ite_balanced (by rwa [State.occur_bur, State.occur_bur]) h

end Account
end Sys2Proof.Machine
end

section
/-! SUPPORT. Every command keeps the Bursar's account balanced: those that reach it by the rules above, the others as they leave it
alone. -/

namespace Sys2Proof.Machine

theorem exec_balanced {s : State} (hs : s.bur.Balanced) (c : Instr) : OutBalanced (exec c s) := by
  have hk := Keeps.refl allButBur s
  cases c with
  | timeRegWord0Read req addr => exact (execTimeRegWord0Read_keeps (by rfl) hk ..).balanced hs
  | timeRegStageWrite req addr v => exact (execTimeRegStageWrite_keeps (by rfl) hk ..).balanced hs
  | timeRegCommit req addr v => exact (execTimeRegCommit_keeps (by rfl) hk ..).balanced hs
  | reg64LowRead req addr => exact (execReg64LowRead_keeps (by rfl) hk ..).balanced hs
  | reg64LowWrite req addr v => exact (execReg64LowWrite_keeps (by rfl) hk ..).balanced hs
  | reg64HighWrite req addr v => exact execReg64HighWrite_balanced hs ..
  | registerWrite req addr v enables => exact execRegisterWrite_balanced hs ..
  | rcRead req addr => exact (execRcRead_keeps (by rfl) hk ..).balanced hs
  | evPendClear req page v => exact (execEvPendClear_keeps (by rfl) hk ..).balanced hs
  | evEnWrite req page v => exact (execEvEnWrite_keeps (by rfl) hk ..).balanced hs
  | evTestWrite req page v => exact (execEvTestWrite_keeps (by rfl) hk ..).balanced hs
  | pageSrst req page v => exact execPageSrst_balanced hs ..
  | pageSrstDone page => exact (execPageSrstDone_keeps (by rfl) hk ..).balanced hs
  | msixUnmask vector => exact (execMsixUnmask_keeps (by rfl) hk ..).balanced hs
  | stormWindowBoundary => exact (execStormWindowBoundary_keeps (by rfl) hk).balanced hs
  | bursarInterval => exact execBursarInterval_balanced hs
  | thermalTargetStep => exact execThermalTargetStep_balanced hs
  | sensorSample readings coreMv core10mA fieldP => exact execSensorSample_balanced hs ..
  | timetableTick => exact (execTimetableTick_keeps (by rfl) hk).balanced hs
  | alwaysOnTick senseMv rails => exact execAlwaysOnTick_balanced hs ..
  | modeReq target => exact execModeReq_balanced hs ..
  | modeReqAbort target => exact execModeReqAbort_balanced hs ..
  | modeQuiescence => exact (execModeQuiescence_keeps (by rfl) hk).balanced hs
  | recessEntryDone => exact (execRecessEntryDone_keeps (by rfl) hk).balanced hs
  | recessWakeDue tb => exact (execRecessWakeDue_keeps (by rfl) hk ..).balanced hs
  | recessPllLocked => exact (execRecessPllLocked_keeps (by rfl) hk).balanced hs
  | recessExitDone => exact execRecessExitDone_balanced hs
  | hostAccessInRecess req addr write val => exact (execHostAccessInRecess_keeps (by rfl) hk ..).balanced hs
  | autoCfgWrite val => exact (execAutoCfgWrite_keeps (by rfl) hk ..).balanced hs
  | fieldSatchelLoss => exact execFieldSatchelLoss_balanced hs
  | resetCtrlPart key bankA bankB => exact execResetCtrlPart_balanced hs ..
  | resetCtrlField key => exact execResetCtrlField_balanced hs ..
  | resetCtrlBankSwitch key bankA bankB => exact execResetCtrlBankSwitch_balanced hs ..
  | powerGoodFall field => exact execPowerGoodFall_balanced hs ..
  | powerGoodRise field => exact (execPowerGoodRise_keeps (by rfl) hk ..).balanced hs
  | resetNAssert field => exact execResetNAssert_balanced hs ..
  | fieldResetRelease => exact (execFieldResetRelease_keeps (by rfl) hk).balanced hs
  | supplyLoss field => exact execSupplyLoss_balanced hs ..
  | hostResetRelease bankA bankB => exact execHostResetRelease_balanced hs ..
  | fieldPllLocked => exact (execFieldPllLocked_keeps (by rfl) hk).balanced hs
  | fmiReceived accepted => exact execFmiReceived_balanced hs ..
  | memTrainingDone c geom registered result ms repaired spd trfc fenced => exact (execMemTrainingDone_keeps (by rfl) hk ..).balanced hs
  | bootComplete ms meas => exact execBootComplete_balanced hs ..
  | chnDskConfigWrite req a v => exact (execChnDskConfigWrite_keeps (by rfl) hk ..).balanced hs
  | stagedConfigApply p => exact (execStagedConfigApply_keeps (by rfl) hk ..).balanced hs
  | peClusterPowerUpDone d => exact (execPeClusterPowerUpDone_keeps (by rfl) hk ..).balanced hs
  | pecStart b v => exact (execPecStart_keeps (by rfl) hk ..).balanced hs
  | pecAbort b v => exact (execPecAbort_keeps (by rfl) hk ..).balanced hs
  | pecTransferEnd b rx => exact (execPecTransferEnd_keeps (by rfl) hk ..).balanced hs
  | timesetCommit req q t v => exact (execTimesetCommit_keeps (by rfl) hk ..).balanced hs
  | seqPage2Write req a v => exact (execSeqPage2Write_keeps (by rfl) hk ..).balanced hs
  | stagedSeqConfigApply q => exact (execStagedSeqConfigApply_keeps (by rfl) hk ..).balanced hs
  | edgeSlotCommit req n k v => exact (execEdgeSlotCommit_keeps (by rfl) hk ..).balanced hs
  | burstCtrlStart q v => exact execBurstCtrlStart_balanced hs ..
  | burstCtrlStop q v => exact execBurstCtrlStop_balanced hs ..
  | burstCtrlAbort q v => exact execBurstCtrlAbort_balanced hs ..
  | jmpReqWrite q v => exact (execJmpReqWrite_keeps (by rfl) hk ..).balanced hs
  | burstAdmissionComplete q => exact (execBurstAdmissionComplete_keeps (by rfl) hk ..).balanced hs
  | burstSReached q => exact (execBurstSReached_keeps (by rfl) hk ..).balanced hs
  | segmentStart q => exact (execSegmentStart_keeps (by rfl) hk ..).balanced hs
  | commitPoint q => exact (execCommitPoint_keeps (by rfl) hk ..).balanced hs
  | descriptorArrival q idx => exact (execDescriptorArrival_keeps (by rfl) hk ..).balanced hs
  | matchResultReady q => exact (execMatchResultReady_keeps (by rfl) hk ..).balanced hs
  | granuleJudge q => exact execGranuleJudge_balanced hs ..
  | parkPoint q => exact (execParkPoint_keeps (by rfl) hk ..).balanced hs
  | parkComplete q m => exact execParkComplete_balanced hs ..
  | refillBlockArrival d ecc => exact (execRefillBlockArrival_keeps (by rfl) hk ..).balanced hs
  | stagerBlockCopy q => exact (execStagerBlockCopy_keeps (by rfl) hk ..).balanced hs
  | decFlushWrite v => exact (execDecFlushWrite_keeps (by rfl) hk ..).balanced hs
  | verdictsFormed q waves => exact (execVerdictsFormed_keeps (by rfl) hk ..).balanced hs
  | failLogRecordWritten => exact (execFailLogRecordWritten_keeps (by rfl) hk).balanced hs
  | ringReadPointerWrite req addr v => exact (execRingReadPointerWrite_keeps (by rfl) hk ..).balanced hs
  | ringReconfigApply ring => exact (execRingReconfigApply_keeps (by rfl) hk ..).balanced hs
  | captureBlockWritten d => exact (execCaptureBlockWritten_keeps (by rfl) hk ..).balanced hs
  | ecapTransition idx et prev code => exact (execEcapTransition_keeps (by rfl) hk ..).balanced hs
  | ecapRecordWritten idx => exact (execEcapRecordWritten_keeps (by rfl) hk ..).balanced hs
  | cmpSrstApply h => exact (execCmpSrstApply_keeps (by rfl) hk ..).balanced hs
  | sigSrstApply d => exact (execSigSrstApply_keeps (by rfl) hk ..).balanced hs
  | chkFeedB n v => exact (execChkFeedB_keeps (by rfl) hk ..).balanced hs
  | chkFeedH n v => exact (execChkFeedH_keeps (by rfl) hk ..).balanced hs
  | chkFeedW n v => exact (execChkFeedW_keeps (by rfl) hk ..).balanced hs
  | chkLoadInit n v => exact execChkLoadInit_balanced hs ..
  | chkCheck n v => exact execChkCheck_balanced hs ..
  | chkStart n v => exact execChkStart_balanced hs ..
  | chkAbort n v => exact execChkAbort_balanced hs ..
  | chkRunCommit n m => exact execChkRunCommit_balanced hs ..
  | chkRegWrite req addr v => exact (execChkRegWrite_keeps (by rfl) hk ..).balanced hs
  | tdcInputEdge src et rising => exact (execTdcInputEdge_keeps (by rfl) hk ..).balanced hs
  | tdcStart e v => exact execTdcStart_balanced hs ..
  | tdcStop e v => exact execTdcStop_balanced hs ..
  | tdcAbort e v => exact execTdcAbort_balanced hs ..
  | tdcRecordWritten e m => exact execTdcRecordWritten_balanced hs ..
  | tdcTimeout e => exact (execTdcTimeout_keeps (by rfl) hk ..).balanced hs
  | tdcGateEnd e => exact (execTdcGateEnd_keeps (by rfl) hk ..).balanced hs
  | coarseCountWrap => exact (execCoarseCountWrap_keeps (by rfl) hk).balanced hs
  | ocxoWarmReached => exact (execOcxoWarmReached_keeps (by rfl) hk).balanced hs
  | ocxoRegulationLost => exact (execOcxoRegulationLost_keeps (by rfl) hk).balanced hs
  | refSelWrite v => exact (execRefSelWrite_keeps (by rfl) hk ..).balanced hs
  | refSwitchApply => exact (execRefSwitchApply_keeps (by rfl) hk).balanced hs
  | refSwitchDone => exact (execRefSwitchDone_keeps (by rfl) hk).balanced hs
  | refInDetected => exact (execRefInDetected_keeps (by rfl) hk).balanced hs
  | refInLoss => exact (execRefInLoss_keeps (by rfl) hk).balanced hs
  | fcGateEnd idx => exact (execFcGateEnd_keeps (by rfl) hk ..).balanced hs
  | fcConfigWrite req addr v => exact (execFcConfigWrite_keeps (by rfl) hk ..).balanced hs
  | portRequest port addr write off data => exact (execPortRequest_keeps (by rfl) hk ..).balanced hs
  | memoryIssue c u ecc => exact (execMemoryIssue_keeps (by rfl) hk ..).balanced hs
  | memoryReadComplete c u ecc => exact (execMemoryReadComplete_keeps (by rfl) hk ..).balanced hs
  | trefiTick c u r => exact (execTrefiTick_keeps (by rfl) hk ..).balanced hs
  | refreshComplete c u r bank => exact (execRefreshComplete_keeps (by rfl) hk ..).balanced hs
  | realtimeHoldEnd c u r => exact (execRealtimeHoldEnd_keeps (by rfl) hk ..).balanced hs
  | dramTempPoll c t0 t1 => exact (execDramTempPoll_keeps (by rfl) hk ..).balanced hs
  | selfRefreshEntry c => exact (execSelfRefreshEntry_keeps (by rfl) hk ..).balanced hs
  | selfRefreshExit c => exact (execSelfRefreshExit_keeps (by rfl) hk ..).balanced hs
  | mapMaskCommit req near k v => exact (execMapMaskCommit_keeps (by rfl) hk ..).balanced hs
  | mapApply near => exact (execMapApply_keeps (by rfl) hk ..).balanced hs
  | scrubAccess c a ecc => exact (execScrubAccess_keeps (by rfl) hk ..).balanced hs
  | regCfgWrite near p v => exact (execRegCfgWrite_keeps (by rfl) hk ..).balanced hs
  | taskImageWrite w v => exact (execTaskImageWrite_keeps (by rfl) hk ..).balanced hs
  | taskSubmit q => exact (execTaskSubmit_keeps (by rfl) hk ..).balanced hs
  | taskArm => exact (execTaskArm_keeps (by rfl) hk).balanced hs
  | taskDisarm => exact (execTaskDisarm_keeps (by rfl) hk).balanced hs
  | taskAdd n amount => exact (execTaskAdd_keeps (by rfl) hk ..).balanced hs
  | taskAbort => exact execTaskAbort_balanced hs
  | taskClear => exact (execTaskClear_keeps (by rfl) hk).balanced hs
  | sqPush q => exact (execSqPush_keeps (by rfl) hk ..).balanced hs
  | arrivalApply => exact execArrivalApply_balanced hs
  | taskDispatch => exact execTaskDispatch_balanced hs
  | taskComplete idx m => exact execTaskComplete_balanced hs ..
  | taskAgeStep idx => exact (execTaskAgeStep_keeps (by rfl) hk ..).balanced hs
  | dlInsert b => exact (execDlInsert_keeps (by rfl) hk ..).balanced hs
  | dlCancel b => exact (execDlCancel_keeps (by rfl) hk ..).balanced hs
  | dlCancelAll b => exact (execDlCancelAll_keeps (by rfl) hk ..).balanced hs
  | delayEntryFire b => exact (execDelayEntryFire_keeps (by rfl) hk ..).balanced hs
  | bursarAdmit => exact execBursarAdmit_balanced hs
  | flowStepStart => exact execFlowStepStart_balanced hs
  | flowStepAbort => exact execFlowStepAbort_balanced hs
  | flowOpenCommit => exact execFlowOpenCommit_balanced hs
  | flowLimitCommit => exact execFlowLimitCommit_balanced hs
  | flowBinCommit => exact execFlowBinCommit_balanced hs
  | flowPost => exact (execFlowPost_keeps (by rfl) hk).balanced hs
  | handlerSiteStep => exact (execHandlerSiteStep_keeps (by rfl) hk).balanced hs
  | dlogRecordWritten => exact (execDlogRecordWritten_keeps (by rfl) hk).balanced hs
  | corridorPulseArrive => exact (execCorridorPulseArrive_keeps (by rfl) hk).balanced hs
  | consumerPulse idx => exact (execConsumerPulse_keeps (by rfl) hk ..).balanced hs
  | selectorWrite idx v => exact (execSelectorWrite_keeps (by rfl) hk ..).balanced hs
  | gpeInEdge k rising => exact (execGpeInEdge_keeps (by rfl) hk ..).balanced hs
  | gpeInRecessEdge k rising => exact (execGpeInRecessEdge_keeps (by rfl) hk ..).balanced hs
  | gpeOutPulseEnd k => exact (execGpeOutPulseEnd_keeps (by rfl) hk ..).balanced hs
  | gpeOutModeWrite v => exact (execGpeOutModeWrite_keeps (by rfl) hk ..).balanced hs
  | itemStart => exact execItemStart_balanced hs
  | itemAbort => exact execItemAbort_balanced hs
  | itemCommit meas trips m => exact execItemCommit_balanced hs ..
  | calEngineRelease e => exact (execCalEngineRelease_keeps (by rfl) hk ..).balanced hs
  | deskAdoptVintage d => exact (execDeskAdoptVintage_keeps (by rfl) hk ..).balanced hs
  | slotFlagsWrite idx v => exact (execSlotFlagsWrite_keeps (by rfl) hk ..).balanced hs
  | vintageFlashSave idx => exact (execVintageFlashSave_keeps (by rfl) hk ..).balanced hs
  | laneDisableWrite req n v => exact (execLaneDisableWrite_keeps (by rfl) hk ..).balanced hs
  | laneRetrainWrite req n v => exact (execLaneRetrainWrite_keeps (by rfl) hk ..).balanced hs
  | laneDetect n => exact (execLaneDetect_keeps (by rfl) hk ..).balanced hs
  | tsReceived n set => exact (execTsReceived_keeps (by rfl) hk ..).balanced hs
  | trainTrialEnd n w h => exact (execTrainTrialEnd_keeps (by rfl) hk ..).balanced hs
  | laneSymbolLock n => exact (execLaneSymbolLock_keeps (by rfl) hk ..).balanced hs
  | lockTimeout n => exact (execLockTimeout_keeps (by rfl) hk ..).balanced hs
  | capsReceived n set skew => exact (execCapsReceived_keeps (by rfl) hk ..).balanced hs
  | laneLockLoss n violations => exact (execLaneLockLoss_keeps (by rfl) hk ..).balanced hs
  | laneFrameReceived l sof lanes eof => exact (execLaneFrameReceived_keeps (by rfl) hk ..).balanced hs
  | ackReceived l set => exact (execAckReceived_keeps (by rfl) hk ..).balanced hs
  | replayTimeout l => exact (execReplayTimeout_keeps (by rfl) hk ..).balanced hs
  | stripeReceived l set => exact (execStripeReceived_keeps (by rfl) hk ..).balanced hs
  | auditReceived l set => exact (execAuditReceived_keeps (by rfl) hk ..).balanced hs
  | auditTimeout l => exact (execAuditTimeout_keeps (by rfl) hk ..).balanced hs
  | restripeComplete l skews => exact (execRestripeComplete_keeps (by rfl) hk ..).balanced hs
  | widenTimerExpire l => exact (execWidenTimerExpire_keeps (by rfl) hk ..).balanced hs
  | fillerDue l => exact (execFillerDue_keeps (by rfl) hk ..).balanced hs
  | idleSetReceived n => exact (execIdleSetReceived_keeps (by rfl) hk ..).balanced hs
  | fillerReceived n => exact (execFillerReceived_keeps (by rfl) hk ..).balanced hs
  | laneFreeze n => exact (execLaneFreeze_keeps (by rfl) hk ..).balanced hs
  | sleepLockTimeout n => exact (execSleepLockTimeout_keeps (by rfl) hk ..).balanced hs
  | diagStart n v => exact (execDiagStart_keeps (by rfl) hk ..).balanced hs
  | diagAbort n v => exact (execDiagAbort_keeps (by rfl) hk ..).balanced hs
  | diagComplete n errors => exact (execDiagComplete_keeps (by rfl) hk ..).balanced hs
  | ringFrameForward p body => exact (execRingFrameForward_keeps (by rfl) hk ..).balanced hs
  | creditFrameReceived p crEvent crMgmt crData => exact (execCreditFrameReceived_keeps (by rfl) hk ..).balanced hs
  | creditReturnTimer p => exact (execCreditReturnTimer_keeps (by rfl) hk ..).balanced hs
  | exportFrameReceived p c bcast => exact (execExportFrameReceived_keeps (by rfl) hk ..).balanced hs
  | exportSend c => exact (execExportSend_keeps (by rfl) hk ..).balanced hs
  | rollCtrlStart req v => exact (execRollCtrlStart_keeps (by rfl) hk ..).balanced hs
  | rollReqReceived p => exact (execRollReqReceived_keeps (by rfl) hk ..).balanced hs
  | rollcallReceived p k => exact (execRollcallReceived_keeps (by rfl) hk ..).balanced hs
  | helloReceived p uid => exact (execHelloReceived_keeps (by rfl) hk ..).balanced hs
  | rosterReceived p payload => exact (execRosterReceived_keeps (by rfl) hk ..).balanced hs
  | rosterCollectEnd => exact (execRosterCollectEnd_keeps (by rfl) hk).balanced hs
  | formedReceived p payload spanE spanW => exact (execFormedReceived_keeps (by rfl) hk ..).balanced hs
  | splitTimeout => exact (execSplitTimeout_keeps (by rfl) hk).balanced hs
  | stateFrameReceived p src recess => exact (execStateFrameReceived_keeps (by rfl) hk ..).balanced hs
  | wakeFrameReceived p => exact (execWakeFrameReceived_keeps (by rfl) hk ..).balanced hs
  | wakeSendWrite req v => exact (execWakeSendWrite_keeps (by rfl) hk ..).balanced hs
  | dataFrameReceived p words data et => exact (execDataFrameReceived_keeps (by rfl) hk ..).balanced hs
  | drxSlotWrite => exact (execDrxSlotWrite_keeps (by rfl) hk).balanced hs
  | dtxGo req v => exact (execDtxGo_keeps (by rfl) hk ..).balanced hs
  | dtxSofSent et => exact (execDtxSofSent_keeps (by rfl) hk ..).balanced hs
  | tsqPop req v => exact (execTsqPop_keeps (by rfl) hk ..).balanced hs
  | bypassClose => exact (execBypassClose_keeps (by rfl) hk).balanced hs
  | bypassOpen => exact (execBypassOpen_keeps (by rfl) hk).balanced hs
  | delayExchangeTimer p => exact (execDelayExchangeTimer_keeps (by rfl) hk ..).balanced hs
  | dreqReceived p set b c => exact (execDreqReceived_keeps (by rfl) hk ..).balanced hs
  | drespReceived p set d => exact (execDrespReceived_keeps (by rfl) hk ..).balanced hs
  | syncSendTimer => exact (execSyncSendTimer_keeps (by rfl) hk).balanced hs
  | syncReceived p set r x => exact (execSyncReceived_keeps (by rfl) hk ..).balanced hs
  | syncLossTimeout => exact (execSyncLossTimeout_keeps (by rfl) hk).balanced hs
  | ppsEdge rising et => exact (execPpsEdge_keeps (by rfl) hk ..).balanced hs
  | ppsLossTimeout => exact (execPpsLossTimeout_keeps (by rfl) hk).balanced hs
  | timeBaseSet req b v => exact (execTimeBaseSet_keeps (by rfl) hk ..).balanced hs
  | convBeatWrite req v => exact (execConvBeatWrite_keeps (by rfl) hk ..).balanced hs
  | bellArm req b v => exact (execBellArm_keeps (by rfl) hk ..).balanced hs
  | bellDisarm req b v => exact (execBellDisarm_keeps (by rfl) hk ..).balanced hs
  | bellRingWrite req v => exact (execBellRingWrite_keeps (by rfl) hk ..).balanced hs
  | bellRepeatSend => exact (execBellRepeatSend_keeps (by rfl) hk).balanced hs
  | bellSetReceived p set => exact (execBellSetReceived_keeps (by rfl) hk ..).balanced hs
  | bellDecision b => exact (execBellDecision_keeps (by rfl) hk ..).balanced hs
  | bellInEdge et => exact (execBellInEdge_keeps (by rfl) hk ..).balanced hs
  | pcieFlr => exact execPcieFlr_balanced hs
  | pcieD3hotEntry => exact execPcieD3hotEntry_balanced hs
  | pcieLinkChange up l1 width speed => exact (execPcieLinkChange_keeps (by rfl) hk ..).balanced hs
  | bar2Access off write data len => exact (execBar2Access_keeps (by rfl) hk ..).balanced hs
  | dmaCtrlStart c => exact execDmaCtrlStart_balanced hs ..
  | dmaCtrlAbort c => exact execDmaCtrlAbort_balanced hs ..
  | dmaDescriptorReadDone c => exact execDmaDescriptorReadDone_balanced hs ..
  | dmaDescriptorComplete c => exact execDmaDescriptorComplete_balanced hs ..
  | dmaHostCompletionError c => exact execDmaHostCompletionError_balanced hs ..
  | satchelRegrdRequest tag isBar2 addr len => exact (execSatchelRegrdRequest_keeps (by rfl) hk ..).balanced hs
  | satchelRegrdCompletion tag => exact (execSatchelRegrdCompletion_keeps (by rfl) hk ..).balanced hs
  | satchelRegwr isBar2 addr data => exact execSatchelRegwr_balanced hs ..
  | satchelDmaData c n => exact execSatchelDmaData_balanced hs ..
  | satchelEventToHost => exact (execSatchelEventToHost_keeps (by rfl) hk).balanced hs
  | satchelEventToField => exact (execSatchelEventToField_keeps (by rfl) hk).balanced hs
  | satchelTimeSend => exact (execSatchelTimeSend_keeps (by rfl) hk).balanced hs
  | satchelTime => exact (execSatchelTime_keeps (by rfl) hk).balanced hs
  | satchelFlow toHost => exact execSatchelFlow_balanced hs ..
  | satchelLinkDown => exact execSatchelLinkDown_balanced hs
  | satchelLinkUp => exact execSatchelLinkUp_balanced hs
  | flashRead len => exact (execFlashRead_keeps (by rfl) hk ..).balanced hs
  | flashProgram len => exact (execFlashProgram_keeps (by rfl) hk ..).balanced hs
  | flashErase len => exact (execFlashErase_keeps (by rfl) hk ..).balanced hs
  | flashOpEnd good => exact (execFlashOpEnd_keeps (by rfl) hk ..).balanced hs
  | pruneClimbTimer => exact execPruneClimbTimer_balanced hs
  | pruneForceWrite v => exact execPruneForceWrite_balanced hs ..
  | fieldHoldRelease => exact (execFieldHoldRelease_keeps (by rfl) hk).balanced hs
  | clockRestartDone => exact (execClockRestartDone_keeps (by rfl) hk).balanced hs
  | rsPop v => exact (execRsPop_keeps (by rfl) hk ..).balanced hs
  | traceArm => exact (execTraceArm_keeps (by rfl) hk).balanced hs
  | traceStop => exact (execTraceStop_keeps (by rfl) hk).balanced hs
  | spillRecordWritten => exact (execSpillRecordWritten_keeps (by rfl) hk).balanced hs
  | counterSnap => exact (execCounterSnap_keeps (by rfl) hk).balanced hs
  | counterClearAll => exact (execCounterClearAll_keeps (by rfl) hk).balanced hs
  | cntCfgWrite v => exact (execCntCfgWrite_keeps (by rfl) hk ..).balanced hs
  | tapGaladdr t x => exact (execTapGaladdr_keeps (by rfl) hk ..).balanced hs
  | tapGaldata t => exact (execTapGaldata_keeps (by rfl) hk ..).balanced hs
  | supplyReturn field => exact (execSupplyReturn_keeps (by rfl) hk ..).balanced hs
  | hostSensorReadingSend readings => exact (execHostSensorReadingSend_keeps (by rfl) hk ..).balanced hs
  | rollcallExchangeTimer => exact (execRollcallExchangeTimer_keeps (by rfl) hk).balanced hs
  | bellInstantS b => exact (execBellInstantS_keeps (by rfl) hk ..).balanced hs
  | pcieD0Entry => exact (execPcieD0Entry_keeps (by rfl) hk).balanced hs
  | hostReadCompletion c bytes => exact (execHostReadCompletion_keeps (by rfl) hk ..).balanced hs
  | pcieCompletionTimeout c => exact execPcieCompletionTimeout_balanced hs ..

/-- Of a step: an idle cycle leaves the account alone, and the front command sees the account that the queue had beside it. -/
theorem step_balanced {s : State} (h : s.bur.Balanced) : OutBalanced (step s) := by
  unfold step
  split
  · rwa [outBalanced_next, State.pass_bur]
  · exact exec_balanced (by exact h) _

end Sys2Proof.Machine
end

section
/-! The obligation of 13_bursar.md about the Bursar's account. -/

open Sys2Proof Sys2Proof.Machine

/-- Settles O7: no command breaks the account, as each operation that the account passes through keeps it balanced or fills it anew. -/
theorem stepKeepsTheAccount : Obligations.StepKeepsTheAccount :=
  fun _ t h hStep => (step_balanced h).balanced t hStep

end
